-- ==== Sys2Proof/Word.lean ====
section
/-! DEFINITION. Word.lean: the word types of the model. Register contents, packet bytes and element values
are bit vectors, because the spec treats them as bits; counts, times and indices are natural numbers. -/

namespace Sys2Proof

/-- One byte of a packet, a record or an image. -/
abbrev Byte := BitVec 8

/-- A string of bytes, first byte first; multi-byte fields are most significant byte first (R5). -/
abbrev Bytes := List Byte

/-- A register of the window (R94). -/
abbrev W32 := BitVec 32

/-- A 64-bit value: a Furun address, an element value, a timestamp. -/
abbrev W64 := BitVec 64

end Sys2Proof
end

