-- ==== Sys2Proof/Syntax.lean ====
section
/-! DEFINITION. Syntax.lean: the commands of the module, one constructor of `Instr` for each row of
opcode_table.json, and the types of their operands. A command is what reaches the module from outside (a
register access, a Baton request on a session, a frame, a pin, a supply) or a step of one of its own
engines, with what that step takes from outside the model's state as its operands. -/

namespace Sys2Proof

/-- The width of a register access (R94). -/
inductive Width where
  | w8 | w16 | w32
  deriving DecidableEq, Repr

/-- A Baton request as it reaches the interpreter on a session: its header but for the opcode, which the
command's name gives (Table 3.1), and the bytes from byte 12 onward. `plen` is the parameter length that
the header states; it need not be the length of `params` (R65). -/
structure Req where
  sess    : Fin 64
  version : Byte
  flags   : Byte
  tenant  : Byte
  cls     : Byte
  item    : W32
  plen    : BitVec 16
  params  : Bytes
  deriving DecidableEq, Repr

/-- What the supply monitor and the adapting hardware report at a ledger tick: mean input power of the
last tick in mW, usable bank energy in mJ (R122), and the value that hardware adaptation chooses for CLK_APP (units of 25 MHz)
before the ledger bounds it (R126). -/
structure Monitor where
  draw : W32
  bank : W32
  app  : BitVec 6
  deriving DecidableEq, Repr

/-- One funded item of steps 2 to 5 of Table 5.6. -/
inductive HoldRef where
  | lap (task : Fin 8)
  | link (owner : Fin 16) (item : W32)
  | dma (ch : Fin 32)
  | baton (owner : BitVec 256) (item : W32)
  deriving DecidableEq, Repr

/-- Why a part of a set failed verification at boot (Table 6.2). -/
inductive PartFail where
  | digest | signature | rollback
  deriving DecidableEq, Repr

/-- What the boot ROM and the boot stage find when they verify sets A and B: for each set the first
part that fails and why, or nothing when every part passes (R142). -/
structure BootCheck where
  failA : Option (Fin 8 × PartFail)
  failB : Option (Fin 8 × PartFail)
  deriving DecidableEq, Repr

/-- An event as a block forms it (Table 20.1, without the fields the recorder adds). -/
structure EvSpec where
  code   : BitVec 16
  sev    : Fin 8
  tenant : Byte
  obj    : BitVec 13
  elem   : Byte
  data   : Bytes
  deriving DecidableEq, Repr

/-- The bus errors of R526, as ERRCAUSE codes them. -/
inductive DmaCause where
  | noTarget | ecc | gated
  deriving DecidableEq, Repr

/-- A CAN frame: its flags as drill field 1 has them, identifier, data length code and data. -/
structure CanFrame where
  ide  : Bool
  fdf  : Bool
  brs  : Bool
  rtr  : Bool
  esi  : Bool
  id   : BitVec 29
  dlc  : BitVec 4
  data : Bytes
  deriving DecidableEq, Repr

/-- What the converter of a UIO input gives at one conversion: the voltage in V (mode 1) or current in mA (mode 2) as FP32,
the sensor's resistance in mΩ (modes 3 and 4), and the voltage at S in mV, signed (mode 5). -/
structure UioSample where
  val  : W32
  mohm : W32
  mv   : W32
  deriving DecidableEq, Repr

/-- The function blocks whose behaviour R162 to R164 give. -/
inductive FbKind where
  | rTrig | fTrig | ton | tof | tp | ctu | ctd | ctud
  deriving DecidableEq, Repr

/-- One evaluation of a function block instance by the program: its inputs CLK, IN, CU or CD in `a`, CD of CTUD in `b`,
R in `r`, LD in `ld`; PT in ns or PV in `p`; and the limits of the count's type. -/
structure FbCall where
  kind : FbKind
  inst : Nat
  a    : Bool
  b    : Bool
  r    : Bool
  ld   : Bool
  p    : Int
  lo   : Int
  hi   : Int
  deriving DecidableEq, Repr

/-- An output variable of the program as it stands at the program's return. -/
structure LapOut where
  obj   : BitVec 13
  elem  : Byte
  value : W64
  deriving DecidableEq, Repr

/-- A variable outside the image as a program leaves it. -/
structure LapVar where
  path  : BitVec 32
  value : Bytes
  deriving DecidableEq, Repr

/-- The active steps of an SFC chart as a program leaves them. -/
structure LapChart where
  path  : BitVec 32
  steps : List (BitVec 16)
  deriving DecidableEq, Repr

/-- What a program leaves beside its outputs: its other variables and its charts. -/
structure LapData where
  vars   : List LapVar
  charts : List LapChart
  deriving DecidableEq, Repr

/-- VPOE in mV and the class assigned. -/
structure PoeIn where
  mv  : BitVec 16
  cls : BitVec 4
  deriving DecidableEq, Repr

/-- How a transmission attempt ends on the bus: without an error, by lost arbitration, or in an error that LEC codes. -/
inductive CanTxResult where
  | ok | lost | error (lec : Fin 8)
  deriving DecidableEq, Repr

/-- A piece of a Furun message as a link delivers it: the peer that the link's certificate binds, the number of the
DTLS record, and the fields and body of Table 16.5 but for the type, which the command's name gives. -/
structure FPiece where
  peer  : W64
  seq   : BitVec 48
  ver   : Byte
  cls   : Byte
  flags : Byte
  len   : BitVec 16
  idx   : BitVec 16
  src   : W64
  dst   : W64
  body  : Bytes
  deriving DecidableEq, Repr

/-- A received Ethernet frame: destination, length in bytes with its check sequence, whether it carries a VLAN tag, a symbol
or check error, whether it is a PAUSE frame, and whether it is marked C0 without being mirror data (R24). -/
structure EthFrame where
  dst   : BitVec 48
  len   : BitVec 16
  vlan  : Bool
  bad   : Bool
  pause : Bool
  c0    : Bool
  deriving DecidableEq, Repr

/-- A certificate as a handshake presents it: the SM3 hash of its public key, its kind (0 station, 1 module), tag and Furun address,
the serial numbers of its chain, whether its chain is sound within 4 certificates, the trust slot whose key the chain reaches, the
latest start and the earliest end of the chain's validity periods, and whether its role extension is well formed. -/
structure Cert where
  owner   : BitVec 256
  kind    : Byte
  tag     : Byte
  addr    : W64
  serials : List (BitVec 160)
  sound   : Bool
  trust   : Fin 4
  start   : W64
  stop    : W64
  role    : Bool
  deriving DecidableEq, Repr

/-- One line cycle at the metrology converters (R299, R304): its duration in ns and the frequency in mHz as measured on CLK_MET, and the samples that
fall in it, oldest first, each with the 24-bit codes of the 28 channels. -/
structure LineCycle where
  dur : W32
  mhz : W32
  smp : List (List (BitVec 24))
  deriving DecidableEq, Repr

/-- A received PTP Announce message: domain, grandmaster's priority1, clockClass, clockAccuracy and variance, priority2 and identity,
announce interval in ms, currentUtcOffset and whether it is valid, and the leap flags (R450, R452, R461). -/
structure Announce where
  dom    : Byte
  prio1  : Byte
  cls    : Byte
  qual   : BitVec 24
  prio2  : Byte
  ident  : W64
  ivMs   : BitVec 16
  utc    : BitVec 16
  utcOk  : Bool
  leap59 : Bool
  leap61 : Bool
  deriving DecidableEq, Repr

/-- The commands, in the order of opcode_table.json. -/
inductive Instr where
  /-- REGISTER_WRITE (R8). A write to a register field without behaviour of its own acts by its access code, and a write to an unoccupied offset or a reserved field is discarded. -/
  | registerWrite (off : BitVec 24) (val : W32)
  /-- OFF_DOMAIN_ACCESS (R16). A register access to a block whose power domain is off reads 0, discards the write and sets that domain's OFFACC bit. -/
  | offDomainAccess (off : BitVec 24) (write : Bool) (val : W32)
  /-- UNALIGNED_ACCESS (R94). A narrow or unaligned access is discarded or returns 0, sets NARROW or UNALIGNED and records its offset in SYS_BUS_ADDR. -/
  | unalignedAccess (off : BitVec 24) (width : Width) (write : Bool) (val : W32)
  /-- SNAPSHOT_REQUEST (R100). A write of REQ in SNAP_CTL starts a capture of group GRP, or sets ERR for a group the block does not define. -/
  | snapshotRequest (src : Fin 22) (grp : Byte)
  /-- SNAPSHOT_CAPTURE (R99). A capture that has crossed by HS or ISO completes, fills the RS registers, clears BUSY and increments SEQ. -/
  | snapshotCapture (src : Fin 22)
  /-- INT_CLR (R97). A write of 1s to INT_CLR clears those INT_STAT bits, unless a condition sets a bit again in the same cycle. -/
  | intClr (src : Fin 22) (mask : W32)
  /-- SYS_SAFE_INT_CLR (R98). A write to SYS_SAFE_INT_CLR clears the mirror's latched conditions in SYS only. -/
  | sysSafeIntClr (mask : W32)
  /-- SYS_INT_ROUTE_WRITE (R103). A write to SYS_INT_ROUTEn is discarded unless its CORE field is one-hot. -/
  | sysIntRouteWrite (n : Fin 22) (val : W32)
  /-- SYS_SAFE_SNAP_CTL (R360). A write of REQ in SYS_SAFE_SNAP_CTL requests a capture of SAFE snapshot group 0. -/
  | sysSafeSnapCtl (grp : Byte)
  /-- SYS_WDT_KICK (R559). A write of 0xA5 to SYS_WDT_KICK restarts the watchdog count, and any other value is discarded. -/
  | sysWdtKick (val : W32)
  /-- DOMAIN_GATE (R15). A budget or mode gate of a power domain acts once every crossing queue into and out of the domain has drained and no DMA descriptor addresses it. -/
  | domainGate (d : Fin 11)
  /-- CLOCK_LOST (R21). A clock stops or leaves tolerance while a domain that uses it is on, sets LOST and makes the blocks of that domain react. -/
  | clockLost (k : Fin 10)
  /-- HANDSHAKE (R478). A DTLS 1.3 handshake is checked against the session limit and the certificate checks and either opens a session or is refused. -/
  | handshake (sess : Fin 64) (port : Fin 5) (c : Option Cert) (suite : Bool) (link : Option W64)
  /-- RUNT_RECORD (R63). A DTLS record that fails authentication, or is shorter than 12 bytes, is discarded without a reply. -/
  | runtRecord (sess : Fin 64) (authOk : Bool)
  /-- SESSION_IDLE_TIMEOUT (R62). A session in which no packet has arrived for 300 s closes and raises SESSION_CLOSED. -/
  | sessionIdleTimeout (sess : Fin 64)
  /-- DTLS_ERROR (R62). A DTLS error closes the session, and its items run on to their final state. -/
  | dtlsError (sess : Fin 64)
  /-- HELLO (R69). HELLO negotiates the Baton version of the session and returns VERSION, VERSION_RANGE and LIMITS, or BAD_VERSION. -/
  | hello (r : Req)
  /-- PING (R74). PING replies OK with no results. -/
  | ping (r : Req)
  /-- ITEM_STATUS (R74). ITEM_STATUS returns the state of one of the identity's own items, or UNKNOWN_ITEM. -/
  | itemStatus (r : Req)
  /-- CANCEL (R87). CANCEL ends a target item ABORTED_CANCEL before its point of no return, or reports the state in which it runs on. -/
  | cancel (r : Req)
  /-- CLOSE (R74). CLOSE replies OK and then closes the session. -/
  | close (r : Req)
  /-- CACHE_ENTRY_EXPIRY (R84). A completion cache entry leaves the cache 10 minutes after it was entered. -/
  | cacheEntryExpiry
  /-- OBJ_READ (R75). OBJ_READ returns an element, a whole object from one snapshot, or the list of visible objects, paged with a cursor. -/
  | objRead (r : Req)
  /-- OBJ_READ_NEXT (R75). OBJ_READ_NEXT returns the next page of a held cursor's snapshot, or STALE if the cursor was released. -/
  | objReadNext (r : Req)
  /-- OBJ_WRITE (R77). OBJ_WRITE applies 1 to 32 element values at one instant, or none of them. -/
  | objWrite (r : Req)
  /-- OBJ_CREATE (R78). OBJ_CREATE creates an object of a given type, tag and Count at an unused number. -/
  | objCreate (r : Req)
  /-- OBJ_DELETE (R78). OBJ_DELETE removes an object that is not bound, assigned or module-owned. -/
  | objDelete (r : Req)
  /-- OBJ_SET_TAG (R56). OBJ_SET_TAG retags an object at one instant, raises RETAG and withdraws old replicas. -/
  | objSetTag (r : Req)
  /-- OBJ_LOCK (R79). OBJ_LOCK gives the identity sole Baton write access to an object for LOCK_TIME, or refreshes its lock. -/
  | objLock (r : Req)
  /-- OBJ_UNLOCK (R79). OBJ_UNLOCK ends a lock for its holder or the operator. -/
  | objUnlock (r : Req)
  /-- UNIT_CLEAR_SUSPECT (R58). UNIT_CLEAR_SUSPECT clears a unit's SUSPECT mark by operator command. -/
  | unitClearSuspect (r : Req)
  /-- LOCK_EXPIRY (R79). An object lock ends when LOCK_TIME has run out. -/
  | lockExpiry (obj : BitVec 13)
  /-- CURSOR_RELEASE (R76). A cursor's snapshot is released 10 s after the last page it served. -/
  | cursorRelease (sess : Fin 64) (cursor : W32)
  /-- BATON (R441). A Furun BATON message carries a relayed item or its reply, and the holder runs steps 8 to 14 again or the relay returns the status. -/
  | baton (p : FPiece)
  /-- ELEMENT_STALE (R40). An element becomes STALE no later than 1 ms after its age passes its freshness limit. -/
  | elementStale (obj : BitVec 13) (elem : Byte)
  /-- DRILL_LOAD (R109). DRILL_LOAD checks a drill image and stores it as drill 64 to 127. -/
  | drillLoad (r : Req)
  /-- DRILL_READ (R111). DRILL_READ returns the image of a library drill. -/
  | drillRead (r : Req)
  /-- DRILL_DELETE (R112). DRILL_DELETE removes an unbound drill 64 to 127. -/
  | drillDelete (r : Req)
  /-- DRILL_BIND (R112). DRILL_BIND binds or unbinds a drill to a host instance from its next run and clears the counts. -/
  | drillBind (r : Req)
  /-- DRILL_STAT (R112). DRILL_STAT returns the drill bound to a host instance and its counts. -/
  | drillStat (r : Req)
  /-- DRILL_RUN (R108). A queued trigger starts a drill run on a free instance, which runs to END or its last instruction and gives a verdict that the host applies. -/
  | drillRun (h : Fin 38)
  /-- MODE_SET (R120). MODE_SET requests a mode change that takes effect at the next ledger tick. -/
  | modeSet (r : Req)
  /-- MODE_GET (R117). MODE_GET returns the current mode, base mode and cause. -/
  | modeGet (r : Req)
  /-- LIMIT_SET (R139). LIMIT_SET applies policy limits for CLK_APP, lanes and ports at one ledger tick. -/
  | limitSet (r : Req)
  /-- LEDGER_CFG (R139). LEDGER_CFG applies budget, EXT, HOLD_MIN and mode configuration at one ledger tick. -/
  | ledgerCfg (r : Req)
  /-- LEDGER_READ (R132). LEDGER_READ returns the allocation, draw, bank, input energy and values in effect. -/
  | ledgerRead (r : Req)
  /-- LEDGER_TICK (R123). Every 1 ms the ledger recomputes allocation and headroom, applies pending mode changes, sheds and sets quantities and lapses reservations. -/
  | ledgerTick (m : Monitor)
  /-- SOURCE_CHANGE (R121). A supply source rises or falls while the other source stays present, and the allocation is found anew. -/
  | sourceChange (vin poe : BitVec 16) (cls : BitVec 4)
  /-- SUPPLY_LOSS (R133). No source is present, the module enters HOLDUP, funds the steps and runs step 1 of Table 5.6. -/
  | supplyLoss (bank : W32)
  /-- HOLDUP_ITEM_BOUND (R134). A HOLDUP item that overruns its time bound ends FAILED at the bound. -/
  | holdupItemBound (ref : HoldRef)
  /-- HOLDUP_FIELD (R134). When every funded item of steps 2 to 5 has ended, step 6 sets outputs to start values, loops to manual and gates the field domains. -/
  | holdupField
  /-- HOLDUP_RETAIN (R166). After step 6, step 7 writes the retain image. -/
  | holdupRetain
  /-- HOLDUP_ITEM_TABLE (R148). After the retain write, step 8 writes the item table and flushes the mirrors. -/
  | holdupItemTable
  /-- HOLDUP_CLOSE (R134). After step 8, step 9 records HOLDUP_CLOSE, gates the remaining domains and waits. -/
  | holdupClose (bank : W32)
  /-- SUPPLY_RETURN (R137). A source rises above its start threshold during HOLDUP and the stability timing starts. -/
  | supplyReturn (vin : BitVec 16) (poe : PoeIn)
  /-- HOLDUP_RETURN (R137). With step 9 reached and the supply stable for 50 ms, the module performs a warm restart of KIND 2. -/
  | holdupReturn
  /-- BANK_EXHAUSTED (R137). The bank reaches converter drop-out, and the next start is a power-on reset. -/
  | bankExhausted
  /-- POWER_UP (R140). VIN or PoE rises above its start threshold from cold, PD_AON is released and PD_RTC returns to the rail. -/
  | powerUp (vin poe : BitVec 16) (cls : BitVec 4)
  /-- BOOT (R142). The boot ROM reads fuses and the commit record, verifies and selects the set to boot, or enters recovery. -/
  | boot (v : BootCheck)
  /-- FIRMWARE_START (R148). At step 7 the firmware arms the watchdog, decides the restart type, builds the residue record and fills the completion cache. -/
  | firmwareStart (trustOk : Bool)
  /-- START_DONE (R150). At step 12 start-up ends, the residue record is published and AUTO_RUN acts. -/
  | startDone
  /-- RESTART (R146). RESTART runs steps 2 to 8 of Table 5.6 with supply present and then resets as CMD_WARM or CMD_COLD. -/
  | restart (r : Req)
  /-- COMMANDED_RESET (R146). When the restart sequence has ended, the reset of KIND 3 or 4 follows. -/
  | commandedReset
  /-- WATCHDOG (R559). No kick within WDT_TO resets the module as KIND 5. -/
  | watchdog (pc : W64)
  /-- FATAL (R145). An uncorrectable DRAM ECC error or an uncontained firmware fault resets the module as KIND 6. -/
  | fatal
  /-- RESIDUE_READ (R150). RESIDUE_READ returns a residue record filtered by tenant. -/
  | residueRead (r : Req)
  /-- START_INFO (R142). START_INFO returns SYS_RST_STAT and SYS_START_CNT. -/
  | startInfo (r : Req)
  /-- TASK_CFG (R153). TASK_CFG configures a stopped or halted lap task. -/
  | taskCfg (r : Req)
  /-- TASK_START (R185). TASK_START starts the named stopped or halted tasks. -/
  | taskStart (r : Req)
  /-- TASK_STOP (R169). TASK_STOP stops the named tasks at the end of their current lap. -/
  | taskStop (r : Req)
  /-- PROG_LOAD (R185). PROG_LOAD writes one piece of a program image into the standby slot. -/
  | progLoad (r : Req)
  /-- PROG_PREPARE (R174). PROG_PREPARE verifies the standby image and decides whether a switch can be made. -/
  | progPrepare (r : Req)
  /-- PROG_SWITCH (R176). PROG_SWITCH admits a switch to the prepared program, which waits for a quiet instant. -/
  | progSwitch (r : Req)
  /-- PROG_REVERT (R180). PROG_REVERT makes the standby program active through its reverse map. -/
  | progRevert (r : Req)
  /-- SWITCH_POINT (R176). At a quiet instant the runtime holds every release and copies the data across under Table 7.4. -/
  | switchPoint
  /-- SWITCH_COPY_DONE (R178). The copy completes, the program commit record is written and the held releases go with the new code. -/
  | switchCopyDone
  /-- SWITCH_TIMEOUT (R177). No quiet instant within SW_WAIT ends the switch FAILED with RESULT 8. -/
  | switchTimeout
  /-- FORCE_SET (R170). FORCE_SET places or replaces a force on an image point. -/
  | forceSet (r : Req)
  /-- FORCE_CLEAR (R172). FORCE_CLEAR removes one force or all forces. -/
  | forceClear (r : Req)
  /-- FORCE_LIST (R170). FORCE_LIST returns the forces in place, paged. -/
  | forceList (r : Req)
  /-- LAP_STATUS (R183). LAP_STATUS returns one task's state and latest lap from one capture. -/
  | lapStatus (r : Req)
  /-- LAP_RELEASE (R155). A task release latches its input points and times, or is skipped when the previous lap is still running. -/
  | lapRelease (n : Fin 8)
  /-- LAP_EXECUTION (R155). The core gives a ready task the processor after its input copy, and the program runs. -/
  | lapExecution (n : Fin 8) (calls : List FbCall)
  /-- PROGRAM_RETURN (R155). The program returns, and with COMMIT 0 the outputs commit and housekeeping runs. -/
  | programReturn (n : Fin 8) (outs : List LapOut) (data : LapData)
  /-- LAP_COMMIT (R156). At COMMIT_OFS the task's outputs are written into the image and forwarded, and housekeeping runs. -/
  | lapCommit (n : Fin 8)
  /-- WSTAT (R182). The runtime function WSTAT returns the write status of an output point. -/
  | wstat (n : Fin 8) (obj : BitVec 13) (elem : Byte)
  /-- LOOP_ASSIGN (R223). LOOP_ASSIGN assigns a LOOP object of Count 10 to an OFF loop. -/
  | loopAssign (r : Req)
  /-- LOOP_CFG (R223). LOOP_CFG sets the timing and non-bank configuration of an OFF loop. -/
  | loopCfg (r : Req)
  /-- LOOP_BIND (R186). LOOP_BIND replaces the bindings of the named roles of an OFF loop. -/
  | loopBind (r : Req)
  /-- LOOP_BANK_WRITE (R216). LOOP_BANK_WRITE writes the whole inactive bank at one instant. -/
  | loopBankWrite (r : Req)
  /-- LOOP_BANK_READ (R223). LOOP_BANK_READ returns a coefficient bank. -/
  | loopBankRead (r : Req)
  /-- LOOP_SWAP (R219). LOOP_SWAP checks every named bank and requests their swaps, and ends when all have swapped. -/
  | loopSwap (r : Req)
  /-- LOOP_READ (R222). LOOP_READ returns one snapshot capture of a loop. -/
  | loopRead (r : Req)
  /-- LOOP_BIND_READ (R223). LOOP_BIND_READ returns the bindings of a loop. -/
  | loopBindRead (r : Req)
  /-- LOOP_CTL_SWAP (R217). A write of SWAP in LOOP_CTLn requests a bank swap at the loop's next sample. -/
  | loopCtlSwap (n : Fin 256)
  /-- LOOP_SWGO (R218). A write of GO in LOOP_SWGO sets SWAP on every selected loop in one cycle. -/
  | loopSwgo
  /-- LOOP_SAMPLE_DUE (R209). A loop sample falls due by its timer and waits for the engine, and a sample still waiting is skipped. -/
  | loopSampleDue (n : Fin 256)
  /-- LOOP_EVALUATION (R198). The engine evaluates one due loop sample through its nine stages and writes u to its destinations. -/
  | loopEvaluation
  /-- RELAY_SAMPLE_TRIGGER (R207). The relay sample trigger crosses XC3 behind its data and makes relay-triggered loops due. -/
  | relaySampleTrigger
  /-- LOOP_TRIG_LOST (R210). One PERIOD after the last triggered sample, relay-triggered loops change over to the internal timer. -/
  | loopTrigLost
  /-- PROFILE_PLAN (R230). The planning unit completes a move plan for a queued loop, and the move starts at the loop's next sample. -/
  | profilePlan
  /-- PLAN_START (R268). At a multiple of PERIOD each module builds and factorises its problem and the anchor fixes the participants and sends ROUND 1. -/
  | planStart
  /-- PACER_ROUND (R270). A ROUND message makes a participant add the coupling term and run its local iterations. -/
  | pacerRound (p : FPiece)
  /-- LOCAL_SOLVE_DONE (R270). The local iterations end at tolerance, ITER_RND or the cap, and the participant replies with B. -/
  | localSolveDone
  /-- PACER_REPLY (R269). A REPLY reaches the anchor, and a completed round updates u and sends targets or closes the plan. -/
  | pacerReply (p : FPiece)
  /-- REPLY_TIMEOUT (R275). A reply missing at RND1_TO or RND_TO freezes its participant. -/
  | replyTimeout (grp : W64)
  /-- ROUND_DEADLINE (R272). At DL_PCT the anchor closes the plan on the last completed round and sends FINAL. -/
  | roundDeadline (grp : W64)
  /-- PACER_FINAL (R287). Receipt of FINAL sets the plan quality and dispatches the step 0 values. -/
  | pacerFinal (p : FPiece)
  /-- PACER_PROBE (R280). A PROBE makes each module solve its price probes and reply. -/
  | pacerProbe (p : FPiece)
  /-- PROBE_DEADLINE (R281). At PR_PCT the anchor forms the flex envelope, sends it to the parent and updates OBJ 3. -/
  | probeDeadline (grp : W64)
  /-- PACER_ENVELOPE (R283). A parent anchor checks a received envelope and accepts or drops it. -/
  | pacerEnvelope (p : FPiece)
  /-- FALLBACK (R279). A module that has no FINAL at the period end applies FALLBACK and dispatches. -/
  | fallback
  /-- DISPATCH_STALE (R288). N steps after step 0 of the latest non-FALLBACK plan, dispatched elements become STALE. -/
  | dispatchStale
  /-- PACER_FED_SET (R294). PACER_FED_SET applies the federation configuration whole. -/
  | pacerFedSet (r : Req)
  /-- SERIES_WRITE (R293). SERIES_WRITE writes, replaces or deletes a series. -/
  | seriesWrite (r : Req)
  /-- SERIES_READ (R293). SERIES_READ returns a series and its tag. -/
  | seriesRead (r : Req)
  /-- PLAN_VALUES (R294). PLAN_VALUES returns the planned series of a Read element from region P. -/
  | planValues (r : Req)
  /-- ENVELOPE_READ (R294). ENVELOPE_READ returns the group's flex envelope in pieces. -/
  | envelopeRead (r : Req)
  /-- LINE_CYCLE_END (R305). At each line cycle end the quantities are computed and the energy registers accumulate. -/
  | lineCycleEnd (x : LineCycle)
  /-- MET_COLD_END (R303). After 5·τ or 8 line cycles a channel's quantities leave COLD. -/
  | metColdEnd (n : Fin 28)
  /-- DEMAND_WINDOW_END (R315). At each window boundary DEMAND is set and DEMAND_PK updated unless the window is partial. -/
  | demandWindowEnd
  /-- FLOW_PULSE (R318). A thermal meter flow pulse adds volume and heating or cooling energy. -/
  | flowPulse (t : Fin 4)
  /-- THERMAL_UPDATE (R319). Each second the thermal flow and power are computed and sent towards the loops. -/
  | thermalUpdate
  /-- PULSE_EMIT (R321). A pulse output emits a pulse while its BACKLOG is above 0. -/
  | pulseEmit (p : Fin 8)
  /-- METROLOGY_SAVE (R323). At each multiple of SAVE_S the accumulators are latched and written to one copy in MRAM. -/
  | metrologySave (ok : Bool)
  /-- STOP_MIRROR (R325). Every 10 ms the MET side sends its stop mirror of peak power to PD_AON. -/
  | stopMirror
  /-- MET_LINK_DOWN (R330). After 4 consecutive missing frames the isolation link is down and every MET quantity goes LOST. -/
  | metLinkDown
  /-- MET_LINK_UP (R330). The isolation link returns and raises MET_LINK_UP. -/
  | metLinkUp
  /-- MET_SETUP (R315). MET_SETUP sets the save interval, demand window and nominal frequency. -/
  | metSetup (r : Req)
  /-- MET_CAL (R329). MET_CAL sets the calibration of one channel from the next line cycle boundary. -/
  | metCal (r : Req)
  /-- MET_CIR_CFG (R329). MET_CIR_CFG sets the enabled phases and rated current of a circuit. -/
  | metCirCfg (r : Req)
  /-- MET_ASSIGN (R333). MET_ASSIGN assigns or unassigns an object to a circuit, thermal meter or pulse output. -/
  | metAssign (r : Req)
  /-- MET_THM_CFG (R317). MET_THM_CFG sets a thermal meter. -/
  | metThmCfg (r : Req)
  /-- MET_PO_CFG (R321). MET_PO_CFG configures a pulse output and sets its BASE. -/
  | metPoCfg (r : Req)
  /-- MET_DEMAND_RESET (R316). MET_DEMAND_RESET sets DEMAND_PK of a circuit to 0. -/
  | metDemandReset (r : Req)
  /-- MET_GAP_READ (R328). MET_GAP_READ returns a gap record filtered by tag. -/
  | metGapRead (r : Req)
  /-- MET_CAL_READ (R333). MET_CAL_READ returns the calibration of one channel. -/
  | metCalRead (r : Req)
  /-- SAFETY_START (R340). The safety supply rises and the channel runs its start-up, self-test and block check. -/
  | safetyStart (selfA selfB copyA copyB : Bool)
  /-- SAFETY_INPUT_EDGE (R338). A safety input changes level and its filter time starts. -/
  | safetyInputEdge (input : Fin 17) (a b : Bool)
  /-- FILTER_ELAPSED (R339). A level held for F counts, and the pair and function states follow it. -/
  | filterElapsed (ch : Bool) (input : Fin 16)
  /-- DISCREPANCY (R339). Inputs that differ for longer than DISC put the pair in FAULT and lock-out. -/
  | discrepancy (p : Fin 8)
  /-- TEST_PULSE (R337). A test pulse drops for 250 µs in its window and both channels check the inputs for cross-shorts. -/
  | testPulse (tp : Fin 4) (inA inB : BitVec 16) (tpOk : Bool)
  /-- OSSD_TEST (R347). An OSSD switch is opened for its off-pulse test and the readback is checked. -/
  | ossdTest (o j : Fin 4) (lines : Byte)
  /-- OSSD_OVERCURRENT (R347). An OSSD line low with its switches closed, or above 0.7 A for 1 ms, locks out the pair. -/
  | ossdOvercurrent (o : Fin 4)
  /-- STOP_DELAY_END (R345). Channel A's category 1 delay ends and both channels open their switches. -/
  | stopDelayEnd (f : Fin 8)
  /-- CHANNEL_B_DELAY_END (R345). Channel B's own delay timer ends before A's report and B opens its switches. -/
  | channelBDelayEnd (f : Fin 8) (late : Fin 251)
  /-- CROSS_EXCHANGE (R336). Every 250 µs the channels exchange their states over XC12 and compare them. -/
  | crossExchange (bClk aIvl : BitVec 16)
  /-- CROSS_FRAME_TIMEOUT (R351). No frame from the other channel for 1 ms causes a global lock-out. -/
  | crossFrameTimeout (ch : Bool)
  /-- EDM_TIMEOUT (R349). An EDM pair that does not follow within EDM_T locks out the OSSD pair. -/
  | edmTimeout (o : Fin 4)
  /-- SELF_TEST (R351). The cyclic self-test runs every 60 s, and a failure causes a global lock-out. -/
  | selfTest (ch ok : Bool)
  /-- SAFETY_SUPPLY_FAULT (R351). A safety supply outside its range causes a global lock-out. -/
  | safetySupplyFault (ch gone : Bool)
  /-- LOCKOUT_RECHECK (R353). Every 10 s in lock-out the channels repeat the check that found a global fault. -/
  | lockoutRecheck (ch clkOk selfOk supplyOk : Bool)
  /-- SRST_PULSE (R352). The trailing edge of a valid SRST pulse clears lock-outs whose causes are gone, or moves WAIT_RESET functions to ON. -/
  | srstPulse (msA msB : BitVec 16) (ossd : BitVec 4)
  /-- SKEY_ACTIVE (R355). SKEY becomes active, both channels enter CONFIG, every OSSD goes off and XC13 opens. -/
  | skeyActive (a b : Bool)
  /-- SKEY_RELEASE (R358). SKEY is released, a CONFIRMED block takes effect and the channels resume from step 6. -/
  | skeyRelease (a b : Bool)
  /-- MIRROR_FRAME (R359). A mirror frame from a channel arrives and SYS updates the SAFE registers and SAFETYVIEW objects and raises events. -/
  | mirrorFrame (ch : Bool)
  /-- SAFE_CHANNEL_ABSENT (R21). After 3 missing mirror frames the channel is marked absent. -/
  | safeChannelAbsent (ch : Bool)
  /-- SAFE_STATUS (R362). SAFE_STATUS returns the mirror from one capture of group 0. -/
  | safeStatus (r : Req)
  /-- SAFE_PARAM_WRITE (R355). SAFE_PARAM_WRITE stages a piece of the parameter block in channel A. -/
  | safeParamWrite (r : Req)
  /-- SAFE_PARAM_CHECK (R356). SAFE_PARAM_CHECK has both channels validate the staged block and compute its check value. -/
  | safeParamCheck (r : Req)
  /-- SAFE_PARAM_READ (R356). SAFE_PARAM_READ returns a piece of one channel's echo of the block. -/
  | safeParamRead (r : Req)
  /-- SAFE_CONFIRM (R357). SAFE_CONFIRM compares the entered check value and has both channels store the block. -/
  | safeConfirm (r : Req)
  /-- SAFE_VIEW_CFG (R359). SAFE_VIEW_CFG places a SAFETYVIEW object with its number and tag. -/
  | safeViewCfg (r : Req)
  /-- RELAY_FRAME_START (R366). At each multiple of PERIOD the master sends a HELLO or cyclic frame, or skips the period. -/
  | relayFrameStart (lo hi : Byte)
  /-- RELAY_FRAME (R373). A node processes a frame on its upstream port, substituting its segment and capturing read entries, and applies outputs at frame end. -/
  | relayFrame (port : Fin 2) (bs : Bytes) (bad : Option Nat)
  /-- FRAME_RETURN (R380). A frame returns to the master, which forms APPLIED, ends writes and marks stations lost or regained. -/
  | frameReturn (d : W32) (frames : List Bytes) (bad : Option Nat)
  /-- RELAY_LINK_UP (R364). A relay port locks and the node takes it as upstream on the first valid frame. -/
  | relayLinkUp (port : Fin 2)
  /-- PORT_LOCK_LOST (R383). A port without a valid symbol for 512 ns loses lock, the node loops frames back and the master enters SPLIT. -/
  | portLockLost (port : Fin 2) (lo hi : Byte)
  /-- RING_CLOSE (R385). Once every node has shown LINKS_OK for 100 ms the master closes the ring. -/
  | ringClose
  /-- NOFRAME (R381). A node without a valid frame for LOSS_N periods enters NOFRAME and its points go LOST. -/
  | noframe
  /-- RELAY_HOLD (R382). A station whose last valid frame is HOLD_MS old applies its substitute values. -/
  | relayHold
  /-- RELAY_MAPGO (R377). A write of GO in RELAY_MAPGO commits the staged slot map from the next frame. -/
  | relayMapgo
  /-- RELAY_CFG (R389). RELAY_CFG sets the role, period, payload and timeouts in BLOCKS. -/
  | relayCfg (r : Req)
  /-- RELAY_MAP (R377). RELAY_MAP stages and commits slot map entries. -/
  | relayMap (r : Req)
  /-- RELAY_BIND (R388). RELAY_BIND binds elements to slot entries. -/
  | relayBind (r : Req)
  /-- RELAY_STATION (R388). RELAY_STATION ties a STATION object to a relay address. -/
  | relayStation (r : Req)
  /-- RELAY_STATUS (R389). RELAY_STATUS returns the relay state and counters. -/
  | relayStatus (r : Req)
  /-- CAN_FRAME_RECEIVED (R396). A frame received without error is offered to the channel's drill and stored or rejected. -/
  | canFrameReceived (c : Fin 4) (f : CanFrame)
  /-- CAN_TX_START (R402). Before each frame start the controller picks a due TT object, a drill reply or the FIFO head that fits. -/
  | canTxStart (c : Fin 4)
  /-- CAN_TX_END (R404). A transmission attempt ends valid, ending its item DONE, or in error and is retried or failed. -/
  | canTxEnd (c : Fin 4) (x : CanTxResult)
  /-- CAN_RX_TIMEOUT (R398). An RX object without a frame for TIMEOUT sets RXTO and its points go LOST. -/
  | canRxTimeout (c : Fin 4) (m : Fin 64)
  /-- TT_CELL (R407). At the start of its cell a TT object that holds data sends it. -/
  | ttCell (c : Fin 4)
  /-- CAN_TT_MISS (R407). A cell in which no attempt can still start is missed and its waiting item ends FAILED. -/
  | canTtMiss (c : Fin 4)
  /-- CAN_BUS_OFF (R412). TEC above 255 puts the channel bus-off and ends every pending request FAILED. -/
  | canBusOff (c : Fin 4)
  /-- CAN_RECOVERED (R412). The bus-off recovery sequence ends and the channel returns to error active. -/
  | canRecovered (c : Fin 4)
  /-- CAN_MODE_CHANGE (R410). A requested MODE takes effect at the next bus idle and ends pending requests on INIT or LISTEN. -/
  | canModeChange (c : Fin 4)
  /-- CAN_TXCTL_GO (R401). A write of GO in CAN_TXCTL commits the staged data to the object and requests it. -/
  | canTxctlGo (c : Fin 4)
  /-- CAN_TXCTL_CANCEL (R405). A write of CANCEL in CAN_TXCTL cancels the pending request of the object. -/
  | canTxctlCancel (c : Fin 4)
  /-- CAN_TXCTL_RECOVER (R412). A write of RECOVER in CAN_TXCTL starts bus-off recovery. -/
  | canTxctlRecover (c : Fin 4)
  /-- CAN_CFG (R391). CAN_CFG sets the control, bit timing and schedule of a channel in INIT. -/
  | canCfg (r : Req)
  /-- CAN_OBJ_CFG (R393). CAN_OBJ_CFG configures message objects in INIT. -/
  | canObjCfg (r : Req)
  /-- CAN_TT_CFG (R406). CAN_TT_CFG assigns columns of the schedule matrix. -/
  | canTtCfg (r : Req)
  /-- CAN_MODE (R410). CAN_MODE requests a channel mode and ends when it takes effect. -/
  | canMode (r : Req)
  /-- CAN_SEND (R401). CAN_SEND requests transmission of a TX object with given data. -/
  | canSend (r : Req)
  /-- CAN_CANCEL_OBJ (R405). CAN_CANCEL_OBJ cancels the pending request of an object. -/
  | canCancelObj (r : Req)
  /-- CAN_RECOVER (R412). CAN_RECOVER starts bus-off recovery. -/
  | canRecover (r : Req)
  /-- CAN_BIND (R399). CAN_BIND binds elements to signal fields of objects. -/
  | canBind (r : Req)
  /-- CAN_STATION (R400). CAN_STATION ties a STATION object to a channel and monitored object. -/
  | canStation (r : Req)
  /-- CAN_STATUS (R415). CAN_STATUS returns the channel state and counters. -/
  | canStatus (r : Req)
  /-- CAN_READ (R414). CAN_READ returns an object's primary buffer from one capture. -/
  | canRead (r : Req)
  /-- ETH_LINK (R418). An Ethernet port links up at a common rate, or goes down. -/
  | ethLink (p : Fin 4) (up : Bool) (rates : BitVec 4) (half : Bool) (eee : BitVec 4)
  /-- ETH_FRAME_RECEIVED (R420). A received frame is accepted by the filter and classed, or discarded and counted. -/
  | ethFrameReceived (p : Fin 4) (f : EthFrame)
  /-- LLDP_RECEIVED (R425). An LLDP frame carries the PSE allocation or the partner's Stride TLV. -/
  | lldpReceived (p : Fin 4) (alloc : Option Byte) (stride : Option (BitVec 4))
  /-- LLDP_SEND (R419). Every 30 s the module sends LLDP with the power request and Stride TLV. -/
  | lldpSend
  /-- LYSRIX_TIMEOUT (R425). A partner's Stride TLV absent for 120 s clears LYSRIX. -/
  | lysrixTimeout (p : Fin 4)
  /-- LPI_ENTRY (R424). A port whose egress queues have been empty for 100 µs enters low-power idle. -/
  | lpiEntry (p : Fin 4)
  /-- STRIDE_TRIGGER (R426). Offered load held past its threshold for 1 s or 10 ms makes the port propose a rate step. -/
  | strideTrigger (p : Fin 4) (load : W32) (deep : Bool)
  /-- STRIDE_REQ (R427). A received STRIDE_REQ is answered with ACK or NAK. -/
  | strideReq (p : Fin 4) (rate : BitVec 2) (seq : Byte) (lower : Bool)
  /-- STRIDE_ACK (R427). A received STRIDE_ACK makes the end send STRIDE_MARK as its last frame at the old rate. -/
  | strideAck (p : Fin 4) (seq : Byte)
  /-- STRIDE_NAK (R427). A received STRIDE_NAK leaves the rate unchanged. -/
  | strideNak (p : Fin 4) (seq : Byte)
  /-- STRIDE_MARK (R427). A received STRIDE_MARK lets the PHYs change to the new rate. -/
  | strideMark (p : Fin 4)
  /-- STRIDE_ANSWER_TIMEOUT (R427). No answer within 1 ms leaves the rate and bars a new request for 1 s. -/
  | strideAnswerTimeout (p : Fin 4)
  /-- STRIDE_LOCK (R427). Both PHYs lock at the new rate and transmission resumes. -/
  | strideLock (p : Fin 4)
  /-- ETH_STRIDE_FAIL (R428). No lock within 2 ms of the later MARK drops the link and bars Stride for 60 s. -/
  | ethStrideFail (p : Fin 4)
  /-- TX_DROP_TIMEOUT (R428). A link down for more than 1 s after a failed change discards queued C1 to C3 frames. -/
  | txDropTimeout (p : Fin 4) (n : W32)
  /-- ETH_FLTHI_WRITE (R420). A write to ETH_FLTHIp_e commits the filter entry from the next frame. -/
  | ethFlthiWrite (p : Fin 4) (e : Fin 16) (val : W32)
  /-- ETH_PORT_CFG (R445). ETH_PORT_CFG sets a port's configuration and weights. -/
  | ethPortCfg (r : Req)
  /-- ETH_FILTER_SET (R420). ETH_FILTER_SET writes filter entries 2 to 15. -/
  | ethFilterSet (r : Req)
  /-- ETH_IP_CFG (R417). ETH_IP_CFG sets a port's global IPv6 and IPv4 addresses. -/
  | ethIpCfg (r : Req)
  /-- ETH_NET_CFG (R417). ETH_NET_CFG sets the Baton and Furun UDP ports. -/
  | ethNetCfg (r : Req)
  /-- ETH_STATUS (R443). ETH_STATUS returns a port's status and counters. -/
  | ethStatus (r : Req)
  /-- CONFIG_APPLY (R445). An ETH or FURUN configuration takes effect 10 ms after its reply was sent. -/
  | configApply
  /-- FURUN_HELLO (R431). A Furun HELLO sets the link version and compares HB_MS and member digests. -/
  | furunHello (p : FPiece)
  /-- HEARTBEAT_SEND (R435). Every HB_MS the module sends a HEARTBEAT on each link. -/
  | heartbeatSend
  /-- HEARTBEAT (R435). A received HEARTBEAT renews contact and reports mode, eligibility and epochs. -/
  | heartbeat (p : FPiece)
  /-- CONTACT_LOST (R45). No heartbeat for 3·HB_MS ends contact, and an anchor so lost starts a vote. -/
  | contactLost (unit : W64)
  /-- VOTE (R436). A received VOTE is counted by the candidate it names. -/
  | vote (p : FPiece)
  /-- ANCHOR (R436). A received ANCHOR with a higher epoch is adopted. -/
  | anchor (p : FPiece)
  /-- VOTE_TIMEOUT (R46). A vote not decided within 2 heartbeat intervals is repeated, and after 3 the group has no anchor. -/
  | voteTimeout (grp : W64)
  /-- ISLAND_REVOTE (R46). A group without an anchor holds a new vote every island timeout. -/
  | islandRevote (grp : W64)
  /-- HANDOVER (R437). A received HANDOVER offer, accept or commit moves the anchor role. -/
  | handover (p : FPiece)
  /-- HANDOVER_TIMEOUT (R437). No accept, or no majority on the new epoch, within 2·HB_MS ends the hand-over FAILED. -/
  | handoverTimeout (grp : W64)
  /-- SPLIT_VIEW (R58). Views that disagree for more than 3 heartbeat intervals mark the unit SUSPECT. -/
  | splitView (unit : W64) (case : Fin 5)
  /-- VIEW_AGREED (R58). Views that agree for 3 heartbeat intervals clear the SUSPECT mark. -/
  | viewAgreed (unit : W64)
  /-- ISLAND_ENTRY (R117). No contact with the anchor for ISL_TO puts the module in ISLAND. -/
  | islandEntry
  /-- ISLAND_EXIT (R117). Contact regained for 3 heartbeat intervals with the envelope received returns the base mode. -/
  | islandExit
  /-- REPLICA_SEND (R438). Every REPL_S the holder seals and sends each marked object to its anchor. -/
  | replicaSend
  /-- REPLICA (R439). An anchor stores a received replica, sealed where tagged. -/
  | replica (p : FPiece)
  /-- WITHDRAW (R439). A received WITHDRAW deletes a replica. -/
  | withdraw (p : FPiece)
  /-- MIRROR_PUBLISH (R442). On a mirror change, or every 10 ms, MIRROR is sent to the subscribers. -/
  | mirrorPublish
  /-- MIRROR (R442). A received MIRROR message carries a mirror capture that is not safety-rated. -/
  | mirror (p : FPiece)
  /-- REASM_TIMEOUT (R434). A message whose pieces are not all present within 1 s is discarded. -/
  | reasmTimeout (peer : W64)
  /-- FURUN_CFG (R550). FURUN_CFG sets the module's address, HB_MS and REPL_S. -/
  | furunCfg (r : Req)
  /-- FURUN_GROUP_CFG (R430). FURUN_GROUP_CFG sets a group's configured members. -/
  | furunGroupCfg (r : Req)
  /-- FURUN_ENDPOINT_SET (R430). FURUN_ENDPOINT_SET sets the endpoints of a group's members. -/
  | furunEndpointSet (r : Req)
  /-- FURUN_HANDOVER (R437). FURUN_HANDOVER asks the anchor to move its role to a named member. -/
  | furunHandover (r : Req)
  /-- FURUN_MEMBERS (R445). FURUN_MEMBERS returns the state of a group's members. -/
  | furunMembers (r : Req)
  /-- FURUN_REPL_CFG (R438). FURUN_REPL_CFG marks or unmarks an object for replication. -/
  | furunReplCfg (r : Req)
  /-- FURUN_REPLICA_READ (R440). FURUN_REPLICA_READ reads a replica held by the anchor under its tag. -/
  | furunReplicaRead (r : Req)
  /-- FURUN_PUB_CFG (R442). FURUN_PUB_CFG sets a mirror publication subscriber. -/
  | furunPubCfg (r : Req)
  /-- PTP_SYNC (R451). A PTP Sync message updates the servo, which slews or steps the system time. -/
  | ptpSync (p : Fin 4) (ofs : W64)
  /-- SYNC_HOLDOVER (R450). No Sync for 3 announce intervals while LOCKED enters HOLDOVER. -/
  | syncHoldover
  /-- SERVO_HOLD_END (R452). 2 s after a Stride or link change the port updates the servo again. -/
  | servoHoldEnd (p : Fin 4)
  /-- RTC_SECOND (R458). Each RTC second updates the live registers, fires alarms and applies a pending leap. -/
  | rtcSecond
  /-- RTC_COMMIT (R456). A write of GO in RTC_COMMIT loads the staging set at the next CLK_RTC edge as a clock step. -/
  | rtcCommit (w : Option W32)
  /-- ALARM_COMMIT (R458). A write to RTC_ALMHIa commits the alarm together with its low word. -/
  | alarmCommit (a : Fin 4) (hi : W32)
  /-- VBAK_CHANGEOVER (R448). PD_RTC changes over to VBAK, or back to the rail, at its thresholds. -/
  | vbakChangeover (rail mv : BitVec 16)
  /-- ZONE_CHANGE (R462). A loaded local time change is applied at its instant. -/
  | zoneChange
  /-- SCHEDULE_MINUTE (R463). At each local minute boundary every SCHEDULE object sets OUT. -/
  | scheduleMinute
  /-- RTC_SET (R457). RTC_SET stages and commits a new time. -/
  | rtcSet (r : Req)
  /-- RTC_READ (R455). RTC_READ returns one split capture. -/
  | rtcRead (r : Req)
  /-- RTC_ALARM_SET (R458). RTC_ALARM_SET arms or disarms an alarm. -/
  | rtcAlarmSet (r : Req)
  /-- RTC_LEAP_SET (R461). RTC_LEAP_SET sets or cancels a pending leap second. -/
  | rtcLeapSet (r : Req)
  /-- RTC_ZONE_SET (R462). RTC_ZONE_SET replaces the list of future local time changes. -/
  | rtcZoneSet (r : Req)
  /-- RTC_PTP_CFG (R452). RTC_PTP_CFG sets the PTP role, step threshold and trim. -/
  | rtcPtpCfg (r : Req)
  /-- TAMPER (R485). An armed tamper cause zeroes the vault, latches its cause and ends every session. -/
  | tamper (loop : W32) (tmp1 debug : Bool)
  /-- KEYS_STATUS (R490). KEYS_STATUS returns the key engine state. -/
  | keysStatus (r : Req)
  /-- KEYS_CSR (R476). KEYS_CSR returns the operational public key of a generation. -/
  | keysCsr (r : Req)
  /-- KEYS_CERT_SET (R476). KEYS_CERT_SET installs the operational certificate. -/
  | keysCertSet (r : Req)
  /-- KEYS_TRUST_SET (R477). KEYS_TRUST_SET sets or clears a trust slot. -/
  | keysTrustSet (r : Req)
  /-- KEYS_REVOKE (R479). KEYS_REVOKE replaces a revocation list and closes affected sessions within 1 s. -/
  | keysRevoke (r : Req)
  /-- KEYS_IMPORT (R472). KEYS_IMPORT unwraps a root into a vault slot. -/
  | keysImport (r : Req)
  /-- KEYS_ERASE (R473). KEYS_ERASE zeroes a vault slot or the whole vault. -/
  | keysErase (r : Req)
  /-- KEYS_ATTEST (R480). KEYS_ATTEST signs an attestation report with DIDK. -/
  | keysAttest (r : Req)
  /-- KEYS_TAMPER_ARM (R486). KEYS_TAMPER_ARM arms or disarms the tamper inputs. -/
  | keysTamperArm (r : Req)
  /-- KEYS_TAMPER_CLEAR (R486). KEYS_TAMPER_CLEAR clears the tamper latch when every armed input is intact. -/
  | keysTamperClear (r : Req)
  /-- KEYS_DERIVE (R470). KEYS_DERIVE derives a key into a new handle. -/
  | keysDerive (r : Req)
  /-- KEYS_EXPORT (R475). KEYS_EXPORT wraps an exportable key under XPRT. -/
  | keysExport (r : Req)
  /-- KEYS_KEY_IMPORT (R475). KEYS_KEY_IMPORT unwraps an exported key into a new handle. -/
  | keysKeyImport (r : Req)
  /-- KEYS_FREE (R474). KEYS_FREE releases a handle. -/
  | keysFree (r : Req)
  /-- KEYS_LIFECYCLE (R466). KEYS_LIFECYCLE advances the lifecycle by burning two fuses. -/
  | keysLifecycle (r : Req)
  /-- UPD_BEGIN (R494). UPD_BEGIN accepts a manifest and starts or resumes staging into the fallback set. -/
  | updBegin (r : Req)
  /-- UPD_PUT (R495). UPD_PUT writes and reads back one chunk and checks the part digest when complete. -/
  | updPut (r : Req)
  /-- UPD_STATUS (R510). UPD_STATUS returns the update state. -/
  | updStatus (r : Req)
  /-- UPD_ABANDON (R496). UPD_ABANDON ends a staging. -/
  | updAbandon (r : Req)
  /-- UPD_ACTIVATE (R500). UPD_ACTIVATE rechecks the digests, writes the trial commit record and restarts. -/
  | updActivate (r : Req)
  /-- UPD_CONFIRM (R503). UPD_CONFIRM supplies health condition bit 3 of a trial. -/
  | updConfirm (r : Req)
  /-- UPD_REVERT (R501). UPD_REVERT activates the fallback set as it stands. -/
  | updRevert (r : Req)
  /-- UPD_FETCH (R497). UPD_FETCH takes the manifest and missing chunks from a peer module. -/
  | updFetch (r : Req)
  /-- UPD_CFG_SET (R503). UPD_CFG_SET sets the trial settings. -/
  | updCfgSet (r : Req)
  /-- PART_COPY_DONE (R494). A background copy of an unlisted part completes and is checked against the active digest. -/
  | partCopyDone
  /-- WANT (R497). A received UPDATE WANT is answered with PIECE or NONE. -/
  | want (p : FPiece)
  /-- PIECE (R497). A received UPDATE PIECE is staged as a chunk. -/
  | piece (p : FPiece)
  /-- NONE (R497). A received UPDATE NONE for a needed chunk ends the fetch FAILED. -/
  | noneMsg (p : FPiece)
  /-- FETCH_RETRY (R497). A chunk not received within 2 s is asked for again. -/
  | fetchRetry
  /-- FETCH_TIMEOUT (R497). 60 s without a PIECE ends the fetch FAILED. -/
  | fetchTimeout
  /-- TRIAL_HEALTHY (R503). The health conditions held for HEALTH_S confirm the trial and raise the rollback counter. -/
  | trialHealthy
  /-- HEALTH_TIMEOUT (R503). HEALTH_TO without a healthy trial confirms the Prior set and restarts cold. -/
  | healthTimeout
  /-- SAFETY_FW_TRANSFER (R507). A transfer of part 5 to channel A over XC13 completes. -/
  | safetyFwTransfer
  /-- EVENT_INGEST (R513). A block places an event in the ingest queue, or it is lost and counted in DROP. -/
  | eventIngest (e : EvSpec)
  /-- EVENT_STORE (R512). An event leaves the ingest queue after the EVR drill and is stored or merged as a repeat. -/
  | eventStore
  /-- EVR_TRIGCTL_REL (R516). A write of REL in EVR_TRIGCTL releases the held span. -/
  | evrTrigctlRel
  /-- EVR_WCTL_ADV (R520). A write of ADV in EVR_WCTLw moves the window cursor past the latest captured record. -/
  | evrWctlAdv (w : Fin 16)
  /-- EVR_OPEN (R518). EVR_OPEN gives the session a free reader window. -/
  | evrOpen (r : Req)
  /-- EVR_CLOSE (R518). EVR_CLOSE closes a reader window. -/
  | evrClose (r : Req)
  /-- EVR_READ (R519). EVR_READ returns up to 30 records of a window without moving its cursor. -/
  | evrRead (r : Req)
  /-- EVR_ACK (R519). EVR_ACK moves a window's cursor. -/
  | evrAck (r : Req)
  /-- EVR_CFG (R516). EVR_CFG sets the repeat window and trigger span. -/
  | evrCfg (r : Req)
  /-- EVR_TRIG_RELEASE (R516). EVR_TRIG_RELEASE releases the held span. -/
  | evrTrigRelease (r : Req)
  /-- DMA_GO (R523). A write of GO in DMA_CHCTLc puts an IDLE channel in QUEUED. -/
  | dmaGo (c : Fin 32)
  /-- DMA_TRIGGER (R523). A channel's trigger source queues an IDLE channel, or counts TRIG_OVR. -/
  | dmaTrigger (src : Fin 4)
  /-- DMA_ACTIVATE (R523). A free active place goes to the QUEUED channel of lowest class and number, which fetches its descriptor. -/
  | dmaActivate
  /-- DESCRIPTOR_DONE (R525). The last write of a descriptor is acknowledged, it ends DONE and the channel chains or stops. -/
  | descriptorDone (c : Fin 32)
  /-- DMA_BUS_ERROR (R526). A bus error halts the channel and ends its descriptor FAILED. -/
  | dmaBusError (c : Fin 32) (moved : Nat) (addr : W64) (write : Bool) (cause : DmaCause)
  /-- DMA_ABORT (R528). A write of ABORT ends the running descriptor FAILED after the current beat. -/
  | dmaAbort (c : Fin 32) (moved : Nat) (lastAck : Bool)
  /-- DMA_CHCTL_RECOVER (R527). A write of RECOVER returns a halted channel to IDLE. -/
  | dmaChctlRecover (c : Fin 32)
  /-- DMA_STATUS (R529). DMA_STATUS returns a channel's state from one capture. -/
  | dmaStatus (r : Req)
  /-- DMA_RECOVER (R527). DMA_RECOVER returns a halted channel to IDLE. -/
  | dmaRecover (r : Req)
  /-- UIO_CONVERSION (R542). A UIO input conversion completes and updates the value, quality and fault bits. -/
  | uioConversion (n : Fin 16) (x : UioSample)
  /-- UIO_PULSE_EDGE (R541). A filtered rising edge on a PULSE_IN channel increments its count. -/
  | uioPulseEdge (n : Fin 16)
  /-- NOFLD (R543). VFLD crosses its loss threshold and NOFLD changes. -/
  | nofld (mv : BitVec 16)
  /-- DO_SWITCH_OFF (R543). A DO channel at its current limit for 10 ms switches off. -/
  | doSwitchOff (n : Fin 16)
  /-- DO_RETRY (R543). A switched-off DO channel retries every 1 s. -/
  | doRetry (n : Fin 16)
  /-- UIO_CFG (R546). UIO_CFG sets a channel's mode, filter, start value and BETA in BLOCKS. -/
  | uioCfg (r : Req)
  /-- UIO_ASSIGN (R544). UIO_ASSIGN assigns or unassigns an object to a channel. -/
  | uioAssign (r : Req)
  /-- UIO_STATUS (R545). UIO_STATUS returns a channel's status and snapshot. -/
  | uioStatus (r : Req)
  /-- UNDEFINED_OPCODE (R72). A Baton request whose opcode no chapter defines, or which is not in the negotiated version, is refused with BAD_OPCODE. -/
  | undefinedOpcode (opcode : BitVec 16) (r : Req)
  /-- PROBE_REPLY (R281). A PROBE_REPLY reaches the anchor and records the member's probe responses for the envelope. -/
  | probeReply (p : FPiece)
  /-- PTP_ANNOUNCE (R450). A received PTP Announce message runs the best master clock algorithm, which may elect this module GRANDMASTER, and carries the UTC offset and leap flags. -/
  | ptpAnnounce (p : Fin 4) (a : Announce)
  /-- CAN_BUS_ERROR (R412). An error detected on the bus while receiving, including a protocol exception, raises REC and may change the channel's error state. -/
  | canBusError (c : Fin 4) (lec : Fin 8)
  /-- OVERLOAD (R543). A UIO output driver reaches its current limit, holds the limit and sets OVERLOAD. -/
  | overload (n : Fin 16)
  deriving DecidableEq, Repr

end Sys2Proof
end

