-- ==== Sys2Proof/Config.lean ====
section
/-! DEFINITION. Config.lean: the values the spec leaves open. Each is a constant with no body, so that no
proof can rest on a value of it; the assumption log says where each is used. -/

namespace Sys2Proof

/-- A point that a program declares: object, element, value type and start value (R158, R168, R175). -/
structure PointDecl where
  obj   : Nat
  elem  : Nat
  vt    : Nat
  start : W64
  deriving DecidableEq, Repr, Inhabited

/-- What a program image declares for one task (R153, R158). -/
structure TaskDecl where
  inputs  : List PointDecl
  outputs : List PointDecl
  period  : Nat
  align   : Bool
  deriving DecidableEq, Repr, Inhabited

/-- A variable that a program declares outside the image: path, type, RETAIN, initial value (R160, R165, Table 7.4). -/
structure VarDecl where
  path : Nat
  typ  : Nat
  keep : Bool
  init : Bytes
  deriving DecidableEq, Repr, Inhabited

/-- An SFC chart that a program declares: path, step names, initial steps, RETAIN (R165, Table 7.4). -/
structure ChartDecl where
  path  : Nat
  steps : List Nat
  init  : List Nat
  keep  : Bool
  deriving DecidableEq, Repr, Inhabited

/-- What a program image declares (R174). The spec gives no format for the image. -/
structure ProgDecl where
  sigOk  : Bool
  hwOk   : Bool
  xferUs : Nat
  hasMap : Bool
  hasRev : Bool
  tasks  : List TaskDecl
  binds  : List (Nat × Nat)   -- its data bindings: source object, destination object (R54)
  keepFb : List Nat           -- function block instances declared RETAIN
  counts : List (Nat × Int)   -- declared initial values of counter instances
  vars   : List VarDecl
  charts : List ChartDecl
  deriving DecidableEq, Repr, Inhabited

/-- A station's segment of the ring map: address, ring position and length in bytes, header included. -/
structure RingSeg where
  addr : Nat
  pos  : Nat
  len  : Nat
  deriving DecidableEq, Repr, Inhabited

namespace Config

/-- A value the spec does not fix, one for each count of `State.freeCtr` (log 3). -/
opaque freeValue : Nat → W64

/-- The SM3 digest of a string of bytes (GB/T 32905, named by R60, R173, R476 and R491 and not laid down in
the spec). -/
opaque sm3 : Bytes → BitVec 256

/-- Whether an address of the application cores' space is DRAM: the spec gives the DRAM's size and not its place (log 8). -/
opaque isDram : W64 → Bool

/-- What a program image declares (log 9). -/
opaque progDecl : Bytes → ProgDecl

/-- The conversion that the transfer map holds for a variable of changed type, if it holds one: old image, new image, reverse map or
not, path, old value (Table 7.4; log 9). -/
opaque varConv : Bytes → Bytes → Bool → Nat → Bytes → Option Bytes

/-- The function block instances that exist on both sides of a switch, as old and new instance (Table 7.4; log 9). -/
opaque fbMap : Bytes → Bytes → Bool → List (Nat × Nat)

/-- The ring map that a MAP_ID identifies: segments in payload order (R370). The spec gives the identity alone (log 10). -/
opaque ringMap : Nat → List RingSeg

/-- MAC_BASE of the unit's fuses (Table 18.1; log 24). -/
opaque macBase : BitVec 48

/-- The MAC address of a port: the unit has four from MAC_BASE on (Table 18.1, R417). -/
def macAddr (p : Nat) : BitVec 48 := macBase + BitVec.ofNat 48 p

/-- The heat coefficient of water of EN 1434-1 in Wh/(L·K), FP32: flow and return temperature, pressure in bar, pipe of the
flow meter. The spec names the standard and does not lay it down (R318; log 25). -/
opaque heatCoeff : W32 → W32 → Nat → Nat → W32

/-- The taps of the core of the coil integrator over the latest values, latest first, and of the interpolation that delays a channel by a number of
samples (FP64). The spec gives their accuracy and not their coefficients (R301, R302; log 334). -/
opaque coilTaps : List W64
opaque delayTaps : W64 → List W64

/-- SM2 and SM4-GCM, which R469, R472, R475, R480 and R481 use and the standards GB/T 32918 and GB/T 32907 define: the curve order n,
the public key of a scalar, the x coordinate of d·R, the signature of a string under the module's distinguishing identifier, the
sealing of a text (key, nonce, additional data, text) with its tag appended, and its opening (log 35). -/
opaque sm2Order : Nat
opaque sm2Pub : Nat → Bytes
opaque sm2Shared : Nat → Bytes → BitVec 256
opaque sm2Sign : Nat → Bytes → Bytes
opaque sm4Seal : Bytes → Bytes → Bytes → Bytes → Bytes
opaque sm4Open : Bytes → Bytes → Bytes → Bytes → Option Bytes

/-- The fuse fields DRS and SERIAL of the unit (R465; log 35). -/
opaque drs : BitVec 256
opaque serial : W64

/-- The public key of a certificate, x ‖ y, and none where it is not one (R476; the spec gives no DER layout; log 35). -/
opaque certKey : Bytes → Option Bytes

/-- Drills 0 to 63 with their images, as the drill library part of a set holds them (Table 19.1; the spec gives no layout; log 36). -/
opaque drillLib : Bytes → List (Nat × Bytes)

/-- The reason code of BOOT_FALLBACK: 0 no valid commit record, 1 digest, 2 signature, 3 rollback (Table 6.9 gives no codes; log 36). -/
opaque bootReason : Nat → BitVec 8

/-- clockAccuracy and variance, and the clock identity, with which the module takes part in the best master clock algorithm
(R452; the spec gives its clockClass and timeSource; log 32). -/
opaque clockQuality : BitVec 24
opaque clockIdent : W64

/-- A byte that the Pacer engine leaves in regions D and W and in the coupling exchange area: build or solve, and offset. The spec gives
these regions' purpose and not their layout (Table 10.6; log 320). -/
opaque sramByte : Nat → Nat → BitVec 8

/-- The temperature in °C as FP32 for a sensor's resistance in mΩ: of a PT1000, and of an NTC of 10 kΩ at 25 °C with its BETA. Table 21.9
gives ranges and accuracies and no characteristic (log 366). -/
opaque pt1000Temp : W32 → W32
opaque ntcTemp : W32 → BitVec 16 → W32

end Config

end Sys2Proof
end

