-- ==== Sys2Proof/Machine/Bits.lean ====
section
/-! DEFINITION. Machine/Bits.lean: bit fields, byte order, sign extension and the two CRCs of the spec.
Every packet, record and register field of the model goes through these. -/

namespace Sys2Proof.Machine

/-- Bits `hi` down to `lo` of a word (R4). -/
def bitsOf (w hi lo : Nat) : Nat := (w >>> lo) % 2 ^ (hi + 1 - lo)

/-- Bit `n` of a word, as 0 or 1. -/
def bit1 (w n : Nat) : Nat := bitsOf w n n

/-- A word with bits `hi` down to `lo` replaced by `v`. -/
def putBits (w hi lo v : Nat) : Nat :=
  w - bitsOf w hi lo * 2 ^ lo + (v % 2 ^ (hi + 1 - lo)) * 2 ^ lo

/-- 1 for true, 0 for false. -/
def b2n (b : Bool) : Nat := if b then 1 else 0

/-- The number a string of bytes spells, most significant byte first (R5). -/
def beNat (bs : Bytes) : Nat := bs.foldl (fun a b => a * 256 + b.toNat) 0

/-- `n` bytes of the number `v`, most significant byte first (R5). -/
def natBE : Nat → Nat → Bytes
  | 0, _ => []
  | n + 1, v => BitVec.ofNat 8 (v / 256 ^ n) :: natBE n v

/-- `len` bytes of `bs` from byte `off`. -/
def slice (bs : Bytes) (off len : Nat) : Bytes := (bs.drop off).take len

/-- The number in `len` bytes of `bs` from byte `off`. -/
def beAt (bs : Bytes) (off len : Nat) : Nat := beNat (slice bs off len)

/-- `bs` cut or zero-filled on the right to `n` bytes. -/
def padTo (n : Nat) (bs : Bytes) : Bytes := bs.take n ++ List.replicate (n - bs.length) 0

/-- The two's complement value of the low `n` bits of `w`. -/
def sgn (n w : Nat) : Int :=
  let v := w % 2 ^ n
  if v < 2 ^ (n - 1) then (v : Int) else (v : Int) - (2 ^ n : Nat)

/-- The low `n` bits of an integer, in two's complement. -/
def wrapN (n : Nat) (z : Int) : Nat := (z % ((2 ^ n : Nat) : Int)).toNat

/-- `z` held between `lo` and `hi`. -/
def clampI (lo hi z : Int) : Int := if z < lo then lo else if z > hi then hi else z

/-- A count that stops at `top`. -/
def satAdd (top a b : Nat) : Nat := if a + b > top then top else a + b

/-- The least element of a list that passes `p`. -/
def firstBelow (n : Nat) (p : Nat → Bool) : Option Nat := (List.range n).find? p

/-- Replace the `n`-th element of a list. -/
def setNth {α : Type} : List α → Nat → α → List α
  | [], _, _ => []
  | _ :: xs, 0, y => y :: xs
  | x :: xs, n + 1, y => x :: setNth xs n y

/-- Change the `n`-th element of a list. -/
def modNth {α : Type} : List α → Nat → (α → α) → List α
  | [], _, _ => []
  | x :: xs, 0, f => f x :: xs
  | x :: xs, n + 1, f => x :: modNth xs n f

/-- `bs` in pieces of `n` bytes, the last one shorter where they do not come out even. -/
def chunksAux : Nat → Nat → Bytes → List Bytes
  | 0, _, _ => []
  | f + 1, n, bs => if bs.isEmpty then [] else bs.take n :: chunksAux f n (bs.drop n)

def chunks (n : Nat) (bs : Bytes) : List Bytes := chunksAux bs.length (max n 1) bs

/-- One bit of a CRC kept left-aligned in `w` bits. -/
def crcBit (w poly c : Nat) : Nat :=
  if c / 2 ^ (w - 1) % 2 = 1 then ((c * 2) % 2 ^ w) ^^^ poly else (c * 2) % 2 ^ w

/-- CRC-16 with polynomial 0x1021 and initial value 0xFFFF (R511). -/
def crc16 (bs : Bytes) : Nat :=
  bs.foldl (fun c b => (List.range 8).foldl (fun c _ => crcBit 16 0x1021 c) (c ^^^ (b.toNat * 256))) 0xFFFF

/-- One bit of the reflected CRC-32. -/
def crc32Bit (c : Nat) : Nat := if c % 2 = 1 then (c / 2) ^^^ 0xEDB88320 else c / 2

/-- CRC-32 of the IEEE 802.3 polynomial (R149): reflected, initial value and final inversion all ones. -/
def crc32 (bs : Bytes) : Nat :=
  (bs.foldl (fun c b => (List.range 8).foldl (fun c _ => crc32Bit c) (c ^^^ b.toNat)) 0xFFFFFFFF) ^^^ 0xFFFFFFFF

/-- The event record timestamp of an instant in ns: 40-bit seconds, 24-bit fraction (Table 20.1). -/
def tsOfNs (ns : Int) : W64 := BitVec.ofInt 64 (ns * (2 ^ 24 : Nat) / 1000000000)

/-- The instant in ns that a timestamp names. -/
def nsOfTs (t : W64) : Int := (t.toNat : Int) * 1000000000 / ((2 ^ 24 : Nat) : Int)

end Sys2Proof.Machine
end

