-- ==== Sys2Proof/Machine/RegMap.lean ====
section
/-! DEFINITION. Machine/RegMap.lean: the register window (R92) as data. One row of `regTable` for each
register table of the spec's chapters, with its offset in the window (Table 4.1), its indices, its
fields and their access codes and reset values (Table 0.2); and the names of the registers (`Reg.…`)
and of their fields (`F.…`) that the rest of the model uses. -/

namespace Sys2Proof.Machine

/-- The access codes of Table 0.2 (R8). -/
inductive Acc where
  | rw | ro | wo | w1c | w1s | rs
  deriving DecidableEq, Repr

/-- One field of a register: bits `hi` down to `lo` (R4), its access code and its reset value. -/
structure RField where
  hi  : Nat
  lo  : Nat
  acc : Acc
  rst : Nat
  deriving DecidableEq, Repr

/-- What a write to the register does beyond, or instead of, its access codes: the name of the
register for every register that has a writable field; `plain` for the others. -/
inductive WKind where
  | plain
  | intEn
  | intClr
  | snapCtl
  | sysSafeIntEn
  | sysSafeIntClr
  | sysIntRoute
  | ledgerModeCfg
  | ledgerBudget
  | ledgerExt
  | ledgerHoldMin
  | ledgerAppLim
  | ledgerLaneLim
  | ledgerPortLim
  | sysRstCfg
  | sysWdtKick
  | lapOcCfg
  | lapTcfg
  | lapTper
  | lapTofs
  | lapTcom
  | loopCtl
  | loopPer
  | loopOfs
  | loopMan
  | loopSpt
  | loopFf
  | loopStart
  | loopSwsel
  | loopSwgo
  | pacerCfg
  | pacerRho
  | pacerEpsp
  | pacerEpsd
  | pacerFcfg
  | pacerFtmo
  | pacerFprobe
  | pacerPstep
  | pacerRhof
  | pacerRhop
  | pacerEpsfp
  | pacerEpsfd
  | pacerFiter
  | sysSafeSnapCtl
  | relayCfg
  | relayPer
  | relayLen
  | relayTmo
  | relayWgt
  | relayMapid
  | relayMapgo
  | relayMaps
  | canCtl
  | canNbt
  | canDbt
  | canTt
  | canTxctl
  | canTxd
  | canOcfg
  | canOid
  | canOtim
  | canTtcol
  | ethNet
  | ethPcfg
  | ethWgt
  | ethFltlo
  | ethFlthi
  | furunCfg
  | rtcPtp
  | rtcStep
  | rtcTrim
  | rtcStgDate
  | rtcStgTime
  | rtcCommit
  | rtcAlmhi
  | updCfg
  | evrCfg
  | evrTrig
  | evrTrigctl
  | evrWctl
  | dmaChctl
  | dmaChdlo
  | dmaChdhi
  | uioCfg
  | uioBeta
  | uioOut
  | loopBank
  | rtcStgTaiLo
  | rtcStgTaiHi
  | rtcStgOfs
  | rtcAlmlo
  deriving DecidableEq, Repr

/-- One row of the register map. Instance (i, j) of the register stands at window offset
`base + st1·i + st2·j`, for i below `n1` and j below `n2`. `blk` is the block ID of Table 1.1. -/
structure RDesc where
  blk    : Nat
  base   : Nat
  n1     : Nat
  st1    : Nat
  n2     : Nat
  st2    : Nat
  wk     : WKind
  fields : List RField
  deriving DecidableEq, Repr

/-- A field of one register of the window, by its register's offset. -/
structure Fld where
  off : Nat
  hi  : Nat
  lo  : Nat
  deriving DecidableEq, Repr

/-- The registers of SYS beside its common group. -/
def regTableSYS : List RDesc := [
  -- SYS_PD_STAT
  ⟨1, 0x40, 1, 0x0, 1, 0x0, .plain, [⟨26, 16, .w1c, 0⟩, ⟨10, 0, .ro, 0x603⟩]⟩,
  -- SYS_CLK_STAT
  ⟨1, 0x44, 1, 0x0, 1, 0x0, .plain, [⟨25, 16, .w1c, 0⟩, ⟨9, 0, .ro, 0x203⟩]⟩,
  -- SYS_BUS_STAT
  ⟨1, 0x48, 1, 0x0, 1, 0x0, .plain, [⟨1, 1, .w1c, 0⟩, ⟨0, 0, .w1c, 0⟩]⟩,
  -- SYS_BUS_ADDR
  ⟨1, 0x4c, 1, 0x0, 1, 0x0, .plain, [⟨23, 0, .ro, 0⟩]⟩,
  -- SYS_INT_PEND
  ⟨1, 0x80, 1, 0x0, 1, 0x0, .plain, [⟨31, 0, .ro, 0⟩]⟩,
  -- SYS_SAFE_INT_EN
  ⟨1, 0xc0, 1, 0x0, 1, 0x0, .sysSafeIntEn, [⟨31, 0, .rw, 0⟩]⟩,
  -- SYS_SAFE_INT_CLR
  ⟨1, 0xc4, 1, 0x0, 1, 0x0, .sysSafeIntClr, [⟨31, 0, .wo, 0⟩]⟩,
  -- SYS_INT_ROUTE
  ⟨1, 0x104, 21, 0x4, 1, 0x0, .sysIntRoute, [⟨31, 31, .rw, 0⟩, ⟨10, 8, .rw, 0⟩, ⟨3, 0, .rw, 1⟩]⟩,
  -- SYS_RST_STAT
  ⟨1, 0x20, 1, 0x0, 1, 0x0, .plain, [⟨19, 19, .ro, 0⟩, ⟨18, 18, .ro, 0⟩, ⟨17, 17, .ro, 0⟩, ⟨16, 16, .ro, 0⟩, ⟨14, 12, .ro, 0⟩, ⟨8, 8, .ro, 0⟩, ⟨2, 0, .ro, 1⟩]⟩,
  -- SYS_START_CNT
  ⟨1, 0x24, 1, 0x0, 1, 0x0, .plain, [⟨31, 0, .ro, 1⟩]⟩,
  -- SYS_RST_CFG
  ⟨1, 0x28, 1, 0x0, 1, 0x0, .sysRstCfg, [⟨15, 8, .rw, 0xa⟩, ⟨0, 0, .rw, 1⟩]⟩,
  -- SYS_WDT_KICK
  ⟨1, 0x2c, 1, 0x0, 1, 0x0, .sysWdtKick, [⟨7, 0, .wo, 0⟩]⟩,
  -- SYS_SAFE_SNAP_CTL
  ⟨1, 0xc8, 1, 0x0, 1, 0x0, .sysSafeSnapCtl, [⟨8, 8, .w1s, 0⟩, ⟨7, 0, .rw, 0⟩]⟩]

/-- The registers of DRILL beside its common group. -/
def regTableDRILL : List RDesc := [
  -- DRILL_BIND
  ⟨17, 0x880100, 38, 0x4, 1, 0x0, .plain, [⟨31, 31, .ro, 0⟩, ⟨6, 0, .ro, 0⟩]⟩,
  -- DRILL_CNT
  ⟨17, 0x880200, 38, 0x4, 1, 0x0, .plain, [⟨31, 16, .ro, 0⟩, ⟨15, 0, .ro, 0⟩]⟩]

/-- The registers of LEDGER beside its common group. -/
def regTableLEDGER : List RDesc := [
  -- LEDGER_MODE
  ⟨2, 0x10020, 1, 0x0, 1, 0x0, .plain, [⟨11, 8, .ro, 0⟩, ⟨6, 4, .ro, 2⟩, ⟨2, 0, .ro, 0⟩]⟩,
  -- LEDGER_MODE_CFG
  ⟨2, 0x10024, 1, 0x0, 1, 0x0, .ledgerModeCfg, [⟨31, 16, .rw, 0x1e⟩, ⟨4, 4, .rw, 0⟩, ⟨2, 0, .rw, 2⟩]⟩,
  -- LEDGER_SRC
  ⟨2, 0x10028, 1, 0x0, 1, 0x0, .plain, [⟨15, 8, .ro, 0⟩, ⟨7, 4, .ro, 0⟩, ⟨1, 1, .ro, 0⟩, ⟨0, 0, .ro, 1⟩]⟩,
  -- LEDGER_BUDGET
  ⟨2, 0x1002c, 1, 0x0, 1, 0x0, .ledgerBudget, [⟨31, 0, .rw, 0xc350⟩]⟩,
  -- LEDGER_EXT
  ⟨2, 0x10030, 1, 0x0, 1, 0x0, .ledgerExt, [⟨31, 0, .rw, 0⟩]⟩,
  -- LEDGER_ALLOC
  ⟨2, 0x10034, 1, 0x0, 1, 0x0, .plain, [⟨31, 0, .ro, 0⟩]⟩,
  -- LEDGER_DRAW
  ⟨2, 0x10038, 1, 0x0, 1, 0x0, .plain, [⟨31, 0, .ro, 0⟩]⟩,
  -- LEDGER_BANK
  ⟨2, 0x1003c, 1, 0x0, 1, 0x0, .plain, [⟨31, 0, .ro, 0⟩]⟩,
  -- LEDGER_HOLD_MIN
  ⟨2, 0x10040, 1, 0x0, 1, 0x0, .ledgerHoldMin, [⟨15, 0, .rw, 0x5dc⟩]⟩,
  -- LEDGER_APP_LIM
  ⟨2, 0x10044, 1, 0x0, 1, 0x0, .ledgerAppLim, [⟨21, 16, .rw, 0x30⟩, ⟨5, 0, .rw, 4⟩]⟩,
  -- LEDGER_LANE_LIM
  ⟨2, 0x10048, 1, 0x0, 1, 0x0, .ledgerLaneLim, [⟨31, 16, .rw, 0⟩, ⟨14, 8, .rw, 0x40⟩, ⟨6, 0, .rw, 0⟩]⟩,
  -- LEDGER_PORT_LIM
  ⟨2, 0x1004c, 1, 0x0, 1, 0x0, .ledgerPortLim, [⟨16, 16, .rw, 1⟩, ⟨13, 12, .rw, 2⟩, ⟨9, 8, .rw, 0⟩, ⟨5, 4, .rw, 2⟩, ⟨1, 0, .rw, 0⟩]⟩,
  -- LEDGER_EFF
  ⟨2, 0x10050, 1, 0x0, 1, 0x0, .plain, [⟨29, 24, .ro, 0⟩, ⟨22, 16, .ro, 0⟩, ⟨13, 12, .ro, 0⟩, ⟨9, 8, .ro, 0⟩, ⟨0, 0, .ro, 0⟩]⟩,
  -- LEDGER_HOLD_LAST
  ⟨2, 0x10070, 1, 0x0, 1, 0x0, .plain, [⟨31, 16, .ro, 0⟩, ⟨8, 0, .ro, 0⟩]⟩,
  -- LEDGER_S
  ⟨2, 0x10060, 4, 0x4, 1, 0x0, .plain, [⟨31, 0, .rs, 0⟩]⟩]

/-- The registers of LAP beside its common group. -/
def regTableLAP : List RDesc := [
  -- LAP_STAT
  ⟨3, 0x20020, 1, 0x0, 1, 0x0, .plain, [⟨24, 16, .ro, 0⟩, ⟨10, 8, .ro, 0⟩, ⟨2, 2, .ro, 0⟩, ⟨0, 0, .ro, 0⟩]⟩,
  -- LAP_OC_CFG
  ⟨3, 0x20024, 1, 0x0, 1, 0x0, .lapOcCfg, [⟨31, 16, .rw, 0x32⟩, ⟨15, 0, .rw, 0x7d0⟩]⟩,
  -- LAP_OC_STAT
  ⟨3, 0x20028, 1, 0x0, 1, 0x0, .plain, [⟨31, 16, .ro, 0⟩, ⟨7, 0, .ro, 0⟩]⟩,
  -- LAP_TCFG
  ⟨3, 0x20100, 8, 0x20, 1, 0x0, .lapTcfg, [⟨25, 24, .rw, 1⟩, ⟨23, 16, .rw, 3⟩, ⟨4, 4, .rw, 1⟩, ⟨2, 2, .rw, 0⟩, ⟨1, 1, .rw, 0⟩, ⟨0, 0, .rw, 0⟩]⟩,
  -- LAP_TPER
  ⟨3, 0x20104, 8, 0x20, 1, 0x0, .lapTper, [⟨25, 0, .rw, 0x186a0⟩]⟩,
  -- LAP_TOFS
  ⟨3, 0x20108, 8, 0x20, 1, 0x0, .lapTofs, [⟨25, 0, .rw, 0⟩]⟩,
  -- LAP_TCOM
  ⟨3, 0x2010c, 8, 0x20, 1, 0x0, .lapTcom, [⟨25, 0, .rw, 0x3e8⟩]⟩,
  -- LAP_TSTAT
  ⟨3, 0x20110, 8, 0x20, 1, 0x0, .plain, [⟨31, 24, .ro, 0⟩, ⟨2, 0, .ro, 0⟩]⟩,
  -- LAP_TCNT
  ⟨3, 0x20114, 8, 0x20, 1, 0x0, .plain, [⟨31, 16, .ro, 0⟩, ⟨15, 0, .ro, 0⟩]⟩,
  -- LAP_TLAST
  ⟨3, 0x20118, 8, 0x20, 1, 0x0, .plain, [⟨31, 0, .ro, 0⟩]⟩,
  -- LAP_TMAX
  ⟨3, 0x2011c, 8, 0x20, 1, 0x0, .plain, [⟨31, 0, .ro, 0⟩]⟩,
  -- LAP_PID
  ⟨3, 0x20040, 8, 0x4, 1, 0x0, .plain, [⟨31, 0, .rs, 0⟩]⟩,
  -- LAP_SWCNT
  ⟨3, 0x20060, 1, 0x0, 1, 0x0, .plain, [⟨31, 0, .rs, 0⟩]⟩,
  -- LAP_S
  ⟨3, 0x20080, 6, 0x4, 1, 0x0, .plain, [⟨31, 0, .rs, 0⟩]⟩]

/-- The registers of LOOP beside its common group. -/
def regTableLOOP : List RDesc := [
  -- LOOP_CTL
  ⟨4, 0x100000, 256, 0x100, 1, 0x0, .loopCtl, [⟨31, 31, .w1s, 0⟩, ⟨30, 30, .ro, 0⟩, ⟨26, 24, .rw, 0⟩, ⟨21, 20, .rw, 0⟩, ⟨19, 19, .rw, 1⟩, ⟨18, 18, .rw, 1⟩, ⟨17, 17, .rw, 0⟩, ⟨15, 14, .rw, 0⟩]⟩,
  -- LOOP_PER
  ⟨4, 0x100004, 256, 0x100, 1, 0x0, .loopPer, [⟨31, 30, .rw, 0⟩, ⟨29, 24, .rw, 0⟩, ⟨23, 0, .rw, 0x3e8⟩]⟩,
  -- LOOP_OFS
  ⟨4, 0x100008, 256, 0x100, 1, 0x0, .loopOfs, [⟨23, 0, .rw, 0⟩]⟩,
  -- LOOP_STAT
  ⟨4, 0x10000c, 256, 0x100, 1, 0x0, .plain, [⟨23, 23, .ro, 0⟩, ⟨22, 22, .ro, 0⟩, ⟨21, 21, .ro, 0⟩, ⟨20, 20, .ro, 0⟩, ⟨19, 19, .ro, 0⟩, ⟨18, 18, .ro, 0⟩, ⟨17, 17, .ro, 0⟩, ⟨10, 8, .ro, 0⟩, ⟨2, 0, .ro, 0⟩]⟩,
  -- LOOP_FLAG
  ⟨4, 0x100010, 256, 0x100, 1, 0x0, .plain, [⟨3, 3, .w1c, 0⟩, ⟨2, 2, .w1c, 0⟩, ⟨1, 1, .w1c, 0⟩, ⟨0, 0, .w1c, 0⟩]⟩,
  -- LOOP_CNT
  ⟨4, 0x100014, 256, 0x100, 1, 0x0, .plain, [⟨31, 16, .ro, 0⟩, ⟨15, 0, .ro, 0⟩]⟩,
  -- LOOP_MAN
  ⟨4, 0x100018, 256, 0x100, 1, 0x0, .loopMan, [⟨15, 0, .rw, 0⟩]⟩,
  -- LOOP_SPT
  ⟨4, 0x10001c, 256, 0x100, 1, 0x0, .loopSpt, [⟨15, 0, .rw, 0⟩]⟩,
  -- LOOP_FF
  ⟨4, 0x100020, 256, 0x100, 1, 0x0, .loopFf, [⟨15, 0, .rw, 0⟩]⟩,
  -- LOOP_START
  ⟨4, 0x100024, 256, 0x100, 1, 0x0, .loopStart, [⟨15, 0, .rw, 0⟩]⟩,
  -- LOOP_OUT
  ⟨4, 0x100028, 256, 0x100, 1, 0x0, .plain, [⟨31, 16, .ro, 0⟩, ⟨15, 0, .ro, 0⟩]⟩,
  -- LOOP_SP
  ⟨4, 0x10002c, 256, 0x100, 1, 0x0, .plain, [⟨31, 16, .ro, 0⟩, ⟨15, 0, .ro, 0⟩]⟩,
  -- LOOP_CASC
  ⟨4, 0x100030, 256, 0x100, 1, 0x0, .plain, [⟨11, 9, .ro, 1⟩, ⟨8, 8, .ro, 0⟩, ⟨7, 0, .ro, 0⟩]⟩,
  -- LOOP_GSTAT
  ⟨4, 0x110020, 1, 0x0, 1, 0x0, .plain, [⟨31, 24, .ro, 0⟩, ⟨13, 0, .ro, 0⟩]⟩,
  -- LOOP_TRIG
  ⟨4, 0x110024, 1, 0x0, 1, 0x0, .plain, [⟨31, 0, .ro, 0⟩]⟩,
  -- LOOP_SWSEL
  ⟨4, 0x110100, 8, 0x4, 1, 0x0, .loopSwsel, [⟨31, 0, .rw, 0⟩]⟩,
  -- LOOP_SWGO
  ⟨4, 0x110120, 1, 0x0, 1, 0x0, .loopSwgo, [⟨0, 0, .w1s, 0⟩]⟩,
  -- LOOP_PGSTAT
  ⟨4, 0x110400, 256, 0x4, 1, 0x0, .plain, [⟨31, 29, .ro, 0⟩, ⟨28, 28, .ro, 0⟩, ⟨26, 24, .ro, 0⟩, ⟨23, 0, .ro, 0⟩]⟩,
  -- LOOP_BANKU
  ⟨4, 0x100058, 256, 0x100, 2, 0x60, .loopBank, [⟨31, 16, .rw, 0x7fff⟩, ⟨15, 0, .rw, 0⟩]⟩,
  -- LOOP_BANKY
  ⟨4, 0x10005c, 256, 0x100, 2, 0x60, .loopBank, [⟨31, 16, .rw, 0x7fff⟩, ⟨15, 0, .rw, 0x8000⟩]⟩,
  -- LOOP_BANK
  ⟨4, 0x100040, 256, 0x100, 48, 0x4, .loopBank, [⟨31, 0, .rw, 0⟩]⟩,
  -- LOOP_S
  ⟨4, 0x110040, 9, 0x4, 1, 0x0, .plain, [⟨31, 0, .rs, 0⟩]⟩]

/-- The registers of PACER beside its common group. -/
def regTablePACER : List RDesc := [
  -- PACER_STAT
  ⟨5, 0x200020, 1, 0x0, 1, 0x0, .plain, [⟨15, 8, .ro, 0⟩, ⟨2, 0, .ro, 0⟩]⟩,
  -- PACER_CFG
  ⟨5, 0x200024, 1, 0x0, 1, 0x0, .pacerCfg, [⟨23, 16, .rw, 0x60⟩, ⟨5, 0, .rw, 0xf⟩]⟩,
  -- PACER_RHO
  ⟨5, 0x200028, 1, 0x0, 1, 0x0, .pacerRho, [⟨31, 0, .rw, 0x3f800000⟩]⟩,
  -- PACER_EPSP
  ⟨5, 0x20002c, 1, 0x0, 1, 0x0, .pacerEpsp, [⟨31, 0, .rw, 0x3a83126f⟩]⟩,
  -- PACER_EPSD
  ⟨5, 0x200030, 1, 0x0, 1, 0x0, .pacerEpsd, [⟨31, 0, .rw, 0x3a83126f⟩]⟩,
  -- PACER_SHAPE
  ⟨5, 0x200034, 1, 0x0, 1, 0x0, .plain, [⟨31, 24, .ro, 0⟩, ⟨23, 16, .ro, 0⟩, ⟨15, 8, .ro, 0⟩, ⟨7, 0, .ro, 0⟩]⟩,
  -- PACER_WSTEP
  ⟨5, 0x200038, 1, 0x0, 1, 0x0, .plain, [⟨31, 0, .ro, 0⟩]⟩,
  -- PACER_ITIME
  ⟨5, 0x20003c, 1, 0x0, 1, 0x0, .plain, [⟨31, 0, .ro, 0⟩]⟩,
  -- PACER_FTIME
  ⟨5, 0x200040, 1, 0x0, 1, 0x0, .plain, [⟨31, 0, .ro, 0⟩]⟩,
  -- PACER_ITER
  ⟨5, 0x200044, 1, 0x0, 1, 0x0, .plain, [⟨31, 16, .ro, 0⟩, ⟨15, 0, .ro, 0⟩]⟩,
  -- PACER_LANES
  ⟨5, 0x200048, 1, 0x0, 1, 0x0, .plain, [⟨6, 0, .ro, 0⟩]⟩,
  -- PACER_FCFG
  ⟨5, 0x200080, 1, 0x0, 1, 0x0, .pacerFcfg, [⟨31, 20, .rw, 0x3c⟩, ⟨16, 10, .rw, 0x32⟩, ⟨7, 0, .rw, 0x40⟩]⟩,
  -- PACER_FTMO
  ⟨5, 0x200084, 1, 0x0, 1, 0x0, .pacerFtmo, [⟨31, 16, .rw, 0x1388⟩, ⟨15, 0, .rw, 0x1f4⟩]⟩,
  -- PACER_FPROBE
  ⟨5, 0x200088, 1, 0x0, 1, 0x0, .pacerFprobe, [⟨22, 16, .rw, 0x50⟩, ⟨13, 0, .rw, 0x1f4⟩]⟩,
  -- PACER_PSTEP
  ⟨5, 0x20008c, 1, 0x0, 1, 0x0, .pacerPstep, [⟨31, 0, .rw, 0x3c23d70a⟩]⟩,
  -- PACER_RHOF
  ⟨5, 0x200090, 1, 0x0, 1, 0x0, .pacerRhof, [⟨31, 0, .rw, 0x3a83126f⟩]⟩,
  -- PACER_RHOP
  ⟨5, 0x200094, 1, 0x0, 1, 0x0, .pacerRhop, [⟨31, 0, .rw, 0x3a83126f⟩]⟩,
  -- PACER_EPSFP
  ⟨5, 0x200098, 1, 0x0, 1, 0x0, .pacerEpsfp, [⟨31, 0, .rw, 0x3f800000⟩]⟩,
  -- PACER_EPSFD
  ⟨5, 0x20009c, 1, 0x0, 1, 0x0, .pacerEpsfd, [⟨31, 0, .rw, 0x3a83126f⟩]⟩,
  -- PACER_FITER
  ⟨5, 0x2000a0, 1, 0x0, 1, 0x0, .pacerFiter, [⟨28, 16, .ro, 0⟩, ⟨13, 0, .rw, 0x32⟩]⟩,
  -- PACER_FSTAT
  ⟨5, 0x2000a4, 1, 0x0, 1, 0x0, .plain, [⟨31, 29, .ro, 0⟩, ⟨28, 24, .ro, 0⟩, ⟨23, 16, .ro, 0⟩, ⟨15, 8, .ro, 0⟩, ⟨7, 0, .ro, 0⟩]⟩,
  -- PACER_S
  ⟨5, 0x200060, 8, 0x4, 1, 0x0, .plain, [⟨31, 0, .rs, 0⟩]⟩]

/-- The registers of MET beside its common group. -/
def regTableMET : List RDesc := [
  -- MET_STAT
  ⟨6, 0x300020, 1, 0x0, 1, 0x0, .plain, [⟨31, 31, .ro, 0⟩, ⟨30, 30, .ro, 0⟩, ⟨29, 29, .ro, 0⟩, ⟨7, 0, .ro, 0⟩]⟩,
  -- MET_CFG
  ⟨6, 0x300024, 1, 0x0, 1, 0x0, .plain, [⟨21, 16, .ro, 5⟩, ⟨13, 8, .ro, 0xf⟩, ⟨0, 0, .ro, 0⟩]⟩,
  -- MET_FREQ
  ⟨6, 0x300028, 1, 0x0, 1, 0x0, .plain, [⟨31, 0, .ro, 0⟩]⟩,
  -- MET_CALCNT
  ⟨6, 0x30002c, 1, 0x0, 1, 0x0, .plain, [⟨31, 0, .ro, 0⟩]⟩,
  -- MET_CHCFG
  ⟨6, 0x300100, 28, 0x10, 1, 0x0, .plain, [⟨31, 30, .ro, 0⟩, ⟨20, 16, .ro, 0xe⟩, ⟨15, 0, .ro, 0⟩]⟩,
  -- MET_CIRCFG
  ⟨6, 0x300300, 8, 0x10, 1, 0x0, .plain, [⟨31, 31, .ro, 0⟩, ⟨10, 8, .ro, 7⟩, ⟨7, 0, .ro, 0⟩]⟩,
  -- MET_THCFG
  ⟨6, 0x300400, 4, 0x20, 1, 0x0, .plain, [⟨31, 31, .ro, 0⟩, ⟨27, 24, .ro, 0xf⟩, ⟨23, 20, .ro, 0⟩, ⟨19, 16, .ro, 0⟩, ⟨15, 12, .ro, 0⟩, ⟨11, 10, .ro, 0⟩, ⟨9, 9, .ro, 0⟩, ⟨8, 8, .ro, 0⟩, ⟨7, 0, .ro, 0⟩]⟩,
  -- MET_POCFG
  ⟨6, 0x300500, 8, 0x4, 1, 0x0, .plain, [⟨31, 31, .ro, 0⟩, ⟨27, 24, .ro, 0⟩, ⟨22, 20, .ro, 0⟩, ⟨12, 0, .ro, 0⟩]⟩,
  -- MET_KS
  ⟨6, 0x300104, 28, 0x10, 1, 0x0, .plain, [⟨31, 0, .ro, 0x3f800000⟩]⟩,
  -- MET_GAIN
  ⟨6, 0x300108, 28, 0x10, 1, 0x0, .plain, [⟨31, 0, .ro, 0x3f800000⟩]⟩,
  -- MET_IN
  ⟨6, 0x300304, 8, 0x10, 1, 0x0, .plain, [⟨31, 0, .ro, 0⟩]⟩,
  -- MET_FS
  ⟨6, 0x300308, 8, 0x10, 1, 0x0, .plain, [⟨31, 0, .ro, 0⟩]⟩,
  -- MET_CIRSTAT
  ⟨6, 0x30030c, 8, 0x10, 1, 0x0, .plain, [⟨31, 0, .ro, 0⟩]⟩,
  -- MET_THPAR
  ⟨6, 0x300404, 4, 0x20, 1, 0x0, .plain, [⟨31, 24, .ro, 0⟩, ⟨8, 0, .ro, 0⟩]⟩,
  -- MET_VPULSE
  ⟨6, 0x300408, 4, 0x20, 1, 0x0, .plain, [⟨31, 0, .ro, 0⟩]⟩,
  -- MET_TCOOL
  ⟨6, 0x30040c, 4, 0x20, 1, 0x0, .plain, [⟨31, 0, .ro, 0⟩]⟩,
  -- MET_THSTAT
  ⟨6, 0x300410, 4, 0x20, 1, 0x0, .plain, [⟨31, 0, .ro, 0⟩]⟩,
  -- MET_S
  ⟨6, 0x300800, 32, 0x4, 1, 0x0, .plain, [⟨31, 0, .rs, 0⟩]⟩,
  -- MET_S_T
  ⟨6, 0x3008f8, 2, 0x4, 1, 0x0, .plain, [⟨31, 0, .rs, 0⟩]⟩]

/-- The registers of SAFE beside its common group. -/
def regTableSAFE : List RDesc := [
  -- SAFE_PRES
  ⟨7, 0x380020, 1, 0x0, 1, 0x0, .plain, [⟨1, 1, .ro, 0⟩, ⟨0, 0, .ro, 0⟩]⟩,
  -- SAFE_CHA
  ⟨7, 0x380040, 1, 0x0, 1, 0x0, .plain, [⟨31, 24, .rs, 0⟩, ⟨23, 23, .rs, 0⟩, ⟨22, 22, .rs, 0⟩, ⟨21, 20, .rs, 0⟩, ⟨15, 8, .rs, 0⟩, ⟨7, 0, .rs, 0⟩]⟩,
  -- SAFE_CHB
  ⟨7, 0x380044, 1, 0x0, 1, 0x0, .plain, [⟨31, 24, .rs, 0⟩, ⟨23, 23, .rs, 0⟩, ⟨22, 22, .rs, 0⟩, ⟨21, 20, .rs, 0⟩, ⟨15, 8, .rs, 0⟩, ⟨7, 0, .rs, 0⟩]⟩,
  -- SAFE_OSSDA
  ⟨7, 0x380058, 1, 0x0, 1, 0x0, .plain, [⟨31, 31, .rs, 0⟩, ⟨30, 30, .rs, 0⟩, ⟨29, 29, .rs, 0⟩, ⟨28, 28, .rs, 0⟩, ⟨27, 27, .rs, 0⟩, ⟨23, 23, .rs, 0⟩, ⟨22, 22, .rs, 0⟩, ⟨21, 21, .rs, 0⟩, ⟨20, 20, .rs, 0⟩, ⟨19, 19, .rs, 0⟩, ⟨15, 15, .rs, 0⟩, ⟨14, 14, .rs, 0⟩, ⟨13, 13, .rs, 0⟩, ⟨12, 12, .rs, 0⟩, ⟨11, 11, .rs, 0⟩, ⟨7, 7, .rs, 0⟩, ⟨6, 6, .rs, 0⟩, ⟨5, 5, .rs, 0⟩, ⟨4, 4, .rs, 0⟩, ⟨3, 3, .rs, 0⟩]⟩,
  -- SAFE_OSSDB
  ⟨7, 0x38005c, 1, 0x0, 1, 0x0, .plain, [⟨31, 31, .rs, 0⟩, ⟨30, 30, .rs, 0⟩, ⟨29, 29, .rs, 0⟩, ⟨28, 28, .rs, 0⟩, ⟨27, 27, .rs, 0⟩, ⟨23, 23, .rs, 0⟩, ⟨22, 22, .rs, 0⟩, ⟨21, 21, .rs, 0⟩, ⟨20, 20, .rs, 0⟩, ⟨19, 19, .rs, 0⟩, ⟨15, 15, .rs, 0⟩, ⟨14, 14, .rs, 0⟩, ⟨13, 13, .rs, 0⟩, ⟨12, 12, .rs, 0⟩, ⟨11, 11, .rs, 0⟩, ⟨7, 7, .rs, 0⟩, ⟨6, 6, .rs, 0⟩, ⟨5, 5, .rs, 0⟩, ⟨4, 4, .rs, 0⟩, ⟨3, 3, .rs, 0⟩]⟩,
  -- SAFE_PAIRS
  ⟨7, 0x380048, 2, 0x4, 1, 0x0, .plain, [⟨31, 0, .rs, 0⟩]⟩,
  -- SAFE_FUNC
  ⟨7, 0x380050, 2, 0x4, 1, 0x0, .plain, [⟨31, 0, .rs, 0⟩]⟩,
  -- SAFE_CHK
  ⟨7, 0x380060, 2, 0x4, 1, 0x0, .plain, [⟨31, 0, .rs, 0⟩]⟩,
  -- SAFE_STG
  ⟨7, 0x380068, 2, 0x4, 1, 0x0, .plain, [⟨31, 0, .rs, 0⟩]⟩,
  -- SAFE_SEQ
  ⟨7, 0x380070, 2, 0x4, 1, 0x0, .plain, [⟨31, 0, .rs, 0⟩]⟩,
  -- SAFE_S_T
  ⟨7, 0x380078, 2, 0x4, 1, 0x0, .plain, [⟨31, 0, .rs, 0⟩]⟩]

/-- The registers of RELAY beside its common group. -/
def regTableRELAY : List RDesc := [
  -- RELAY_CFG
  ⟨8, 0x400020, 1, 0x0, 1, 0x0, .relayCfg, [⟨23, 16, .rw, 0⟩, ⟨9, 8, .rw, 0⟩, ⟨2, 2, .rw, 0⟩, ⟨1, 0, .rw, 0⟩]⟩,
  -- RELAY_PER
  ⟨8, 0x400024, 1, 0x0, 1, 0x0, .relayPer, [⟨23, 0, .rw, 0xf424⟩]⟩,
  -- RELAY_LEN
  ⟨8, 0x400028, 1, 0x0, 1, 0x0, .relayLen, [⟨31, 16, .rw, 0⟩, ⟨15, 0, .rw, 0x800⟩]⟩,
  -- RELAY_TMO
  ⟨8, 0x40002c, 1, 0x0, 1, 0x0, .relayTmo, [⟨31, 16, .rw, 0x32⟩, ⟨15, 15, .rw, 0⟩, ⟨12, 8, .rw, 0⟩, ⟨7, 0, .rw, 4⟩]⟩,
  -- RELAY_WGT
  ⟨8, 0x400030, 1, 0x0, 1, 0x0, .relayWgt, [⟨23, 16, .rw, 0x14⟩, ⟨15, 8, .rw, 0x1e⟩, ⟨7, 0, .rw, 0x32⟩]⟩,
  -- RELAY_STAT
  ⟨8, 0x400034, 1, 0x0, 1, 0x0, .plain, [⟨31, 24, .ro, 0⟩, ⟨15, 15, .ro, 0⟩, ⟨14, 14, .ro, 0⟩, ⟨13, 13, .ro, 0⟩, ⟨12, 11, .ro, 0⟩, ⟨2, 0, .ro, 0⟩]⟩,
  -- RELAY_DELAY
  ⟨8, 0x400038, 1, 0x0, 1, 0x0, .plain, [⟨31, 0, .ro, 0⟩]⟩,
  -- RELAY_MAPID
  ⟨8, 0x40003c, 1, 0x0, 1, 0x0, .relayMapid, [⟨31, 0, .rw, 0⟩]⟩,
  -- RELAY_CNT
  ⟨8, 0x400040, 1, 0x0, 1, 0x0, .plain, [⟨31, 16, .ro, 0⟩, ⟨15, 0, .ro, 0⟩]⟩,
  -- RELAY_MAPGO
  ⟨8, 0x400044, 1, 0x0, 1, 0x0, .relayMapgo, [⟨0, 0, .w1s, 0⟩]⟩,
  -- RELAY_MAP
  ⟨8, 0x400100, 32, 0x4, 1, 0x0, .plain, [⟨31, 21, .ro, 0⟩, ⟨14, 0, .ro, 0⟩]⟩,
  -- RELAY_MAPS
  ⟨8, 0x400180, 32, 0x4, 1, 0x0, .relayMaps, [⟨31, 21, .rw, 0⟩, ⟨14, 0, .rw, 0⟩]⟩,
  -- RELAY_S
  ⟨8, 0x400080, 14, 0x4, 1, 0x0, .plain, [⟨31, 0, .rs, 0⟩]⟩]

/-- The registers of CAN beside its common group. -/
def regTableCAN : List RDesc := [
  -- CAN_CTL
  ⟨9, 0x480020, 4, 0x10000, 1, 0x0, .canCtl, [⟨23, 20, .rw, 0⟩, ⟨6, 6, .rw, 0⟩, ⟨5, 5, .rw, 1⟩, ⟨4, 4, .rw, 1⟩, ⟨3, 3, .rw, 1⟩, ⟨2, 2, .rw, 1⟩, ⟨1, 0, .rw, 0⟩]⟩,
  -- CAN_NBT
  ⟨9, 0x480024, 4, 0x10000, 1, 0x0, .canNbt, [⟨31, 25, .rw, 0x10⟩, ⟨24, 16, .rw, 0x3f⟩, ⟨15, 9, .rw, 0x10⟩, ⟨5, 0, .rw, 2⟩]⟩,
  -- CAN_DBT
  ⟨9, 0x480028, 4, 0x10000, 1, 0x0, .canDbt, [⟨31, 25, .rw, 0x1e⟩, ⟨24, 21, .rw, 0xa⟩, ⟨20, 16, .rw, 0x1d⟩, ⟨15, 12, .rw, 0xa⟩, ⟨4, 0, .rw, 1⟩]⟩,
  -- CAN_TT
  ⟨9, 0x48002c, 4, 0x10000, 1, 0x0, .canTt, [⟨31, 16, .rw, 0x3e8⟩, ⟨0, 0, .rw, 0⟩]⟩,
  -- CAN_STAT
  ⟨9, 0x480030, 4, 0x10000, 1, 0x0, .plain, [⟨31, 24, .ro, 0⟩, ⟨23, 23, .ro, 0⟩, ⟨22, 16, .ro, 0⟩, ⟨10, 8, .ro, 0⟩, ⟨2, 0, .ro, 0⟩]⟩,
  -- CAN_TMAX
  ⟨9, 0x480034, 4, 0x10000, 1, 0x0, .plain, [⟨31, 0, .ro, 0x6eb7c⟩]⟩,
  -- CAN_FIFO
  ⟨9, 0x480038, 4, 0x10000, 1, 0x0, .plain, [⟨21, 16, .ro, 0⟩, ⟨15, 15, .ro, 0⟩, ⟨5, 0, .ro, 0⟩]⟩,
  -- CAN_CNT1
  ⟨9, 0x48003c, 4, 0x10000, 1, 0x0, .plain, [⟨31, 16, .ro, 0⟩, ⟨15, 0, .ro, 0⟩]⟩,
  -- CAN_CNT2
  ⟨9, 0x480040, 4, 0x10000, 1, 0x0, .plain, [⟨31, 16, .ro, 0⟩, ⟨15, 0, .ro, 0⟩]⟩,
  -- CAN_TXCTL
  ⟨9, 0x480044, 4, 0x10000, 1, 0x0, .canTxctl, [⟨31, 31, .w1s, 0⟩, ⟨30, 30, .w1s, 0⟩, ⟨29, 29, .w1s, 0⟩, ⟨13, 8, .rw, 0⟩, ⟨6, 0, .rw, 0⟩]⟩,
  -- CAN_TXD
  ⟨9, 0x480600, 4, 0x10000, 16, 0x4, .canTxd, [⟨31, 0, .rw, 0⟩]⟩,
  -- CAN_OCFG
  ⟨9, 0x480100, 4, 0x10000, 64, 0x10, .canOcfg, [⟨31, 31, .rw, 0⟩, ⟨30, 29, .rw, 0⟩, ⟨28, 28, .rw, 0⟩, ⟨27, 27, .rw, 0⟩, ⟨26, 26, .rw, 0⟩, ⟨25, 25, .rw, 0⟩, ⟨24, 24, .rw, 0⟩, ⟨23, 16, .rw, 0⟩, ⟨15, 12, .rw, 0⟩]⟩,
  -- CAN_OID
  ⟨9, 0x480104, 4, 0x10000, 64, 0x10, .canOid, [⟨28, 0, .rw, 0⟩]⟩,
  -- CAN_OTIM
  ⟨9, 0x480108, 4, 0x10000, 64, 0x10, .canOtim, [⟨31, 16, .rw, 0⟩, ⟨15, 0, .rw, 0⟩]⟩,
  -- CAN_OST
  ⟨9, 0x48010c, 4, 0x10000, 64, 0x10, .plain, [⟨22, 16, .ro, 0⟩, ⟨5, 5, .ro, 0⟩, ⟨4, 4, .ro, 0⟩, ⟨3, 3, .ro, 0⟩, ⟨2, 2, .ro, 0⟩, ⟨1, 1, .w1c, 0⟩, ⟨0, 0, .w1c, 0⟩]⟩,
  -- CAN_TTCOL
  ⟨9, 0x480500, 4, 0x10000, 64, 0x4, .canTtcol, [⟨31, 31, .rw, 0⟩, ⟨5, 0, .rw, 0⟩]⟩,
  -- CAN_S
  ⟨9, 0x480800, 4, 0x10000, 20, 0x4, .plain, [⟨31, 0, .rs, 0⟩]⟩]

/-- The registers of ETH beside its common group. -/
def regTableETH : List RDesc := [
  -- ETH_NET
  ⟨10, 0x500020, 1, 0x0, 1, 0x0, .ethNet, [⟨31, 16, .rw, 0xb721⟩, ⟨15, 0, .rw, 0xb720⟩]⟩,
  -- ETH_PCFG
  ⟨10, 0x500100, 4, 0x40, 1, 0x0, .ethPcfg, [⟨31, 31, .rw, 1⟩, ⟨30, 30, .rw, 1⟩, ⟨29, 29, .rw, 1⟩, ⟨28, 28, .rw, 1⟩, ⟨27, 27, .rw, 1⟩, ⟨26, 26, .rw, 0⟩, ⟨25, 25, .rw, 0⟩, ⟨11, 0, .rw, 1⟩]⟩,
  -- ETH_PSTAT
  ⟨10, 0x500104, 4, 0x40, 1, 0x0, .plain, [⟨31, 31, .ro, 0⟩, ⟨30, 30, .ro, 0⟩, ⟨29, 29, .ro, 0⟩, ⟨28, 28, .ro, 0⟩, ⟨27, 26, .ro, 0⟩, ⟨1, 0, .ro, 0⟩]⟩,
  -- ETH_WGT
  ⟨10, 0x500108, 4, 0x40, 1, 0x0, .ethWgt, [⟨23, 16, .rw, 0x14⟩, ⟨15, 8, .rw, 0x1e⟩, ⟨7, 0, .rw, 0x32⟩]⟩,
  -- ETH_FLTLO
  ⟨10, 0x500200, 4, 0x80, 16, 0x8, .ethFltlo, [⟨31, 0, .rw, 0⟩]⟩,
  -- ETH_FLTHI
  ⟨10, 0x500204, 4, 0x80, 16, 0x8, .ethFlthi, [⟨31, 31, .rw, 0⟩, ⟨15, 0, .rw, 0⟩]⟩,
  -- ETH_S
  ⟨10, 0x500040, 9, 0x4, 1, 0x0, .plain, [⟨31, 0, .rs, 0⟩]⟩]

/-- The registers of FURUN beside its common group. -/
def regTableFURUN : List RDesc := [
  -- FURUN_CFG
  ⟨11, 0x580020, 1, 0x0, 1, 0x0, .furunCfg, [⟨31, 16, .rw, 0x3e8⟩, ⟨15, 0, .rw, 0xa⟩]⟩,
  -- FURUN_STAT
  ⟨11, 0x580024, 1, 0x0, 1, 0x0, .plain, [⟨31, 23, .ro, 0⟩, ⟨22, 8, .ro, 0⟩, ⟨7, 6, .ro, 0⟩, ⟨5, 3, .ro, 0⟩, ⟨2, 0, .ro, 5⟩]⟩,
  -- FURUN_S
  ⟨11, 0x580040, 6, 0x4, 1, 0x0, .plain, [⟨31, 0, .rs, 0⟩]⟩]

/-- The registers of RTC beside its common group. -/
def regTableRTC : List RDesc := [
  -- RTC_STAT
  ⟨12, 0x600020, 1, 0x0, 1, 0x0, .plain, [⟨31, 31, .ro, 0⟩, ⟨30, 30, .w1c, 0⟩, ⟨29, 29, .ro, 0⟩, ⟨28, 28, .ro, 0⟩, ⟨27, 27, .w1c, 0⟩, ⟨1, 0, .ro, 0⟩]⟩,
  -- RTC_PTP
  ⟨12, 0x600024, 1, 0x0, 1, 0x0, .rtcPtp, [⟨31, 24, .rw, 0⟩, ⟨23, 16, .rw, 0xf6⟩, ⟨15, 8, .rw, 0xf8⟩, ⟨2, 2, .rw, 0⟩, ⟨1, 0, .rw, 2⟩]⟩,
  -- RTC_STEP
  ⟨12, 0x600028, 1, 0x0, 1, 0x0, .rtcStep, [⟨19, 0, .rw, 0x3e8⟩]⟩,
  -- RTC_TRIM
  ⟨12, 0x60002c, 1, 0x0, 1, 0x0, .rtcTrim, [⟨10, 0, .rw, 0⟩]⟩,
  -- RTC_DATE
  ⟨12, 0x600044, 1, 0x0, 1, 0x0, .plain, [⟨31, 16, .ro, 0⟩, ⟨15, 8, .ro, 0⟩, ⟨7, 0, .ro, 0⟩]⟩,
  -- RTC_STG_DATE
  ⟨12, 0x600068, 1, 0x0, 1, 0x0, .rtcStgDate, [⟨31, 16, .rw, 0⟩, ⟨15, 8, .rw, 0⟩, ⟨7, 0, .rw, 0⟩]⟩,
  -- RTC_TIME
  ⟨12, 0x600048, 1, 0x0, 1, 0x0, .plain, [⟨26, 24, .ro, 0⟩, ⟨23, 16, .ro, 0⟩, ⟨15, 8, .ro, 0⟩, ⟨7, 0, .ro, 0⟩]⟩,
  -- RTC_STG_TIME
  ⟨12, 0x60006c, 1, 0x0, 1, 0x0, .rtcStgTime, [⟨26, 24, .ro, 0⟩, ⟨23, 16, .rw, 0⟩, ⟨15, 8, .rw, 0⟩, ⟨7, 0, .rw, 0⟩]⟩,
  -- RTC_COMMIT
  ⟨12, 0x600074, 1, 0x0, 1, 0x0, .rtcCommit, [⟨31, 31, .w1s, 0⟩, ⟨0, 0, .rw, 0⟩]⟩,
  -- RTC_LEAP
  ⟨12, 0x60007c, 1, 0x0, 1, 0x0, .plain, [⟨31, 31, .ro, 0⟩, ⟨30, 30, .ro, 0⟩, ⟨29, 29, .ro, 0⟩, ⟨15, 0, .ro, 0⟩]⟩,
  -- RTC_ALMHI
  ⟨12, 0x600104, 4, 0x10, 1, 0x0, .rtcAlmhi, [⟨31, 31, .rw, 0⟩, ⟨30, 30, .rw, 0⟩, ⟨29, 29, .w1c, 0⟩, ⟨28, 28, .w1c, 0⟩, ⟨7, 0, .rw, 0⟩]⟩,
  -- RTC_TAI_LO
  ⟨12, 0x600040, 1, 0x0, 1, 0x0, .plain, [⟨31, 0, .ro, 0⟩]⟩,
  -- RTC_TAI_HI
  ⟨12, 0x60004c, 1, 0x0, 1, 0x0, .plain, [⟨7, 0, .ro, 0⟩]⟩,
  -- RTC_OFS
  ⟨12, 0x600050, 1, 0x0, 1, 0x0, .plain, [⟨15, 0, .ro, 0⟩]⟩,
  -- RTC_STG_TAI_LO
  ⟨12, 0x600060, 1, 0x0, 1, 0x0, .rtcStgTaiLo, [⟨31, 0, .rw, 0⟩]⟩,
  -- RTC_STG_TAI_HI
  ⟨12, 0x600064, 1, 0x0, 1, 0x0, .rtcStgTaiHi, [⟨7, 0, .rw, 0⟩]⟩,
  -- RTC_STG_OFS
  ⟨12, 0x600070, 1, 0x0, 1, 0x0, .rtcStgOfs, [⟨15, 0, .rw, 0⟩]⟩,
  -- RTC_LOCAL
  ⟨12, 0x600078, 1, 0x0, 1, 0x0, .plain, [⟨15, 0, .ro, 0⟩]⟩,
  -- RTC_ALMLO
  ⟨12, 0x600100, 4, 0x10, 1, 0x0, .rtcAlmlo, [⟨31, 0, .rw, 0⟩]⟩,
  -- RTC_S
  ⟨12, 0x600080, 8, 0x4, 1, 0x0, .plain, [⟨31, 0, .rs, 0⟩]⟩]

/-- The registers of KEYS beside its common group. -/
def regTableKEYS : List RDesc := [
  -- KEYS_STAT
  ⟨13, 0x680020, 1, 0x0, 1, 0x0, .plain, [⟨31, 30, .ro, 0⟩, ⟨29, 29, .ro, 0⟩, ⟨28, 28, .ro, 0⟩, ⟨27, 27, .ro, 0⟩, ⟨24, 16, .ro, 0⟩, ⟨4, 0, .ro, 0⟩]⟩,
  -- KEYS_ROLLBACK
  ⟨13, 0x680024, 1, 0x0, 1, 0x0, .plain, [⟨7, 0, .ro, 0⟩]⟩,
  -- KEYS_TAMPER_CFG
  ⟨13, 0x680028, 1, 0x0, 1, 0x0, .plain, [⟨1, 1, .ro, 0⟩, ⟨0, 0, .ro, 0⟩]⟩,
  -- KEYS_TAMPER_STAT
  ⟨13, 0x68002c, 1, 0x0, 1, 0x0, .plain, [⟨31, 16, .ro, 0⟩, ⟨4, 4, .ro, 0⟩, ⟨3, 3, .ro, 0⟩, ⟨2, 0, .ro, 0⟩]⟩,
  -- KEYS_EPOCH
  ⟨13, 0x680030, 1, 0x0, 1, 0x0, .plain, [⟨31, 0, .ro, 0⟩]⟩,
  -- KEYS_CERT_GEN
  ⟨13, 0x680034, 1, 0x0, 1, 0x0, .plain, [⟨8, 8, .ro, 0⟩, ⟨7, 0, .ro, 0⟩]⟩,
  -- KEYS_S
  ⟨13, 0x680040, 10, 0x4, 1, 0x0, .plain, [⟨31, 0, .rs, 0⟩]⟩]

/-- The registers of UPD beside its common group. -/
def regTableUPD : List RDesc := [
  -- UPD_STAT
  ⟨14, 0x700020, 1, 0x0, 1, 0x0, .plain, [⟨31, 29, .ro, 0⟩, ⟨28, 28, .ro, 0⟩, ⟨27, 27, .ro, 0⟩, ⟨23, 16, .ro, 0⟩, ⟨15, 8, .ro, 0⟩, ⟨1, 0, .ro, 0⟩]⟩,
  -- UPD_CFG
  ⟨14, 0x700024, 1, 0x0, 1, 0x0, .updCfg, [⟨31, 16, .rw, 0x708⟩, ⟨15, 8, .rw, 0x78⟩, ⟨5, 4, .rw, 2⟩, ⟨3, 0, .rw, 1⟩]⟩,
  -- UPD_RCVD
  ⟨14, 0x700028, 1, 0x0, 1, 0x0, .plain, [⟨31, 0, .ro, 0⟩]⟩,
  -- UPD_TOTAL
  ⟨14, 0x70002c, 1, 0x0, 1, 0x0, .plain, [⟨31, 0, .ro, 0⟩]⟩,
  -- UPD_SEQ
  ⟨14, 0x700030, 1, 0x0, 1, 0x0, .plain, [⟨31, 0, .ro, 0⟩]⟩,
  -- UPD_HEALTH
  ⟨14, 0x700034, 1, 0x0, 1, 0x0, .plain, [⟨31, 16, .ro, 0⟩, ⟨15, 0, .ro, 0⟩]⟩,
  -- UPD_S
  ⟨14, 0x700040, 10, 0x4, 1, 0x0, .plain, [⟨31, 0, .rs, 0⟩]⟩]

/-- The registers of EVR beside its common group. -/
def regTableEVR : List RDesc := [
  -- EVR_CFG
  ⟨15, 0x780020, 1, 0x0, 1, 0x0, .evrCfg, [⟨11, 0, .rw, 0xa⟩]⟩,
  -- EVR_TRIG
  ⟨15, 0x780024, 1, 0x0, 1, 0x0, .evrTrig, [⟨31, 16, .rw, 0x400⟩, ⟨15, 0, .rw, 0x400⟩]⟩,
  -- EVR_STAT
  ⟨15, 0x780028, 1, 0x0, 1, 0x0, .plain, [⟨31, 31, .ro, 0⟩, ⟨30, 30, .ro, 0⟩, ⟨17, 0, .ro, 0⟩]⟩,
  -- EVR_DROP
  ⟨15, 0x78002c, 1, 0x0, 1, 0x0, .plain, [⟨31, 0, .ro, 0⟩]⟩,
  -- EVR_OVW
  ⟨15, 0x780030, 1, 0x0, 1, 0x0, .plain, [⟨31, 16, .ro, 0⟩]⟩,
  -- EVR_OVWCNT
  ⟨15, 0x780034, 1, 0x0, 1, 0x0, .plain, [⟨31, 0, .ro, 0⟩]⟩,
  -- EVR_TRIGCTL
  ⟨15, 0x780038, 1, 0x0, 1, 0x0, .evrTrigctl, [⟨0, 0, .w1s, 0⟩]⟩,
  -- EVR_WCFG
  ⟨15, 0x780100, 16, 0x10, 1, 0x0, .plain, [⟨31, 31, .ro, 0⟩, ⟨26, 24, .ro, 0⟩, ⟨15, 8, .ro, 0⟩]⟩,
  -- EVR_WCTL
  ⟨15, 0x780104, 16, 0x10, 1, 0x0, .evrWctl, [⟨0, 0, .w1s, 0⟩]⟩,
  -- EVR_WMASK
  ⟨15, 0x780108, 16, 0x10, 1, 0x0, .plain, [⟨31, 0, .ro, 0⟩]⟩,
  -- EVR_WLOST
  ⟨15, 0x78010c, 16, 0x10, 1, 0x0, .plain, [⟨31, 0, .ro, 0⟩]⟩,
  -- EVR_S
  ⟨15, 0x780040, 10, 0x4, 1, 0x0, .plain, [⟨31, 0, .rs, 0⟩]⟩]

/-- The registers of DMA beside its common group. -/
def regTableDMA : List RDesc := [
  -- DMA_GSTAT
  ⟨16, 0x800020, 1, 0x0, 1, 0x0, .plain, [⟨28, 24, .ro, 0⟩, ⟨21, 16, .ro, 0⟩]⟩,
  -- DMA_HALT
  ⟨16, 0x800024, 1, 0x0, 1, 0x0, .plain, [⟨31, 0, .ro, 0⟩]⟩,
  -- DMA_CHCTL
  ⟨16, 0x800100, 32, 0x20, 1, 0x0, .dmaChctl, [⟨31, 31, .w1s, 0⟩, ⟨30, 30, .w1s, 0⟩, ⟨29, 29, .w1s, 0⟩, ⟨26, 24, .rw, 0⟩]⟩,
  -- DMA_CHDLO
  ⟨16, 0x800104, 32, 0x20, 1, 0x0, .dmaChdlo, [⟨31, 0, .rw, 0⟩]⟩,
  -- DMA_CHDHI
  ⟨16, 0x800108, 32, 0x20, 1, 0x0, .dmaChdhi, [⟨31, 0, .rw, 0⟩]⟩,
  -- DMA_CHSTAT
  ⟨16, 0x80010c, 32, 0x20, 1, 0x0, .plain, [⟨31, 30, .ro, 0⟩, ⟨29, 29, .ro, 0⟩, ⟨28, 26, .ro, 0⟩, ⟨15, 0, .ro, 0⟩]⟩,
  -- DMA_S
  ⟨16, 0x800040, 5, 0x4, 1, 0x0, .plain, [⟨31, 0, .rs, 0⟩]⟩]

/-- The registers of UIO beside its common group. -/
def regTableUIO : List RDesc := [
  -- UIO_GSTAT
  ⟨18, 0x900020, 1, 0x0, 1, 0x0, .plain, [⟨0, 0, .ro, 0⟩]⟩,
  -- UIO_CFG
  ⟨18, 0x900100, 16, 0x20, 1, 0x0, .uioCfg, [⟨31, 28, .rw, 0⟩, ⟨27, 24, .rw, 0⟩, ⟨15, 0, .rw, 0⟩]⟩,
  -- UIO_BETA
  ⟨18, 0x900104, 16, 0x20, 1, 0x0, .uioBeta, [⟨15, 0, .rw, 0xd6b⟩]⟩,
  -- UIO_OUT
  ⟨18, 0x900108, 16, 0x20, 1, 0x0, .uioOut, [⟨15, 0, .rw, 0⟩]⟩,
  -- UIO_STAT
  ⟨18, 0x90010c, 16, 0x20, 1, 0x0, .plain, [⟨31, 31, .ro, 1⟩, ⟨4, 4, .ro, 0⟩, ⟨3, 3, .ro, 0⟩, ⟨2, 2, .ro, 0⟩, ⟨1, 1, .ro, 0⟩, ⟨0, 0, .ro, 0⟩]⟩,
  -- UIO_VAL
  ⟨18, 0x900110, 16, 0x20, 1, 0x0, .plain, [⟨31, 0, .ro, 0⟩]⟩,
  -- UIO_S
  ⟨18, 0x900040, 6, 0x4, 1, 0x0, .plain, [⟨31, 0, .rs, 0⟩]⟩]

/-- Every register outside the common groups (R92). -/
def regTable : List RDesc :=
  regTableSYS ++ regTableDRILL ++ regTableLEDGER ++ regTableLAP ++ regTableLOOP ++ regTablePACER ++ regTableMET ++ regTableSAFE ++ regTableRELAY ++ regTableCAN ++ regTableETH ++ regTableFURUN ++ regTableRTC ++ regTableKEYS ++ regTableUPD ++ regTableEVR ++ regTableDMA ++ regTableUIO

namespace Reg

/-- power domain status (01_architecture.md). -/
def SYS_PD_STAT : Nat := 0x40
/-- clock domain status (01_architecture.md). -/
def SYS_CLK_STAT : Nat := 0x44
/-- narrow and unaligned access status (04_register_space_and_drills.md). -/
def SYS_BUS_STAT : Nat := 0x48
/-- last offending access (04_register_space_and_drills.md). -/
def SYS_BUS_ADDR : Nat := 0x4c
/-- pending sources (04_register_space_and_drills.md). -/
def SYS_INT_PEND : Nat := 0x80
/-- SAFE mirror enables (04_register_space_and_drills.md). -/
def SYS_SAFE_INT_EN : Nat := 0xc0
/-- SAFE mirror clear (04_register_space_and_drills.md). -/
def SYS_SAFE_INT_CLR : Nat := 0xc4
/-- routing of source n, n = 1 to 21 (04_register_space_and_drills.md). -/
def SYS_INT_ROUTE (n : Nat) : Nat := 0x100 + 0x4 * n
/-- binding of host instance h, h = 0 to 37 (04_register_space_and_drills.md). -/
def DRILL_BIND (h : Nat) : Nat := 0x880100 + 0x4 * h
/-- fault and overrun counts of instance h (04_register_space_and_drills.md). -/
def DRILL_CNT (h : Nat) : Nat := 0x880200 + 0x4 * h
/-- mode status (05_modes_and_energy_ledger.md). -/
def LEDGER_MODE : Nat := 0x10020
/-- mode configuration (05_modes_and_energy_ledger.md). -/
def LEDGER_MODE_CFG : Nat := 0x10024
/-- supply sources (05_modes_and_energy_ledger.md). -/
def LEDGER_SRC : Nat := 0x10028
/-- VIN input budget (05_modes_and_energy_ledger.md). -/
def LEDGER_BUDGET : Nat := 0x1002c
/-- carrier load on PoE (05_modes_and_energy_ledger.md). -/
def LEDGER_EXT : Nat := 0x10030
/-- allocation in effect (05_modes_and_energy_ledger.md). -/
def LEDGER_ALLOC : Nat := 0x10034
/-- measured draw (05_modes_and_energy_ledger.md). -/
def LEDGER_DRAW : Nat := 0x10038
/-- usable bank energy (05_modes_and_energy_ledger.md). -/
def LEDGER_BANK : Nat := 0x1003c
/-- bank minimum to run (05_modes_and_energy_ledger.md). -/
def LEDGER_HOLD_MIN : Nat := 0x10040
/-- CLK_APP policy (05_modes_and_energy_ledger.md). -/
def LEDGER_APP_LIM : Nat := 0x10044
/-- Pacer policy (05_modes_and_energy_ledger.md). -/
def LEDGER_LANE_LIM : Nat := 0x10048
/-- E0 and E1 policy (05_modes_and_energy_ledger.md). -/
def LEDGER_PORT_LIM : Nat := 0x1004c
/-- values in effect (05_modes_and_energy_ledger.md). -/
def LEDGER_EFF : Nat := 0x10050
/-- outcome of the last HOLDUP (05_modes_and_energy_ledger.md). -/
def LEDGER_HOLD_LAST : Nat := 0x10070
/-- cause of the latest start (06_startup_and_reset.md). -/
def SYS_RST_STAT : Nat := 0x20
/-- start count (06_startup_and_reset.md). -/
def SYS_START_CNT : Nat := 0x24
/-- restart configuration (06_startup_and_reset.md). -/
def SYS_RST_CFG : Nat := 0x28
/-- watchdog kick (06_startup_and_reset.md). -/
def SYS_WDT_KICK : Nat := 0x2c
/-- runtime status (07_lap_executor.md). -/
def LAP_STAT : Nat := 0x20020
/-- online change limits (07_lap_executor.md). -/
def LAP_OC_CFG : Nat := 0x20024
/-- online change result (07_lap_executor.md). -/
def LAP_OC_STAT : Nat := 0x20028
/-- configuration of task LTn, n = 0 to 7 (07_lap_executor.md). -/
def LAP_TCFG (n : Nat) : Nat := 0x20100 + 0x20 * n
/-- period of LTn (07_lap_executor.md). -/
def LAP_TPER (n : Nat) : Nat := 0x20104 + 0x20 * n
/-- release offset of LTn (07_lap_executor.md). -/
def LAP_TOFS (n : Nat) : Nat := 0x20108 + 0x20 * n
/-- commit offset of LTn (07_lap_executor.md). -/
def LAP_TCOM (n : Nat) : Nat := 0x2010c + 0x20 * n
/-- state of LTn (07_lap_executor.md). -/
def LAP_TSTAT (n : Nat) : Nat := 0x20110 + 0x20 * n
/-- overrun counts of LTn (07_lap_executor.md). -/
def LAP_TCNT (n : Nat) : Nat := 0x20114 + 0x20 * n
/-- latest execution time of LTn (07_lap_executor.md). -/
def LAP_TLAST (n : Nat) : Nat := 0x20118 + 0x20 * n
/-- longest execution time of LTn (07_lap_executor.md). -/
def LAP_TMAX (n : Nat) : Nat := 0x2011c + 0x20 * n
/-- loop control (08_loop_engine.md). -/
def LOOP_CTL (n : Nat) : Nat := 0x100000 + 0x100 * n
/-- sampling; written only while EFF is 0 (08_loop_engine.md). -/
def LOOP_PER (n : Nat) : Nat := 0x100004 + 0x100 * n
/-- timer offset; written only while EFF is 0 (08_loop_engine.md). -/
def LOOP_OFS (n : Nat) : Nat := 0x100008 + 0x100 * n
/-- loop status (08_loop_engine.md). -/
def LOOP_STAT (n : Nat) : Nat := 0x10000c + 0x100 * n
/-- latched conditions (08_loop_engine.md). -/
def LOOP_FLAG (n : Nat) : Nat := 0x100010 + 0x100 * n
/-- counts (08_loop_engine.md). -/
def LOOP_CNT (n : Nat) : Nat := 0x100014 + 0x100 * n
/-- manual value (08_loop_engine.md). -/
def LOOP_MAN (n : Nat) : Nat := 0x100018 + 0x100 * n
/-- set-point target (08_loop_engine.md). -/
def LOOP_SPT (n : Nat) : Nat := 0x10001c + 0x100 * n
/-- feed-forward input (08_loop_engine.md). -/
def LOOP_FF (n : Nat) : Nat := 0x100020 + 0x100 * n
/-- start value (08_loop_engine.md). -/
def LOOP_START (n : Nat) : Nat := 0x100024 + 0x100 * n
/-- latest outputs (08_loop_engine.md). -/
def LOOP_OUT (n : Nat) : Nat := 0x100028 + 0x100 * n
/-- latest set-points (08_loop_engine.md). -/
def LOOP_SP (n : Nat) : Nat := 0x10002c + 0x100 * n
/-- cascade position (08_loop_engine.md). -/
def LOOP_CASC (n : Nat) : Nat := 0x100030 + 0x100 * n
/-- engine load (08_loop_engine.md). -/
def LOOP_GSTAT : Nat := 0x110020
/-- relay triggers (08_loop_engine.md). -/
def LOOP_TRIG : Nat := 0x110024
/-- swap selection, k = 0 to 7 (08_loop_engine.md). -/
def LOOP_SWSEL (k : Nat) : Nat := 0x110100 + 0x4 * k
/-- group swap (08_loop_engine.md). -/
def LOOP_SWGO : Nat := 0x110120
/-- profile generator state of loop n, n = 0 to 255 (09_loop_shaping.md). -/
def LOOP_PGSTAT (n : Nat) : Nat := 0x110400 + 0x4 * n
/-- engine state (10_pacer_model.md). -/
def PACER_STAT : Nat := 0x200020
/-- horizon (10_pacer_model.md). -/
def PACER_CFG : Nat := 0x200024
/-- ADMM penalty (10_pacer_model.md). -/
def PACER_RHO : Nat := 0x200028
/-- primal tolerance (10_pacer_model.md). -/
def PACER_EPSP : Nat := 0x20002c
/-- dual tolerance (10_pacer_model.md). -/
def PACER_EPSD : Nat := 0x200030
/-- shape of the problem in SRAM (10_pacer_model.md). -/
def PACER_SHAPE : Nat := 0x200034
/-- workspace per step (10_pacer_model.md). -/
def PACER_WSTEP : Nat := 0x200038
/-- iteration time (10_pacer_model.md). -/
def PACER_ITIME : Nat := 0x20003c
/-- factorisation time (10_pacer_model.md). -/
def PACER_FTIME : Nat := 0x200040
/-- iterations (10_pacer_model.md). -/
def PACER_ITER : Nat := 0x200044
/-- lanes of the current plan (10_pacer_model.md). -/
def PACER_LANES : Nat := 0x200048
/-- plan period and rounds (11_pacer_federation.md). -/
def PACER_FCFG : Nat := 0x200080
/-- reply timeouts (11_pacer_federation.md). -/
def PACER_FTMO : Nat := 0x200084
/-- probes (11_pacer_federation.md). -/
def PACER_FPROBE : Nat := 0x200088
/-- probe price step (11_pacer_federation.md). -/
def PACER_PSTEP : Nat := 0x20008c
/-- coupling penalty (11_pacer_federation.md). -/
def PACER_RHOF : Nat := 0x200090
/-- port proximity (11_pacer_federation.md). -/
def PACER_RHOP : Nat := 0x200094
/-- group primal tolerance (11_pacer_federation.md). -/
def PACER_EPSFP : Nat := 0x200098
/-- group dual tolerance (11_pacer_federation.md). -/
def PACER_EPSFD : Nat := 0x20009c
/-- iterations per round and plan object (11_pacer_federation.md). -/
def PACER_FITER : Nat := 0x2000a0
/-- latest plan (11_pacer_federation.md). -/
def PACER_FSTAT : Nat := 0x2000a4
/-- metrology status (12_metrology.md). -/
def MET_STAT : Nat := 0x300020
/-- global settings (12_metrology.md). -/
def MET_CFG : Nat := 0x300024
/-- measured frequency (12_metrology.md). -/
def MET_FREQ : Nat := 0x300028
/-- calibration changes (12_metrology.md). -/
def MET_CALCNT : Nat := 0x30002c
/-- channel configuration (12_metrology.md). -/
def MET_CHCFG (n : Nat) : Nat := 0x300100 + 0x10 * n
/-- circuit configuration (12_metrology.md). -/
def MET_CIRCFG (c : Nat) : Nat := 0x300300 + 0x10 * c
/-- thermal meter configuration (12_metrology.md). -/
def MET_THCFG (t : Nat) : Nat := 0x300400 + 0x20 * t
/-- pulse output configuration (12_metrology.md). -/
def MET_POCFG (p : Nat) : Nat := 0x300500 + 0x4 * p
/-- SAFE mirror snapshot request (SYS block) (13_safety.md). -/
def SYS_SAFE_SNAP_CTL : Nat := 0xc8
/-- channel presence (13_safety.md). -/
def SAFE_PRES : Nat := 0x380020
/-- channel state (13_safety.md). -/
def SAFE_CHA : Nat := 0x380040
/-- channel state (13_safety.md). -/
def SAFE_CHB : Nat := 0x380044
/-- OSSD state, byte o for pair o = 0 to 3 (13_safety.md). -/
def SAFE_OSSDA : Nat := 0x380058
/-- OSSD state, byte o for pair o = 0 to 3 (13_safety.md). -/
def SAFE_OSSDB : Nat := 0x38005c
/-- role and topology (14_relay_ring.md). -/
def RELAY_CFG : Nat := 0x400020
/-- period (14_relay_ring.md). -/
def RELAY_PER : Nat := 0x400024
/-- payload (14_relay_ring.md). -/
def RELAY_LEN : Nat := 0x400028
/-- loss, hold and trigger (14_relay_ring.md). -/
def RELAY_TMO : Nat := 0x40002c
/-- message class weights (14_relay_ring.md). -/
def RELAY_WGT : Nat := 0x400030
/-- state (14_relay_ring.md). -/
def RELAY_STAT : Nat := 0x400034
/-- ring delay (14_relay_ring.md). -/
def RELAY_DELAY : Nat := 0x400038
/-- ring map identity (14_relay_ring.md). -/
def RELAY_MAPID : Nat := 0x40003c
/-- counts (14_relay_ring.md). -/
def RELAY_CNT : Nat := 0x400040
/-- map commit (14_relay_ring.md). -/
def RELAY_MAPGO : Nat := 0x400044
/-- active slot map entry n, n = 0 to 31 (14_relay_ring.md). -/
def RELAY_MAP (n : Nat) : Nat := 0x400100 + 0x4 * n
/-- staged slot map entry n (14_relay_ring.md). -/
def RELAY_MAPS (n : Nat) : Nat := 0x400180 + 0x4 * n
/-- channel control (15_can_channels.md). -/
def CAN_CTL (c : Nat) : Nat := 0x480020 + 0x10000 * c
/-- nominal bit timing (15_can_channels.md). -/
def CAN_NBT (c : Nat) : Nat := 0x480024 + 0x10000 * c
/-- data bit timing (15_can_channels.md). -/
def CAN_DBT (c : Nat) : Nat := 0x480028 + 0x10000 * c
/-- schedule (15_can_channels.md). -/
def CAN_TT (c : Nat) : Nat := 0x48002c + 0x10000 * c
/-- bus state (15_can_channels.md). -/
def CAN_STAT (c : Nat) : Nat := 0x480030 + 0x10000 * c
/-- frame time bound (15_can_channels.md). -/
def CAN_TMAX (c : Nat) : Nat := 0x480034 + 0x10000 * c
/-- transmit FIFO (15_can_channels.md). -/
def CAN_FIFO (c : Nat) : Nat := 0x480038 + 0x10000 * c
/-- transmit counts (15_can_channels.md). -/
def CAN_CNT1 (c : Nat) : Nat := 0x48003c + 0x10000 * c
/-- schedule and filter counts (15_can_channels.md). -/
def CAN_CNT2 (c : Nat) : Nat := 0x480040 + 0x10000 * c
/-- firmware send and cancel (15_can_channels.md). -/
def CAN_TXCTL (c : Nat) : Nat := 0x480044 + 0x10000 * c
/-- staged data word w, w = 0 to 15; first byte most significant (15_can_channels.md). -/
def CAN_TXD (c : Nat) (w : Nat) : Nat := 0x480600 + 0x10000 * c + 0x4 * w
/-- object configuration (15_can_channels.md). -/
def CAN_OCFG (c : Nat) (m : Nat) : Nat := 0x480100 + 0x10000 * c + 0x10 * m
/-- identifier (15_can_channels.md). -/
def CAN_OID (c : Nat) (m : Nat) : Nat := 0x480104 + 0x10000 * c + 0x10 * m
/-- schedule mask and timeout (15_can_channels.md). -/
def CAN_OTIM (c : Nat) (m : Nat) : Nat := 0x480108 + 0x10000 * c + 0x10 * m
/-- object status (15_can_channels.md). -/
def CAN_OST (c : Nat) (m : Nat) : Nat := 0x48010c + 0x10000 * c + 0x10 * m
/-- column k, k = 0 to 63 (15_can_channels.md). -/
def CAN_TTCOL (c : Nat) (k : Nat) : Nat := 0x480500 + 0x10000 * c + 0x4 * k
/-- UDP ports (16_ethernet_and_furun.md). -/
def ETH_NET : Nat := 0x500020
/-- port configuration (16_ethernet_and_furun.md). -/
def ETH_PCFG (p : Nat) : Nat := 0x500100 + 0x40 * p
/-- port status (16_ethernet_and_furun.md). -/
def ETH_PSTAT (p : Nat) : Nat := 0x500104 + 0x40 * p
/-- egress weights (16_ethernet_and_furun.md). -/
def ETH_WGT (p : Nat) : Nat := 0x500108 + 0x40 * p
/-- filter entry e, e = 0 to 15, low word (16_ethernet_and_furun.md). -/
def ETH_FLTLO (p : Nat) (e : Nat) : Nat := 0x500200 + 0x80 * p + 0x8 * e
/-- filter entry e, high word; its write commits the entry (R102) (16_ethernet_and_furun.md). -/
def ETH_FLTHI (p : Nat) (e : Nat) : Nat := 0x500204 + 0x80 * p + 0x8 * e
/-- timing (16_ethernet_and_furun.md). -/
def FURUN_CFG : Nat := 0x580020
/-- state (16_ethernet_and_furun.md). -/
def FURUN_STAT : Nat := 0x580024
/-- clock status (17_time_and_rtc.md). -/
def RTC_STAT : Nat := 0x600020
/-- PTP configuration (17_time_and_rtc.md). -/
def RTC_PTP : Nat := 0x600024
/-- step threshold (17_time_and_rtc.md). -/
def RTC_STEP : Nat := 0x600028
/-- RTC rate trim (17_time_and_rtc.md). -/
def RTC_TRIM : Nat := 0x60002c
/-- calendar date (17_time_and_rtc.md). -/
def RTC_DATE : Nat := 0x600044
/-- calendar date (17_time_and_rtc.md). -/
def RTC_STG_DATE : Nat := 0x600068
/-- time of day, UTC (17_time_and_rtc.md). -/
def RTC_TIME : Nat := 0x600048
/-- time of day, UTC (17_time_and_rtc.md). -/
def RTC_STG_TIME : Nat := 0x60006c
/-- staged write commit (17_time_and_rtc.md). -/
def RTC_COMMIT : Nat := 0x600074
/-- pending leap second (17_time_and_rtc.md). -/
def RTC_LEAP : Nat := 0x60007c
/-- alarm a, a = 0 to 3, high word; its write commits the alarm with RTC_ALMLOa (offset 0x100 + 0x10·a, TAI bits 31:0) (17_time_and_rtc.md). -/
def RTC_ALMHI (a : Nat) : Nat := 0x600104 + 0x10 * a
/-- engine status (18_keys_and_tenancy.md). -/
def KEYS_STAT : Nat := 0x680020
/-- anti-rollback counter (18_keys_and_tenancy.md). -/
def KEYS_ROLLBACK : Nat := 0x680024
/-- tamper arming (18_keys_and_tenancy.md). -/
def KEYS_TAMPER_CFG : Nat := 0x680028
/-- tamper latch (18_keys_and_tenancy.md). -/
def KEYS_TAMPER_STAT : Nat := 0x68002c
/-- seal epoch (18_keys_and_tenancy.md). -/
def KEYS_EPOCH : Nat := 0x680030
/-- operational key generation (18_keys_and_tenancy.md). -/
def KEYS_CERT_GEN : Nat := 0x680034
/-- update status (19_field_update.md). -/
def UPD_STAT : Nat := 0x700020
/-- trial settings (19_field_update.md). -/
def UPD_CFG : Nat := 0x700024
/-- chunks staged (19_field_update.md). -/
def UPD_RCVD : Nat := 0x700028
/-- chunks to stage (19_field_update.md). -/
def UPD_TOTAL : Nat := 0x70002c
/-- commit record (19_field_update.md). -/
def UPD_SEQ : Nat := 0x700030
/-- trial timing (19_field_update.md). -/
def UPD_HEALTH : Nat := 0x700034
/-- repeat window (20_recorder_and_dma.md). -/
def EVR_CFG : Nat := 0x780020
/-- trigger span (20_recorder_and_dma.md). -/
def EVR_TRIG : Nat := 0x780024
/-- store state (20_recorder_and_dma.md). -/
def EVR_STAT : Nat := 0x780028
/-- dropped events (20_recorder_and_dma.md). -/
def EVR_DROP : Nat := 0x78002c
/-- overwrites (20_recorder_and_dma.md). -/
def EVR_OVW : Nat := 0x780030
/-- overwritten records (20_recorder_and_dma.md). -/
def EVR_OVWCNT : Nat := 0x780034
/-- span release (20_recorder_and_dma.md). -/
def EVR_TRIGCTL : Nat := 0x780038
/-- window w, w = 0 to 15 (20_recorder_and_dma.md). -/
def EVR_WCFG (w : Nat) : Nat := 0x780100 + 0x10 * w
/-- window advance (20_recorder_and_dma.md). -/
def EVR_WCTL (w : Nat) : Nat := 0x780104 + 0x10 * w
/-- block mask (20_recorder_and_dma.md). -/
def EVR_WMASK (w : Nat) : Nat := 0x780108 + 0x10 * w
/-- lost records (20_recorder_and_dma.md). -/
def EVR_WLOST (w : Nat) : Nat := 0x78010c + 0x10 * w
/-- engine state (20_recorder_and_dma.md). -/
def DMA_GSTAT : Nat := 0x800020
/-- halted channels (20_recorder_and_dma.md). -/
def DMA_HALT : Nat := 0x800024
/-- channel control, c = 0 to 31 (20_recorder_and_dma.md). -/
def DMA_CHCTL (c : Nat) : Nat := 0x800100 + 0x20 * c
/-- first descriptor; the DMA_CHDHIc write commits (R102); writes while not IDLE are discarded (20_recorder_and_dma.md). -/
def DMA_CHDLO (c : Nat) : Nat := 0x800104 + 0x20 * c
/-- first descriptor; the DMA_CHDHIc write commits (R102); writes while not IDLE are discarded (20_recorder_and_dma.md). -/
def DMA_CHDHI (c : Nat) : Nat := 0x800108 + 0x20 * c
/-- channel state (20_recorder_and_dma.md). -/
def DMA_CHSTAT (c : Nat) : Nat := 0x80010c + 0x20 * c
/-- field supply (21_connectors_io_electrical.md). -/
def UIO_GSTAT : Nat := 0x900020
/-- configuration of channel n, n = 0 to 15 (21_connectors_io_electrical.md). -/
def UIO_CFG (n : Nat) : Nat := 0x900100 + 0x20 * n
/-- NTC constant (21_connectors_io_electrical.md). -/
def UIO_BETA (n : Nat) : Nat := 0x900104 + 0x20 * n
/-- output value from firmware (21_connectors_io_electrical.md). -/
def UIO_OUT (n : Nat) : Nat := 0x900108 + 0x20 * n
/-- channel status (21_connectors_io_electrical.md). -/
def UIO_STAT (n : Nat) : Nat := 0x90010c + 0x20 * n
/-- latest value (21_connectors_io_electrical.md). -/
def UIO_VAL (n : Nat) : Nat := 0x900110 + 0x20 * n
/-- Table 5.4: LEDGER_EIN_LO, LEDGER_EIN_HI, LEDGER_DRAW_S, LEDGER_BANK_S (05_modes_and_energy_ledger.md). -/
def LEDGER_S (w : Nat) : Nat := 0x10060 + 0x4 * w
/-- Table 7.7: LAP_PID0 to LAP_PID7 (07_lap_executor.md). -/
def LAP_PID (w : Nat) : Nat := 0x20040 + 0x4 * w
/-- Table 7.7: LAP_SWCNT (07_lap_executor.md). -/
def LAP_SWCNT : Nat := 0x20060
/-- Table 7.8: LAP_S_LAP, LAP_S_TS, LAP_S_MONO, LO and HI (07_lap_executor.md). -/
def LAP_S (w : Nat) : Nat := 0x20080 + 0x4 * w
/-- Table 8.9: BC of banks 0 and 1 (08_loop_engine.md). -/
def LOOP_BANKU (n : Nat) (b : Nat) : Nat := 0x100058 + 0x100 * n + 0x60 * b
/-- Table 8.9: UMAX and UMIN of banks 0 and 1 (08_loop_engine.md). -/
def LOOP_BANKY (n : Nat) (b : Nat) : Nat := 0x10005c + 0x100 * n + 0x60 * b
/-- Table 8.11: LOOP_BANKn_b_i, word 24·b + i (08_loop_engine.md). -/
def LOOP_BANK (n : Nat) (w : Nat) : Nat := 0x100040 + 0x100 * n + 0x4 * w
/-- Table 8.12: LOOP snapshot words (08_loop_engine.md). -/
def LOOP_S (w : Nat) : Nat := 0x110040 + 0x4 * w
/-- Table 10.7: PACER snapshot words (10_pacer_model.md). -/
def PACER_S (w : Nat) : Nat := 0x200060 + 0x4 * w
/-- Table 12.9 KS, FP32 (12_metrology.md). -/
def MET_KS (n : Nat) : Nat := 0x300104 + 0x10 * n
/-- Table 12.9 GAIN, FP32 (12_metrology.md). -/
def MET_GAIN (n : Nat) : Nat := 0x300108 + 0x10 * n
/-- Table 12.9 In in A, FP32 (12_metrology.md). -/
def MET_IN (n : Nat) : Nat := 0x300304 + 0x10 * n
/-- Table 12.9 FS in W (12_metrology.md). -/
def MET_FS (n : Nat) : Nat := 0x300308 + 0x10 * n
/-- Table 12.9 as element 41 of Table 12.3 (12_metrology.md). -/
def MET_CIRSTAT (n : Nat) : Nat := 0x30030c + 0x10 * n
/-- Table 12.9 PN and DT_MIN (12_metrology.md). -/
def MET_THPAR (n : Nat) : Nat := 0x300404 + 0x20 * n
/-- Table 12.9 VPULSE in L, FP32 (12_metrology.md). -/
def MET_VPULSE (n : Nat) : Nat := 0x300408 + 0x20 * n
/-- Table 12.9 TCOOL in degrees C, FP32 (12_metrology.md). -/
def MET_TCOOL (n : Nat) : Nat := 0x30040c + 0x20 * n
/-- Table 12.9 as element 16 of Table 12.5 (12_metrology.md). -/
def MET_THSTAT (n : Nat) : Nat := 0x300410 + 0x20 * n
/-- Table 12.10: MET_S_w (12_metrology.md). -/
def MET_S (w : Nat) : Nat := 0x300800 + 0x4 * w
/-- Table 12.10: MET_S_TLO, MET_S_THI (12_metrology.md). -/
def MET_S_T (w : Nat) : Nat := 0x3008f8 + 0x4 * w
/-- Table 13.10: SAFE_PAIRSA, SAFE_PAIRSB (13_safety.md). -/
def SAFE_PAIRS (w : Nat) : Nat := 0x380048 + 0x4 * w
/-- Table 13.10: SAFE_FUNCA, SAFE_FUNCB (13_safety.md). -/
def SAFE_FUNC (w : Nat) : Nat := 0x380050 + 0x4 * w
/-- Table 13.10: SAFE_CHKA, SAFE_CHKB (13_safety.md). -/
def SAFE_CHK (w : Nat) : Nat := 0x380060 + 0x4 * w
/-- Table 13.10: SAFE_STGA, SAFE_STGB (13_safety.md). -/
def SAFE_STG (w : Nat) : Nat := 0x380068 + 0x4 * w
/-- Table 13.10: SAFE_SEQA, SAFE_SEQB (13_safety.md). -/
def SAFE_SEQ (w : Nat) : Nat := 0x380070 + 0x4 * w
/-- Table 13.10: SAFE_S_TLO, SAFE_S_THI (13_safety.md). -/
def SAFE_S_T (w : Nat) : Nat := 0x380078 + 0x4 * w
/-- Table 14.10: PER, SOF, LOSTw, DROPS, SUPER (14_relay_ring.md). -/
def RELAY_S (w : Nat) : Nat := 0x400080 + 0x4 * w
/-- Table 15.4: ID, FMT, TLO, THI, Dw (15_can_channels.md). -/
def CAN_S (c : Nat) (w : Nat) : Nat := 0x480800 + 0x10000 * c + 0x4 * w
/-- Table 16.8 (16_ethernet_and_furun.md). -/
def ETH_S (w : Nat) : Nat := 0x500040 + 0x4 * w
/-- Table 16.10 (16_ethernet_and_furun.md). -/
def FURUN_S (w : Nat) : Nat := 0x580040 + 0x4 * w
/-- Table 17.4 (17_time_and_rtc.md). -/
def RTC_TAI_LO : Nat := 0x600040
/-- Table 17.4 (17_time_and_rtc.md). -/
def RTC_TAI_HI : Nat := 0x60004c
/-- Table 17.4 (17_time_and_rtc.md). -/
def RTC_OFS : Nat := 0x600050
/-- Table 17.4 (17_time_and_rtc.md). -/
def RTC_STG_TAI_LO : Nat := 0x600060
/-- Table 17.4 (17_time_and_rtc.md). -/
def RTC_STG_TAI_HI : Nat := 0x600064
/-- Table 17.4 (17_time_and_rtc.md). -/
def RTC_STG_OFS : Nat := 0x600070
/-- Table 17.4 (17_time_and_rtc.md). -/
def RTC_LOCAL : Nat := 0x600078
/-- RTC_ALMLOa: TAI bits 31:0 of alarm a (17_time_and_rtc.md). -/
def RTC_ALMLO (a : Nat) : Nat := 0x600100 + 0x10 * a
/-- Table 17.5 (17_time_and_rtc.md). -/
def RTC_S (w : Nat) : Nat := 0x600080 + 0x4 * w
/-- Table 18.7 (18_keys_and_tenancy.md). -/
def KEYS_S (w : Nat) : Nat := 0x680040 + 0x4 * w
/-- Table 19.8 (19_field_update.md). -/
def UPD_S (w : Nat) : Nat := 0x700040 + 0x4 * w
/-- Table 20.3 (20_recorder_and_dma.md). -/
def EVR_S (w : Nat) : Nat := 0x780040 + 0x4 * w
/-- Table 20.5 (20_recorder_and_dma.md). -/
def DMA_S (w : Nat) : Nat := 0x800040 + 0x4 * w
/-- Table 21.15 (21_connectors_io_electrical.md). -/
def UIO_S (w : Nat) : Nat := 0x900040 + 0x4 * w

end Reg

namespace F

def SYS_PD_STAT_OFFACC : Fld := ⟨Reg.SYS_PD_STAT, 26, 16⟩
def SYS_PD_STAT_ON : Fld := ⟨Reg.SYS_PD_STAT, 10, 0⟩
def SYS_CLK_STAT_LOST : Fld := ⟨Reg.SYS_CLK_STAT, 25, 16⟩
def SYS_CLK_STAT_OK : Fld := ⟨Reg.SYS_CLK_STAT, 9, 0⟩
def SYS_BUS_STAT_UNALIGNED : Fld := ⟨Reg.SYS_BUS_STAT, 1, 1⟩
def SYS_BUS_STAT_NARROW : Fld := ⟨Reg.SYS_BUS_STAT, 0, 0⟩
def SYS_BUS_ADDR_OFFSET : Fld := ⟨Reg.SYS_BUS_ADDR, 23, 0⟩
def SYS_INT_PEND_PEND : Fld := ⟨Reg.SYS_INT_PEND, 31, 0⟩
def SYS_SAFE_INT_EN_EN : Fld := ⟨Reg.SYS_SAFE_INT_EN, 31, 0⟩
def SYS_SAFE_INT_CLR_CLR : Fld := ⟨Reg.SYS_SAFE_INT_CLR, 31, 0⟩
def SYS_INT_ROUTE_EN (n : Nat) : Fld := ⟨Reg.SYS_INT_ROUTE n, 31, 31⟩
def SYS_INT_ROUTE_PRIO (n : Nat) : Fld := ⟨Reg.SYS_INT_ROUTE n, 10, 8⟩
def SYS_INT_ROUTE_CORE (n : Nat) : Fld := ⟨Reg.SYS_INT_ROUTE n, 3, 0⟩
def DRILL_BIND_EN (h : Nat) : Fld := ⟨Reg.DRILL_BIND h, 31, 31⟩
def DRILL_BIND_NUM (h : Nat) : Fld := ⟨Reg.DRILL_BIND h, 6, 0⟩
def DRILL_CNT_OVERRUN (h : Nat) : Fld := ⟨Reg.DRILL_CNT h, 31, 16⟩
def DRILL_CNT_FAULT (h : Nat) : Fld := ⟨Reg.DRILL_CNT h, 15, 0⟩
def LEDGER_MODE_CAUSE : Fld := ⟨Reg.LEDGER_MODE, 11, 8⟩
def LEDGER_MODE_BASE : Fld := ⟨Reg.LEDGER_MODE, 6, 4⟩
def LEDGER_MODE_CUR : Fld := ⟨Reg.LEDGER_MODE, 2, 0⟩
def LEDGER_MODE_CFG_ISL_TO : Fld := ⟨Reg.LEDGER_MODE_CFG, 31, 16⟩
def LEDGER_MODE_CFG_AUTO_RUN : Fld := ⟨Reg.LEDGER_MODE_CFG, 4, 4⟩
def LEDGER_MODE_CFG_RUN_MODE : Fld := ⟨Reg.LEDGER_MODE_CFG, 2, 0⟩
def LEDGER_SRC_PSE_ALLOC : Fld := ⟨Reg.LEDGER_SRC, 15, 8⟩
def LEDGER_SRC_CLASS : Fld := ⟨Reg.LEDGER_SRC, 7, 4⟩
def LEDGER_SRC_POE : Fld := ⟨Reg.LEDGER_SRC, 1, 1⟩
def LEDGER_SRC_VIN : Fld := ⟨Reg.LEDGER_SRC, 0, 0⟩
def LEDGER_BUDGET_MW : Fld := ⟨Reg.LEDGER_BUDGET, 31, 0⟩
def LEDGER_EXT_MW : Fld := ⟨Reg.LEDGER_EXT, 31, 0⟩
def LEDGER_ALLOC_MW : Fld := ⟨Reg.LEDGER_ALLOC, 31, 0⟩
def LEDGER_DRAW_MW : Fld := ⟨Reg.LEDGER_DRAW, 31, 0⟩
def LEDGER_BANK_MJ : Fld := ⟨Reg.LEDGER_BANK, 31, 0⟩
def LEDGER_HOLD_MIN_MJ : Fld := ⟨Reg.LEDGER_HOLD_MIN, 15, 0⟩
def LEDGER_APP_LIM_CEIL : Fld := ⟨Reg.LEDGER_APP_LIM, 21, 16⟩
def LEDGER_APP_LIM_FLOOR : Fld := ⟨Reg.LEDGER_APP_LIM, 5, 0⟩
def LEDGER_LANE_LIM_EPLAN : Fld := ⟨Reg.LEDGER_LANE_LIM, 31, 16⟩
def LEDGER_LANE_LIM_CEIL : Fld := ⟨Reg.LEDGER_LANE_LIM, 14, 8⟩
def LEDGER_LANE_LIM_FLOOR : Fld := ⟨Reg.LEDGER_LANE_LIM, 6, 0⟩
def LEDGER_PORT_LIM_LPI_EN : Fld := ⟨Reg.LEDGER_PORT_LIM, 16, 16⟩
def LEDGER_PORT_LIM_E1_CEIL : Fld := ⟨Reg.LEDGER_PORT_LIM, 13, 12⟩
def LEDGER_PORT_LIM_E1_FLOOR : Fld := ⟨Reg.LEDGER_PORT_LIM, 9, 8⟩
def LEDGER_PORT_LIM_E0_CEIL : Fld := ⟨Reg.LEDGER_PORT_LIM, 5, 4⟩
def LEDGER_PORT_LIM_E0_FLOOR : Fld := ⟨Reg.LEDGER_PORT_LIM, 1, 0⟩
def LEDGER_EFF_APP : Fld := ⟨Reg.LEDGER_EFF, 29, 24⟩
def LEDGER_EFF_LANES : Fld := ⟨Reg.LEDGER_EFF, 22, 16⟩
def LEDGER_EFF_E1 : Fld := ⟨Reg.LEDGER_EFF, 13, 12⟩
def LEDGER_EFF_E0 : Fld := ⟨Reg.LEDGER_EFF, 9, 8⟩
def LEDGER_EFF_FLOOR_UNMET : Fld := ⟨Reg.LEDGER_EFF, 0, 0⟩
def LEDGER_HOLD_LAST_BANK_END : Fld := ⟨Reg.LEDGER_HOLD_LAST, 31, 16⟩
def LEDGER_HOLD_LAST_STEPS : Fld := ⟨Reg.LEDGER_HOLD_LAST, 8, 0⟩
def SYS_RST_STAT_PUBLISHED : Fld := ⟨Reg.SYS_RST_STAT, 19, 19⟩
def SYS_RST_STAT_INCOMPLETE : Fld := ⟨Reg.SYS_RST_STAT, 18, 18⟩
def SYS_RST_STAT_TRIAL : Fld := ⟨Reg.SYS_RST_STAT, 17, 17⟩
def SYS_RST_STAT_SET : Fld := ⟨Reg.SYS_RST_STAT, 16, 16⟩
def SYS_RST_STAT_WARM_REFUSE : Fld := ⟨Reg.SYS_RST_STAT, 14, 12⟩
def SYS_RST_STAT_RESTART : Fld := ⟨Reg.SYS_RST_STAT, 8, 8⟩
def SYS_RST_STAT_KIND : Fld := ⟨Reg.SYS_RST_STAT, 2, 0⟩
def SYS_START_CNT_COUNT : Fld := ⟨Reg.SYS_START_CNT, 31, 0⟩
def SYS_RST_CFG_WDT_TO : Fld := ⟨Reg.SYS_RST_CFG, 15, 8⟩
def SYS_RST_CFG_WARM_EN : Fld := ⟨Reg.SYS_RST_CFG, 0, 0⟩
def SYS_WDT_KICK_KEY : Fld := ⟨Reg.SYS_WDT_KICK, 7, 0⟩
def LAP_STAT_FORCES : Fld := ⟨Reg.LAP_STAT, 24, 16⟩
def LAP_STAT_OC_STATE : Fld := ⟨Reg.LAP_STAT, 10, 8⟩
def LAP_STAT_RESTART : Fld := ⟨Reg.LAP_STAT, 2, 2⟩
def LAP_STAT_SLOT : Fld := ⟨Reg.LAP_STAT, 0, 0⟩
def LAP_OC_CFG_SW_WAIT : Fld := ⟨Reg.LAP_OC_CFG, 31, 16⟩
def LAP_OC_CFG_XFER_MAX : Fld := ⟨Reg.LAP_OC_CFG, 15, 0⟩
def LAP_OC_STAT_XFER_EST : Fld := ⟨Reg.LAP_OC_STAT, 31, 16⟩
def LAP_OC_STAT_RESULT : Fld := ⟨Reg.LAP_OC_STAT, 7, 0⟩
def LAP_TCFG_CORE (n : Nat) : Fld := ⟨Reg.LAP_TCFG n, 25, 24⟩
def LAP_TCFG_OVR_LIMIT (n : Nat) : Fld := ⟨Reg.LAP_TCFG n, 23, 16⟩
def LAP_TCFG_HALT_ACT (n : Nat) : Fld := ⟨Reg.LAP_TCFG n, 4, 4⟩
def LAP_TCFG_COMMIT (n : Nat) : Fld := ⟨Reg.LAP_TCFG n, 2, 2⟩
def LAP_TCFG_ALIGN (n : Nat) : Fld := ⟨Reg.LAP_TCFG n, 1, 1⟩
def LAP_TCFG_EN (n : Nat) : Fld := ⟨Reg.LAP_TCFG n, 0, 0⟩
def LAP_TPER_PERIOD (n : Nat) : Fld := ⟨Reg.LAP_TPER n, 25, 0⟩
def LAP_TOFS_OFS (n : Nat) : Fld := ⟨Reg.LAP_TOFS n, 25, 0⟩
def LAP_TCOM_COMMIT_OFS (n : Nat) : Fld := ⟨Reg.LAP_TCOM n, 25, 0⟩
def LAP_TSTAT_CONSEC (n : Nat) : Fld := ⟨Reg.LAP_TSTAT n, 31, 24⟩
def LAP_TSTAT_STATE (n : Nat) : Fld := ⟨Reg.LAP_TSTAT n, 2, 0⟩
def LAP_TCNT_OVERRUN (n : Nat) : Fld := ⟨Reg.LAP_TCNT n, 31, 16⟩
def LAP_TCNT_LATE (n : Nat) : Fld := ⟨Reg.LAP_TCNT n, 15, 0⟩
def LAP_TLAST_US (n : Nat) : Fld := ⟨Reg.LAP_TLAST n, 31, 0⟩
def LAP_TMAX_US (n : Nat) : Fld := ⟨Reg.LAP_TMAX n, 31, 0⟩
def LOOP_CTL_SWAP (n : Nat) : Fld := ⟨Reg.LOOP_CTL n, 31, 31⟩
def LOOP_CTL_ACTB (n : Nat) : Fld := ⟨Reg.LOOP_CTL n, 30, 30⟩
def LOOP_CTL_MODE (n : Nat) : Fld := ⟨Reg.LOOP_CTL n, 26, 24⟩
def LOOP_CTL_MODE_INIT (n : Nat) : Fld := ⟨Reg.LOOP_CTL n, 21, 20⟩
def LOOP_CTL_BL_SWAP (n : Nat) : Fld := ⟨Reg.LOOP_CTL n, 19, 19⟩
def LOOP_CTL_CASC_AW (n : Nat) : Fld := ⟨Reg.LOOP_CTL n, 18, 18⟩
def LOOP_CTL_SUBST_OK (n : Nat) : Fld := ⟨Reg.LOOP_CTL n, 17, 17⟩
def LOOP_CTL_PVBAD_ACT (n : Nat) : Fld := ⟨Reg.LOOP_CTL n, 15, 14⟩
def LOOP_PER_TRIG (n : Nat) : Fld := ⟨Reg.LOOP_PER n, 31, 30⟩
def LOOP_PER_DIV (n : Nat) : Fld := ⟨Reg.LOOP_PER n, 29, 24⟩
def LOOP_PER_PERIOD (n : Nat) : Fld := ⟨Reg.LOOP_PER n, 23, 0⟩
def LOOP_OFS_OFS (n : Nat) : Fld := ⟨Reg.LOOP_OFS n, 23, 0⟩
def LOOP_STAT_DLOST (n : Nat) : Fld := ⟨Reg.LOOP_STAT n, 23, 23⟩
def LOOP_STAT_PVBAD (n : Nat) : Fld := ⟨Reg.LOOP_STAT n, 22, 22⟩
def LOOP_STAT_TRIG_LOST (n : Nat) : Fld := ⟨Reg.LOOP_STAT n, 21, 21⟩
def LOOP_STAT_AWH (n : Nat) : Fld := ⟨Reg.LOOP_STAT n, 20, 20⟩
def LOOP_STAT_RATE (n : Nat) : Fld := ⟨Reg.LOOP_STAT n, 19, 19⟩
def LOOP_STAT_LO (n : Nat) : Fld := ⟨Reg.LOOP_STAT n, 18, 18⟩
def LOOP_STAT_HI (n : Nat) : Fld := ⟨Reg.LOOP_STAT n, 17, 17⟩
def LOOP_STAT_CAUSE (n : Nat) : Fld := ⟨Reg.LOOP_STAT n, 10, 8⟩
def LOOP_STAT_EFF (n : Nat) : Fld := ⟨Reg.LOOP_STAT n, 2, 0⟩
def LOOP_FLAG_SWAPERR (n : Nat) : Fld := ⟨Reg.LOOP_FLAG n, 3, 3⟩
def LOOP_FLAG_TRIGLOSS (n : Nat) : Fld := ⟨Reg.LOOP_FLAG n, 2, 2⟩
def LOOP_FLAG_SKIP (n : Nat) : Fld := ⟨Reg.LOOP_FLAG n, 1, 1⟩
def LOOP_FLAG_SAT (n : Nat) : Fld := ⟨Reg.LOOP_FLAG n, 0, 0⟩
def LOOP_CNT_SKIP (n : Nat) : Fld := ⟨Reg.LOOP_CNT n, 31, 16⟩
def LOOP_CNT_SAT (n : Nat) : Fld := ⟨Reg.LOOP_CNT n, 15, 0⟩
def LOOP_MAN_MAN (n : Nat) : Fld := ⟨Reg.LOOP_MAN n, 15, 0⟩
def LOOP_SPT_SPT (n : Nat) : Fld := ⟨Reg.LOOP_SPT n, 15, 0⟩
def LOOP_FF_FF (n : Nat) : Fld := ⟨Reg.LOOP_FF n, 15, 0⟩
def LOOP_START_START (n : Nat) : Fld := ⟨Reg.LOOP_START n, 15, 0⟩
def LOOP_OUT_PV (n : Nat) : Fld := ⟨Reg.LOOP_OUT n, 31, 16⟩
def LOOP_OUT_OUT (n : Nat) : Fld := ⟨Reg.LOOP_OUT n, 15, 0⟩
def LOOP_SP_TGT (n : Nat) : Fld := ⟨Reg.LOOP_SP n, 31, 16⟩
def LOOP_SP_SP (n : Nat) : Fld := ⟨Reg.LOOP_SP n, 15, 0⟩
def LOOP_CASC_DEPTH (n : Nat) : Fld := ⟨Reg.LOOP_CASC n, 11, 9⟩
def LOOP_CASC_LINK (n : Nat) : Fld := ⟨Reg.LOOP_CASC n, 8, 8⟩
def LOOP_CASC_OUTER (n : Nat) : Fld := ⟨Reg.LOOP_CASC n, 7, 0⟩
def LOOP_GSTAT_UTIL : Fld := ⟨Reg.LOOP_GSTAT, 31, 24⟩
def LOOP_GSTAT_LOAD : Fld := ⟨Reg.LOOP_GSTAT, 13, 0⟩
def LOOP_TRIG_COUNT : Fld := ⟨Reg.LOOP_TRIG, 31, 0⟩
def LOOP_SWSEL_SEL (k : Nat) : Fld := ⟨Reg.LOOP_SWSEL k, 31, 0⟩
def LOOP_SWGO_GO : Fld := ⟨Reg.LOOP_SWGO, 0, 0⟩
def LOOP_PGSTAT_STATE (n : Nat) : Fld := ⟨Reg.LOOP_PGSTAT n, 31, 29⟩
def LOOP_PGSTAT_LATCHED (n : Nat) : Fld := ⟨Reg.LOOP_PGSTAT n, 28, 28⟩
def LOOP_PGSTAT_PHASE (n : Nat) : Fld := ⟨Reg.LOOP_PGSTAT n, 26, 24⟩
def LOOP_PGSTAT_REMAIN (n : Nat) : Fld := ⟨Reg.LOOP_PGSTAT n, 23, 0⟩
def PACER_STAT_ERR : Fld := ⟨Reg.PACER_STAT, 15, 8⟩
def PACER_STAT_STATE : Fld := ⟨Reg.PACER_STAT, 2, 0⟩
def PACER_CFG_STEPS : Fld := ⟨Reg.PACER_CFG, 23, 16⟩
def PACER_CFG_STEP_MIN : Fld := ⟨Reg.PACER_CFG, 5, 0⟩
def PACER_RHO_RHO : Fld := ⟨Reg.PACER_RHO, 31, 0⟩
def PACER_EPSP_EPS_P : Fld := ⟨Reg.PACER_EPSP, 31, 0⟩
def PACER_EPSD_EPS_D : Fld := ⟨Reg.PACER_EPSD, 31, 0⟩
def PACER_SHAPE_N : Fld := ⟨Reg.PACER_SHAPE, 31, 24⟩
def PACER_SHAPE_NX : Fld := ⟨Reg.PACER_SHAPE, 23, 16⟩
def PACER_SHAPE_NU : Fld := ⟨Reg.PACER_SHAPE, 15, 8⟩
def PACER_SHAPE_NG : Fld := ⟨Reg.PACER_SHAPE, 7, 0⟩
def PACER_WSTEP_BYTES : Fld := ⟨Reg.PACER_WSTEP, 31, 0⟩
def PACER_ITIME_NS : Fld := ⟨Reg.PACER_ITIME, 31, 0⟩
def PACER_FTIME_US : Fld := ⟨Reg.PACER_FTIME, 31, 0⟩
def PACER_ITER_ITER : Fld := ⟨Reg.PACER_ITER, 31, 16⟩
def PACER_ITER_CAP : Fld := ⟨Reg.PACER_ITER, 15, 0⟩
def PACER_LANES_LANES : Fld := ⟨Reg.PACER_LANES, 6, 0⟩
def PACER_FCFG_PERIOD : Fld := ⟨Reg.PACER_FCFG, 31, 20⟩
def PACER_FCFG_DL_PCT : Fld := ⟨Reg.PACER_FCFG, 16, 10⟩
def PACER_FCFG_RND_MAX : Fld := ⟨Reg.PACER_FCFG, 7, 0⟩
def PACER_FTMO_RND1_TO : Fld := ⟨Reg.PACER_FTMO, 31, 16⟩
def PACER_FTMO_RND_TO : Fld := ⟨Reg.PACER_FTMO, 15, 0⟩
def PACER_FPROBE_PR_PCT : Fld := ⟨Reg.PACER_FPROBE, 22, 16⟩
def PACER_FPROBE_PROBE_ITER : Fld := ⟨Reg.PACER_FPROBE, 13, 0⟩
def PACER_PSTEP_PSTEP : Fld := ⟨Reg.PACER_PSTEP, 31, 0⟩
def PACER_RHOF_RHOF : Fld := ⟨Reg.PACER_RHOF, 31, 0⟩
def PACER_RHOP_RHOP : Fld := ⟨Reg.PACER_RHOP, 31, 0⟩
def PACER_EPSFP_EPS_FP : Fld := ⟨Reg.PACER_EPSFP, 31, 0⟩
def PACER_EPSFD_EPS_FD : Fld := ⟨Reg.PACER_EPSFD, 31, 0⟩
def PACER_FITER_PLAN_OBJ : Fld := ⟨Reg.PACER_FITER, 28, 16⟩
def PACER_FITER_ITER_RND : Fld := ⟨Reg.PACER_FITER, 13, 0⟩
def PACER_FSTAT_QUAL : Fld := ⟨Reg.PACER_FSTAT, 31, 29⟩
def PACER_FSTAT_COND : Fld := ⟨Reg.PACER_FSTAT, 28, 24⟩
def PACER_FSTAT_FROZEN : Fld := ⟨Reg.PACER_FSTAT, 23, 16⟩
def PACER_FSTAT_ROUNDS : Fld := ⟨Reg.PACER_FSTAT, 15, 8⟩
def PACER_FSTAT_PSEQ : Fld := ⟨Reg.PACER_FSTAT, 7, 0⟩
def MET_STAT_LINK : Fld := ⟨Reg.MET_STAT, 31, 31⟩
def MET_STAT_NOV : Fld := ⟨Reg.MET_STAT, 30, 30⟩
def MET_STAT_SAVE_FAIL : Fld := ⟨Reg.MET_STAT, 29, 29⟩
def MET_STAT_SAVE_SEQ : Fld := ⟨Reg.MET_STAT, 7, 0⟩
def MET_CFG_SAVE_S : Fld := ⟨Reg.MET_CFG, 21, 16⟩
def MET_CFG_DEM_MIN : Fld := ⟨Reg.MET_CFG, 13, 8⟩
def MET_CFG_FNOM : Fld := ⟨Reg.MET_CFG, 0, 0⟩
def MET_FREQ_MHZ : Fld := ⟨Reg.MET_FREQ, 31, 0⟩
def MET_CALCNT_COUNT : Fld := ⟨Reg.MET_CALCNT, 31, 0⟩
def MET_CHCFG_KIND (n : Nat) : Fld := ⟨Reg.MET_CHCFG n, 31, 30⟩
def MET_CHCFG_K (n : Nat) : Fld := ⟨Reg.MET_CHCFG n, 20, 16⟩
def MET_CHCFG_PHC (n : Nat) : Fld := ⟨Reg.MET_CHCFG n, 15, 0⟩
def MET_CIRCFG_ASSIGNED (c : Nat) : Fld := ⟨Reg.MET_CIRCFG c, 31, 31⟩
def MET_CIRCFG_PH_EN (c : Nat) : Fld := ⟨Reg.MET_CIRCFG c, 10, 8⟩
def MET_CIRCFG_TAG (c : Nat) : Fld := ⟨Reg.MET_CIRCFG c, 7, 0⟩
def MET_THCFG_ASSIGNED (t : Nat) : Fld := ⟨Reg.MET_THCFG t, 31, 31⟩
def MET_THCFG_CIR (t : Nat) : Fld := ⟨Reg.MET_THCFG t, 27, 24⟩
def MET_THCFG_FLOW_UIO (t : Nat) : Fld := ⟨Reg.MET_THCFG t, 23, 20⟩
def MET_THCFG_TF_UIO (t : Nat) : Fld := ⟨Reg.MET_THCFG t, 19, 16⟩
def MET_THCFG_TR_UIO (t : Nat) : Fld := ⟨Reg.MET_THCFG t, 15, 12⟩
def MET_THCFG_MODE (t : Nat) : Fld := ⟨Reg.MET_THCFG t, 11, 10⟩
def MET_THCFG_LOC (t : Nat) : Fld := ⟨Reg.MET_THCFG t, 9, 9⟩
def MET_THCFG_EN (t : Nat) : Fld := ⟨Reg.MET_THCFG t, 8, 8⟩
def MET_THCFG_TAG (t : Nat) : Fld := ⟨Reg.MET_THCFG t, 7, 0⟩
def MET_POCFG_EN (p : Nat) : Fld := ⟨Reg.MET_POCFG p, 31, 31⟩
def MET_POCFG_QTY (p : Nat) : Fld := ⟨Reg.MET_POCFG p, 27, 24⟩
def MET_POCFG_UNIT (p : Nat) : Fld := ⟨Reg.MET_POCFG p, 22, 20⟩
def MET_POCFG_WIDTH (p : Nat) : Fld := ⟨Reg.MET_POCFG p, 12, 0⟩
def SYS_SAFE_SNAP_CTL_REQ : Fld := ⟨Reg.SYS_SAFE_SNAP_CTL, 8, 8⟩
def SYS_SAFE_SNAP_CTL_GRP : Fld := ⟨Reg.SYS_SAFE_SNAP_CTL, 7, 0⟩
def SAFE_PRES_B : Fld := ⟨Reg.SAFE_PRES, 1, 1⟩
def SAFE_PRES_A : Fld := ⟨Reg.SAFE_PRES, 0, 0⟩
def SAFE_CHA_CHSTATE : Fld := ⟨Reg.SAFE_CHA, 31, 24⟩
def SAFE_CHA_SKEY : Fld := ⟨Reg.SAFE_CHA, 23, 23⟩
def SAFE_CHA_SRST : Fld := ⟨Reg.SAFE_CHA, 22, 22⟩
def SAFE_CHA_BLOCK : Fld := ⟨Reg.SAFE_CHA, 21, 20⟩
def SAFE_CHA_LOCK_CAUSE : Fld := ⟨Reg.SAFE_CHA, 15, 8⟩
def SAFE_CHA_LOCK_UNIT : Fld := ⟨Reg.SAFE_CHA, 7, 0⟩
def SAFE_CHB_CHSTATE : Fld := ⟨Reg.SAFE_CHB, 31, 24⟩
def SAFE_CHB_SKEY : Fld := ⟨Reg.SAFE_CHB, 23, 23⟩
def SAFE_CHB_SRST : Fld := ⟨Reg.SAFE_CHB, 22, 22⟩
def SAFE_CHB_BLOCK : Fld := ⟨Reg.SAFE_CHB, 21, 20⟩
def SAFE_CHB_LOCK_CAUSE : Fld := ⟨Reg.SAFE_CHB, 15, 8⟩
def SAFE_CHB_LOCK_UNIT : Fld := ⟨Reg.SAFE_CHB, 7, 0⟩
def SAFE_OSSDA_LOCK3 : Fld := ⟨Reg.SAFE_OSSDA, 31, 31⟩
def SAFE_OSSDA_RB_B3 : Fld := ⟨Reg.SAFE_OSSDA, 30, 30⟩
def SAFE_OSSDA_RB_A3 : Fld := ⟨Reg.SAFE_OSSDA, 29, 29⟩
def SAFE_OSSDA_SW3 : Fld := ⟨Reg.SAFE_OSSDA, 28, 28⟩
def SAFE_OSSDA_EDM3 : Fld := ⟨Reg.SAFE_OSSDA, 27, 27⟩
def SAFE_OSSDA_LOCK2 : Fld := ⟨Reg.SAFE_OSSDA, 23, 23⟩
def SAFE_OSSDA_RB_B2 : Fld := ⟨Reg.SAFE_OSSDA, 22, 22⟩
def SAFE_OSSDA_RB_A2 : Fld := ⟨Reg.SAFE_OSSDA, 21, 21⟩
def SAFE_OSSDA_SW2 : Fld := ⟨Reg.SAFE_OSSDA, 20, 20⟩
def SAFE_OSSDA_EDM2 : Fld := ⟨Reg.SAFE_OSSDA, 19, 19⟩
def SAFE_OSSDA_LOCK1 : Fld := ⟨Reg.SAFE_OSSDA, 15, 15⟩
def SAFE_OSSDA_RB_B1 : Fld := ⟨Reg.SAFE_OSSDA, 14, 14⟩
def SAFE_OSSDA_RB_A1 : Fld := ⟨Reg.SAFE_OSSDA, 13, 13⟩
def SAFE_OSSDA_SW1 : Fld := ⟨Reg.SAFE_OSSDA, 12, 12⟩
def SAFE_OSSDA_EDM1 : Fld := ⟨Reg.SAFE_OSSDA, 11, 11⟩
def SAFE_OSSDA_LOCK0 : Fld := ⟨Reg.SAFE_OSSDA, 7, 7⟩
def SAFE_OSSDA_RB_B0 : Fld := ⟨Reg.SAFE_OSSDA, 6, 6⟩
def SAFE_OSSDA_RB_A0 : Fld := ⟨Reg.SAFE_OSSDA, 5, 5⟩
def SAFE_OSSDA_SW0 : Fld := ⟨Reg.SAFE_OSSDA, 4, 4⟩
def SAFE_OSSDA_EDM0 : Fld := ⟨Reg.SAFE_OSSDA, 3, 3⟩
def SAFE_OSSDB_LOCK3 : Fld := ⟨Reg.SAFE_OSSDB, 31, 31⟩
def SAFE_OSSDB_RB_B3 : Fld := ⟨Reg.SAFE_OSSDB, 30, 30⟩
def SAFE_OSSDB_RB_A3 : Fld := ⟨Reg.SAFE_OSSDB, 29, 29⟩
def SAFE_OSSDB_SW3 : Fld := ⟨Reg.SAFE_OSSDB, 28, 28⟩
def SAFE_OSSDB_EDM3 : Fld := ⟨Reg.SAFE_OSSDB, 27, 27⟩
def SAFE_OSSDB_LOCK2 : Fld := ⟨Reg.SAFE_OSSDB, 23, 23⟩
def SAFE_OSSDB_RB_B2 : Fld := ⟨Reg.SAFE_OSSDB, 22, 22⟩
def SAFE_OSSDB_RB_A2 : Fld := ⟨Reg.SAFE_OSSDB, 21, 21⟩
def SAFE_OSSDB_SW2 : Fld := ⟨Reg.SAFE_OSSDB, 20, 20⟩
def SAFE_OSSDB_EDM2 : Fld := ⟨Reg.SAFE_OSSDB, 19, 19⟩
def SAFE_OSSDB_LOCK1 : Fld := ⟨Reg.SAFE_OSSDB, 15, 15⟩
def SAFE_OSSDB_RB_B1 : Fld := ⟨Reg.SAFE_OSSDB, 14, 14⟩
def SAFE_OSSDB_RB_A1 : Fld := ⟨Reg.SAFE_OSSDB, 13, 13⟩
def SAFE_OSSDB_SW1 : Fld := ⟨Reg.SAFE_OSSDB, 12, 12⟩
def SAFE_OSSDB_EDM1 : Fld := ⟨Reg.SAFE_OSSDB, 11, 11⟩
def SAFE_OSSDB_LOCK0 : Fld := ⟨Reg.SAFE_OSSDB, 7, 7⟩
def SAFE_OSSDB_RB_B0 : Fld := ⟨Reg.SAFE_OSSDB, 6, 6⟩
def SAFE_OSSDB_RB_A0 : Fld := ⟨Reg.SAFE_OSSDB, 5, 5⟩
def SAFE_OSSDB_SW0 : Fld := ⟨Reg.SAFE_OSSDB, 4, 4⟩
def SAFE_OSSDB_EDM0 : Fld := ⟨Reg.SAFE_OSSDB, 3, 3⟩
def RELAY_CFG_ADDR : Fld := ⟨Reg.RELAY_CFG, 23, 16⟩
def RELAY_CFG_TOPO : Fld := ⟨Reg.RELAY_CFG, 9, 8⟩
def RELAY_CFG_BUF : Fld := ⟨Reg.RELAY_CFG, 2, 2⟩
def RELAY_CFG_ROLE : Fld := ⟨Reg.RELAY_CFG, 1, 0⟩
def RELAY_PER_PERIOD : Fld := ⟨Reg.RELAY_PER, 23, 0⟩
def RELAY_LEN_MSG_LEN : Fld := ⟨Reg.RELAY_LEN, 31, 16⟩
def RELAY_LEN_L : Fld := ⟨Reg.RELAY_LEN, 15, 0⟩
def RELAY_TMO_HOLD_MS : Fld := ⟨Reg.RELAY_TMO, 31, 16⟩
def RELAY_TMO_TRIG_EN : Fld := ⟨Reg.RELAY_TMO, 15, 15⟩
def RELAY_TMO_TRIG_ENT : Fld := ⟨Reg.RELAY_TMO, 12, 8⟩
def RELAY_TMO_LOSS_N : Fld := ⟨Reg.RELAY_TMO, 7, 0⟩
def RELAY_WGT_W3 : Fld := ⟨Reg.RELAY_WGT, 23, 16⟩
def RELAY_WGT_W2 : Fld := ⟨Reg.RELAY_WGT, 15, 8⟩
def RELAY_WGT_W1 : Fld := ⟨Reg.RELAY_WGT, 7, 0⟩
def RELAY_STAT_POS : Fld := ⟨Reg.RELAY_STAT, 31, 24⟩
def RELAY_STAT_LINK1 : Fld := ⟨Reg.RELAY_STAT, 15, 15⟩
def RELAY_STAT_LINK0 : Fld := ⟨Reg.RELAY_STAT, 14, 14⟩
def RELAY_STAT_UP1 : Fld := ⟨Reg.RELAY_STAT, 13, 13⟩
def RELAY_STAT_TOPO_RX : Fld := ⟨Reg.RELAY_STAT, 12, 11⟩
def RELAY_STAT_RSTATE : Fld := ⟨Reg.RELAY_STAT, 2, 0⟩
def RELAY_DELAY_D : Fld := ⟨Reg.RELAY_DELAY, 31, 0⟩
def RELAY_MAPID_MAP_ID : Fld := ⟨Reg.RELAY_MAPID, 31, 0⟩
def RELAY_CNT_FCS : Fld := ⟨Reg.RELAY_CNT, 31, 16⟩
def RELAY_CNT_SKIP : Fld := ⟨Reg.RELAY_CNT, 15, 0⟩
def RELAY_MAPGO_GO : Fld := ⟨Reg.RELAY_MAPGO, 0, 0⟩
def RELAY_MAP_ENTRY (n : Nat) : Fld := ⟨Reg.RELAY_MAP n, 31, 0⟩
def RELAY_MAPS_ENTRY (n : Nat) : Fld := ⟨Reg.RELAY_MAPS n, 31, 0⟩
def CAN_CTL_RETRY (c : Nat) : Fld := ⟨Reg.CAN_CTL c, 23, 20⟩
def CAN_CTL_PXE (c : Nat) : Fld := ⟨Reg.CAN_CTL c, 6, 6⟩
def CAN_CTL_AUTO_REC (c : Nat) : Fld := ⟨Reg.CAN_CTL c, 5, 5⟩
def CAN_CTL_TDC_EN (c : Nat) : Fld := ⟨Reg.CAN_CTL c, 4, 4⟩
def CAN_CTL_BRSE (c : Nat) : Fld := ⟨Reg.CAN_CTL c, 3, 3⟩
def CAN_CTL_FDOE (c : Nat) : Fld := ⟨Reg.CAN_CTL c, 2, 2⟩
def CAN_CTL_MODE (c : Nat) : Fld := ⟨Reg.CAN_CTL c, 1, 0⟩
def CAN_NBT_NSJW (c : Nat) : Fld := ⟨Reg.CAN_NBT c, 31, 25⟩
def CAN_NBT_NTSEG1 (c : Nat) : Fld := ⟨Reg.CAN_NBT c, 24, 16⟩
def CAN_NBT_NTSEG2 (c : Nat) : Fld := ⟨Reg.CAN_NBT c, 15, 9⟩
def CAN_NBT_NBRP (c : Nat) : Fld := ⟨Reg.CAN_NBT c, 5, 0⟩
def CAN_DBT_TDCO (c : Nat) : Fld := ⟨Reg.CAN_DBT c, 31, 25⟩
def CAN_DBT_DSJW (c : Nat) : Fld := ⟨Reg.CAN_DBT c, 24, 21⟩
def CAN_DBT_DTSEG1 (c : Nat) : Fld := ⟨Reg.CAN_DBT c, 20, 16⟩
def CAN_DBT_DTSEG2 (c : Nat) : Fld := ⟨Reg.CAN_DBT c, 15, 12⟩
def CAN_DBT_DBRP (c : Nat) : Fld := ⟨Reg.CAN_DBT c, 4, 0⟩
def CAN_TT_COL_LEN (c : Nat) : Fld := ⟨Reg.CAN_TT c, 31, 16⟩
def CAN_TT_TT_EN (c : Nat) : Fld := ⟨Reg.CAN_TT c, 0, 0⟩
def CAN_STAT_TEC (c : Nat) : Fld := ⟨Reg.CAN_STAT c, 31, 24⟩
def CAN_STAT_RP (c : Nat) : Fld := ⟨Reg.CAN_STAT c, 23, 23⟩
def CAN_STAT_REC (c : Nat) : Fld := ⟨Reg.CAN_STAT c, 22, 16⟩
def CAN_STAT_LEC (c : Nat) : Fld := ⟨Reg.CAN_STAT c, 10, 8⟩
def CAN_STAT_STATE (c : Nat) : Fld := ⟨Reg.CAN_STAT c, 2, 0⟩
def CAN_TMAX_NS (c : Nat) : Fld := ⟨Reg.CAN_TMAX c, 31, 0⟩
def CAN_FIFO_HEAD (c : Nat) : Fld := ⟨Reg.CAN_FIFO c, 21, 16⟩
def CAN_FIFO_WIRE (c : Nat) : Fld := ⟨Reg.CAN_FIFO c, 15, 15⟩
def CAN_FIFO_FILL (c : Nat) : Fld := ⟨Reg.CAN_FIFO c, 5, 0⟩
def CAN_CNT1_SUPERSEDED (c : Nat) : Fld := ⟨Reg.CAN_CNT1 c, 31, 16⟩
def CAN_CNT1_FULL (c : Nat) : Fld := ⟨Reg.CAN_CNT1 c, 15, 0⟩
def CAN_CNT2_TTMISS (c : Nat) : Fld := ⟨Reg.CAN_CNT2 c, 31, 16⟩
def CAN_CNT2_MISDIR (c : Nat) : Fld := ⟨Reg.CAN_CNT2 c, 15, 0⟩
def CAN_TXCTL_GO (c : Nat) : Fld := ⟨Reg.CAN_TXCTL c, 31, 31⟩
def CAN_TXCTL_CANCEL (c : Nat) : Fld := ⟨Reg.CAN_TXCTL c, 30, 30⟩
def CAN_TXCTL_RECOVER (c : Nat) : Fld := ⟨Reg.CAN_TXCTL c, 29, 29⟩
def CAN_TXCTL_OBJ (c : Nat) : Fld := ⟨Reg.CAN_TXCTL c, 13, 8⟩
def CAN_TXCTL_DLEN (c : Nat) : Fld := ⟨Reg.CAN_TXCTL c, 6, 0⟩
def CAN_TXD_DATA (c : Nat) (w : Nat) : Fld := ⟨Reg.CAN_TXD c w, 31, 0⟩
def CAN_OCFG_EN (c : Nat) (m : Nat) : Fld := ⟨Reg.CAN_OCFG c m, 31, 31⟩
def CAN_OCFG_DIR (c : Nat) (m : Nat) : Fld := ⟨Reg.CAN_OCFG c m, 30, 29⟩
def CAN_OCFG_TT (c : Nat) (m : Nat) : Fld := ⟨Reg.CAN_OCFG c m, 28, 28⟩
def CAN_OCFG_FDF (c : Nat) (m : Nat) : Fld := ⟨Reg.CAN_OCFG c m, 27, 27⟩
def CAN_OCFG_BRS (c : Nat) (m : Nat) : Fld := ⟨Reg.CAN_OCFG c m, 26, 26⟩
def CAN_OCFG_RTR (c : Nat) (m : Nat) : Fld := ⟨Reg.CAN_OCFG c m, 25, 25⟩
def CAN_OCFG_IDE (c : Nat) (m : Nat) : Fld := ⟨Reg.CAN_OCFG c m, 24, 24⟩
def CAN_OCFG_STATION (c : Nat) (m : Nat) : Fld := ⟨Reg.CAN_OCFG c m, 23, 16⟩
def CAN_OCFG_DLC (c : Nat) (m : Nat) : Fld := ⟨Reg.CAN_OCFG c m, 15, 12⟩
def CAN_OID_ID (c : Nat) (m : Nat) : Fld := ⟨Reg.CAN_OID c m, 28, 0⟩
def CAN_OTIM_BCMASK (c : Nat) (m : Nat) : Fld := ⟨Reg.CAN_OTIM c m, 31, 16⟩
def CAN_OTIM_TIMEOUT (c : Nat) (m : Nat) : Fld := ⟨Reg.CAN_OTIM c m, 15, 0⟩
def CAN_OST_DLEN (c : Nat) (m : Nat) : Fld := ⟨Reg.CAN_OST c m, 22, 16⟩
def CAN_OST_RXTO (c : Nat) (m : Nat) : Fld := ⟨Reg.CAN_OST c m, 5, 5⟩
def CAN_OST_PEND (c : Nat) (m : Nat) : Fld := ⟨Reg.CAN_OST c m, 4, 4⟩
def CAN_OST_WIRE (c : Nat) (m : Nat) : Fld := ⟨Reg.CAN_OST c m, 3, 3⟩
def CAN_OST_TXNEW (c : Nat) (m : Nat) : Fld := ⟨Reg.CAN_OST c m, 2, 2⟩
def CAN_OST_MSGLOST (c : Nat) (m : Nat) : Fld := ⟨Reg.CAN_OST c m, 1, 1⟩
def CAN_OST_NEWDAT (c : Nat) (m : Nat) : Fld := ⟨Reg.CAN_OST c m, 0, 0⟩
def CAN_TTCOL_EN (c : Nat) (k : Nat) : Fld := ⟨Reg.CAN_TTCOL c k, 31, 31⟩
def CAN_TTCOL_OBJ (c : Nat) (k : Nat) : Fld := ⟨Reg.CAN_TTCOL c k, 5, 0⟩
def ETH_NET_FURUN_UDP : Fld := ⟨Reg.ETH_NET, 31, 16⟩
def ETH_NET_BATON_UDP : Fld := ⟨Reg.ETH_NET, 15, 0⟩
def ETH_PCFG_EN (p : Nat) : Fld := ⟨Reg.ETH_PCFG p, 31, 31⟩
def ETH_PCFG_LLDP_EN (p : Nat) : Fld := ⟨Reg.ETH_PCFG p, 30, 30⟩
def ETH_PCFG_PTP_EN (p : Nat) : Fld := ⟨Reg.ETH_PCFG p, 29, 29⟩
def ETH_PCFG_STRIDE_EN (p : Nat) : Fld := ⟨Reg.ETH_PCFG p, 28, 28⟩
def ETH_PCFG_BCAST (p : Nat) : Fld := ⟨Reg.ETH_PCFG p, 27, 27⟩
def ETH_PCFG_VLAN_EN (p : Nat) : Fld := ⟨Reg.ETH_PCFG p, 26, 26⟩
def ETH_PCFG_AMP (p : Nat) : Fld := ⟨Reg.ETH_PCFG p, 25, 25⟩
def ETH_PCFG_VID (p : Nat) : Fld := ⟨Reg.ETH_PCFG p, 11, 0⟩
def ETH_PSTAT_LINK (p : Nat) : Fld := ⟨Reg.ETH_PSTAT p, 31, 31⟩
def ETH_PSTAT_LYSRIX (p : Nat) : Fld := ⟨Reg.ETH_PSTAT p, 30, 30⟩
def ETH_PSTAT_LPI (p : Nat) : Fld := ⟨Reg.ETH_PSTAT p, 29, 29⟩
def ETH_PSTAT_C0LOCK (p : Nat) : Fld := ⟨Reg.ETH_PSTAT p, 28, 28⟩
def ETH_PSTAT_STRIDE (p : Nat) : Fld := ⟨Reg.ETH_PSTAT p, 27, 26⟩
def ETH_PSTAT_RATE (p : Nat) : Fld := ⟨Reg.ETH_PSTAT p, 1, 0⟩
def ETH_WGT_W3 (p : Nat) : Fld := ⟨Reg.ETH_WGT p, 23, 16⟩
def ETH_WGT_W2 (p : Nat) : Fld := ⟨Reg.ETH_WGT p, 15, 8⟩
def ETH_WGT_W1 (p : Nat) : Fld := ⟨Reg.ETH_WGT p, 7, 0⟩
def ETH_FLTLO_MACLO (p : Nat) (e : Nat) : Fld := ⟨Reg.ETH_FLTLO p e, 31, 0⟩
def ETH_FLTHI_VALID (p : Nat) (e : Nat) : Fld := ⟨Reg.ETH_FLTHI p e, 31, 31⟩
def ETH_FLTHI_MACHI (p : Nat) (e : Nat) : Fld := ⟨Reg.ETH_FLTHI p e, 15, 0⟩
def FURUN_CFG_HB_MS : Fld := ⟨Reg.FURUN_CFG, 31, 16⟩
def FURUN_CFG_REPL_S : Fld := ⟨Reg.FURUN_CFG, 15, 0⟩
def FURUN_STAT_LINKS : Fld := ⟨Reg.FURUN_STAT, 31, 23⟩
def FURUN_STAT_REPLICAS : Fld := ⟨Reg.FURUN_STAT, 22, 8⟩
def FURUN_STAT_ANCHORED : Fld := ⟨Reg.FURUN_STAT, 7, 6⟩
def FURUN_STAT_GROUPS : Fld := ⟨Reg.FURUN_STAT, 5, 3⟩
def FURUN_STAT_VER : Fld := ⟨Reg.FURUN_STAT, 2, 0⟩
def RTC_STAT_VALID : Fld := ⟨Reg.RTC_STAT, 31, 31⟩
def RTC_STAT_LOST : Fld := ⟨Reg.RTC_STAT, 30, 30⟩
def RTC_STAT_VBAK_LOW : Fld := ⟨Reg.RTC_STAT, 29, 29⟩
def RTC_STAT_ON_VBAK : Fld := ⟨Reg.RTC_STAT, 28, 28⟩
def RTC_STAT_STGERR : Fld := ⟨Reg.RTC_STAT, 27, 27⟩
def RTC_STAT_SYNC : Fld := ⟨Reg.RTC_STAT, 1, 0⟩
def RTC_PTP_DOMAIN : Fld := ⟨Reg.RTC_PTP, 31, 24⟩
def RTC_PTP_PRIO1 : Fld := ⟨Reg.RTC_PTP, 23, 16⟩
def RTC_PTP_PRIO2 : Fld := ⟨Reg.RTC_PTP, 15, 8⟩
def RTC_PTP_GM_CAP : Fld := ⟨Reg.RTC_PTP, 2, 2⟩
def RTC_PTP_ROLE : Fld := ⟨Reg.RTC_PTP, 1, 0⟩
def RTC_STEP_STEP_US : Fld := ⟨Reg.RTC_STEP, 19, 0⟩
def RTC_TRIM_TRIM : Fld := ⟨Reg.RTC_TRIM, 10, 0⟩
def RTC_DATE_YEAR : Fld := ⟨Reg.RTC_DATE, 31, 16⟩
def RTC_DATE_MONTH : Fld := ⟨Reg.RTC_DATE, 15, 8⟩
def RTC_DATE_DAY : Fld := ⟨Reg.RTC_DATE, 7, 0⟩
def RTC_STG_DATE_YEAR : Fld := ⟨Reg.RTC_STG_DATE, 31, 16⟩
def RTC_STG_DATE_MONTH : Fld := ⟨Reg.RTC_STG_DATE, 15, 8⟩
def RTC_STG_DATE_DAY : Fld := ⟨Reg.RTC_STG_DATE, 7, 0⟩
def RTC_TIME_WDAY : Fld := ⟨Reg.RTC_TIME, 26, 24⟩
def RTC_TIME_HOUR : Fld := ⟨Reg.RTC_TIME, 23, 16⟩
def RTC_TIME_MIN : Fld := ⟨Reg.RTC_TIME, 15, 8⟩
def RTC_TIME_SEC : Fld := ⟨Reg.RTC_TIME, 7, 0⟩
def RTC_STG_TIME_WDAY : Fld := ⟨Reg.RTC_STG_TIME, 26, 24⟩
def RTC_STG_TIME_HOUR : Fld := ⟨Reg.RTC_STG_TIME, 23, 16⟩
def RTC_STG_TIME_MIN : Fld := ⟨Reg.RTC_STG_TIME, 15, 8⟩
def RTC_STG_TIME_SEC : Fld := ⟨Reg.RTC_STG_TIME, 7, 0⟩
def RTC_COMMIT_GO : Fld := ⟨Reg.RTC_COMMIT, 31, 31⟩
def RTC_COMMIT_FORM : Fld := ⟨Reg.RTC_COMMIT, 0, 0⟩
def RTC_LEAP_PEND : Fld := ⟨Reg.RTC_LEAP, 31, 31⟩
def RTC_LEAP_DIR : Fld := ⟨Reg.RTC_LEAP, 30, 30⟩
def RTC_LEAP_SRC : Fld := ⟨Reg.RTC_LEAP, 29, 29⟩
def RTC_LEAP_DAYNUM : Fld := ⟨Reg.RTC_LEAP, 15, 0⟩
def RTC_ALMHI_ARM (a : Nat) : Fld := ⟨Reg.RTC_ALMHI a, 31, 31⟩
def RTC_ALMHI_REARM (a : Nat) : Fld := ⟨Reg.RTC_ALMHI a, 30, 30⟩
def RTC_ALMHI_FIRED (a : Nat) : Fld := ⟨Reg.RTC_ALMHI a, 29, 29⟩
def RTC_ALMHI_SKIPPED (a : Nat) : Fld := ⟨Reg.RTC_ALMHI a, 28, 28⟩
def RTC_ALMHI_TAIHI (a : Nat) : Fld := ⟨Reg.RTC_ALMHI a, 7, 0⟩
def KEYS_STAT_LIFECYCLE : Fld := ⟨Reg.KEYS_STAT, 31, 30⟩
def KEYS_STAT_TAMPER : Fld := ⟨Reg.KEYS_STAT, 29, 29⟩
def KEYS_STAT_VAULT_LOST : Fld := ⟨Reg.KEYS_STAT, 28, 28⟩
def KEYS_STAT_TRUST_LOST : Fld := ⟨Reg.KEYS_STAT, 27, 27⟩
def KEYS_STAT_HANDLES : Fld := ⟨Reg.KEYS_STAT, 24, 16⟩
def KEYS_STAT_SLOTS : Fld := ⟨Reg.KEYS_STAT, 4, 0⟩
def KEYS_ROLLBACK_COUNT : Fld := ⟨Reg.KEYS_ROLLBACK, 7, 0⟩
def KEYS_TAMPER_CFG_ARM1 : Fld := ⟨Reg.KEYS_TAMPER_CFG, 1, 1⟩
def KEYS_TAMPER_CFG_ARM0 : Fld := ⟨Reg.KEYS_TAMPER_CFG, 0, 0⟩
def KEYS_TAMPER_STAT_COUNT : Fld := ⟨Reg.KEYS_TAMPER_STAT, 31, 16⟩
def KEYS_TAMPER_STAT_LIVE1 : Fld := ⟨Reg.KEYS_TAMPER_STAT, 4, 4⟩
def KEYS_TAMPER_STAT_LIVE0 : Fld := ⟨Reg.KEYS_TAMPER_STAT, 3, 3⟩
def KEYS_TAMPER_STAT_CAUSE : Fld := ⟨Reg.KEYS_TAMPER_STAT, 2, 0⟩
def KEYS_EPOCH_EPOCH : Fld := ⟨Reg.KEYS_EPOCH, 31, 0⟩
def KEYS_CERT_GEN_CERT : Fld := ⟨Reg.KEYS_CERT_GEN, 8, 8⟩
def KEYS_CERT_GEN_GEN : Fld := ⟨Reg.KEYS_CERT_GEN, 7, 0⟩
def UPD_STAT_STATE : Fld := ⟨Reg.UPD_STAT, 31, 29⟩
def UPD_STAT_SET : Fld := ⟨Reg.UPD_STAT, 28, 28⟩
def UPD_STAT_HEALTHY : Fld := ⟨Reg.UPD_STAT, 27, 27⟩
def UPD_STAT_DONE : Fld := ⟨Reg.UPD_STAT, 23, 16⟩
def UPD_STAT_LISTED : Fld := ⟨Reg.UPD_STAT, 15, 8⟩
def UPD_STAT_ATTEMPTS : Fld := ⟨Reg.UPD_STAT, 1, 0⟩
def UPD_CFG_HEALTH_TO : Fld := ⟨Reg.UPD_CFG, 31, 16⟩
def UPD_CFG_HEALTH_S : Fld := ⟨Reg.UPD_CFG, 15, 8⟩
def UPD_CFG_TRIAL_MAX : Fld := ⟨Reg.UPD_CFG, 5, 4⟩
def UPD_CFG_HC : Fld := ⟨Reg.UPD_CFG, 3, 0⟩
def UPD_RCVD_COUNT : Fld := ⟨Reg.UPD_RCVD, 31, 0⟩
def UPD_TOTAL_COUNT : Fld := ⟨Reg.UPD_TOTAL, 31, 0⟩
def UPD_SEQ_SEQ : Fld := ⟨Reg.UPD_SEQ, 31, 0⟩
def UPD_HEALTH_LEFT : Fld := ⟨Reg.UPD_HEALTH, 31, 16⟩
def UPD_HEALTH_HELD : Fld := ⟨Reg.UPD_HEALTH, 15, 0⟩
def EVR_CFG_REP_WIN : Fld := ⟨Reg.EVR_CFG, 11, 0⟩
def EVR_TRIG_POST : Fld := ⟨Reg.EVR_TRIG, 31, 16⟩
def EVR_TRIG_PRE : Fld := ⟨Reg.EVR_TRIG, 15, 0⟩
def EVR_STAT_TRIG_HELD : Fld := ⟨Reg.EVR_STAT, 31, 31⟩
def EVR_STAT_TRIG_DONE : Fld := ⟨Reg.EVR_STAT, 30, 30⟩
def EVR_STAT_FILL : Fld := ⟨Reg.EVR_STAT, 17, 0⟩
def EVR_DROP_COUNT : Fld := ⟨Reg.EVR_DROP, 31, 0⟩
def EVR_OVW_TRIG_MISSED : Fld := ⟨Reg.EVR_OVW, 31, 16⟩
def EVR_OVWCNT_COUNT : Fld := ⟨Reg.EVR_OVWCNT, 31, 0⟩
def EVR_TRIGCTL_REL : Fld := ⟨Reg.EVR_TRIGCTL, 0, 0⟩
def EVR_WCFG_EN (w : Nat) : Fld := ⟨Reg.EVR_WCFG w, 31, 31⟩
def EVR_WCFG_SEVMAX (w : Nat) : Fld := ⟨Reg.EVR_WCFG w, 26, 24⟩
def EVR_WCFG_TAG (w : Nat) : Fld := ⟨Reg.EVR_WCFG w, 15, 8⟩
def EVR_WCTL_ADV (w : Nat) : Fld := ⟨Reg.EVR_WCTL w, 0, 0⟩
def EVR_WMASK_MASK (w : Nat) : Fld := ⟨Reg.EVR_WMASK w, 31, 0⟩
def EVR_WLOST_LOST (w : Nat) : Fld := ⟨Reg.EVR_WLOST w, 31, 0⟩
def DMA_GSTAT_ACTIVE : Fld := ⟨Reg.DMA_GSTAT, 28, 24⟩
def DMA_GSTAT_QUEUED : Fld := ⟨Reg.DMA_GSTAT, 21, 16⟩
def DMA_HALT_HALTED : Fld := ⟨Reg.DMA_HALT, 31, 0⟩
def DMA_CHCTL_GO (c : Nat) : Fld := ⟨Reg.DMA_CHCTL c, 31, 31⟩
def DMA_CHCTL_ABORT (c : Nat) : Fld := ⟨Reg.DMA_CHCTL c, 30, 30⟩
def DMA_CHCTL_RECOVER (c : Nat) : Fld := ⟨Reg.DMA_CHCTL c, 29, 29⟩
def DMA_CHCTL_TRIG (c : Nat) : Fld := ⟨Reg.DMA_CHCTL c, 26, 24⟩
def DMA_CHDLO_ADDR (c : Nat) : Fld := ⟨Reg.DMA_CHDLO c, 31, 0⟩
def DMA_CHDHI_ADDR (c : Nat) : Fld := ⟨Reg.DMA_CHDHI c, 31, 0⟩
def DMA_CHSTAT_STATE (c : Nat) : Fld := ⟨Reg.DMA_CHSTAT c, 31, 30⟩
def DMA_CHSTAT_ERRDIR (c : Nat) : Fld := ⟨Reg.DMA_CHSTAT c, 29, 29⟩
def DMA_CHSTAT_ERRCAUSE (c : Nat) : Fld := ⟨Reg.DMA_CHSTAT c, 28, 26⟩
def DMA_CHSTAT_TRIG_OVR (c : Nat) : Fld := ⟨Reg.DMA_CHSTAT c, 15, 0⟩
def UIO_GSTAT_NOFLD : Fld := ⟨Reg.UIO_GSTAT, 0, 0⟩
def UIO_CFG_MODE (n : Nat) : Fld := ⟨Reg.UIO_CFG n, 31, 28⟩
def UIO_CFG_FILT (n : Nat) : Fld := ⟨Reg.UIO_CFG n, 27, 24⟩
def UIO_CFG_START (n : Nat) : Fld := ⟨Reg.UIO_CFG n, 15, 0⟩
def UIO_BETA_BETA (n : Nat) : Fld := ⟨Reg.UIO_BETA n, 15, 0⟩
def UIO_OUT_VALUE (n : Nat) : Fld := ⟨Reg.UIO_OUT n, 15, 0⟩
def UIO_STAT_COLD (n : Nat) : Fld := ⟨Reg.UIO_STAT n, 31, 31⟩
def UIO_STAT_NOFLD (n : Nat) : Fld := ⟨Reg.UIO_STAT n, 4, 4⟩
def UIO_STAT_OVERLOAD (n : Nat) : Fld := ⟨Reg.UIO_STAT n, 3, 3⟩
def UIO_STAT_OVERRANGE (n : Nat) : Fld := ⟨Reg.UIO_STAT n, 2, 2⟩
def UIO_STAT_SHORT (n : Nat) : Fld := ⟨Reg.UIO_STAT n, 1, 1⟩
def UIO_STAT_OPEN (n : Nat) : Fld := ⟨Reg.UIO_STAT n, 0, 0⟩
def UIO_VAL_VALUE (n : Nat) : Fld := ⟨Reg.UIO_VAL n, 31, 0⟩
def LOOP_BANKU_HI (n : Nat) (b : Nat) : Fld := ⟨Reg.LOOP_BANKU n b, 31, 16⟩
def LOOP_BANKU_LO (n : Nat) (b : Nat) : Fld := ⟨Reg.LOOP_BANKU n b, 15, 0⟩
def LOOP_BANKY_HI (n : Nat) (b : Nat) : Fld := ⟨Reg.LOOP_BANKY n b, 31, 16⟩
def LOOP_BANKY_LO (n : Nat) (b : Nat) : Fld := ⟨Reg.LOOP_BANKY n b, 15, 0⟩
def MET_THPAR_PN (n : Nat) : Fld := ⟨Reg.MET_THPAR n, 31, 24⟩
def MET_THPAR_DT_MIN (n : Nat) : Fld := ⟨Reg.MET_THPAR n, 8, 0⟩

end F

end Sys2Proof.Machine
end

