-- ==== Sys2Proof/Machine/Types.lean ====
section
/-! DEFINITION. Machine/Types.lean: the parts of the module's state, chapter by chapter, as plain data. Each
field's comment gives what it is | its width | the rule and chapter of the spec that names it | its value
at reset (DESIGN CHOICE and PRESUMED values name their row of the assumption log). -/

namespace Sys2Proof.Machine

/-! ### What the module sends (all chapters) -/

/-- What the module has sent or driven, one entry an act. -/
inductive Out where
  | baton (sess : Nat) (pkt : Bytes)          -- a Baton reply or notice on a session
  | reg (off : Nat) (val : Nat)               -- the answer to a register read
  | relayReply (owner : BitVec 256) (item opcode status : Nat) (res : Bytes) -- the answer to a request that Furun relayed here
  | can (ch : Nat) (f : CanFrame)             -- a CAN frame
  | uio (ch : Nat) (v : Option Nat)           -- an output channel's level: mV or switch, none at high impedance
  | relayFrame (port : Nat) (bs : Bytes)      -- a relay frame on RL0 or RL1
  | wstat (task obj elem st : Nat)            -- what the runtime function WSTAT gives the program
  | furun (peer : W64) (piece : Bytes)        -- a piece of a Furun message on the link to a peer (Table 16.5)
  | pulse (po : Nat)                          -- a pulse on PO0 to PO7
  | eth (port : Nat) (what : Nat) (bs : Bytes) -- a frame of the port's own: Ethertype or protocol number, and its body
  deriving DecidableEq, Repr

/-- A rate limiter of an event that is raised at most once per second (or minute) per instance. -/
structure Limiter where
  /-- event code | 16 | R63, 03 | none listed -/
  code : Nat
  /-- instance | Nat | R63, 03 | none listed -/
  inst : Nat
  /-- instant of the last event of the pair | ns | R63, 03 | none listed -/
  last : Nat
  /-- occurrences since that event | Nat | R63, 03 | none listed -/
  cnt : Nat
  deriving DecidableEq, Repr

/-! ### Event recorder (chapter 20) -/

/-- An event as formed: Table 20.1 without repeat count and check. -/
structure Event where
  /-- timestamp | 64 | R511, 20 | none listed -/
  ts : W64
  /-- code | 16 | R511, 20 | none listed -/
  code : Nat
  /-- severity | 0 to 7 | R511, 20 | none listed -/
  sev : Nat
  /-- tenant tag | 8 | R511, 20 | none listed -/
  tag : Nat
  /-- source object | 0 to 4096 | R511, 20 | none listed -/
  obj : Nat
  /-- source element | 8 | R511, 20 | none listed -/
  elem : Nat
  /-- data, 12 bytes | 96 | R511, 20 | none listed -/
  data : Bytes
  deriving DecidableEq, Repr

/-- Where an entry of the ingest queue stands with the EVR drill (R105, R513). -/
inductive DrillWait where
  | none            -- no drill was bound when the event was formed
  | waiting         -- a trigger of instance 37 waits in its queue of 8
  | verdict (v : Nat)
  deriving DecidableEq, Repr

structure Ingest where
  /-- the event | record | R513, 20 | none listed -/
  ev : Event
  /-- drill verdict | — | R105, 04 | none listed -/
  dv : DrillWait
  deriving DecidableEq, Repr

/-- A stored record (R511, R512, R514). -/
structure Rec where
  /-- sequence number | 64 | R512, 20 | none listed -/
  seq : Nat
  /-- record | 256 | R511, 20 | none listed -/
  ev : Event
  /-- repeat count | 16 | R514, 20 | none listed -/
  rep : Nat
  /-- a window has returned the record | 1 | R514, 20 | none listed -/
  shown : Bool
  deriving DecidableEq, Repr

/-- A reader window beside its registers EVR_WCFG, EVR_WMASK and EVR_WLOST (R517). -/
structure Window where
  /-- owner identity | 256 | R517, 20 | 0 -/
  owner : BitVec 256
  /-- cursor, a sequence number | 64 | R517, 20 | 0 -/
  cursor : Nat
  /-- sequence that the latest capture of this window's group latched | 64 | R520, 20 | 0 -/
  latched : Nat
  deriving DecidableEq, Repr

/-- The held trigger span (R516). -/
structure Span where
  /-- sequence of the triggering record | 64 | R516, 20 | none -/
  seq : Nat
  /-- PRE in force | 16 | R516, 20 | none -/
  pre : Nat
  /-- POST in force | 16 | R516, 20 | none -/
  post : Nat
  /-- POST records still to store | 16 | R516, 20 | none -/
  left : Nat
  deriving DecidableEq, Repr

structure EvrSt where
  /-- ingest queue, at most 256 | list | R513, 20 | empty -/
  queue : List Ingest
  /-- stored records, oldest first, at most 131072 | list | R512, 20 | empty -/
  recs : List Rec
  /-- next sequence number | 64 | R512, 20 | 1 -/
  nextSeq : Nat
  /-- the 16 reader windows | list | R517, 20 | closed -/
  wins : List Window
  /-- the held trigger span | option | R516, 20 | none -/
  span : Option Span
  deriving DecidableEq, Repr

/-! ### DMA (chapter 20) -/

/-- A descriptor as fetched (Table 20.2). -/
structure Desc where
  /-- word 0 | 32 | Table 20.2, 20 | none -/
  w0 : W32
  /-- LEN, word 1 | 32 | Table 20.2, 20 | none -/
  len : W32
  /-- SRC, words 2 and 3 | 64 | Table 20.2, 20 | none -/
  src : W64
  /-- DST, words 4 and 5 | 64 | Table 20.2, 20 | none -/
  dst : W64
  /-- NEXT, words 6 and 7 | 64 | Table 20.2, 20 | none -/
  next : W64
  deriving DecidableEq, Repr

/-- A DMA channel beside its registers (R521 to R528). -/
structure DmaCh where
  /-- first descriptor address, committed | 64 | R102, 20 | 0 -/
  first : W64
  /-- descriptor that runs | option | R523, 20 | none -/
  desc : Option Desc
  /-- instant at which it began | ns | R134, 05 | 0 -/
  since : Nat
  /-- current or latest descriptor address | 64 | Table 20.5, 20 | 0 -/
  addr : W64
  /-- bytes written by it | 32 | Table 20.5, 20 | 0 -/
  bytes : Nat
  /-- latched error word address | 64 | R526, 20 | 0 -/
  errAddr : W64
  /-- the descriptor is done and a drill verdict is awaited | 1 | R525, 20 | 0 -/
  await : Bool
  deriving DecidableEq, Repr

/-! ### Drills (chapter 4) -/

/-- What a drill trigger acts on when its run has given a verdict (R106). -/
inductive DrillRef where
  | can (ch : Nat) (frame : CanFrame)
  | dma (ch : Nat)
  | relay
  deriving DecidableEq, Repr

structure DrillTrig where
  /-- host fields at the trigger, by index | 32 each | Table 4.5, 04 | none -/
  fields : List (Nat × W32)
  /-- what the verdict acts on | — | R106, 04 | none -/
  ref : DrillRef
  deriving DecidableEq, Repr

/-- A host instance beside DRILL_BINDh and DRILL_CNTh. -/
structure DrillInst where
  /-- triggers waiting, at most 8 | list | R105, 04 | empty -/
  queue : List DrillTrig
  /-- persistent words P0 to P3 | 4 × 32 | Table 4.5, 04 | 0 -/
  pers : List W32
  /-- runs completed | 64 | Table 4.9, 04 | 0 -/
  runs : Nat
  deriving DecidableEq, Repr

structure DrillSt where
  /-- library: drill number and image | list | R111, 04 | empty -/
  lib : List (Nat × Bytes)
  /-- host instances 0 to 37 | list | R105, 04 | nothing bound -/
  insts : List DrillInst
  deriving DecidableEq, Repr

/-! ### SYS: domains, clocks, snapshots, interrupts, watchdog (chapters 1, 4, 6) -/

structure SnapJob where
  /-- unit (interrupt source number) whose capture is in progress | — | R100, 04 | none -/
  src : Nat
  /-- group it was started for | 8 | R100, 04 | none -/
  grp : Nat
  deriving DecidableEq, Repr

structure SysSt where
  /-- gate requests that wait for their crossings to drain, by domain index | list | R15, 01 | none -/
  gates : List Nat
  /-- captures in progress | list | R100, 04 | none -/
  snaps : List SnapJob
  /-- SAFE capture requested through SYS_SAFE_SNAP_CTL | option | R360, 13 | none -/
  safeSnap : Option Nat
  /-- watchdog armed | 1 | R559, 06 | not armed -/
  wdtOn : Bool
  /-- instant of the latest kick or arming | ns | R559, 06 | 0 -/
  wdtAt : Nat
  /-- core of PD_AON's clocks that are stopped by a fault, by clock index | list | R21, 01 | none -/
  stopped : List Nat
  deriving DecidableEq, Repr

/-! ### Start, residue (chapter 6) -/

/-- An entry of the residue record (Table 6.5). -/
structure ResEntry where
  /-- class | 8 | Table 6.5, 06 | none -/
  cls : Nat
  /-- tenant | 8 | Table 6.5, 06 | none -/
  tag : Nat
  /-- final state | 16 | Table 6.5, 06 | none -/
  state : Nat
  /-- owner | 32 | Table 6.5, 06 | none -/
  owner : Nat
  /-- item | 32 | Table 6.5, 06 | none -/
  item : Nat
  /-- opcode | 16 | Table 6.5, 06 | none -/
  opcode : Nat
  deriving DecidableEq, Repr

/-- A residue record: header fields and entries (Table 6.4). -/
structure Residue where
  /-- KIND | 8 | Table 6.4, 06 | none -/
  kind : Nat
  /-- restart type | 8 | Table 6.4, 06 | none -/
  warm : Nat
  /-- INCOMPLETE | 8 | Table 6.4, 06 | none -/
  incomplete : Nat
  /-- start count | 32 | Table 6.4, 06 | none -/
  startCnt : Nat
  /-- reset time | 64 | Table 6.4, 06 | none -/
  time : W64
  /-- entries, at most 8192 | list | Table 6.5, 06 | none -/
  entries : List ResEntry
  deriving DecidableEq, Repr

/-- One item of the journal: a Baton item from admission on (6.5). -/
structure JournalEntry where
  /-- identity | 256 | 6.5, 06 | none -/
  owner : BitVec 256
  /-- item ID | 32 | 6.5, 06 | none -/
  item : Nat
  /-- opcode | 16 | 6.5, 06 | none -/
  opcode : Nat
  /-- tenant | 8 | 6.5, 06 | none -/
  tag : Nat
  /-- final state, once reached | option | 6.5, 06 | none -/
  final : Option Nat
  deriving DecidableEq, Repr

/-- An item of the in-flight mirror in PD_AON, classes 2 to 5 (6.5). -/
structure MirrorItem where
  /-- class 2 to 5 | 8 | 6.5, 06 | none -/
  cls : Nat
  /-- tenant | 8 | 6.5, 06 | none -/
  tag : Nat
  /-- owner as Table 6.5 | 32 | 6.5, 06 | none -/
  owner : Nat
  /-- item as Table 6.5 | 32 | 6.5, 06 | none -/
  item : Nat
  /-- final state, once reached | option | 6.5, 06 | none -/
  final : Option Nat
  deriving DecidableEq, Repr

/-- A function block instance (R162 to R164). -/
structure FbInst where
  /-- instance | — | R164, 07 | none -/
  id : Nat
  /-- stored input state, none before the first evaluation | option | R164, 07 | none -/
  prev : Option Bool
  /-- stored state of the second edge input (CTUD) | option | R164, 07 | none -/
  prev2 : Option Bool
  /-- a timer runs since this instant of the monotonic time | option ns | R162, 07 | stopped -/
  since : Option Int
  /-- the timer goes on from `et` at its next evaluation (warm start) | 1 | Table 7.2, 07 | 0 -/
  resume : Bool
  /-- output Q | 1 | R162 to R164, 07 | 0 -/
  q : Bool
  /-- second output (QD of CTUD) | 1 | R163, 07 | 0 -/
  q2 : Bool
  /-- elapsed time | ns | R162, 07 | 0 -/
  et : Nat
  /-- count | — | R163, 07 | 0 -/
  cv : Int
  deriving DecidableEq, Repr

/-- The retain image (R144, R166). -/
structure RetainImg where
  /-- identity of the lap program it belongs to | 256 | R144, 06 | none -/
  prog : BitVec 256
  /-- start count during which it was written | 32 | R144, 06 | none -/
  startCnt : Nat
  /-- length of the image's data | Nat | R166, 07 | none -/
  len : Nat
  /-- CRC-32 of the image's data | 32 | R166, 07 | none -/
  crc : Nat
  /-- closing mark | 1 | R166, 07 | none -/
  mark : Bool
  /-- variables declared RETAIN: path and value | list | R166, 07 | none -/
  vars : List (Nat × Bytes)
  /-- active steps of the charts declared RETAIN | list | Table 7.2, 07 | none -/
  charts : List (Nat × List Nat)
  /-- function block instances declared RETAIN as they stood | list | Table 7.2, 07 | none -/
  fbs : List FbInst
  /-- TAI second at which it was written | 40 | 7.5, 07 | none -/
  time : Nat
  deriving DecidableEq, Repr

/-- Where the module stands between its supply and its run (Tables 5.6 and 6.1). -/
inductive Phase where
  | cold          -- no supply: the next start is a power-on reset
  | poweredOn     -- step 3 of Table 6.1 reached
  | booted        -- step 6 reached
  | recovery      -- both sets failed: boot stage only (Table 6.2)
  | firmware      -- steps 7 to 10 done
  | running       -- step 12 done
  | holdup        -- Table 5.6 runs
  | restarting    -- steps 2 to 8 of Table 5.6 with the supply present (R146)
  deriving DecidableEq, Repr

/-- What a reset has found, for a second cause at the same instant (R147). -/
structure ResetCoin where
  /-- the watchdog counted and was due at this instant | option ns | R147, R559 | none -/
  wdt : Option Nat
  /-- PD_APP was on | 1 | R559, 06 | 0 -/
  app : Bool
  /-- KIND of the restart whose sequence had passed step 8 | option | R146, 06 | none -/
  cmd : Option Nat
  deriving DecidableEq, Repr

structure StartSt where
  /-- phase of Tables 5.6 and 6.1 | — | R140, 06 | booted: software first runs -/
  phase : Phase
  /-- the boot fell back: failing set, part, reason | option | R142, 06 | none -/
  fallback : Option (Nat × Nat × Nat)
  /-- KIND of the reset that is to follow a restart sequence | 3 | R146, 06 | none -/
  restartKind : Option Nat
  /-- WARM by start decision, applied at step 11 | 1 | R144, 06 | 0 -/
  warm : Bool
  /-- residue record of the latest start | option | R150, 06 | none -/
  residue : Option Residue
  /-- residue record of the start before | option | R150, 06 | none -/
  residuePrev : Option Residue
  /-- item journal in MRAM | list | 6.5, 06 | empty -/
  journal : List JournalEntry
  /-- the present start has reached step 7, as the journal shows | 1 | R148, 06 | 0 -/
  reached7 : Bool
  /-- in-flight mirror of DMA, CAN, RELAY, PACER | list | 6.5, 06 | empty -/
  mirror : List MirrorItem
  /-- the mirror of a start that reached step 7 was lost with PD_AON | 1 | R148, 06 | 0 -/
  mirrorLost : Bool
  /-- mirror flushed to MRAM by step 8 | option | 6.5, 06 | none -/
  flushed : Option (List MirrorItem)
  /-- retain image in MRAM | option | R144, 06 | none -/
  retain : Option RetainImg
  /-- what the latest reset has found | — | R147, 06 | nothing -/
  coin : ResetCoin
  /-- time of the latest reset, from the RTC | 64 | Table 6.4, 06 | 0 (DESIGN CHOICE, log 30) -/
  resetTs : W64
  deriving DecidableEq, Repr

/-! ### Baton (chapter 3) -/

/-- A snapshot held behind a cursor (R76). -/
structure Cursor where
  /-- handle | 32 | R75, 03 | none -/
  handle : Nat
  /-- opcode whose pages it serves | 16 | R75, 03 | none -/
  opcode : Nat
  /-- TLVs still to serve | list | R76, 03 | none -/
  rest : List Bytes
  /-- TLVs a page | — | R75, 03 | none -/
  per : Nat
  /-- instant of the last page | ns | R76, 03 | none -/
  last : Nat
  deriving DecidableEq, Repr

structure Session where
  /-- session slot 0 to 63 | 6 | R62, 03 | none open -/
  slot : Nat
  /-- tenant tag | 8 | R50, R60 | none open -/
  tag : Nat
  /-- identity, SM3 of the public key | 256 | R60, 03 | none open -/
  owner : BitVec 256
  /-- serial numbers of the certificates in its chain | list | R479, 18 | none open -/
  serials : List Nat
  /-- trust slot of the certificate's issuer | — | R477, 18 | none open -/
  trust : Nat
  /-- negotiated version | option 8 | R69, 03 | none open -/
  version : Option Nat
  /-- instant of the last packet | ns | R62, 03 | none open -/
  last : Nat
  /-- cursors, oldest first, at most 16 | list | R76, 03 | none open -/
  cursors : List Cursor
  /-- Ethernet port that carries it; 4 for a relay station | — | R445, 16 | none open -/
  port : Nat
  deriving DecidableEq, Repr

/-- What an admitted item that has not ended waits for. -/
inductive WaitKind where
  | modeSet | modeHeld | limits | restart | taskStop | progSwitch | loopSwap
  | canSend | canMode | handover | rtcSet | updFetch | relayed
  | config | read | safety | revoke | write | relayMap
  deriving DecidableEq, Repr

/-- An item of the item table (R82). -/
structure Item where
  /-- identity | 256 | R82, 03 | none -/
  owner : BitVec 256
  /-- item ID | 32 | R82, 03 | none -/
  item : Nat
  /-- session slot | 6 | R82, 03 | none -/
  sess : Nat
  /-- opcode | 16 | R84, 03 | none -/
  opcode : Nat
  /-- tenant tag | 8 | R82, 03 | none -/
  tag : Nat
  /-- class | 2 | R64, 03 | none -/
  cls : Nat
  /-- past its point of no return | 1 | R87, 03 | none -/
  ponr : Bool
  /-- what it waits for | — | R83, 03 | none -/
  wait : WaitKind
  /-- parameter of the wait | Nat | R83, 03 | none -/
  a : Nat
  /-- second parameter of the wait | Nat | R83, 03 | none -/
  b : Nat
  /-- bytes the wait needs | bytes | R83, 03 | none -/
  data : Bytes
  /-- HOLDUP: funded at entry, or admitted later as a read | 1 | R134, R136 | none -/
  funded : Bool
  deriving DecidableEq, Repr

structure CacheEntry where
  /-- identity | 256 | R84, 03 | none -/
  owner : BitVec 256
  /-- item ID | 32 | R84, 03 | none -/
  item : Nat
  /-- final status | 16 | R84, 03 | none -/
  status : Nat
  /-- opcode | 16 | R84, 03 | none -/
  opcode : Nat
  /-- instant it was entered | ns | R84, 03 | none -/
  since : Nat
  deriving DecidableEq, Repr

structure Lock where
  /-- object number | 1 to 4096 | R79, 03 | none -/
  obj : Nat
  /-- holder | 256 | R79, 03 | none -/
  owner : BitVec 256
  /-- instant at which it ends | ns | R79, 03 | none -/
  till : Nat
  deriving DecidableEq, Repr

structure BatonSt where
  /-- open sessions, at most 64 | list | R62, 03 | none -/
  sessions : List Session
  /-- item table, admission order | list | R82, 03 | empty -/
  items : List Item
  /-- completion cache, oldest first, at most 4096 | list | R84, 03 | empty -/
  cache : List CacheEntry
  /-- object locks | list | R79, 03 | none -/
  locks : List Lock
  /-- next cursor handle | 32 | R75, 03 | 1 (DESIGN CHOICE, log 6) -/
  nextCursor : Nat
  deriving DecidableEq, Repr

/-! ### Universal I/O (chapter 21) -/

/-- A channel beside its registers. -/
structure UioCh where
  /-- assigned object, 0 for none | — | R544, 21 | 0 -/
  obj : Nat
  /-- pulse count | 64 | R541, 21 | 0 -/
  cnt : W64
  /-- time of the latest conversion | 64 | Table 15 of 21, R545 | 0 -/
  tconv : W64
  /-- instant at which the present fault began | option ns | R542, 21 | none -/
  fault : Option Nat
  /-- a DO channel that the current limit has switched off, and since when | option ns | R543, 21 | none -/
  off : Option Nat
  /-- raw output value that the channel's writer last gave: mV or bit 0 | 16 | R543, R544 | 0 -/
  raw : Nat
  /-- PULSE_IN: instants of the edges counted in the last 1 s | list | Table 21.9, 21 | none -/
  edges : List Nat
  /-- DI: a level that differs from the filtered one, and since when | option | R541, 21 | none -/
  cand : Option (Bool × Nat)
  /-- DI: filtered level | 1 | Table 21.12, 21 | 0 -/
  level : Bool
  /-- DI: level changes since the module's start | 32 | Table 21.12, 21 | 0 -/
  changes : Nat
  /-- DO: instant at which the driver reached its current limit | option ns | R543, 21 | none -/
  limAt : Option Nat
  deriving DecidableEq, Repr

/-! ### Relay link (chapter 14) -/

/-- A binding of an element to a slot entry (SLOT_BIND). -/
structure SlotBind where
  /-- object | 1 to 4096 | Table 14.14, 14 | none -/
  obj : Nat
  /-- element | 1 to 255 | Table 14.14, 14 | none -/
  elem : Nat
  /-- entry | 0 to 31 | Table 14.14, 14 | none -/
  entry : Nat
  /-- byte offset in the entry | 8 | Table 14.14, 14 | none -/
  off : Nat
  /-- value type | 8 | Table 14.14, 14 | none -/
  vt : Nat
  /-- target station, 0 for a read entry | 8 | Table 14.14, 14 | none -/
  station : Nat
  deriving DecidableEq, Repr

/-- What the module knows of a relay station (R380, R381, Table 14.12). -/
structure RStation where
  /-- address | 1 to 254 | Table 14.12, 14 | none -/
  addr : Nat
  /-- STATION object, 0 for none | — | R388, 14 | 0 -/
  obj : Nat
  /-- 0 COLD, 1 PRESENT, 2 LOST, 3 EXCLUDED | 2 | Table 14.12, 14 | 0 -/
  st : Nat
  /-- ring position | 8 | Table 14.12, 14 | 0 -/
  pos : Nat
  /-- losses since start | 32 | Table 14.12, 14 | 0 -/
  losses : Nat
  /-- writes ended FAILED since start | 32 | Table 14.12, 14 | 0 -/
  failed : Nat
  /-- period counter at which WRITTEN was last seen | 64 | Table 14.12, 14 | 0 -/
  seen : Nat
  /-- OUT_LIVE flag | 1 | Table 14.12, 14 | 0 -/
  outLive : Bool
  /-- returned frames in a row without WRITTEN | 8 | R381, 14 | 0 -/
  miss : Nat
  /-- returned frames in a row with WRITTEN while lost | 8 | R381, 14 | 0 -/
  back : Nat
  /-- period counter at the loss | 64 | Table 14.15, 14 | 0 -/
  lostAt : Nat
  /-- instant at which the state last changed | ns | R58, 02 | 0 -/
  since : Nat
  deriving DecidableEq, Repr

/-- A relay output write item (R379, R380). -/
structure RWrite where
  /-- writing lap task | 0 to 7 | R379, 14 | none -/
  task : Nat
  /-- output point: object | — | R379, 14 | none -/
  obj : Nat
  /-- output point: element | — | R379, 14 | none -/
  elem : Nat
  /-- target station | 8 | R379, 14 | none -/
  station : Nat
  /-- payload offset of the point | 16 | R379, 14 | none -/
  ofs : Nat
  /-- value bytes for the relay output image | bytes | R373, 14 | none -/
  data : Bytes
  /-- instant of the commit | ns | R379, 14 | none -/
  atNs : Nat
  /-- carrying frame, once sent | option 64 | R379, 14 | none -/
  carry : Option Nat
  deriving DecidableEq, Repr

/-- A chunk of the message area (R386). -/
structure RChunk where
  /-- destination, 255 for all | 8 | R386, 14 | none -/
  dst : Nat
  /-- source | 8 | R386, 14 | none -/
  src : Nat
  /-- class 1 to 3 | 2 | R386, 14 | none -/
  cls : Nat
  /-- sequence | 16 | R386, 14 | none -/
  seq : Nat
  /-- data | bytes | R386, 14 | none -/
  data : Bytes
  deriving DecidableEq, Repr

/-- A record of a HELLO frame's payload (R378). -/
structure HelloRec where
  /-- address | 8 | R378, 14 | none -/
  addr : Nat
  /-- lowest frame format | 8 | R378, 14 | none -/
  lo : Nat
  /-- highest frame format | 8 | R378, 14 | none -/
  hi : Nat
  /-- claim count | 8 | R378, 14 | none -/
  claims : Nat
  /-- MAP_ID of the node | 32 | R378, 14 | none -/
  mapId : Nat
  deriving DecidableEq, Repr

/-- A frame of which the node has not yet sent every entry (R376). -/
structure RPassing where
  /-- port out | 1 | R376, 14 | none -/
  port : Nat
  /-- header | 32 bytes | R376, 14 | none -/
  hdr : Bytes
  /-- payload so far | bytes | R376, 14 | none -/
  pay : Bytes
  /-- the frame carries an error | 1 | R376, 14 | none -/
  wrong : Bool
  /-- position of the first station that found it | 8 | R376, 14 | none -/
  first : Nat
  /-- write entries that take their loops' outputs of this period | list | R376, 14 | none -/
  ents : List Nat
  deriving DecidableEq, Repr

structure RelaySt where
  /-- slot bindings | list | R388, 14 | none -/
  binds : List SlotBind
  /-- stations known | list | R381, R388 | none -/
  stations : List RStation
  /-- relay input image, one piece an entry | 32 × bytes | R374, 14 | empty -/
  inImg : List Bytes
  /-- relay output image, one piece an entry | 32 × bytes | R373, 14 | zeros -/
  outImg : List Bytes
  /-- relay output writes in flight | list | R379, 14 | none -/
  writes : List RWrite
  /-- period counter of the latest frame | 64 | R366, 14 | 0 -/
  k : Nat
  /-- its start time | 64 | Table 14.3, 14 | 0 -/
  sof : W64
  /-- instant at which it started | ns | R366, 14 | 0 -/
  sofClk : Nat
  /-- master: a frame that has not returned | 1 | R368, 14 | 0 -/
  outstanding : Bool
  /-- master: segments and message area that the latest frame returned | bytes | R375, 14 | none -/
  last : Bytes
  /-- lost or excluded stations | 254 × 1 | R370, 14 | none -/
  lost : List Nat
  /-- APPLIED formed from the latest returned frame | 254 × 1 | R380, 14 | none -/
  applied : List Nat
  /-- period counter of the frame that `applied` speaks of | 64 | R380, 14 | 0 -/
  appliedK : Nat
  /-- chunks dropped since start | 32 | R386, 14 | 0 -/
  drops : Nat
  /-- chunks that arrived marked class 0 and went on as class 1 | 32 | R24, R386 | 0 -/
  c0recl : Nat
  /-- writes superseded since start | 32 | R379, 14 | 0 -/
  super : Nat
  /-- chunks waiting to be sent | list | R386, 14 | none -/
  txq : List RChunk
  /-- master: unconsumed chunks seen once, by source and sequence | list | R386, 14 | none -/
  unconsumed : List (Nat × Nat)
  /-- master: chunks to place at the start of the next area | list | R386, 14 | none -/
  carryOver : List RChunk
  /-- master: result of the latest HELLO frame | list | R378, 14 | none -/
  hello : List HelloRec
  /-- master: HELLO frames in a row with that result | 2 | R378, 14 | 0 -/
  helloN : Nat
  /-- excluded addresses with their reason | list | R378, 14 | none -/
  excluded : List (Nat × Nat)
  /-- instant at which SPLIT began | option ns | R383, 14 | none -/
  splitAt : Option Nat
  /-- instant from which every node has shown LINKS_OK | option ns | R385, 14 | none -/
  linksOk : Option Nat
  /-- node: instant of the latest valid frame | ns | R382, 14 | 0 -/
  lastOk : Nat
  /-- the node's outputs follow the ring | 1 | R382, 14 | 0 -/
  outLive : Bool
  /-- map entries that a drill verdict staged | list | R106, 14 | none -/
  drillMap : List (Nat × W32)
  /-- node: the excluding MAP_ID has been reported | 1 | R377, 14 | 0 -/
  mapExcl : Bool
  /-- the trigger entry has completed and its trigger has not been raised | 1 | R207, 08; R376, 14 | 0 -/
  trigger : Bool
  /-- a frame on its way out, while loops that meet R220 still fill their entries | option | R376, 14 | none -/
  passing : Option RPassing
  /-- node: the upstream port, from the first valid frame after link-up until RSTATE leaves RUN | option | R364, 14 | none -/
  upPort : Option Nat
  /-- node: ports that have lost lock and loop frames back until a frame with Topology 0 ends | list | R383, R385, 14 | none -/
  looped : List Nat
  /-- node: it has written its record in a HELLO frame and has had no cyclic frame since | 1 | R378, 14 | 0 -/
  claimed : Bool
  /-- master: the ring closes with the next frame, which still goes out of both ports | 1 | R385, 14 | 0 -/
  closing : Bool
  /-- chunks for this station that the latest frame brought | list | R386, 14 | none -/
  rx : List RChunk
  deriving DecidableEq, Repr

/-! ### CAN channels (chapter 15) -/

/-- A buffer: frame, stored length and time (R394). -/
structure CanBuf where
  /-- frame | — | R394, 15 | zeros -/
  f : CanFrame
  /-- frame timestamp | 64 | R394, 15 | 0 -/
  ts : W64
  deriving DecidableEq, Repr

/-- An empty buffer. -/
def CanBuf.zero : CanBuf := ⟨⟨false, false, false, false, false, 0, 0, []⟩, 0⟩

/-- Whose request a TX object carries (R401). -/
inductive CanReq where
  | lap (task : Nat)
  | baton (owner : BitVec 256) (item : Nat)
  | plain
  deriving DecidableEq, Repr

structure CanObj where
  /-- primary buffer | — | R394, 15 | zeros -/
  prim : CanBuf
  /-- TX data that waits in the shadow buffer, with its request | option | R395, 15 | none -/
  shadow : Option (Bytes × CanReq)
  /-- request that the primary's data carries | option | R401, 15 | none -/
  req : Option CanReq
  /-- instant of the latest stored frame or of the start of timing | ns | R398, 15 | 0 -/
  since : Nat
  /-- TT object holds data to send | 1 | R407, 15 | 0 -/
  hasData : Bool
  /-- a cancel waits for the attempt on the wire | 1 | R405, 15 | 0 -/
  cancel : Bool
  deriving DecidableEq, Repr

/-- What is on the wire. -/
inductive CanKind where
  | fifo | tt | reply
  deriving DecidableEq, Repr

structure CanWire where
  /-- kind of the attempt | — | R402, 15 | none -/
  kind : CanKind
  /-- message object | 0 to 63 | R402, 15 | none -/
  m : Nat
  deriving DecidableEq, Repr

/-- A binding of an element to a signal (SIG_BIND). -/
structure SigBind where
  /-- object of the module | 1 to 4096 | Table 15.7, 15 | none -/
  obj : Nat
  /-- element | 1 to 255 | Table 15.7, 15 | none -/
  elem : Nat
  /-- message object, 64 for the high-priority buffer | 0 to 64 | Table 15.7, 15 | none -/
  m : Nat
  /-- START | 16 | Table 15.7, 15 | none -/
  start : Nat
  /-- length in bits | 1 to 64 | Table 15.7, 15 | none -/
  len : Nat
  /-- ORDER | 0 or 1 | Table 15.7, 15 | none -/
  order : Nat
  /-- value type | 8 | Table 15.7, 15 | none -/
  vt : Nat
  deriving DecidableEq, Repr

/-- A CAN station (R400, Table 15.2). -/
structure CanStation where
  /-- station number | 1 to 254 | Table 15.7, 15 | none -/
  no : Nat
  /-- monitored RX object | 0 to 63 | Table 15.2, 15 | none -/
  mon : Nat
  /-- STATION object | 1 to 4096 | R400, 15 | none -/
  obj : Nat
  /-- 0 COLD, 1 PRESENT, 2 LOST | 2 | Table 15.2, 15 | 0 -/
  st : Nat
  /-- losses since start | 32 | Table 15.2, 15 | 0 -/
  losses : Nat
  /-- requests ended FAILED since start | 32 | Table 15.2, 15 | 0 -/
  failed : Nat
  /-- timestamp of the last stored frame | 64 | Table 15.2, 15 | 0 -/
  seen : W64
  /-- instant of the loss | ns | Table 15.8, 15 | 0 -/
  lostAt : Nat
  deriving DecidableEq, Repr

structure CanCh where
  /-- message objects 0 to 63 | list | R393, 15 | unused -/
  objs : List CanObj
  /-- high-priority buffer | — | R397, 15 | zeros -/
  hp : CanBuf
  /-- transmit FIFO: object and attempts made, oldest first, at most 32 | list | R401, 15 | empty -/
  fifo : List (Nat × Nat)
  /-- drill replies that wait | list | R402, 15 | empty -/
  replies : List Nat
  /-- attempt on the wire | option | R402, 15 | none -/
  wire : Option CanWire
  /-- TT object whose cell runs, and the cell's start | option | R407, 15 | none -/
  cell : Option (Nat × Nat)
  /-- mode in effect | 2 | R410, 15 | 0 -/
  mode : Nat
  /-- instant of bus-off | ns | R412, 15 | 0 -/
  offAt : Nat
  /-- transmit error counter, above its register's range at bus-off | Nat | R412, 15 | 0 -/
  tec : Nat
  /-- signal bindings | list | R399, 15 | none -/
  sigs : List SigBind
  /-- stations | list | R400, 15 | none -/
  stations : List CanStation
  deriving DecidableEq, Repr

/-! ### Loop engine (chapters 8 and 9) -/

structure LoopBind where
  /-- role | 0 to 4 | Table 8.2, 08 | none -/
  role : Nat
  /-- kind | 1 to 7 | Table 8.3, 08 | none -/
  kind : Nat
  /-- object | 1 to 4096 | Table 8.15, 08 | none -/
  obj : Nat
  /-- element | 1 to 255 | Table 8.15, 08 | none -/
  elem : Nat
  /-- OFF, FP32 | 32 | R190, 08 | none -/
  off : Nat
  /-- SPAN, FP32 | 32 | R190, 08 | none -/
  span : Nat
  deriving DecidableEq, Repr

/-- The two states of a biquad (R233). -/
structure Biquad where
  /-- s1, Q9.30 | 40 | R233, 09 | 0 -/
  s1 : Int
  /-- s2, Q9.30 | 40 | R233, 09 | 0 -/
  s2 : Int
  deriving DecidableEq, Repr

/-- A planned move (R227 to R229). -/
structure Move where
  /-- position at its start, Q9.30 | 40 | R229, 09 | none -/
  p0 : Int
  /-- its end, Q15 | 16 | R229, 09 | none -/
  tgt : Int
  /-- jerk phase, samples | Nat | R228, 09 | none -/
  nj : Nat
  /-- constant acceleration phase, samples | Nat | R228, 09 | none -/
  na : Nat
  /-- cruise phase, samples | Nat | R228, 09 | none -/
  nv : Nat
  /-- V′, FP64 | 64 | R228, 09 | none -/
  v : Nat
  /-- A′, FP64 | 64 | R228, 09 | none -/
  a : Nat
  /-- J′, FP64 | 64 | R228, 09 | none -/
  j : Nat
  /-- sample of the move that comes next | Nat | R229, 09 | none -/
  k : Nat
  deriving DecidableEq, Repr

structure PgSt where
  /-- state of Table 9.1 | 3 | R225, 09 | OFF -/
  st : Nat
  /-- position p, Q9.30 | 40 | 9.1.1, 09 | 0 -/
  p : Int
  /-- target that the waiting plan runs to, Q15 | 16 | R226, 09 | 0 -/
  planTgt : Int
  /-- latched target, Q15 | option 16 | R226, 09 | none -/
  latch : Option Int
  /-- the move | option | R229, 09 | none -/
  move : Option Move
  deriving DecidableEq, Repr

/-- A loop beside its registers. -/
structure LoopSt where
  /-- assigned LOOP object, 0 for none | — | 8.1.1, 08 | 0 -/
  obj : Nat
  /-- bindings | list | R186, 08 | none -/
  binds : List LoopBind
  /-- I, Q9.30 | 40 | R198, 08 | 0 -/
  i : Int
  /-- D, Q9.30 | 40 | R198, 08 | 0 -/
  d : Int
  /-- ed_prev, signal operand | 18 | R198, 08 | 0 -/
  edPrev : Int
  /-- u_prev, Q15 | 16 | R198, 08 | 0 -/
  uPrev : Int
  /-- w_prev, signal operand | 18 | R198, 08 | 0 -/
  wPrev : Int
  /-- y of the latest sample, Q15 | 16 | R236, 09 | 0 -/
  yPrev : Int
  /-- the next sample is a first sample | 1 | R201, 08 | 1 -/
  first : Bool
  /-- a valid PV has been captured | 1 | R236, 09 | 0 -/
  pvSeen : Bool
  /-- the PV captured last was invalid | 1 | R236, 09 | 0 -/
  pvWas : Bool
  /-- measurement biquad | — | R233, 09 | 0 -/
  mb : Biquad
  /-- output biquad | — | R233, 09 | 0 -/
  ob : Biquad
  /-- the biquad enables of the latest sample: measurement, output | 2 × 1 | R234, 09 | 0 -/
  enWas : Bool × Bool
  /-- last valid target, Q15 | option 16 | R194, 08 | none -/
  tgtLast : Option Int
  /-- last valid ff, Q15 | option 16 | R194, 08 | none -/
  ffLast : Option Int
  /-- profile generator | — | 9.1, 09 | OFF -/
  pg : PgSt
  /-- samples since start | 64 | Table 8.12, 08 | 0 -/
  cnt : Nat
  /-- the sample that waits for the engine fell due at | option ns | R209, 08 | none -/
  due : Option Nat
  /-- latest due instant of the internal timer | option ns | R206, 08 | none -/
  lastDue : Option Nat
  /-- relay triggers counted towards DIV + 1 | 7 | R206, 08 | 0 -/
  trig : Nat
  /-- LOOP_PVBAD has been raised and LOOP_PVGOOD not yet | 1 | R193, 08 | 0 -/
  pvEv : Bool
  deriving DecidableEq, Repr

/-- A loop as it stands before its first use. -/
def LoopSt.init : LoopSt where
  obj := 0
  binds := []
  i := 0
  d := 0
  edPrev := 0
  uPrev := 0
  wPrev := 0
  yPrev := 0
  first := true
  pvSeen := false
  pvWas := false
  mb := ⟨0, 0⟩
  ob := ⟨0, 0⟩
  enWas := (false, false)
  tgtLast := none
  ffLast := none
  pg := ⟨0, 0, 0, none, none⟩
  cnt := 0
  due := none
  lastDue := none
  trig := 0
  pvEv := false

/-- A point as it stood before the entries that follow the trigger entry in its frame (R207). -/
structure SlotPrior where
  /-- object | — | R207, 08 | none -/
  obj : Nat
  /-- element | — | R207, 08 | none -/
  elem : Nat
  /-- value type | — | R207, 08 | none -/
  vt : Nat
  /-- value in effect | 64 | R207, 08 | none -/
  value : W64
  /-- SRC | 3 | R207, 08 | none -/
  src : Nat
  /-- REP | 3 | R207, 08 | none -/
  rep : Nat
  deriving DecidableEq, Repr

structure EngineSt where
  /-- loops LP0 to LP255 | list | 8.1, 08 | OFF -/
  loops : List LoopSt
  /-- a relay trigger has been delivered since start | 1 | R210, 08 | 0 -/
  trigSeen : Bool
  /-- relay-triggered loops run on their timers after a loss | 1 | R210, 08 | 0 -/
  trigLost : Bool
  /-- instant of the latest relay trigger | ns | R210, 08 | 0 -/
  lastTrig : Nat
  /-- loops that wait for the planning unit, in request order | list | R230, 09 | none -/
  plans : List Nat
  /-- instants of the evaluations of the last 1 ms | list | LOOP_GSTAT, 08 | none -/
  evals : List Nat
  /-- HOLDUP step 6 has forced every loop to MANUAL | 1 | R202, 08 | 0 -/
  holdup : Bool
  /-- relay points behind the trigger entry, as they stood in the period before | list | R207, 08 | none -/
  before : List SlotPrior
  deriving DecidableEq, Repr

/-! ### Lap executor (chapter 7) -/

/-- A captured input: value and quality of one instant (R159). -/
structure LapIn where
  /-- object | — | R155, 07 | none -/
  obj : Nat
  /-- element | — | R155, 07 | none -/
  elem : Nat
  /-- value | 64 | R159, 07 | none -/
  value : W64
  /-- quality byte | 8 | R159, 07 | none -/
  q : Nat
  deriving DecidableEq, Repr

/-- Where a task stands between a release and the end of its housekeeping (Table 7.1). -/
inductive LapPhase where
  | idle       -- no lap
  | captured   -- phase 1 is done, the core has not yet been given
  | running    -- phase 2
  | returned   -- execution has ended, COMMIT_OFS has not come
  deriving DecidableEq, Repr

structure LapTask where
  /-- phase of the lap | — | Table 7.1, 07 | idle -/
  phase : LapPhase
  /-- number of laps taken since start; lap number of the latest capture plus 1 | 64 | Table 7.2, 07 | 0 -/
  laps : Nat
  /-- lap timestamp | 64 | R161, 07 | 0 -/
  ts : W64
  /-- monotonic capture time | 64 | R161, 07 | 0 -/
  mono : Nat
  /-- instant of the release of the present lap | ns | R155, 07 | 0 -/
  relAt : Nat
  /-- next release | option ns | R153, 07 | none -/
  next : Option Nat
  /-- a release that falls due is held by a switch | 1 | R177, 07 | 0 -/
  held : Bool
  /-- captured inputs | list | R155, 07 | none -/
  inputs : List LapIn
  /-- output variables as the program left them: object, element, value | list | R155, 07 | none -/
  outs : List (Nat × Nat × W64)
  /-- variables outside the image that the lap has written | list | R166, 07 | none -/
  vars : List (Nat × Bytes)
  /-- charts that the lap has moved | list | R166, 07 | none -/
  charts : List (Nat × List Nat)
  /-- function block instances that the lap has evaluated, as they stood before (none: created in this lap) | list | R166, 07 | none -/
  undo : List (Nat × Option FbInst)
  /-- the lap is late under COMMIT 1 | 1 | R167, 07 | 0 -/
  late : Bool
  /-- a release of the present lap's task has been skipped | 1 | R168, 07 | 0 -/
  skipped : Bool
  /-- stop at the end of the lap: cause | option | R169, R120 | none -/
  stop : Option Nat
  /-- FIRST_LAP for the next lap | 2 | Table 7.2, 07 | 1 -/
  firstNext : Nat
  /-- FIRST_LAP of the present lap | 2 | Table 7.2, 07 | 0 -/
  firstLap : Nat
  /-- ALIGN is lost and the task runs on the monotonic base | 1 | R154, 07 | 0 -/
  alignLost : Bool
  deriving DecidableEq, Repr

/-- Write status of an output point (R182). -/
structure WStat where
  /-- task | 0 to 7 | R182, 07 | none -/
  task : Nat
  /-- object | — | R182, 07 | none -/
  obj : Nat
  /-- element | — | R182, 07 | none -/
  elem : Nat
  /-- 0 DONE, 1 FAILED, 2 PENDING | 2 | R182, 07 | none -/
  st : Nat
  deriving DecidableEq, Repr

/-- A point as it stood before a commit of the present CLK_LOOP cycle (R157). -/
structure LapPrior where
  /-- cycle of CLK_LOOP | Nat | R157, 07 | none -/
  cycle : Nat
  /-- task that committed, 8 for a register write | 0 to 8 | R157, 07; R211, 08 | none -/
  task : Nat
  /-- object | — | R157, 07 | none -/
  obj : Nat
  /-- element | — | R157, 07 | none -/
  elem : Nat
  /-- value before the commit | 64 | R157, 07 | none -/
  value : W64
  /-- SRC before the commit | 3 | R157, 07 | none -/
  src : Nat
  /-- REP before the commit | 3 | R157, 07 | none -/
  rep : Nat
  deriving DecidableEq, Repr

/-- Failed writes to one lost station, gathered for housekeeping (R182). -/
structure LapFail where
  /-- task | 0 to 7 | R182, 07 | none -/
  task : Nat
  /-- bus of the station: 0 the relay, 1 + c CAN channel c | 0 to 4 | R182, 07 | none -/
  bus : Nat
  /-- station address | 8 | R182, 07 | none -/
  station : Nat
  /-- failed writes | Nat | R182, 07 | none -/
  n : Nat
  /-- first point: object and element | — | R182, 07 | none -/
  first : Nat × Nat
  deriving DecidableEq, Repr

/-- A program slot in NAND (R173, R185). -/
structure ProgSlot where
  /-- image length, 0 for no image | 27 | R173, 07 | 0 -/
  size : Nat
  /-- pieces written, newest first, with their offsets | list | R185, 07 | none -/
  pieces : List (Nat × Bytes)
  deriving DecidableEq, Repr

structure LapSt where
  /-- tasks LT0 to LT7 | list | R152, 07 | stopped -/
  tasks : List LapTask
  /-- program slots 0 and 1 | list | R173, 07 | empty -/
  slots : List ProgSlot
  /-- declarations of the active program | — | R173, 07 | none -/
  decl : ProgDecl
  /-- switches and reverts completed since manufacture | 32 | Table 7.7, 07 | 0 -/
  swCnt : Nat
  /-- function block instances | list | R164, 07 | none -/
  fbs : List FbInst
  /-- write status of output points | list | R182, 07 | none -/
  wstat : List WStat
  /-- failed writes to lost stations not yet reported | list | R182, 07 | none -/
  fails : List LapFail
  /-- variables outside the image: path and value | list | R160, 07 | empty -/
  vars : List (Nat × Bytes)
  /-- active steps of the SFC charts | list | R165, 07 | empty -/
  charts : List (Nat × List Nat)
  /-- points as they stood before the commits of the present CLK_LOOP cycle | list | R157, 07 | empty -/
  prior : List LapPrior
  /-- DOWNTIME_S | s | 7.5, 07 | 0 -/
  downtime : Nat
  /-- a switch (or revert: true) is admitted, since this instant | option | R176, 07 | none -/
  sw : Option (Nat × Bool)
  /-- the copy has begun at this instant | option ns | R176, 07 | none -/
  copy : Option Nat
  deriving DecidableEq, Repr

/-! ### Estate (chapter 2) -/

structure Elem where
  /-- declared value type | 8 | R553, 02 | by object type -/
  vtype : Nat
  /-- value, laid out as bytes 12 to 19 of Table 2.5 | 64 | R37, 02 | 0 -/
  value : W64
  /-- timestamp | 64 | R37, 02 | 0 -/
  ts : W64
  /-- source condition SRC: 0 GOOD, 1 STALE, 4 LOST, 5 COLD | 3 | R38, R39 | COLD -/
  src : Nat
  /-- freshness limit in ms, 0 for none | — | R40, 02 | 0 -/
  fresh : Nat
  /-- substitute value, if configured | option 64 | R39, 02 | none -/
  subst : Option W64
  /-- reported quality taken over from another point (element 2 of a LOOP object) | option | Table 8.4, 08 | none -/
  inh : Option Nat
  /-- value and timestamp are kept in the MRAM-class store | 1 | R552, 02 | 0 -/
  kept : Bool
  deriving DecidableEq, Repr

structure Obj where
  /-- object number | 1 to 4096 | R29, 02 | none -/
  num : Nat
  /-- type code | 8 | R34, 02 | none -/
  typ : Nat
  /-- tenant tag | 8 | R36, 02 | none -/
  tag : Nat
  /-- elements 1 to Count − 1 | list | R36, 02 | none -/
  elems : List Elem
  /-- Changed | 64 | R551, 02 | none -/
  changed : W64
  deriving DecidableEq, Repr

/-- A force on an image point (R170). -/
structure Force where
  /-- object | 1 to 4096 | R170, 07 | none -/
  obj : Nat
  /-- element | 1 to 255 | R170, 07 | none -/
  elem : Nat
  /-- value type | 8 | R170, 07 | none -/
  vtype : Nat
  /-- forced value | 64 | R170, 07 | none -/
  value : W64
  deriving DecidableEq, Repr

structure EstateSt where
  /-- forces in place, oldest first, at most 256 | list | R170, 07 | none -/
  forces : List Force
  /-- own Furun address | 64 | R550, 02 | 0x0400_0000_0000_0000 -/
  addr : W64
  /-- objects, ascending by number | list | R29, 02 | none -/
  objs : List Obj
  deriving DecidableEq, Repr

/-! ### Ledger (chapter 5) -/

structure Reservation where
  /-- amount | mW | R124, 05 | none -/
  mw : Nat
  /-- instant at which it lapses | ns | R124, 05 | none -/
  till : Nat
  deriving DecidableEq, Repr

structure HoldItem where
  /-- funded item of steps 2 to 5 | — | R134, 05 | none -/
  ref : HoldRef
  /-- its charge | µJ | R134, 05 | none -/
  uj : Nat
  /-- end of its time bound | ns | R134, R136 | none -/
  till : Nat
  /-- a read admitted after entry, for which step 6 does not wait | 1 | R136, 05 | none -/
  late : Bool
  deriving DecidableEq, Repr

structure HoldSt where
  /-- highest step of Table 5.6 passed | 0 to 9 | Table 5.6, 05 | 0 -/
  step : Nat
  /-- charge still set aside for mandatory steps | µJ | R134, R136 | 0 -/
  reserve : Nat
  /-- funded items that have not ended | list | R134, 05 | none -/
  items : List HoldItem
  /-- items ended FAILED | — | Table 5.10, 05 | 0 -/
  failed : Nat
  /-- items not funded | — | Table 5.10, 05 | 0 -/
  unfunded : Nat
  /-- instant from which the supply has been stable | option ns | R137, 05 | none -/
  stable : Option Nat
  /-- the bank held 66 mJ or more at entry | 1 | R138, 05 | 0 -/
  enough : Bool
  deriving DecidableEq, Repr

structure LedgerSt where
  /-- reservations of charged work | list | R124, 05 | none -/
  resv : List Reservation
  /-- headroom of the latest tick | mW | R123, 05 | 0 (DESIGN CHOICE, log 7) -/
  headroom : Int
  /-- floors unmet: CLK_APP, lanes, E0, E1 | 4 × 1 | R128, 05 | met -/
  unmet : List Bool
  /-- consecutive ticks for which an unmet floor was carried | 4 × 4 | R128, 05 | 0 -/
  carriedFor : List Nat
  /-- input energy counter | 64, mJ | R132, 05 | 0 -/
  ein : Nat
  /-- input energy below 1 mJ | µJ | R132, 05 | 0 -/
  einFrac : Nat
  /-- an LLDP power exchange has taken place | 1 | R121, 05 | 0 -/
  lldp : Bool
  /-- a source has been measured since start | 1 | R121, 05 | 0 -/
  measured : Bool
  /-- the source or the LLDP allocation has changed since the latest tick | 1 | R121, 05 | 0 -/
  moved : Bool
  /-- instant of the next tick | ns | R120, 05 | 1 ms -/
  nextTick : Nat
  /-- BANK_LOW has been raised for this fall | 1 | R125, 05 | 0 -/
  bankLow : Bool
  /-- rate codes of E0 and E1 that the supply carries | 2 × 2 | R126, 05 | 2: not narrowed -/
  caps : Nat × Nat
  /-- headroom that the increases of E0, E1 and CLK_APP have left at the latest tick | mW | R127, R131 | 0 (DESIGN CHOICE, log 7) -/
  laneRem : Int
  /-- AUTO_RUN has acted and waits for the bank | 1 | R125, 05 | 0 -/
  auto : Bool
  /-- HOLDUP or restart sequence | — | R134, 05 | none -/
  hold : HoldSt
  deriving DecidableEq, Repr

/-! ### Furun (chapter 16) -/

/-- A partly received message (R434). -/
structure FPart where
  /-- type of Table 16.6 | 8 | R434, 16 | none -/
  typ : Nat
  /-- record sequence number of its piece 0 | 48 | R433, 16 | none -/
  key : Nat
  /-- pieces held, by index | list | R434, 16 | none -/
  pieces : List (Nat × Bytes)
  /-- index of the last piece, once known | option | Table 16.5, 16 | none -/
  last : Option Nat
  /-- instant of the first piece received | ns | R434, 16 | none -/
  since : Nat
  deriving DecidableEq, Repr

/-- A group entry of a peer's latest heartbeat (Table 16.7). -/
structure FHbGroup where
  /-- group address | 64 | Table 16.7, 16 | none -/
  grp : W64
  /-- epoch | 32 | Table 16.7, 16 | none -/
  epoch : Nat
  /-- anchor hop | 8 | Table 16.7, 16 | none -/
  anchor : Nat
  /-- members in contact | 8 | Table 16.7, 16 | none -/
  contact : Nat
  deriving DecidableEq, Repr

/-- A link with a peer. -/
structure FLink where
  /-- peer module, OBJ 0 | 64 | R430, 16 | none -/
  peer : W64
  /-- negotiated version | 3 to 5 | R431, 16 | none -/
  ver : Nat
  /-- HB_MS of the peer's HELLO | ms | R431, 16 | none -/
  hbMs : Nat
  /-- shared groups of the peer's HELLO with the digests of their member sets | list | R431, 16 | none -/
  digests : List (W64 × Nat)
  /-- instant of the latest heartbeat | option ns | R435, 16 | none -/
  last : Option Nat
  /-- time of the latest heartbeat | 64 | Table 16.13, 16 | 0 -/
  lastTs : W64
  /-- in contact | 1 | R435, 16 | 0 -/
  contact : Bool
  /-- mode of the latest heartbeat | 8 | Table 16.7, 16 | 0 -/
  mode : Nat
  /-- eligible bits of the latest heartbeat | 6 | Table 16.7, 16 | 0 -/
  elig : Nat
  /-- groups it anchors | 2 | Table 16.7, 16 | 0 -/
  anchored : Nat
  /-- modules in its group, from an anchor | 16 | R432, 16 | 0 -/
  modules : Nat
  /-- group entries of the latest heartbeat | list | Table 16.7, 16 | none -/
  groups : List FHbGroup
  /-- record numbers accepted, within the window of 64 | list | R434, 16 | none -/
  seen : List Nat
  /-- partly received messages, at most 8 | list | R434, 16 | none -/
  parts : List FPart
  /-- FURUN_VERSION for a sealed replica has been raised | 1 | R439, 16 | 0 -/
  verEv : Bool
  /-- admission to the federation was refused: no heartbeats go to it | 1 | R432, 16 | 0 -/
  refused : Bool
  /-- instant at which contact last began or ended | ns | R58, 02 | 0 -/
  since : Nat
  /-- lowest and highest version of the peer's HELLO | 2 × 8 | R431, Table 16.14, 16 | none -/
  range : Nat × Nat
  deriving DecidableEq, Repr

/-- A vote that runs (R45, R46). -/
structure FVote where
  /-- epoch voted for | 32 | R45, 02 | none -/
  epoch : Nat
  /-- proposals held: proposer hop, proposed hop | list | R436, 16 | none -/
  props : List (Nat × Nat)
  /-- instant at which the present attempt began | ns | R46, 02 | none -/
  since : Nat
  /-- attempts begun | Nat | R46, 02 | none -/
  tries : Nat
  deriving DecidableEq, Repr

/-- A group in which the module takes part. -/
structure FGroup where
  /-- group address, OBJ 0; all hops 0 for the federation | 64 | R430, 16 | none -/
  addr : W64
  /-- configured members, bit h for hop h | 64 | GROUP_SETUP, 16 | none -/
  members : W64
  /-- anchor epoch | 32 | R45, 02 | 0 -/
  epoch : Nat
  /-- current anchor's candidate index | option | R47, 02 | none -/
  anchor : Option Nat
  /-- vote that runs | option | R45, 02 | none -/
  vote : Option FVote
  /-- the group has no anchor, and since when | option ns | R46, 02 | none -/
  noneAt : Option Nat
  /-- the module itself holds the role: it won the vote or the hand-over as the unit behind its hop | 1 | R45, R49, 02 | 0 -/
  mine : Bool
  deriving DecidableEq, Repr

/-- An endpoint of a group member (Table 16.13). -/
structure FEndpoint where
  /-- group | 64 | Table 16.13, 16 | none -/
  grp : W64
  /-- hop | 8 | Table 16.13, 16 | none -/
  hop : Nat
  /-- kind: 0 IPv6, 1 IPv4, 2 relay station | 8 | Table 16.13, 16 | none -/
  kind : Nat
  /-- port or station | 8 | Table 16.13, 16 | none -/
  port : Nat
  /-- UDP port | 16 | Table 16.13, 16 | none -/
  udp : Nat
  /-- address | 128 | Table 16.13, 16 | none -/
  addr : Nat
  deriving DecidableEq, Repr

/-- A hand-over that the anchor carries out (R437). -/
structure FHand where
  /-- group | 64 | R437, 16 | none -/
  grp : W64
  /-- item's owner | 256 | R437, 16 | none -/
  owner : BitVec 256
  /-- item | 32 | R437, 16 | none -/
  item : Nat
  /-- new anchor's hop | 8 | R437, 16 | none -/
  hop : Nat
  /-- the commit has been sent | 1 | R437, 16 | none -/
  committed : Bool
  /-- instant of the offer, or of the commit | ns | R437, 16 | none -/
  since : Nat
  deriving DecidableEq, Repr

/-- A replica held (R439). -/
structure FReplica where
  /-- the object's own address | 64 | Table 16.6, 16 | none -/
  obj : W64
  /-- tag | 8 | Table 16.6, 16 | none -/
  tag : Nat
  /-- SEQ of the capture | 32 | Table 16.6, 16 | none -/
  seq : Nat
  /-- header and element records | bytes | R438, 16 | none -/
  data : Bytes
  /-- holder | 64 | R439, 16 | none -/
  holder : W64
  /-- the holder is lost | 1 | R439, 16 | 0 -/
  lost : Bool
  deriving DecidableEq, Repr

/-- A configuration that takes effect 10 ms after its reply (R445). -/
structure FPend where
  /-- instant at which it takes effect | ns | R445, 16 | none -/
  due : Nat
  /-- opcode | 16 | R445, 16 | none -/
  opcode : Nat
  /-- parameter TLVs: type and value | list | Table 16.12, 16 | none -/
  tlvs : List (Nat × Bytes)
  deriving DecidableEq, Repr

/-- An item relayed on Furun whose answer has not come (R90). -/
structure FRelayed where
  /-- identity of the sender | 256 | R441, 16 | none -/
  owner : BitVec 256
  /-- item | 32 | R441, 16 | none -/
  item : Nat
  /-- neighbour the request came from, none for a session of this module | option 64 | R441, 16 | none -/
  back : Option W64
  /-- neighbour it was forwarded to | 64 | R441, 16 | none -/
  fwd : W64
  /-- unit that admitted it, to which its answer goes | 64 | R441, 16 | none -/
  src : W64
  /-- tenant tag | 8 | R90, 03 | none -/
  tag : Nat
  /-- class | 2 | R64, 03 | none -/
  cls : Nat
  /-- version | 8 | R90, 03 | none -/
  ver : Nat
  /-- opcode | 16 | R90, 03 | none -/
  opcode : Nat
  deriving DecidableEq, Repr

/-- An aggregate object of a group that the module anchors (Table 2.8). -/
structure FAgg where
  /-- group | 64 | R42, 02 | none -/
  grp : W64
  /-- OBJ: 1 CIRCUIT, 2 THERMAL, 4 MSV | 3 | Table 2.8, 02 | none -/
  obj : Nat
  /-- elements | list | R43, 02 | none -/
  elems : List Elem
  /-- Changed | 64 | R551, 02 | none -/
  changed : W64
  deriving DecidableEq, Repr

structure FurunSt where
  /-- links, at most 256 | list | R430, 16 | none -/
  links : List FLink
  /-- groups taken part in | list | R430, 16 | none -/
  groups : List FGroup
  /-- endpoints of members | list | R430, 16 | none -/
  ends : List FEndpoint
  /-- hand-overs | list | R437, 16 | none -/
  hands : List FHand
  /-- objects marked for replication | list | R438, 16 | none -/
  marks : List Nat
  /-- replicas held, at most 16384 | list | R439, 16 | none -/
  replicas : List FReplica
  /-- subscribers 0 to 3 of the mirror publication | 4 × option | R442, 16 | none -/
  pubs : List (Option FEndpoint)
  /-- configuration not yet in effect | list | R445, 16 | none -/
  pend : List FPend
  /-- units marked SUSPECT | list | R58, 02 | none -/
  suspects : List W64
  /-- relayed items | list | R441, 16 | none -/
  relayed : List FRelayed
  /-- latest mirror capture received, with its sender | option | R442, 16 | none -/
  mirrorRx : Option (W64 × Bytes)
  /-- messages sent | 32 | Table 16.10, 16 | 0 -/
  sent : Nat
  /-- messages received whole | 32 | Table 16.10, 16 | 0 -/
  recv : Nat
  /-- REASM_DROP | 32 | Table 16.10, 16 | 0 -/
  reasmDrop : Nat
  /-- BAD_TYPE | 32 | Table 16.10, 16 | 0 -/
  badType : Nat
  /-- instant of the latest heartbeat sending | ns | R435, 16 | 0 -/
  hbAt : Nat
  /-- instant of the latest replica sending | ns | R438, 16 | 0 -/
  replAt : Nat
  /-- captures sealed for replication since start | 32 | Table 16.6, 16 | 0 -/
  replSeq : Nat
  /-- instant from which there has been no contact with the module's anchor | option ns | R117, 05 | none: no group -/
  noAnchor : Option Nat
  /-- instant from which contact with the anchor has been regained | option ns | R117, 05 | none -/
  regained : Option Nat
  /-- aggregate objects of the groups anchored | list | R42, R43, 02 | none -/
  aggs : List FAgg
  deriving DecidableEq, Repr

/-! ### Ethernet ports (chapter 16) -/

/-- A frame in an egress queue. -/
structure EthTx where
  /-- class 0 to 3 | 2 | R421, 16 | none -/
  cls : Nat
  /-- the frame | — | R421, 16 | none -/
  frame : Out
  deriving DecidableEq, Repr

/-- An Ethernet port E0, E1, T0 or T1 beside its registers. -/
structure EthPort where
  /-- filter entries 0 to 15 as committed: address and VALID | 16 × (48, 1) | R420, 16 | none valid -/
  flt : List (Nat × Bool)
  /-- IPv6 global address, 0 for none | 128 | R417, 16 | 0 -/
  ip6 : Nat
  /-- its prefix length | 8 | Table 16.13, 16 | 0 -/
  pre6 : Nat
  /-- IPv4 address, 0 for none | 32 | R417, 16 | 0 -/
  ip4 : Nat
  /-- its prefix length | 8 | Table 16.13, 16 | 0 -/
  pre4 : Nat
  /-- rates of the partner, bit r for code r | 4 | R418, 16 | 0 -/
  partner : Nat
  /-- rates for which the partner advertises EEE, bit r for code r | 4 | R424, 16 | 0 -/
  eee : Nat
  /-- partner's Stride rates, once its TLV has come | option 4 | R425, 16 | none -/
  tlv : Option Nat
  /-- instant of the partner's latest Stride TLV | ns | R425, 16 | 0 -/
  tlvAt : Nat
  /-- own Stride TLV has been sent since link-up | 1 | R425, 16 | 0 -/
  tlvSent : Bool
  /-- own request: target rate and sequence | option | R427, 16 | none -/
  req : Option (Nat × Nat)
  /-- sequence of the latest own request | 8 | R427, 16 | 0 -/
  seq : Nat
  /-- instant of the own request | ns | R427, 16 | 0 -/
  reqAt : Nat
  /-- target rate of the change that runs, after the ACK | option | R427, 16 | none -/
  target : Option Nat
  /-- the change that runs was demanded by the ledger | 1 | Table 16.14, 16 | 0 -/
  byLedger : Bool
  /-- own MARK sent | 1 | R427, 16 | 0 -/
  markTx : Bool
  /-- partner's MARK received | 1 | R427, 16 | 0 -/
  markRx : Bool
  /-- instant of the later MARK | ns | R428, 16 | 0 -/
  markAt : Nat
  /-- no new request before this instant | ns | R427, R428 | 0 -/
  barTill : Nat
  /-- the link is down after a failed change, since | option ns | R428, 16 | none -/
  failAt : Option Nat
  /-- frames sent | 64 | Table 16.8, 16 | 0 -/
  txf : Nat
  /-- frames accepted | 64 | Table 16.8, 16 | 0 -/
  rxf : Nat
  /-- discarded by the filter | 32 | Table 16.8, 16 | 0 -/
  rxFilt : Nat
  /-- FCS, length and symbol errors | 32 | Table 16.8, 16 | 0 -/
  rxErr : Nat
  /-- discarded under R428 | 32 | Table 16.8, 16 | 0 -/
  txDrop : Nat
  /-- frames marked C0 carried as C1 | 32 | Table 16.8, 16 | 0 -/
  c0recl : Nat
  /-- completed Stride changes | 32 | Table 16.8, 16 | 0 -/
  strides : Nat
  /-- the port does not update the servo before this instant | ns | R452, 17 | 0 -/
  servoAt : Nat
  /-- frames in the egress queues, in the order of their arrival | list | R22, R421, R427 | none -/
  egress : List EthTx
  /-- instant from which every egress queue has been empty | ns | R424, 16 | 0 -/
  idleAt : Nat
  /-- IEEE 802.1Q tag of the frame sent last: VID and priority code point; none without VLAN_EN | option | R421, 16 | none -/
  tag : Option (Nat × Nat)
  deriving DecidableEq, Repr

/-! ### Pacer (chapters 10 and 11) -/

/-- A series (R293). -/
structure Series where
  /-- number | 1 to 255 | R293, 11 | none -/
  no : Nat
  /-- tag | 8 | R293, 11 | none -/
  tag : Nat
  /-- start, TAI | 64 | Table 11.10, 11 | none -/
  start : Nat
  /-- step length, minutes | 16 | Table 11.10, 11 | none -/
  step : Nat
  /-- values, FP32 | 1 to 192 × 32 | Table 11.10, 11 | none -/
  vals : List Nat
  deriving DecidableEq, Repr

/-- What a variable of the local problem stands for (Table 10.2). -/
inductive PKind where
  | unserved | pressure | import_ | export_ | inflow      -- NODE
  | delay (j : Nat) | heat                                -- PIPE
  | flow | head                                           -- PUMP
  | prevOut | output                                      -- PLANT
  | level | charge | discharge | shortfall                -- STORE
  | transfer                                              -- SUB
  | temp | power | slack                                  -- ZONE
  deriving DecidableEq, Repr

/-- A variable of the local problem with its box bounds (R252). -/
structure PVar where
  /-- object | 1 to 4096 | R252, 10 | none -/
  obj : Nat
  /-- what it is | — | Table 10.2, 10 | none -/
  kind : PKind
  /-- it is a state | 1 | Table 10.2, 10 | none -/
  st : Bool
  /-- lower bounds by step, FP32 | list | R241, 10 | none -/
  lo : List Nat
  /-- upper bounds by step, FP32 | list | R241, 10 | none -/
  hi : List Nat
  deriving DecidableEq, Repr

/-- A schedule: the values of every variable by step (region P), and the dual values that go with them. -/
structure PSched where
  /-- plan number | 64 | Table 10.7, 10 | 0 -/
  no : Nat
  /-- plan start, TAI seconds | Nat | R267, 11 | 0 -/
  start : Nat
  /-- start of step 0, TAI seconds | Nat | R238, 10 | 0 -/
  step0 : Nat
  /-- N | 8 | R238, 10 | 0 -/
  n : Nat
  /-- STEP_MIN | 6 | R238, 10 | 0 -/
  stepMin : Nat
  /-- variables: object, what, values z by step as FP32 | list | R254, 10 | none -/
  vars : List (Nat × PKind × List Nat)
  /-- pipe delays by object | list | R247, 10 | none -/
  delays : List (Nat × Nat)
  /-- y of the variables: object, what, values by step as FP32 in scaled units | list | R239, R256, 10 | none -/
  duals : List (Nat × PKind × List Nat)
  /-- y of the general rows: object, row of the object, values by step as FP32 | list | R239, R256, 10 | none -/
  rowDuals : List (Nat × Nat × List Nat)
  deriving DecidableEq, Repr

/-- One step of the problem in scaled units, every value FP32 (10.2, R252). Matrices are lists of rows; states stand before inputs. -/
structure QStep where
  /-- A_k | n × n | 10.2, 10 | none -/
  a : List (List Nat)
  /-- B_k | n × m | 10.2, 10 | none -/
  b : List (List Nat)
  /-- c_k | n | 10.2, 10 | none -/
  c : List Nat
  /-- general rows E_k, F_k | g × (n + m) | 10.2, 10 | none -/
  ef : List (List Nat)
  /-- lower bounds of the variables, then of the general rows | n + m + g | 10.2, 10 | none -/
  lo : List Nat
  /-- upper bounds of the variables, then of the general rows | n + m + g | 10.2, 10 | none -/
  hi : List Nat
  /-- diagonal of Wx_k, Wu_k | n + m | 10.2, 10 | none -/
  w : List Nat
  /-- qx_k, qu_k | n + m | 10.2, 10 | none -/
  q : List Nat
  /-- object and row of the object of each general row | g | R245, 10 | none -/
  keys : List (Nat × Nat)
  deriving DecidableEq, Repr

/-- The cost of one step in physical units, FP64 (R245). -/
structure PCost where
  /-- diagonal of W by variable | list | R245, 10 | none -/
  w : List Nat
  /-- linear terms by variable | list | R245, 10 | none -/
  q : List Nat
  /-- what depends on no variable | 64 | R245, 10 | 0 -/
  cst : Nat
  deriving DecidableEq, Repr

/-- The local problem of a plan, as built (R249 to R253). Lists by variable have the states before the inputs. -/
structure PProb where
  /-- variables, states before inputs, each in the order of R252 | list | R252, 10 | none -/
  vars : List PVar
  /-- pipe delays by object | list | R247, 10 | none -/
  delays : List (Nat × Nat)
  /-- g, general rows at most in a step | 8 | R240, 10 | 0 -/
  g : Nat
  /-- scale factors c and r by variable, FP32 | list | R252, 10 | none -/
  scale : List (Nat × Nat)
  /-- scaled steps, without the coupling term | N | R252, 10 | none -/
  steps : List QStep
  /-- costs by step | N | R245, 10 | none -/
  costs : List PCost
  /-- scaled initial state, FP32 | n | R250, 10 | none -/
  x0 : List Nat
  /-- rho | 32 | R256, 10 | 0 -/
  rho : Nat
  /-- EPS_P at the build | 32 | 10.9, 10 | 0 -/
  epsP : Nat
  /-- EPS_D at the build | 32 | 10.9, 10 | 0 -/
  epsD : Nat
  /-- quadratic coupling cost, FP64: Δh·ρF in rounds, Δh·ρP in ISLAND, 0 without a federation | 64 | R270, R286, 11 | 0 -/
  cw : Nat
  /-- boundary nodes by carrier | list | R263, 11 | none -/
  bound : List (Nat × Nat)
  /-- warm start z by step, scaled FP32 | N | R239, R256, 10 | none -/
  warmZ : List (List Nat)
  /-- warm start y by step, FP32 | N | R239, R256, 10 | none -/
  warmY : List (List Nat)
  deriving DecidableEq, Repr

/-- A local solve that runs or has ended. -/
structure PSolve where
  /-- round; 0 for a solve without rounds | Nat | R270, 11 | 0 -/
  round : Nat
  /-- targets t, FP32, carrier by carrier; in ISLAND A and then λP | list | R270, R286, 11 | none -/
  t : List Nat
  /-- instant at which it began | ns | R259, 10 | none -/
  since : Nat
  /-- the solution has been taken | 1 | R270, 11 | 0 -/
  done : Bool
  /-- values of the plan by variable and step, taken from z | list | R256, 10 | none -/
  z : List (List Nat)
  /-- w by step, scaled | list | R256, 10 | none -/
  ws : List (List Nat)
  /-- z by step, scaled | list | R256, 10 | none -/
  zs : List (List Nat)
  /-- y by step, scaled | list | R256, 10 | none -/
  ys : List (List Nat)
  /-- residuals met | 1 | R256, 10 | 0 -/
  met : Bool
  /-- final rp, FP32 | 32 | R256, 10 | 0 -/
  rp : Nat
  /-- final rd, FP32 | 32 | R256, 10 | 0 -/
  rd : Nat
  /-- objective, FP64 | 64 | Table 10.7, 10 | 0 -/
  obj : Nat
  deriving DecidableEq, Repr

/-- The module's own plan of the present period. -/
structure PPlan where
  /-- plan number | 64 | Table 11.8, 11 | none -/
  no : Nat
  /-- plan start, TAI seconds | Nat | R267, 11 | none -/
  start : Nat
  /-- start of step 0, TAI seconds | Nat | R238, 10 | none -/
  step0 : Nat
  /-- N | 8 | R266, 11 | none -/
  n : Nat
  /-- STEP_MIN | 6 | R266, 11 | none -/
  stepMin : Nat
  /-- PERIOD | s | R267, 11 | none -/
  period : Nat
  /-- group whose rounds it follows, none without a federation or in ISLAND | option | R266, 11 | none -/
  grp : Option W64
  /-- anchor epoch of that group | 32 | R276, 11 | none -/
  epoch : Nat
  /-- made in ISLAND | 1 | R286, 11 | none -/
  island : Bool
  /-- built without a usable previous plan | 1 | R248, 10 | none -/
  cold : Bool
  /-- the problem, where the build has succeeded | option | R253, 10 | none -/
  prob : Option PProb
  /-- the plan has ended in FAULT | 1 | R260, 10 | 0 -/
  fault : Bool
  /-- cap, where there is one | option | R131, 05 | none -/
  cap : Option Nat
  /-- iterations run | Nat | R270, 11 | 0 -/
  iters : Nat
  /-- a solve ended at the cap | 1 | R270, 11 | 0 -/
  capped : Bool
  /-- solves so far, the latest first | list | R270, 11 | none -/
  solves : List PSolve
  /-- B of the previous final plan, shifted, FP32 | list | R271, 11 | none -/
  b0 : List Nat
  /-- quality and values are settled: FINAL received or FALLBACK applied | 1 | R279, 11 | 0 -/
  closed : Bool
  /-- rounds abandoned with the anchor | 1 | R276, 11 | 0 -/
  abandoned : Bool
  /-- carriers of the group's rounds, ascending | list | Table 11.6, 11 | none -/
  cars : List Nat
  /-- the flat nominal schedule, where the plan is it | option | R248, R279, 11 | none -/
  nominal : Option PSched
  deriving DecidableEq, Repr

/-- A participant of a group's plan (R274, R275). -/
structure GPart where
  /-- hop | 1 to 63 | 11.1, 11 | none -/
  hop : Nat
  /-- it is a sub-group | 1 | 11.1, 11 | none -/
  sub : Bool
  /-- frozen, with its last accepted round | option | R275, 11 | none -/
  frozen : Option Nat
  /-- B of its reply in the last completed round, before one B⁰; of its last accepted reply once it is frozen, FP32 | list | R269, R275 | none -/
  b : List Nat
  /-- B of the round before, FP32 | list | R269, 11 | none -/
  bPrev : List Nat
  /-- B and flags of its reply in the open round | option | R272, 11 | none -/
  next : Option (List Nat × Nat)
  /-- flags of its reply in the last completed round | 8 | Table 11.7, 11 | 0 -/
  flags : Nat
  /-- last accepted round | Nat | R275, 11 | 0 -/
  round : Nat
  /-- probe responses by carrier, then j, FP32 | option list | R281, 11 | none -/
  probe : Option (List Nat)
  deriving DecidableEq, Repr

/-- A plan that the module coordinates as an anchor. -/
structure GPlan where
  /-- group | 64 | 11.3, 11 | none -/
  grp : W64
  /-- epoch | 32 | R276, 11 | none -/
  epoch : Nat
  /-- plan number of the group | 64 | Table 11.8, 11 | none -/
  no : Nat
  /-- plan start, TAI seconds | Nat | R267, 11 | none -/
  start : Nat
  /-- start of step 0, TAI seconds | Nat | R238, 10 | none -/
  step0 : Nat
  /-- N | 8 | R266, 11 | none -/
  n : Nat
  /-- STEP_MIN | 6 | R266, 11 | none -/
  stepMin : Nat
  /-- PERIOD | s | R267, 11 | none -/
  period : Nat
  /-- carriers present, ascending | list | 11.1, 11 | none -/
  cars : List Nat
  /-- participants, ascending hop | list | R274, 11 | none -/
  parts : List GPart
  /-- the group has a port | 1 | 11.1, 11 | none -/
  port : Bool
  /-- u, FP64 | list | R269, 11 | none -/
  u : List Nat
  /-- E, FP64 | list | R269, 11 | none -/
  e : List Nat
  /-- rbar of the round before, FP64 | list | R269, 11 | none -/
  rbar : List Nat
  /-- A of the port, FP64 | list | R285, 11 | none -/
  a : List Nat
  /-- λP of the port, FP64 | list | R285, 11 | none -/
  lp : List Nat
  /-- round that is open | Nat | R272, 11 | 1 -/
  round : Nat
  /-- instant at which it was opened | ns | R275, 11 | none -/
  roundAt : Nat
  /-- completed rounds | Nat | R272, 11 | 0 -/
  done : Nat
  /-- rp_F, FP64 | 64 | R269, 11 | 0 -/
  rp : Nat
  /-- rd_F, FP64 | 64 | R269, 11 | 0 -/
  rd : Nat
  /-- closed by FINAL | 1 | R272, 11 | 0 -/
  closed : Bool
  /-- quality code | 3 | R278, 11 | 0 -/
  qual : Nat
  /-- condition bits | 5 | Table 11.3, 11 | 0 -/
  cond : Nat
  deriving DecidableEq, Repr

/-- Prices of a FINAL received or sent for a group, kept for later plans (R271, R285). -/
structure PFinal where
  /-- group | 64 | R285, 11 | none -/
  grp : W64
  /-- start of step 0, TAI seconds | Nat | R285, 11 | none -/
  step0 : Nat
  /-- N | 8 | R285, 11 | none -/
  n : Nat
  /-- STEP_MIN | 6 | R285, 11 | none -/
  stepMin : Nat
  /-- carriers present | list | Table 11.6, 11 | none -/
  cars : List Nat
  /-- λ, FP32 | list | Table 11.7, 11 | none -/
  lam : List Nat
  /-- accepted B (of the module) or E (of the unit that answered), FP32 | list | R285, 11 | none -/
  b : List Nat
  /-- E of the group's port, where the module has coordinated the plan, FP32 | option list | R271, 11 | none -/
  e : Option (List Nat)
  deriving DecidableEq, Repr

/-- A flex envelope held: a child's, accepted, or the group's own. -/
structure PEnv where
  /-- group the envelope describes | 64 | Table 11.4, 11 | none -/
  grp : W64
  /-- its bytes | bytes | Table 11.4, 11 | none -/
  bs : Bytes
  deriving DecidableEq, Repr

structure PacerSt where
  /-- series in configuration memory, ascending number | list | R254, R293 | none -/
  series : List Series
  /-- latest completed plan | option | R255, 10 | none -/
  plan : Option PSched
  /-- the plan of the present period | option | R268, 11 | none -/
  cur : Option PPlan
  /-- plans that the module coordinates | list | R268, 11 | none -/
  coord : List GPlan
  /-- prices of the latest FINAL by group | list | R271, R285 | none -/
  finals : List PFinal
  /-- port data by group: λP and A of the parent's latest FINAL | list | R285, 11 | none -/
  ports : List PFinal
  /-- accepted envelopes of child groups | list | R283, 11 | none -/
  envs : List PEnv
  /-- own envelopes of the groups anchored | list | R281, 11 | none -/
  own : List PEnv
  /-- elements of OBJ 3 by group: values of Table 11.8 and Changed | list | R292, R551, 11 | none -/
  obj3 : List (W64 × List W64 × W64)
  /-- plan number | 64 | Table 11.8, 11 | 0 -/
  no : Nat
  /-- TAI second of the latest plan start | option | R267, 11 | none -/
  startAt : Option Nat
  /-- N, STEP_MIN and PERIOD of the anchor's latest ROUND | option | R266, 11 | none -/
  hor : Option (Nat × Nat × Nat)
  /-- PERIOD in force | s | R267, 11 | 60 -/
  period : Nat
  /-- latest plan that was not FALLBACK: number, step 0, N, STEP_MIN | option | R288, 11 | none -/
  live : Option (Nat × Nat × Nat × Nat)
  /-- PACER_DISPATCH_STALE has been raised for it | 1 | R288, 11 | 0 -/
  staleEv : Bool
  /-- plan that last reached DONE: number, start of step 0, objective, rp, rd | 64, 64, 64, 32, 32 | Table 10.7, 10 | 0 -/
  wide : Nat × W64 × Nat × Nat × Nat
  /-- answers given in a parent's rounds: child group, round, E as FP32 | list | R284, 11 | none -/
  answers : List (W64 × Nat × List Nat)
  /-- objects left out of the latest plan | list | R251, 10 | none -/
  rejected : List Nat
  /-- instant of the latest FINAL of the module's anchor | option ns | R117, 05 | none -/
  heard : Option Nat
  /-- PACER_FCFG to PACER_FITER as the latest plan start took them | 9 × 32 | 11.13, 11 | none -/
  fed : List Nat
  /-- builds since PD_PACER was powered, which fix the content of region D | Nat | R254, 10 | 0 -/
  sramD : Nat
  /-- builds and solves since PD_PACER was powered, which fix the content of region W and of the coupling area | Nat | R254, 10 | 0 -/
  sramW : Nat
  deriving DecidableEq, Repr

/-! ### Metrology (chapter 12) -/

structure MetCir where
  /-- assigned CIRCUIT object, 0 for none | — | R327, 12 | 0 -/
  obj : Nat
  /-- energy registers of Table 12.2 | 8 × 96 | R309, 12 | 0 -/
  acc : List Nat
  /-- fraction of an LSB carried, in units of 1/(3600·2^298) | 8 × Nat | R308, 12 | 0 -/
  rem : List Nat
  /-- EAI at the start of the demand window | 96 | R315, 12 | 0 -/
  dem0 : Nat
  /-- DEMAND, FP32 | 32 | Table 12.3, 12 | 0 -/
  demand : Nat
  /-- DEMAND_PK, FP32 | 32 | R316, 12 | 0 -/
  demPk : Nat
  /-- the latest closed window was partial | 1 | R316, 12 | 0 -/
  part : Bool
  /-- highest S since the latch of the latest save, W rounded up | Nat | R325, 12 | 0 -/
  peak : Nat
  /-- PH_EN in effect | 3 | R329, 12 | 0 (each start: the register) -/
  phEn : Nat
  /-- In in effect, FP32 | 32 | R329, 12 | 0 (each start: the register) -/
  rated : Nat
  deriving DecidableEq, Repr

structure MetThm where
  /-- assigned THERMAL object, 0 for none | — | R327, 12 | 0 -/
  obj : Nat
  /-- EH, EC, VOL | 3 × 96 | R309, 12 | 0 -/
  acc : List Nat
  /-- fraction of an LSB carried, in units of 2^−447 | 3 × Nat | R308, 12 | 0 -/
  rem : List Nat
  /-- FAULT_S | s | R319, 12 | 0 -/
  faultS : Nat
  /-- STATUS of the latest test: TF LOST, TR LOST | 2 | R319, 12 | 0 -/
  fault : Nat
  /-- pulses of the last 10 s: instant, volume in µL, energy in nWh | list | R319, 12 | none -/
  pulses : List (Nat × Nat × Int)
  /-- highest thermal power since the latch of the latest save, W rounded up | Nat | R325, 12 | 0 -/
  peak : Nat
  deriving DecidableEq, Repr

structure MetPo where
  /-- assigned PULSEOUT object, 0 for none | — | R333, 12 | 0 -/
  obj : Nat
  /-- BASE | 96 | R321, 12 | 0 -/
  base : Nat
  /-- EMITTED | 64 | R321, 12 | 0 -/
  emitted : Nat
  /-- WEIGHT | 64 | R320, 12 | 0 -/
  weight : Nat
  /-- instant from which the next pulse may start | ns | R320, 12 | 0 -/
  next : Nat
  /-- MET_PO_BACKLOG has been raised for this rise | 1 | R321, 12 | 0 -/
  backlogged : Bool
  deriving DecidableEq, Repr

/-- One of the two copies of a save (R323). -/
structure MetSave where
  /-- sequence | 32 | R323, 12 | none -/
  seq : Nat
  /-- latch time | 64 | R323, 12 | none -/
  ts : W64
  /-- energy registers of the circuits | 8 × 8 × 96 | R323, 12 | none -/
  cirs : List (List Nat)
  /-- registers of the thermal meters | 4 × 3 × 96 | R323, 12 | none -/
  thms : List (List Nat)
  /-- DEMAND_PK of the circuits | 8 × 32 | R323, 12 | none -/
  pks : List Nat
  /-- FAULT_S of the thermal meters | 4 × Nat | R323, 12 | none -/
  faults : List Nat
  /-- BASE and EMITTED of the pulse outputs | 8 × (96, 64) | R323, 12 | none -/
  pos : List (Nat × Nat)
  deriving DecidableEq, Repr

/-- An entry of a gap record (Table 12.8). -/
structure GapEntry where
  /-- 0 circuit, 1 thermal meter | 8 | Table 12.8, 12 | none -/
  kind : Nat
  /-- index | 8 | Table 12.8, 12 | none -/
  idx : Nat
  /-- tag at the stop | 8 | Table 12.8, 12 | none -/
  tag : Nat
  /-- PEAK, W | 32 | Table 12.8, 12 | none -/
  peak : Nat
  /-- BOUND | 96 | Table 12.8, 12 | none -/
  bound : Nat
  /-- saved values | 8 × 96 | Table 12.8, 12 | none -/
  vals : List Nat
  deriving DecidableEq, Repr

structure GapRec where
  /-- STOP_UNKNOWN and FS_BOUND | 2 | Table 12.7, 12 | none -/
  flags : Nat
  /-- sequence of the save restored | 32 | Table 12.7, 12 | none -/
  seq : Nat
  /-- save time | 64 | Table 12.7, 12 | none -/
  saved : W64
  /-- outage start | 64 | Table 12.7, 12 | none -/
  from_ : W64
  /-- outage end | 64 | Table 12.7, 12 | none -/
  to_ : W64
  /-- entries | list | Table 12.7, 12 | none -/
  entries : List GapEntry
  deriving DecidableEq, Repr

/-- One metrology channel as the DSP holds it (R300 to R302). FP64 values stand as their bits. -/
structure MetChan where
  /-- MET_CHCFG in effect | 32 | R329, 12 | factory values (each start: the registers) -/
  cfg : Nat
  /-- KS in effect | 32 | R329, 12 | 1.0 (each start: the register) -/
  ks : Nat
  /-- GAIN in effect | 32 | R329, 12 | 1.0 (each start: the register) -/
  gain : Nat
  /-- x_prev, FP64 | 64 | R300, 12 | 0 (each start) -/
  x : Nat
  /-- h_prev, FP64 | 64 | R300, 12 | 0 (each start) -/
  h : Nat
  /-- h, latest first, FP64 | list of at most 64 | R301, 12 | none -/
  hs : List Nat
  /-- the integrator, FP64 | 64 | R301, 12 | 0 (each start) -/
  s : Nat
  /-- values before the delay, latest first, FP64 | list of at most 64 | R302, 12 | none -/
  vs : List Nat
  deriving DecidableEq, Repr

/-- The words that the snapshot groups hold, as of one cycle end (R332). -/
structure MetView where
  /-- time of the cycle end | 64 | Table 12.10, 12 | 0 -/
  ts : W64
  /-- energy registers of the circuits | 8 × 8 × 96 | Table 12.10, 12 | none -/
  cirs : List (List Nat)
  /-- registers and FAULT_S of the thermal meters | 4 × (3 × 96, Nat) | Table 12.10, 12 | none -/
  thms : List (List Nat × Nat)
  /-- EMITTED and WEIGHT of the pulse outputs | 8 × (64, 64) | Table 12.10, 12 | none -/
  pos : List (Nat × Nat)
  deriving DecidableEq, Repr

structure MetSt where
  /-- circuits CIR0 to CIR7 | list | R295, 12 | unassigned -/
  cirs : List MetCir
  /-- thermal meters THM0 to THM3 | list | R317, 12 | unassigned -/
  thms : List MetThm
  /-- pulse outputs PO0 to PO7 | list | R320, 12 | not configured -/
  pos : List MetPo
  /-- channels whose quantities are COLD | 28 × 1 | R303, 12 | all COLD (each start) -/
  cold : List Bool
  /-- accumulation runs: from step 8 of Table 6.1 | 1 | R325, 12 | 0 -/
  on : Bool
  /-- end of the latest line cycle | ns | R304, 12 | 0 -/
  cycAt : Nat
  /-- channels that clipped in the latest cycle | 28 | R298, 12 | 0 -/
  clip : Nat
  /-- the present demand window is partial | 1 | R316, 12 | 1 -/
  part : Bool
  /-- TAI second of the latest window end | option | R315, 12 | none -/
  demAt : Option Nat
  /-- the two copies of the save | option × option | R323, 12 | none -/
  saves : Option MetSave × Option MetSave
  /-- sequence of the latest save made | 32 | R323, 12 | 0 -/
  seq : Nat
  /-- stop mirror in PD_AON: peaks of circuits, of thermal meters, time | option | R325, 12 | none -/
  mirror : Option (List Nat × List Nat × W64)
  /-- gap records, latest first, at most 16 | list | R326, 12 | none -/
  gaps : List GapRec
  /-- instant at which the isolation link went down | option ns | R330, 12 | none -/
  downAt : Option Nat
  /-- the 28 channels in the DSP | list | R299, R300, 12 | none (each start: 28) -/
  chans : List MetChan
  /-- by channel: the instant from which its COLD runs, and the line cycles since | 28 × (ns, Nat) | R303, 12 | 0, 0 (each start) -/
  coldFrom : List (Nat × Nat)
  /-- what the latest cycle end latched for the snapshot groups | — | R332, 12 | none -/
  view : MetView
  deriving DecidableEq, Repr

/-! ### Safety channel (chapter 13) -/

/-- A lock-out held by a channel (Table 13.7). -/
structure SafeLock where
  /-- cause code | 8 | R351, 13 | none -/
  cause : Nat
  /-- pair, TP or OSSD pair; 255 global | 8 | R351, 13 | none -/
  unit : Nat
  /-- the check that found a global fault has passed since | 1 | R353, 13 | 0 -/
  passed : Bool
  deriving DecidableEq, Repr

/-- An input pair as a channel evaluates it. -/
structure SafePair where
  /-- 0 UNUSED, 1 SAFE, 2 ACTIVE; FAULT shows while a pair lock-out is held | 2 | R339, 13 | 0 -/
  st : Nat
  /-- both inputs have been inactive together since the pair was last ACTIVE | 1 | R339, 13 | 1 (no history) -/
  armed : Bool
  /-- instant from which the inputs have differed | option ns | R339, 13 | none -/
  diff : Option Nat
  /-- instant from which they have been consistent without a pulse fault | option ns | R353, 13 | none -/
  okAt : Option Nat
  /-- guard test: 0 passed, 1 SAFE awaited, 2 ACTIVE awaited | 2 | R341, 13 | 1 -/
  test : Nat
  deriving DecidableEq, Repr

/-- One of the two channels. -/
structure SafeCh where
  /-- 0 no supply, 1 START, 2 step 7 done | 2 | R340, 13 | 0: the safety supply rises with SAFETY_START -/
  phase : Nat
  /-- instant at which step 7 falls due | ns | R340, 13 | 0 -/
  due : Nat
  /-- inputs 0 to 15 as its stage reads them, and since when | list | R338, 13 | low -/
  raw : List (Bool × Nat)
  /-- filtered levels | list | R338, 13 | low -/
  filt : List Bool
  /-- inputs with a pulse fault | list | R337, 13 | none -/
  pf : List Bool
  /-- inputs high in the latest of their own windows | list | R337, 13 | none -/
  ownHigh : List Bool
  /-- pairs 0 to 7 | list | R339, 13 | unused -/
  pairs : List SafePair
  /-- functions 0 to 7: state of Table 13.5, and start of a category 1 delay | list | R343, 13 | UNUSED -/
  fns : List (Nat × Nat)
  /-- its switches in the lines of OSSD pairs 0 to 3 are closed | list | R335, 13 | open -/
  sw : List Bool
  /-- EDM change awaited per OSSD pair: instant it is due, and ACTIVE wanted | list of option | R349, 13 | none -/
  edm : List (Option (Nat × Bool))
  /-- lock-outs, oldest first, in its non-volatile store | list | R351, 13 | none -/
  locks : List SafeLock
  /-- stored parameter block, both copies, in its non-volatile store | option bytes | R334, 13 | never commissioned -/
  stored : Option Bytes
  /-- block in effect | bytes | R340, 13 | none -/
  prm : Bytes
  /-- SKEY as it reads it | 1 | R355, 13 | 0 -/
  skey : Bool
  /-- SRST as it reads it | 1 | R352, 13 | 0 -/
  srst : Bool
  /-- instant of the rising edge of SRST since the start | option ns | R352, 13 | none -/
  srstAt : Option Nat
  /-- instant of the latest frame of the other channel | ns | R336, 13 | 0 -/
  heard : Nat
  /-- instant of the latest cyclic self-test | ns | R351, 13 | 0 -/
  selfAt : Nat
  /-- instant of the latest repetition of the failed checks | ns | R353, 13 | 0 -/
  recheckAt : Nat
  /-- mirror frame sequence number | 32 | Table 13.10, 13 | 0 -/
  seq : Nat
  /-- causes still present when SRST was ignored, not yet sent | option bytes | R352, 13 | none -/
  ignored : Option Bytes
  deriving DecidableEq, Repr

def SafeCh.init : SafeCh where
  phase := 0
  due := 0
  raw := List.replicate 16 (false, 0)
  filt := List.replicate 16 false
  pf := List.replicate 16 false
  ownHigh := List.replicate 16 false
  pairs := List.replicate 8 ⟨0, true, none, none, 1⟩
  fns := List.replicate 8 (0, 0)
  sw := List.replicate 4 false
  edm := List.replicate 4 none
  locks := []
  stored := none
  prm := []
  skey := false
  srst := false
  srstAt := none
  heard := 0
  selfAt := 0
  recheckAt := 0
  seq := 0
  ignored := none

/-- The safety channel: what its own J4 supplies feed. -/
structure SafeSt where
  /-- channel A | — | R334, 13 | no supply -/
  a : SafeCh
  /-- channel B | — | R334, 13 | no supply -/
  b : SafeCh
  /-- block staged in channel A | 2,048 bytes | R355, 13 | zero -/
  staged : Bytes
  /-- BLOCK: 0 none, 1 STAGED, 2 CHECKED, 3 CONFIRMED | 2 | R355, 13 | 0 -/
  stg : Nat
  /-- channel B's echo of the block | bytes | R356, 13 | none -/
  echoB : Bytes
  /-- check value that A computed | 32 | R356, 13 | 0 -/
  chkA : Nat
  /-- check value that B computed | 32 | R356, 13 | 0 -/
  chkB : Nat
  /-- mismatches of SAFE_CONFIRM | 2 | R357, 13 | 0 -/
  misses : Nat
  /-- SAFE_CONFIRM is awaited after new channel A firmware | 1 | R358, 13 | 0 -/
  reconf : Bool
  /-- digest of the firmware image that channel A reports | option 256 | R507, 19 | 0, as the factory set (DESIGN CHOICE, log 34) -/
  fw : Option (BitVec 256)
  /-- disagreements: kind, unit, since | list | R351, 13 | none -/
  diffs : List (Nat × Nat × Nat)
  /-- next drop of TP0 to TP3 | list of ns | R337, 13 | 0 -/
  tpNext : List Nat
  /-- start of each OSSD pair's test period | list of ns | R346, 13 | 0 -/
  opAt : List Nat
  /-- latest off-pulse test: its pair and its end | option | R346, 13 | none -/
  lastTest : Option (Nat × Nat)
  /-- instant of the latest exchange over XC12 | ns | R336, 13 | 0 -/
  xAt : Nat
  deriving DecidableEq, Repr

/-- A mirror frame: the words of Table 13.10 for its channel, and what SYS raises events from. -/
structure SafeFrame where
  /-- SAFE_CHx | 32 | Table 13.10, 13 | none -/
  chw : Nat
  /-- SAFE_PAIRSx | 32 | Table 13.10, 13 | none -/
  pairs : Nat
  /-- SAFE_FUNCx | 32 | Table 13.10, 13 | none -/
  func : Nat
  /-- SAFE_OSSDx | 32 | Table 13.10, 13 | none -/
  ossd : Nat
  /-- SAFE_CHKx | 32 | Table 13.10, 13 | none -/
  chk : Nat
  /-- SAFE_STGx | 32 | Table 13.10, 13 | none -/
  stg : Nat
  /-- SAFE_SEQx | 32 | Table 13.10, 13 | none -/
  seq : Nat
  /-- delay left in ms, functions 0 to 7 | list | Table 13.9, 13 | none -/
  remain : List Nat
  /-- OSSD pair of functions 0 to 7 | list | Table 13.9, 13 | none -/
  ossdOf : List Nat
  /-- revision of the stored block | 32 | Table 13.15, 13 | none -/
  rev : Nat
  /-- SRST ignored: causes still present | option bytes | R352, 13 | none -/
  ignored : Option Bytes
  deriving DecidableEq, Repr

/-- A SAFETYVIEW object placed by SAFE_VIEW_CFG. -/
structure SafeView where
  /-- function 0 to 7, 255 for the channel | 8 | R359, 13 | none -/
  unit : Nat
  /-- object | 1 to 4096 | R359, 13 | none -/
  obj : Nat
  /-- tag | 8 | R359, 13 | none -/
  tag : Nat
  deriving DecidableEq, Repr

/-- The receiving side of the mirror in PD_AON. -/
structure SafeMirrorSt where
  /-- latest frame of channels A and B | 2 × option | R360, 13 | none -/
  frames : List (Option SafeFrame)
  /-- instant of the latest frame, or of the start | 2 × ns | R359, 13 | 0 -/
  at_ : List Nat
  /-- changes from ON since the module's start, functions 0 to 7 | 8 × 32 | Table 13.9, 13 | 0 -/
  demands : List Nat
  /-- lock-outs reported and not cleared, oldest first: cause, unit | list | Table 13.15, 13 | none -/
  known : List (Nat × Nat)
  /-- a channel shows CONFIG | 1 | Table 13.11, 13 | 0 -/
  config : Bool
  /-- BLOCK shown latest | 2 | Table 13.11, 13 | 0 -/
  block : Nat
  /-- SAFETYVIEW objects, in configuration memory | list | R359, 13 | none -/
  views : List SafeView
  /-- instant of the latest publication | ns | R442, 16 | 0 -/
  pubAt : Nat
  /-- mirror frames of the latest publication | list | R442, 16 | none -/
  pubSeen : List (Option SafeFrame)
  deriving DecidableEq, Repr

/-! ### Time and the real-time clock (chapter 17) -/

structure RtcSt where
  /-- TAI seconds counter, kept in PD_RTC | 40 | R448, 17 | 0 (DESIGN CHOICE, log 30) -/
  tai : Nat
  /-- instant at which the present RTC second began: the prescaler | ns | R448, 17 | 0 -/
  secAt : Nat
  /-- alarms 0 to 3: committed value, and armed with a value already reached | 4 × (40, 1) | R458, R459 | 0 (DESIGN CHOICE, log 30) -/
  alarms : List (Nat × Bool)
  /-- alarms that fired while PD_APP was off: alarm, TAI second, SKIPPED | list | R460, 17 | none -/
  unreported : List (Nat × Nat × Bool)
  /-- future local time changes: TAI instant and offset in minutes | list | R462, 17 | none -/
  zones : List (W64 × Int)
  /-- consecutive Sync messages within 1 µs | Nat | R450, 17 | 0 -/
  good : Nat
  /-- instant of the latest Sync | ns | R450, 17 | 0 -/
  syncAt : Nat
  /-- announce interval of the master | ns | R450, 17 | 1 s (PRESUMED, log 31) -/
  annIv : Nat
  /-- identity of the grandmaster | 64 | Table 17.9, 17 | 0 -/
  gm : W64
  /-- best foreign master: its rank and the port on which it is heard | option | R452, 17 | none -/
  best : Option (Nat × Nat)
  /-- instant of its latest Announce | ns | R452, 17 | 0 -/
  bestAt : Nat
  /-- the grandmaster's currentUtcOffsetValid | 1 | R461, 17 | 0 -/
  utcValid : Bool
  /-- local minute at which schedules were last evaluated | option | R463, 17 | none -/
  schedMin : Option Int
  /-- both sources have fallen below the retention level | 1 | R449, 17 | 1: a new unit has lost it -/
  lost : Bool
  deriving DecidableEq, Repr

/-! ### Key engine (chapter 18) -/

/-- A key handle. -/
structure KeyHandle where
  /-- handle | 0 to 255 | R474, 18 | none -/
  no : Nat
  /-- 0 SECRET256, 1 SM4, 2 HMAC, 3 SM2_PRIV | 8 | R469, 18 | none -/
  typ : Nat
  /-- DERIVE, ENCRYPT, DECRYPT, MAC, SIGN in bits 0 to 4 | 5 | R474, 18 | none -/
  use : Nat
  /-- EXPORTABLE | 1 | R475, 18 | none -/
  exportable : Bool
  /-- identity that derived it; none for the lap runtime | option 256 | R474, 18 | none -/
  owner : Option (BitVec 256)
  /-- level in its tree | 0 to 7 | R468, 18 | none -/
  level : Nat
  /-- derived output x | 256 | R469, 18 | none -/
  val : BitVec 256
  deriving DecidableEq, Repr

/-- An engine session slot of a Furun link. -/
structure LinkSlot where
  /-- peer module | 64 | R479, 18 | none -/
  peer : W64
  /-- trust slot of its chain | 0 to 3 | R479, 18 | none -/
  trust : Nat
  /-- serial numbers of its chain | list | R479, 18 | none -/
  serials : List Nat
  deriving DecidableEq, Repr

structure KeysSt where
  /-- LIFECYCLE fuses burnt | 0 to 4 | R465, 18 | 0: units ship in MANUFACTURE -/
  lifeFuses : Nat
  /-- vault slots 0 to 4 in PD_VAULT: root and group address | 5 × option (256, 64) | R471, 18 | empty (DESIGN CHOICE, log 33) -/
  vault : List (Option (BitVec 256 × W64))
  /-- slots that were set, as PD_AON last saw them | 5 | R487, 18 | 0 -/
  wasSet : Nat
  /-- handle table | list, at most 256 | R474, 18 | empty -/
  handles : List KeyHandle
  /-- generation that KEYS_CSR named and KEYS_CERT_SET has not yet installed | option 8 | R476, 18 | none -/
  csrGen : Option Nat
  /-- operational certificate | bytes | R476, 18 | none -/
  cert : Bytes
  /-- trust slots 0 to 4: public keys | 5 × option | R477, 18 | empty (DESIGN CHOICE, log 33) -/
  trust : List (Option Bytes)
  /-- revocation lists of slots 0 to 4: serial numbers | 5 × list | R478, 18 | empty -/
  revoked : List (List Nat)
  /-- engine session slots of Furun links, at most 256 | list | R479, 18 | none -/
  linkSlots : List LinkSlot
  /-- time of the latest tamper event | 64 | Table 18.7, 18 | 0 -/
  tampTime : W64
  /-- tamper events that PD_AON was off for: CAUSE, time and COUNT | list | R485, 18 | none -/
  tampOff : List (Nat × W64 × Nat)
  /-- a replica has been sealed since the start | 1 | R482, 18 | 0 -/
  sealed : Bool
  /-- groups for which KEYS_NO_ROOT has been raised since the start | list | R484, 18 | none -/
  noRoot : List W64
  /-- KEYS_TIME_UNCHECKED has been raised since the start | 1 | Table 18.4, 18 | 0 -/
  unchecked : Bool
  deriving DecidableEq, Repr

/-! ### Field update (chapter 19) -/

/-- A part slot of a set, in NAND. -/
structure FwPart where
  /-- SM3 digest it is to have | 256 | R491, 19 | 0 -/
  digest : BitVec 256
  /-- length in bytes | 32 | R491, 19 | 0 -/
  len : Nat
  /-- chunks present | list | R495, 19 | none -/
  chunks : List (Nat × Bytes)
  /-- passed its digest, or copied | 1 | R495, 19 | 0 -/
  ok : Bool
  deriving DecidableEq, Repr

/-- A firmware set. -/
structure FwSet where
  /-- its manifest | bytes | R493, 19 | none -/
  man : Bytes
  /-- parts 1 to 8 | list | R491, 19 | — -/
  parts : List FwPart
  /-- it was once confirmed | 1 | R501, 19 | — -/
  confirmed : Bool
  deriving DecidableEq, Repr

/-- A copy of the commit record (Table 19.5), valid as long as it is held. -/
structure CommitRec where
  /-- 0 A, 1 B | 1 | R499, 19 | 0 -/
  set : Nat
  /-- on trial | 1 | R499, 19 | 0 -/
  trial : Bool
  /-- trial starts made | 0 to 3 | R499, 19 | 0 -/
  attempts : Nat
  /-- sequence | 32 | R499, 19 | 0 -/
  seq : Nat
  /-- manifest identity | 256 | R499, 19 | 0 -/
  ident : BitVec 256
  /-- its SVN | 8 | R499, 19 | 0 -/
  svn : Nat
  /-- set to fall back to | 1 | R499, 19 | 1 -/
  prior : Nat
  /-- system time of the write | 64 | R499, 19 | 0 -/
  time : W64
  deriving DecidableEq, Repr

/-- UPD_FETCH in progress (R497). -/
structure FetchJob where
  /-- item's owner | 256 | R497, 19 | none -/
  owner : BitVec 256
  /-- item | 32 | R497, 19 | none -/
  item : Nat
  /-- source module | 64 | R497, 19 | none -/
  src : W64
  /-- manifest identity | 256 | R497, 19 | none -/
  ident : BitVec 256
  /-- the manifest has not arrived: its chunks so far | option list | R497, 19 | none -/
  man : Option (List (Nat × Bytes))
  /-- chunks asked for: part, chunk, instant | list, at most 64 | R497, 19 | none -/
  asked : List (Nat × Nat × Nat)
  /-- instant of the latest PIECE, or of the start | ns | R497, 19 | none -/
  pieceAt : Nat
  deriving DecidableEq, Repr

structure UpdSt where
  /-- set A | — | R491, 19 | the factory's, its content not stated (DESIGN CHOICE, log 34) -/
  setA : FwSet
  /-- set B | — | R491, 19 | empty (DESIGN CHOICE, log 34) -/
  setB : FwSet
  /-- commit record, copies 1 and 2; none where a copy is invalid | 2 × option | R499, 19 | set A confirmed (DESIGN CHOICE, log 34) -/
  recs : Option CommitRec × Option CommitRec
  /-- a staging is under way or complete in the fallback set | 1 | R494, 19 | 0 -/
  staging : Bool
  /-- parts whose background copy has not ended | list | R494, 19 | none -/
  copies : List Nat
  /-- no UPD_BEGIN has been accepted since the record's write | 1 | R501, 19 | 1 -/
  clean : Bool
  /-- fetch in progress | option | R497, 19 | none -/
  fetch : Option FetchJob
  /-- instant of step 12 of a trial start | option ns | R503, 19 | none -/
  trialAt : Option Nat
  /-- instant from which the conditions of HC have held | option ns | R503, 19 | none -/
  heldAt : Option Nat
  /-- UPD_CONFIRM received | 1 | R503, 19 | 0 -/
  confirmRx : Bool
  deriving DecidableEq, Repr

end Sys2Proof.Machine
end

