-- ==== Sys2Proof/Machine/State.lean ====
section
/-! DEFINITION. Machine/State.lean: the state of the module, its faults and refusals, and the state right
after reset. The register window is one sparse list (`regs`); what the spec's chapters give the machine beside its registers stands in
one structure a chapter (Machine/Types.lean). Each field's comment gives what it is | its width | the rule and chapter of the spec |
its value at reset. -/

namespace Sys2Proof.Machine

/-- The machine's state. -/
structure State where
  /-- commands that wait, first in first out | list | the row's cut | empty -/
  pending : List Instr
  /-- time since PD_AON was released, never stepped | ns | R161, Table 1.2 | 0 (DESIGN CHOICE, log 1) -/
  clk : Nat
  /-- system time less clk: the system time counter is clk + sysOfs | ns since the TAI epoch | R451, 17 | 0 (DESIGN CHOICE, log 2) -/
  sysOfs : Int
  /-- instant of the current start, where monotonic time is 0 | ns | R161, 07 | 0 -/
  startClk : Nat
  /-- register window: the words that differ from their reset values, by rising window offset | 32 each | R92, 04 | each register's Reset column (R8) -/
  regs : List (Nat × W32)
  /-- configuration memory: stored register images, by rising window offset | 32 each | R554, 04 | nothing stored -/
  cfgMem : List (Nat × W32)
  /-- memory that DMA reaches: DRAM, Pacer SRAM, by rising address; an unlisted byte reads 0 | 8 each | R140, R254, R521 | nothing listed (DRAM zeroed, R140; SRAM DESIGN CHOICE, log 5) -/
  mem : List Host.Cell
  /-- what the module has sent, newest first; the model's own record | list | R83 | empty (DESIGN CHOICE, log 4) -/
  out : List Out
  /-- counter of free values taken; the model's own field | Nat | — | 0 (DESIGN CHOICE, log 3) -/
  freeCtr : Nat
  /-- rate limiters of events | list | R63, R84, R105 | none -/
  limiters : List Limiter
  /-- SYS: gates, captures, watchdog | — | 01, 04, 06 | nothing pending -/
  sys : SysSt
  /-- start-up, residue record, journal, retain image | — | 06 | software first runs after the first power-on -/
  start : StartSt
  /-- Baton sessions, items, cache, locks | — | 03 | empty -/
  baton : BatonSt
  /-- own address, objects, bindings | — | 02 | none -/
  estate : EstateSt
  /-- drill library and host instances | — | 04 | empty -/
  drill : DrillSt
  /-- energy ledger beside its registers | — | 05 | idle -/
  ledger : LedgerSt
  /-- event recorder beside its registers | — | 20 | empty -/
  evr : EvrSt
  /-- DMA channels 0 to 31 beside their registers | list | 20 | idle -/
  dma : List DmaCh
  /-- UIO channels 0 to 15 beside their registers | list | 21 | nothing assigned -/
  uio : List UioCh
  /-- relay link beside its registers | — | 14 | OFF -/
  relay : RelaySt
  /-- CAN channels 0 to 3 beside their registers | list | 15 | INIT -/
  can : List CanCh
  /-- loop engine beside its registers | — | 08, 09 | every loop OFF -/
  engine : EngineSt
  /-- lap executor beside its registers | — | 07 | every task stopped, no program -/
  lap : LapSt
  /-- Furun beside its registers | — | 16, 02 | no group -/
  furun : FurunSt
  /-- Ethernet ports E0, E1, T0, T1 beside their registers | list | 16 | no link -/
  eth : List EthPort
  /-- Pacer beside its registers and its SRAM | — | 10, 11 | no plan -/
  pacer : PacerSt
  /-- metrology beside its registers | — | 12 | nothing assigned -/
  met : MetSt
  /-- safety channel | — | 13 | no supply, never commissioned -/
  safe : SafeSt
  /-- safety mirror beside its registers | — | 13 | no frame received -/
  mirror : SafeMirrorSt
  /-- real-time clock and servo beside their registers | — | 17 | nothing set -/
  rtc : RtcSt
  /-- key engine beside its registers | — | 18 | nothing placed -/
  keys : KeysSt
  /-- firmware sets, commit record and update beside their registers | — | 19 | set A confirmed -/
  upd : UpdSt
  deriving DecidableEq, Repr

/-- The spec gives every command an effect, so no command faults: the type is empty. Safe. -/
inductive Fault where
  deriving DecidableEq, Repr

/-- Why a command is not run. -/
inductive Refusal where
  /-- Raised by an arm of Dispatch whose command has no meaning yet, under its mnemonic. Safe. -/
  | notModelled (mnemonic : String)
  deriving DecidableEq, Repr

/-- The module right after reset, as software first runs: steps 1 to 6 of Table 6.1 are done on the first start of a
new unit; every register stands at its reset value. -/
def State.reset : State where
  pending := []
  clk := 0
  sysOfs := 0
  startClk := 0
  regs := []
  cfgMem := []
  mem := []
  out := []
  freeCtr := 0
  limiters := []
  sys := ⟨[], [], none, false, 0, []⟩
  start := ⟨.booted, none, none, false, none, none, [], false, [], false, none, none, ⟨none, false, none⟩, 0⟩
  baton := ⟨[], [], [], [], 1⟩
  estate := ⟨[], 0x0400000000000000, []⟩
  drill := ⟨[], List.replicate 38 ⟨[], [0, 0, 0, 0], 0⟩⟩
  ledger := ⟨[], 0, [false, false, false, false], [0, 0, 0, 0], 0, 0, false, false, false, 1000000, false, (2, 2), 0, false, ⟨0, 0, [], 0, 0, none, false⟩⟩
  evr := ⟨[], [], 1, List.replicate 16 ⟨0, 0, 0⟩, none⟩
  dma := List.replicate 32 ⟨0, none, 0, 0, 0, 0, false⟩
  uio := List.replicate 16 ⟨0, 0, 0, none, none, 0, [], none, false, 0, none⟩
  relay := ⟨[], [], List.replicate 32 [], List.replicate 32 [], [], 0, 0, 0, false, [], [], [], 0, 0, 0, 0, [], [], [], [], 0, [], none, none, 0, false, [], false, false, none, none, [], false, false, []⟩
  can := List.replicate 4 ⟨List.replicate 64 ⟨CanBuf.zero, none, none, 0, false, false⟩, CanBuf.zero, [], [], none, none, 0, 0, 0, [], []⟩
  engine := ⟨List.replicate 256 LoopSt.init, false, false, 0, [], [], false, []⟩
  lap := ⟨List.replicate 8 ⟨.idle, 0, 0, 0, 0, none, false, [], [], [], [], [], false, false, none, 1, 0, false⟩, List.replicate 2 ⟨0, []⟩, ⟨false, false, 0, false, false, [], [], [], [], [], []⟩, 0, [], [], [], [], [], [], 0, none, none⟩
  furun := ⟨[], [], [], [], [], [], List.replicate 4 none, [], [], [], none, 0, 0, 0, 0, 0, 0, 0, none, none, []⟩
  eth := List.replicate 4 ⟨List.replicate 16 (0, false), 0, 0, 0, 0, 0, 0, none, 0, false, none, 0, 0, none, false, false, false, 0, 0, none, 0, 0, 0, 0, 0, 0, 0, 0, [], 0, none⟩
  pacer := ⟨[], none, none, [], [], [], [], [], [], 0, none, none, 60, none, false, (0, 0, 0, 0, 0), [], [], none, [], 0, 0⟩
  met := ⟨List.replicate 8 ⟨0, List.replicate 8 0, List.replicate 8 0, 0, 0, 0, false, 0, 0, 0⟩, List.replicate 4 ⟨0, [0, 0, 0], [0, 0, 0], 0, 0, [], 0⟩, List.replicate 8 ⟨0, 0, 0, 0, 0, false⟩, List.replicate 28 true, false, 0, 0, true, none, (none, none), 0, none, [], none, [], List.replicate 28 (0, 0), ⟨0, [], [], []⟩⟩
  safe := ⟨SafeCh.init, SafeCh.init, List.replicate 2048 0, 0, [], 0, 0, 0, false, some 0, [], [0, 0, 0, 0], [0, 0, 0, 0], none, 0⟩
  mirror := ⟨[none, none], [0, 0], List.replicate 8 0, [], false, 0, [], 0, []⟩
  rtc := ⟨0, 0, List.replicate 4 (0, false), [], [], 0, 0, 1000000000, 0, none, 0, false, none, true⟩
  keys := ⟨0, List.replicate 5 none, 0, [], none, [], List.replicate 5 none, List.replicate 5 [], [], 0, [], false, [], false⟩
  upd := ⟨⟨[], List.replicate 8 ⟨0, 0, [], true⟩, true⟩, ⟨[], List.replicate 8 ⟨0, 0, [], false⟩, false⟩, (some ⟨0, false, 0, 0, 0, 0, 1, 0⟩, some ⟨0, false, 0, 0, 0, 0, 1, 0⟩), false, [], true, none, none, none, false⟩

end Sys2Proof.Machine
end

