-- ==== Sys2Proof/Machine/Ops.lean ====
section
/-! DEFINITION. Machine/Ops.lean: the named operations on the state that every family of commands shares: the
register window, interrupt conditions, time, events, and what the module sends. -/

namespace Sys2Proof.Machine

/-! ### The register window (R92 to R98) -/

/-- Read a sparse list of words: the word at `k`, or `d` where none is listed. -/
def spGet (m : List (Nat × W32)) (k : Nat) (d : W32) : W32 :=
  match m with
  | [] => d
  | (a, v) :: r => if a = k then v else spGet r k d

/-- A sparse list without a key. -/
def spDel (m : List (Nat × W32)) (k : Nat) : List (Nat × W32) :=
  match m with
  | [] => []
  | (a, w) :: r => if a = k then spDel r k else (a, w) :: spDel r k

/-- A key put in its place among rising keys. -/
def spIns (m : List (Nat × W32)) (k : Nat) (v : W32) : List (Nat × W32) :=
  match m with
  | [] => [(k, v)]
  | (a, w) :: r => if a < k then (a, w) :: spIns r k v else (k, v) :: (a, w) :: r

/-- Write a sparse list of words, keeping its keys rising and no default word listed. -/
def spPut (m : List (Nat × W32)) (k : Nat) (d v : W32) : List (Nat × W32) :=
  if v = d then spDel m k else spIns (spDel m k) k v

/-- Window offset of the common group of interrupt source n: block n for 1 to 18, CAN1 to CAN3 for 19 to 21
(Tables 4.1 and 4.3; R96 for LOOP). -/
def srcBase : Nat → Option Nat
  | 1 => some 0x000000 | 2 => some 0x010000 | 3 => some 0x020000 | 4 => some 0x110000
  | 5 => some 0x200000 | 6 => some 0x300000 | 7 => some 0x380000 | 8 => some 0x400000
  | 9 => some 0x480000 | 10 => some 0x500000 | 11 => some 0x580000 | 12 => some 0x600000
  | 13 => some 0x680000 | 14 => some 0x700000 | 15 => some 0x780000 | 16 => some 0x800000
  | 17 => some 0x880000 | 18 => some 0x900000 | 19 => some 0x490000 | 20 => some 0x4A0000
  | 21 => some 0x4B0000 | _ => none

/-- The block of an interrupt source (Table 4.3). -/
def srcBlk (n : Nat) : Nat := if n ≥ 19 then 9 else n

/-- The block whose span holds a window offset (Table 4.1); none in the unoccupied span after CAN3. -/
def blkOfOff (off : Nat) : Option Nat :=
  if off < 0x10000 then some 1 else if off < 0x20000 then some 2 else if off < 0x100000 then some 3
  else if off < 0x200000 then some 4 else if off < 0x300000 then some 5 else if off < 0x380000 then some 6
  else if off < 0x400000 then some 7 else if off < 0x480000 then some 8 else if off < 0x4C0000 then some 9
  else if off < 0x500000 then none else if off < 0x580000 then some 10 else if off < 0x600000 then some 11
  else if off < 0x680000 then some 12 else if off < 0x700000 then some 13 else if off < 0x780000 then some 14
  else if off < 0x800000 then some 15 else if off < 0x880000 then some 16 else if off < 0x900000 then some 17
  else if off < 0x1000000 then some 18 else none

/-- The power domain of a block's register face, as an index of Table 1.3 (Table 1.1). -/
def blkDomain : Nat → Nat
  | 3 => 1 | 4 => 3 | 5 => 2 | 6 => 6 | 8 => 5 | 9 => 5 | 10 => 4 | 11 => 1 | 12 => 9 | 14 => 1
  | 16 => 1 | 17 => 1 | 18 => 5 | _ => 0

/-- The source whose common group holds a window offset, with the offset within the group. -/
def commonAt (off : Nat) : Option (Nat × Nat) :=
  (List.range 22).findSome? fun n =>
    match srcBase n with
    | some b => if b ≤ off && off < b + 0x18 then some (n, off - b) else none
    | none => none

/-- The registers of Table 4.2 in the common group of a source; in SAFE all of them are read-only (R11, R98). -/
def commonDesc (n rel : Nat) : Option RDesc :=
  let mk (k : WKind) (fs : List RField) : Option RDesc := some ⟨srcBlk n, (srcBase n).getD 0 + rel, 1, 0, 1, 0, k, fs⟩
  let safe := n == 7
  match rel with
  | 0x00 => mk .plain [⟨31, 24, .ro, srcBlk n⟩, ⟨23, 16, .ro, if n ≥ 19 then n - 18 else 0⟩, ⟨15, 8, .ro, 3⟩, ⟨7, 0, .ro, 1⟩]
  | 0x04 => mk .plain [⟨31, 0, .ro, 0⟩]
  | 0x08 => if safe then mk .plain [⟨31, 0, .ro, 0⟩] else mk .intEn [⟨31, 0, .rw, 0⟩]
  | 0x0C => if safe then mk .plain [⟨31, 0, .ro, 0⟩] else mk .intClr [⟨31, 0, .wo, 0⟩]
  | 0x10 => if safe then mk .plain [⟨8, 8, .ro, 0⟩, ⟨7, 0, .ro, 0⟩] else mk .snapCtl [⟨8, 8, .w1s, 0⟩, ⟨7, 0, .rw, 0⟩]
  | 0x14 => mk .plain [⟨31, 31, .ro, 0⟩, ⟨30, 30, .ro, 0⟩, ⟨15, 8, .ro, 0⟩, ⟨7, 0, .ro, 0⟩]
  | _ => none

/-- The indices (i, j) at which a register of the map stands at a window offset, if it does. -/
def RDesc.at? (d : RDesc) (off : Nat) : Option (Nat × Nat) :=
  if off < d.base then none else
  let x := off - d.base
  let i := if d.st1 = 0 then 0 else x / d.st1
  let i' := if i < d.n1 then i else d.n1 - 1
  let y := x - d.st1 * i'
  let j := if d.st2 = 0 then 0 else y / d.st2
  if y = d.st2 * j && j < d.n2 then some (i', j) else none

/-- The register at a window offset, with its indices; none where no register stands (R12). -/
def regAt (off : Nat) : Option (RDesc × Nat × Nat) :=
  match commonAt off with
  | some (n, rel) => (commonDesc n rel).map fun d => (d, n, 0)
  | none =>
    match blkOfOff off with
    | none => none
    | some b => regTable.findSome? fun d => if d.blk = b then (d.at? off).map fun ij => (d, ij.1, ij.2) else none

/-- The reset value of a register: its fields at their reset values. -/
def RDesc.reset (d : RDesc) : Nat := d.fields.foldl (fun a f => a + f.rst * 2 ^ f.lo) 0

/-- The reset value of the word at a window offset; 0 where no register stands. -/
def rstOf (off : Nat) : W32 :=
  match regAt off with
  | some (d, _, _) => BitVec.ofNat 32 d.reset
  | none => 0

/-- The word that the register at `off` holds. -/
def State.rd (s : State) (off : Nat) : Nat := (spGet s.regs off (rstOf off)).toNat

/-- Set the word that the register at `off` holds. -/
def State.wr (s : State) (off v : Nat) : State :=
  { s with regs := spPut s.regs off (rstOf off) (BitVec.ofNat 32 v) }

/-- A field of a register. -/
def State.get (s : State) (f : Fld) : Nat := bitsOf (s.rd f.off) f.hi f.lo

/-- Set a field of a register. -/
def State.put (s : State) (f : Fld) (v : Nat) : State := s.wr f.off (putBits (s.rd f.off) f.hi f.lo v)

/-- Put a register back to its reset value. -/
def State.rstReg (s : State) (off : Nat) : State := s.wr off (rstOf off).toNat

/-- Set consecutive words from `off` on. -/
def State.wrs (s : State) (off : Nat) (vs : List Nat) : State :=
  ((List.range vs.length).zip vs).foldl (fun s p => s.wr (off + 4 * p.1) p.2) s

/-- A count in a field rises by `n` and stops at the field's largest value. -/
def State.bump (s : State) (f : Fld) (n : Nat) : State :=
  s.put f (satAdd (2 ^ (f.hi + 1 - f.lo) - 1) (s.get f) n)

/-- The stored image of a register in configuration memory, or its factory value (R554). -/
def State.cfg (s : State) (off : Nat) : Nat := (spGet s.cfgMem off (rstOf off)).toNat

/-- Store a register's present image in configuration memory (R554). -/
def State.store (s : State) (off : Nat) : State :=
  { s with cfgMem := spPut s.cfgMem off (rstOf off) (BitVec.ofNat 32 (s.rd off)) }

/-- Store a value for a register in configuration memory without writing the register. -/
def State.storeVal (s : State) (off v : Nat) : State :=
  { s with cfgMem := spPut s.cfgMem off (rstOf off) (BitVec.ofNat 32 v) }

/-- Load a register from configuration memory, as at a start (R554). -/
def State.load (s : State) (off : Nat) : State := s.wr off (s.cfg off)

/-! ### Power domains and interrupts -/

/-- Domain d is powered and its isolation cells are released (SYS_PD_STAT.ON). -/
def State.pdOn (s : State) (d : Nat) : Bool := bit1 (s.get F.SYS_PD_STAT_ON) d == 1

def State.setPd (s : State) (d : Nat) (on : Bool) : State :=
  s.put F.SYS_PD_STAT_ON (putBits (s.get F.SYS_PD_STAT_ON) d d (b2n on))

/-- A block's register face is powered (R16). -/
def State.blkOn (s : State) (blk : Nat) : Bool := s.pdOn (blkDomain blk)

/-- Condition c of an interrupt source occurs: its INT_STAT bit is set whether or not it is enabled (R97). -/
def State.cond (s : State) (src c : Nat) : State :=
  match srcBase src with
  | some b => s.wr (b + 4) (s.rd (b + 4) ||| 2 ^ c)
  | none => s

/-- An interrupt source is pending (R97, R98): INT_STAT AND its enables is not zero. A block that is off has
no pending condition (R14). -/
def State.srcPending (s : State) (n : Nat) : Bool :=
  match srcBase n with
  | some b =>
    s.blkOn (srcBlk n) &&
    (s.rd (b + 4) &&& (if n = 7 then s.rd Reg.SYS_SAFE_INT_EN else s.rd (b + 8))) != 0
  | none => false

/-- SYS_INT_PEND (R97, Table 4.3). -/
def State.intPend (s : State) : Nat :=
  (List.range 22).foldl (fun a n => a + b2n (s.srcPending n) * 2 ^ n) 0

/-- The interrupt line of core ACk is asserted (R103). -/
def State.coreIrq (s : State) (k : Nat) : Bool :=
  (List.range 22).any fun n =>
    n ≥ 1 && s.srcPending n && s.get (F.SYS_INT_ROUTE_EN n) == 1 && bit1 (s.get (F.SYS_INT_ROUTE_CORE n)) k == 1

/-- The claim register of core ACk: the pending source with the highest PRIO, among equals the lowest n (R103). -/
def State.claim (s : State) (k : Nat) : Option Nat :=
  (List.range 22).foldl (fun best n =>
    if n ≥ 1 && s.srcPending n && s.get (F.SYS_INT_ROUTE_EN n) == 1 && bit1 (s.get (F.SYS_INT_ROUTE_CORE n)) k == 1 then
      match best with
      | none => some n
      | some b => if s.get (F.SYS_INT_ROUTE_PRIO n) > s.get (F.SYS_INT_ROUTE_PRIO b) then some n else best
    else best) none

/-! ### Time -/

/-- One second in ns. -/
def sec : Nat := 1000000000
/-- One millisecond in ns. -/
def msec : Nat := 1000000
/-- One microsecond in ns. -/
def usec : Nat := 1000

/-- The system time counter, in ns since the TAI epoch. -/
def State.sysNow (s : State) : Int := (s.clk : Int) + s.sysOfs

/-- The system time as an event record timestamp (R511). -/
def State.tsNow (s : State) : W64 := tsOfNs s.sysNow

/-- The monotonic time since the current start, in ns (R161). -/
def State.mono (s : State) : Nat := s.clk - s.startClk

/-- A time-driven command moves the clock on to the instant at which it falls due (log 1). -/
def State.reach (s : State) (t : Nat) : State := { s with clk := max s.clk t }

/-! ### What the module sends, and free values -/

def State.emit (s : State) (o : Out) : State := { s with out := o :: s.out }

/-- A value the spec leaves open, and the state with the next one still unused (log 3). -/
def State.free (s : State) : W64 × State := (Config.freeValue s.freeCtr, { s with freeCtr := s.freeCtr + 1 })

/-! ### Weighted round robin (R22, R23) -/

/-- The share of a class: weights and amounts stand for the classes 1, 2 and 3. -/
def ofClass (w : Nat × Nat × Nat) (c : Nat) : Nat := if c = 1 then w.1 else if c = 2 then w.2.1 else w.2.2

/-- The class that is served next among those that may send: the one that has had least for its weight, the lower class first (log 276). So
each class has its share, and a class with nothing to send lends its own to the others in proportion to their weights. -/
def wrrNext (w sent : Nat × Nat × Nat) (may : Nat → Bool) : Option Nat :=
  [1, 2, 3].foldl (fun b c =>
    if !may c then b else
    match b with
    | none => some c
    | some d => if ofClass sent c * ofClass w d < ofClass sent d * ofClass w c then some c else some d) none

/-- What a queue of items of classes 1 to 3 sends into a space, in the order sent; each class in its own order. -/
def wrrTake {α : Type} (cls size : α → Nat) (w : Nat × Nat × Nat) : Nat → Nat → Nat × Nat × Nat → List α → List α
  | 0, _, _, _ => []
  | f + 1, space, sent, q =>
    let head (c : Nat) : Option α := q.find? fun x => cls x == c
    match (wrrNext w sent fun c => (head c).any fun x => size x ≤ space).bind head with
    | none => []
    | some x =>
      let n := size x
      let c := cls x
      let sent := (sent.1 + (if c = 1 then n else 0), sent.2.1 + (if c = 2 then n else 0), sent.2.2 + (if c = 3 then n else 0))
      x :: wrrTake cls size w f (space - n) sent (q.eraseIdx ((q.findIdx? fun y => cls y == c).getD 0))

/-! ### The Ethernet ports' egress queues (R22, R421, R427) -/

def State.port (s : State) (p : Nat) : EthPort :=
  (s.eth[p]?).getD ⟨[], 0, 0, 0, 0, 0, 0, none, 0, false, none, 0, 0, none, false, false, false, 0, 0, none, 0, 0, 0, 0, 0, 0, 0, 0, [], 0, none⟩

def State.modPort (s : State) (p : Nat) (f : EthPort → EthPort) : State := { s with eth := modNth s.eth p f }

/-- The priority code point of a class (R421). -/
def pcpOf (c : Nat) : Nat := if c = 0 then 6 else if c = 1 then 5 else if c = 2 then 3 else 1

/-- The 802.1Q tag with which port p sends a frame of class c (R421). -/
def State.vlanTag (s : State) (p c : Nat) : Option (Nat × Nat) :=
  if s.get (F.ETH_PCFG_VLAN_EN p) = 1 then some (s.get (F.ETH_PCFG_VID p), pcpOf c) else none

/-- A frame of class c leaves port p, counted in TXF; it ends a low-power idle (R424). -/
def State.wireOut (s : State) (p c : Nat) (o : Out) : State :=
  let s := if s.get (F.ETH_PSTAT_LPI p) = 0 then s else s.put (F.ETH_PSTAT_LPI p) 0
  let tag := s.vlanTag p c
  (s.modPort p fun x => { x with txf := (x.txf + 1) % 2 ^ 64, idleAt := s.clk, tag := tag }).emit o

/-- The bar of a failed Stride change has ended: STRIDE reads idle (R428). -/
def State.strideUnbar (s : State) (p : Nat) : State :=
  if s.get (F.ETH_PSTAT_STRIDE p) = 3 && s.clk ≥ (s.port p).barTill then s.put (F.ETH_PSTAT_STRIDE p) 0 else s

/-- Frames wait in the egress queues of a port between its MARK and the lock at the new rate (R427), and while its link is down after a
change that failed (R428). -/
def State.portHeld (s : State) (p : Nat) : Bool :=
  ((s.port p).target.isSome && (s.port p).markTx) || ((s.port p).failAt.isSome && s.get (F.ETH_PSTAT_LINK p) == 0)

/-- A frame of class c for port p: it goes out, or waits in its class's egress queue. What a relay station carries (port 4) goes out. -/
def State.ethSend (s : State) (p c : Nat) (o : Out) : State :=
  if p ≥ 4 then s.emit o
  else if s.portHeld p then s.modPort p fun x => { x with egress := x.egress ++ [⟨c, o⟩] }
  else s.wireOut p c o

/-- The egress queues of a port in the order in which they empty: C0 first, then C1 to C3 by the weights of ETH_WGT (R22, R23). -/
def State.egressOrder (s : State) (p : Nat) : List EthTx :=
  let q := (s.port p).egress
  (q.filter fun x => x.cls == 0) ++
    wrrTake EthTx.cls (fun _ => 1) (s.get (F.ETH_WGT_W1 p), s.get (F.ETH_WGT_W2 p), s.get (F.ETH_WGT_W3 p)) q.length q.length (0, 0, 0) q

/-- The port transmits again: its queues empty. -/
def State.egressFlow (s : State) (p : Nat) : State :=
  (s.egressOrder p).foldl (fun s x => s.wireOut p x.cls x.frame) (s.modPort p fun x => { x with egress := [] })

/-! ### Events (R511, R513) -/

/-- The drill of host instance h is bound. -/
def State.drillOn (s : State) (h : Nat) : Bool := s.get (F.DRILL_BIND_EN h) == 1 && s.blkOn 17

/-- Count `n` occurrences of a limited event: the number to report when its period has passed since the last one. -/
def State.limit (s : State) (code inst period : Nat) (n : Nat := 1) : Option Nat × State :=
  let rest := s.limiters.filter fun l => !(l.code == code && l.inst == inst)
  match s.limiters.find? fun l => l.code == code && l.inst == inst with
  | some l =>
    if s.clk - l.last ≥ period then (some (l.cnt + n), { s with limiters := ⟨code, inst, s.clk, 0⟩ :: rest })
    else (none, { s with limiters := { l with cnt := l.cnt + n } :: rest })
  | none => (some n, { s with limiters := ⟨code, inst, s.clk, 0⟩ :: s.limiters })

/-- Put an event in the ingest queue, or count it in DROP when all 256 places are taken (R513). -/
def State.enqueue (s : State) (e : Event) (dv : DrillWait) : State :=
  if s.evr.queue.length ≥ 256 then (s.bump F.EVR_DROP_COUNT 1).cond 15 1 else
  { s with evr := { s.evr with queue := s.evr.queue ++ [⟨e, dv⟩] } }

/-- An event finds the trigger queue of the EVR drill full: it takes the default verdict and OVERRUN counts it (R105). -/
def State.evrOverrun (s : State) (e : Event) : State :=
  if s.evr.queue.length ≥ 256 then s.enqueue e .none else (s.enqueue e (.verdict 0)).bump (F.DRILL_CNT_OVERRUN 37) 1

/-- An event enters the ingest queue. The trigger of a bound EVR drill waits with it, up to 8 at a time; one more raises DRILL_OVERRUN at
most once per second, which finds the same queue full itself (R105, R513). -/
def State.ingest (s : State) (e : Event) : State :=
  if !s.drillOn 37 || s.evr.queue.length ≥ 256 then s.enqueue e .none
  else if (s.evr.queue.filter fun q => q.dv == .waiting).length < 8 then s.enqueue e .waiting
  else
    let t := s.evrOverrun e
    match t.limit 0x1103 37 sec with
    | (none, t) => t
    | (some n, t) => ((t.evrOverrun ⟨t.tsNow, 0x1103, 4, 0, 0, 0, padTo 12 (natBE 1 37 ++ natBE 4 n)⟩).limit 0x1103 37 sec).2

/-- Raise an event at the present system time; data is zero-filled or cut to 12 bytes (Table 20.1). -/
def State.raise (s : State) (code sev tag : Nat) (data : Bytes) (obj elem : Nat := 0) : State :=
  s.ingest ⟨s.tsNow, code, sev, tag, obj, elem, padTo 12 data⟩

/-- Raise an event at most once per `period` ns for an instance; `data` takes the number of occurrences since
the last event, this one included. -/
def State.raiseLim (s : State) (code inst period sev tag : Nat) (data : Nat → Bytes) (obj elem : Nat := 0) (n : Nat := 1) : State :=
  match s.limit code inst period n with
  | (some k, s) => s.raise code sev tag (data k) obj elem
  | (none, s) => s

/-- A drill trigger finds the queue of its instance full: OVERRUN counts and DRILL_OVERRUN is raised at most once
per second per instance (R105). -/
def State.drillOverrun (s : State) (h : Nat) : State :=
  (s.bump (F.DRILL_CNT_OVERRUN h) 1).raiseLim 0x1103 h sec 4 0 (fun n => natBE 1 h ++ natBE 4 n)

/-! ### The in-flight mirror (6.5) -/

/-- A DMA descriptor, CAN object, relay write or round contribution begins: it enters the in-flight mirror. -/
def State.mirrorAdd (s : State) (cls tag owner item : Nat) : State :=
  { s with start := { s.start with mirror := s.start.mirror ++ [⟨cls, tag, owner, item, none⟩] } }

/-- Set the final state of the first entry that passes `p`. -/
def endFirst (p : MirrorItem → Bool) (st : Nat) : List MirrorItem → List MirrorItem
  | [] => []
  | m :: ms => if m.final.isNone && p m then { m with final := some st } :: ms else m :: endFirst p st ms

/-- An item of the mirror reaches its final state. -/
def State.mirrorEnd (s : State) (cls owner item st : Nat) : State :=
  let p := fun (m : MirrorItem) => m.cls == cls && m.owner == owner && m.item == item
  { s with start := { s.start with mirror := endFirst p st s.start.mirror } }

def holdIsLink : HoldRef → Bool
  | .link _ _ => true
  | _ => false

/-- The charge of step 3 stays set aside until the last item of that step has ended. -/
def passLink (uj : Nat) : List HoldItem → List HoldItem
  | [] => []
  | h :: hs => if holdIsLink h.ref then { h with uj := h.uj + uj } :: hs else h :: passLink uj hs

/-- The list without the first item of a reference. -/
def dropRef (ref : HoldRef) : List HoldItem → List HoldItem
  | [] => []
  | h :: hs => if h.ref = ref then hs else h :: dropRef ref hs

/-- Reads are admitted in HOLDUP: an item funded at entry has not ended (R136). -/
def State.holdReads (s : State) : Bool := s.ledger.hold.items.any fun h => !h.late

/-- A funded item of HOLDUP has ended (Table 5.6, steps 2 to 5). -/
def State.holdEnd (s : State) (ref : HoldRef) (failed : Bool) : State :=
  match s.ledger.hold.items.find? fun h => h.ref == ref with
  | some x =>
    let h := s.ledger.hold
    let rest := dropRef ref h.items
    { s with ledger := { s.ledger with hold :=
      { h with items := (if holdIsLink ref then passLink x.uj rest else rest), failed := h.failed + b2n failed } } }
  | none => s

/-! ### Operating mode -/

/-- The current mode of Table 5.1. -/
def State.mode (s : State) : Nat := s.get F.LEDGER_MODE_CUR

def modeBlocks : Nat := 0
def modeSprint : Nat := 1
def modePace : Nat := 2
def modeMarathon : Nat := 3
def modeIsland : Nat := 4
def modeHoldup : Nat := 5

/-- Minimum lap period and minimum period of LP0 to LP15 of a mode, in µs; 0 where Table 5.2 gives none. -/
def modeMins (m : Nat) : Nat × Nat :=
  if m = modeSprint then (250, 10) else if m = modeMarathon then (10000, 100)
  else if m = modePace || m = modeIsland then (1000, 10) else (0, 0)

/-- Table 5.6 runs: in HOLDUP, or in the sequence before a commanded restart (R133, R146). -/
def State.closing (s : State) : Bool := s.mode == modeHoldup || s.start.phase == .restarting

end Sys2Proof.Machine
end

