-- ==== Sys2Proof/Machine/Operands.lean ====
section
/-! DEFINITION. Machine/Operands.lean: the operand forms of Baton commands: Furun addresses (Table 2.2), TLVs
(R67, R68) and the status and reason codes of Tables 3.5 and 3.8. -/

namespace Sys2Proof.Machine

/-! ### Furun addresses (R31 to R33) -/

/-- Hop k of an address, k = 1 to 7 (Table 2.2). -/
def addrHop (a : W64) (k : Nat) : Nat := a.toNat >>> (64 - 6 * k) % 64

/-- OBJ of an address. -/
def addrObj (a : W64) : Nat := bitsOf a.toNat 21 8

/-- ELEM of an address. -/
def addrElem (a : W64) : Nat := bitsOf a.toNat 7 0

/-- The path of an address: bits 63 to 22. -/
def addrPath (a : W64) : Nat := a.toNat >>> 22

/-- The hops of an address, outermost first. -/
def addrHops (a : W64) : List Nat := (List.range 7).map fun k => addrHop a (k + 1)

/-- Once a hop is zero, every hop after it is zero (R32). -/
def hopsOk : List Nat → Bool
  | [] => true
  | h :: t => if h = 0 then t.all (· == 0) else hopsOk t

/-- An address is malformed under R33. -/
def addrBad (a : W64) : Bool :=
  !(hopsOk (addrHops a)) || addrObj a > 4096 || (addrObj a == 0 && addrElem a != 0)

/-- The address of object `o`, element `e` under the path of `base`. -/
def addrOf (base : W64) (o e : Nat) : W64 := BitVec.ofNat 64 (addrPath base * 2 ^ 22 + o * 256 + e)

/-- The number of non-zero hops of a path. -/
def addrDepth (a : W64) : Nat := ((addrHops a).filter (· != 0)).length

/-- The address of the unit one hop up (the federation for a top-level unit). -/
def addrParent (a : W64) : W64 :=
  let d := addrDepth a
  if d = 0 then 0 else BitVec.ofNat 64 (a.toNat >>> (64 - 6 * (d - 1)) <<< (64 - 6 * (d - 1)))

/-- The hop of a unit within its parent. -/
def addrLast (a : W64) : Nat := addrHop a (addrDepth a)

/-- The address of the member with index h of the unit g. -/
def addrMember (g : W64) (h : Nat) : W64 :=
  BitVec.ofNat 64 (g.toNat / 2 ^ 22 * 2 ^ 22 + h * 2 ^ (64 - 6 * (addrDepth g + 1)))

/-! ### Status and reason codes -/

/-- Table 3.8. -/
inductive Status where
  | ok | pending | failed | abortedReset | abortedCancel | denied | locked | badVersion | badOpcode
  | badParam | noObject | busy | noBudget | wrongMode | stale | unknownItem
  deriving DecidableEq, Repr

/-- The code of a status (Table 3.8). -/
def Status.code : Status → Nat
  | .ok => 0x0000 | .pending => 0x0001 | .failed => 0x0100 | .abortedReset => 0x0101
  | .abortedCancel => 0x0102 | .denied => 0x0200 | .locked => 0x0201 | .badVersion => 0x0300
  | .badOpcode => 0x0301 | .badParam => 0x0302 | .noObject => 0x0303 | .busy => 0x0400
  | .noBudget => 0x0401 | .wrongMode => 0x0402 | .stale => 0x0500 | .unknownItem => 0x0501

/-- A refusal: its status, the DETAIL pair (byte offset, reason of Table 3.5) where there is one, and the
results that a block chapter names for it (R66). -/
structure Refuse where
  status : Status
  detail : Option (Nat × Nat) := none
  named  : Bytes := []
  deriving DecidableEq, Repr

/-- BAD_PARAM with a reason and no byte offset of its own. -/
def badP (reason : Nat) : Refuse := ⟨.badParam, some (0xFFFF, reason), []⟩

/-! ### TLVs (R67) -/

/-- One TLV of a request, with the byte offset in the packet at which it starts. -/
structure Tlv where
  typ : Nat
  off : Nat
  val : Bytes
  deriving DecidableEq, Repr

/-- Read the TLVs from byte `off` on; an error is the offset of the TLV that is cut short, or of the length that
runs past the end (R68). -/
def parseTlvs : Nat → Nat → Bytes → Except Nat (List Tlv)
  | 0, _, _ => .ok []
  | f + 1, off, bs =>
    if bs.isEmpty then .ok [] else
    if bs.length < 4 then .error off else
    let t := beAt bs 0 2
    let n := beAt bs 2 2
    if bs.length < 4 + n then .error (off + 2) else
    match parseTlvs f (off + 4 + n) (bs.drop (4 + n)) with
    | .ok r => .ok (⟨t, off, slice bs 4 n⟩ :: r)
    | .error e => .error e

/-- One TLV as bytes. -/
def tlv (typ : Nat) (val : Bytes) : Bytes := natBE 2 typ ++ natBE 2 val.length ++ val

/-- What an opcode allows of one TLV type: its lengths, how often it may appear, and the version that brings it in. -/
structure TlvSpec where
  typ   : Nat
  lo    : Nat
  hi    : Nat
  minN  : Nat := 1
  maxN  : Nat := 1
  since : Nat := 0x20
  deriving DecidableEq, Repr

/-- BAD_PARAM at the TLV that starts at byte `off`: reasons 1, 2 and 4 point at its type, reason 3 at its length, every other at its
value (DESIGN CHOICE, log 267). -/
def badTlv (off reason : Nat) : Refuse :=
  ⟨.badParam, some (off + (if reason = 3 then 2 else if reason ≤ 4 then 0 else 4), reason), []⟩

/-- The TLV tests of step 7 that the opcode's table decides alone (R68, R71). -/
def tlvFault (spec : List TlvSpec) (ver : Nat) (ts : List Tlv) : Option Refuse :=
  let one (t : Tlv) : Option Refuse :=
    match spec.find? fun x => x.typ == t.typ && x.since ≤ ver with
    | none => some (badTlv t.off 0x0002)
    | some x => if t.val.length < x.lo || t.val.length > x.hi then some (badTlv t.off 0x0003) else none
  match ts.findSome? one with
  | some f => some f
  | none =>
    spec.findSome? fun x =>
      let n := (ts.filter fun t => t.typ == x.typ).length
      if n > x.maxN then
        some ⟨.badParam, some ((((ts.filter fun t => t.typ == x.typ)[x.maxN]?).map (·.off)).getD 0xFFFF, 0x0004), []⟩
      else if n < x.minN then some (badP 0x0004) else none

/-- The value of the first TLV of a type. -/
def tv? (ts : List Tlv) (typ : Nat) : Option Bytes := (ts.find? fun t => t.typ == typ).map (·.val)

/-- The value of a TLV that is present, else no bytes. -/
def tv (ts : List Tlv) (typ : Nat) : Bytes := (tv? ts typ).getD []

/-- The value of a TLV as a number. -/
def tn (ts : List Tlv) (typ : Nat) : Nat := beNat (tv ts typ)

/-- Every value of a TLV type, in order. -/
def tvs (ts : List Tlv) (typ : Nat) : List Bytes := (ts.filter fun t => t.typ == typ).map (·.val)

/-- BAD_PARAM that points at the first TLV of a type. -/
def badAt (ts : List Tlv) (typ reason : Nat) : Refuse :=
  match ts.find? fun t => t.typ == typ with
  | some t => badTlv t.off reason
  | none => badP reason

/-- The Furun address in an ADDRESS TLV. -/
def tAddr (ts : List Tlv) (typ : Nat := 0x0001) : W64 := BitVec.ofNat 64 (tn ts typ)

end Sys2Proof.Machine
end

