-- ==== Sys2Proof/Machine/Baton.lean ====
section
/-! DEFINITION. Machine/Baton.lean: the Baton interpreter (chapter 3): framing, the order of checks of Table
3.9, admission, the item table, the completion cache and notices. Each opcode is an `OpDef`; `batonRun` is
the one place in which a request is tested, admitted and answered. -/

namespace Sys2Proof.Machine

/-- A request that has passed framing: who sends it, on what version, and its TLVs. `sess` is none for a
request that Furun has relayed to this module (R90). -/
structure Q where
  r     : Req
  tag   : Nat
  owner : BitVec 256
  ver   : Nat
  sess  : Option Nat
  /-- the port that carried it, which its reply takes even where the request closes the session -/
  port  : Nat
  tlvs  : List Tlv

/-- How an admitted request goes on. -/
inductive Run where
  /-- It has ended; `more` sets MORE in the reply. -/
  | done (st : Status) (res : Bytes) (s : State) (more : Bool := false)
  /-- It is PENDING until the condition `wait` is met. -/
  | pend (wait : WaitKind) (a b : Nat) (ponr : Bool) (s : State)
  /-- The block's own refusal, tested after step 13 (R81). -/
  | refuse (x : Refuse)
  /-- A refusal that the block's statistics count (Table 15.8). -/
  | refuseEv (x : Refuse) (f : State → State)

/-- A test of Table 3.9 that an opcode brings with it. -/
abbrev Chk := State → Q → Option Refuse

def okChk : Chk := fun _ _ => none

/-- An opcode: its code, the version that brings it in, its TLVs and its part of each check of Table 3.9. -/
structure OpDef where
  code    : Nat
  since   : Nat := 0x20
  session : Bool := false
  /-- The block the work is addressed to: where its domain is off, the item ends FAILED (R17). -/
  blk     : Nat := 1
  schema  : List TlvSpec := []
  form    : Chk := okChk
  perm    : Chk := okChk
  mode    : Chk := okChk
  lock    : Chk := okChk
  charge  : Nat := 0
  exist   : Chk := okChk
  pre     : Chk := okChk
  run     : State → Q → Run

/-- Only the operator. -/
def onlyOperator : Chk := fun _ q => if q.tag = 0 then none else some { status := .denied }

/-- The operator and service. -/
def operatorOrService : Chk := fun _ q => if q.tag = 0 || q.tag = 255 then none else some { status := .denied }

/-- Only while the mode is BLOCKS. -/
def onlyBlocks : Chk := fun s _ => if s.mode = modeBlocks then none else some { status := .wrongMode }

/-- Bits of a register image that no field of the register takes (R7). -/
def rsvBits (off v : Nat) : Bool :=
  match regAt off with
  | some (d, _, _) => v != d.fields.foldl (fun a f => a + bitsOf v f.hi f.lo * 2 ^ f.lo) 0
  | none => v != 0

/-- The fault of register images in a TLV: a reserved bit set, or a value outside its stated range. -/
def imgFault (ts : List Tlv) (typ : Nat) (imgs : List (Nat × Nat)) (ok : Bool) : Option Refuse :=
  if imgs.any fun p => rsvBits p.1 p.2 then some (badAt ts typ 0x0005)
  else if ok then none else some (badAt ts typ 0x0008)

/-- Another identity holds a lock on an object (R79). -/
def State.lockedFor (s : State) (owner : BitVec 256) (o : Nat) : Bool :=
  o != 0 && s.baton.locks.any fun l => l.obj == o && l.owner != owner && l.till > s.clk

/-- LOCKED for a configuration opcode that acts on objects locked by another identity (R79, step 11). -/
def lockChk (objs : State → Q → List Nat) : Chk := fun s q =>
  if (objs s q).any fun o => s.lockedFor q.owner o then some { status := .locked } else none

/-- Write register images and store them (R554). -/
def State.setImgs (s : State) (imgs : List (Nat × Nat)) : State :=
  imgs.foldl (fun s p => (s.wr p.1 p.2).store p.1) s

/-- The address in an ADDRESS TLV that names an object (or 0) of this module, for an opcode that is not relayed (R33, R90). -/
def addrForm (t : Nat) (elem0 : Bool) : Chk := fun s q =>
  let a := tAddr q.tlvs t
  if addrBad a then some (badAt q.tlvs t 0x0006)
  else if addrPath a ≠ addrPath s.estate.addr then some (badAt q.tlvs t 0x0008)
  else if elem0 && addrElem a ≠ 0 then some (badAt q.tlvs t 0x0008) else none

/-- Several tests, the first that fails answers. -/
def allChk (cs : List Chk) : Chk := fun s q => cs.findSome? fun c => c s q

/-- A test on the value of a TLV of one type. -/
def rangeChk (t : Nat) (ok : Nat → Bool) : Chk := fun _ q =>
  if ok (tn q.tlvs t) then none else some (badAt q.tlvs t 0x0008)

/-! ### Sessions -/

def State.session? (s : State) (slot : Nat) : Option Session := s.baton.sessions.find? fun x => x.slot == slot

def State.modSession (s : State) (slot : Nat) (f : Session → Session) : State :=
  { s with baton := { s.baton with sessions := s.baton.sessions.map fun x => if x.slot = slot then f x else x } }

/-- The item's session is closed: no other session that takes its slot is the item's own (R83). -/
def Item.orphan (slot : Nat) (i : Item) : Item := if i.sess = slot then { i with sess := 64 } else i

/-- A session closes and raises SESSION_CLOSED with its reason (R62, Table 3.10); its items run on, without a session. Its count of short
records ends with it (R63). -/
def State.closeSession (s : State) (slot reason : Nat) : State :=
  match s.session? slot with
  | none => s
  | some x =>
    let s := { s with
      baton := { s.baton with
        sessions := s.baton.sessions.filter fun y => y.slot != slot
        items := s.baton.items.map (Item.orphan slot) }
      limiters := s.limiters.filter fun l => !(l.code == 0x0012 && l.inst == slot) }
    s.raise 0x0011 6 x.tag (natBE 8 (x.owner.toNat / 2 ^ 192) ++ natBE 1 reason)

/-- Every session closes for one reason. -/
def State.closeAll (s : State) (reason : Nat) : State :=
  s.baton.sessions.foldl (fun s x => s.closeSession x.slot reason) s

/-! ### Replies (3.3) -/

/-- A reply or notice packet (Table 3.3). -/
def replyPkt (ver flags tag cls item opcode status : Nat) (res : Bytes) : Bytes :=
  natBE 1 ver ++ natBE 1 flags ++ natBE 1 tag ++ natBE 1 cls ++ natBE 4 item ++ natBE 2 opcode ++
    natBE 2 status ++ natBE 2 res.length ++ res

/-- The class in which a request is carried: class 0 goes as class 1 (R24, R64). -/
def carriedClass (c : Nat) : Nat := if c = 0 then 1 else c

/-- REPLY, COMPLETION, MORE and CACHED of Table 3.2. -/
def fReply : Nat := 1
def fCompletion : Nat := 2
def fMore : Nat := 4
def fCached : Nat := 8

/-- Answer a request on its session, with results: on the negotiated version, before that on the request's own (R69). -/
def State.answer (s : State) (q : Q) (opcode flags status : Nat) (res : Bytes) : State :=
  match q.sess with
  | some slot =>
    let c := carriedClass q.r.cls.toNat
    s.ethSend q.port c (.baton slot (replyPkt (((s.session? slot).bind (·.version)).getD q.ver) (fReply + flags) q.r.tenant.toNat
      c q.r.item.toNat opcode status res))
  | none => s.emit (.relayReply q.owner q.r.item.toNat opcode status res)

/-- The results of a refusal: the named ones, and DETAIL from session version 3.1 onward (R66). -/
def Refuse.results (x : Refuse) (ver : Nat) : Bytes :=
  x.named ++ (match x.detail with
    | some (o, r) => if ver ≥ 0x31 then tlv 0x000E (natBE 2 o ++ natBE 2 r) else []
    | none => [])

/-- Refuse a request: nothing else changes (R80). `neg` tells whether a version has been negotiated. -/
def State.refuseQ (s : State) (q : Q) (opcode : Nat) (neg : Bool) (x : Refuse) : State :=
  s.answer q opcode 0 x.status.code (x.results (if neg then q.ver else 0))

/-! ### Items, completion and the cache (3.11) -/

def cacheLife : Nat := 600 * sec

/-- Enter an ended item in the completion cache; when all 4,096 places are taken the oldest leaves, and one that is
less than 10 minutes old is reported by BATON_EVICT at most once per second (R84). -/
def State.cacheAdd (s : State) (owner : BitVec 256) (item status opcode tag : Nat) : State :=
  let e : CacheEntry := ⟨owner, item, status, opcode, s.clk⟩
  match s.baton.cache with
  | old :: rest =>
    if s.baton.cache.length ≥ 4096 then
      let s := { s with baton := { s.baton with cache := rest ++ [e] } }
      if s.clk - old.since < cacheLife then
        s.raiseLim 0x0013 0 sec 4 tag fun n => natBE 4 ((s.clk - old.since) / sec) ++ natBE 4 n
      else s
    else { s with baton := { s.baton with cache := s.baton.cache ++ [e] } }
  | [] => { s with baton := { s.baton with cache := [e] } }

/-- Record an item in the journal at its admission (6.5). -/
def State.journalAdd (s : State) (owner : BitVec 256) (item opcode tag : Nat) : State :=
  { s with start := { s.start with journal := s.start.journal ++ [⟨owner, item, opcode, tag, none⟩] } }

/-- Record the final state of the item that has none yet, under its key. -/
def journalFinal (owner : BitVec 256) (item st : Nat) : List JournalEntry → List JournalEntry
  | [] => []
  | j :: js =>
    if j.owner = owner && j.item = item && j.final.isNone then { j with final := some st } :: js
    else j :: journalFinal owner item st js

/-- The journal without the item of that key that has no final state. -/
def journalDrop (owner : BitVec 256) (item : Nat) (js : List JournalEntry) : List JournalEntry :=
  js.filter fun (j : JournalEntry) => !(j.owner == owner && j.item == item && j.final.isNone)

/-- An item ends: within the closing sequence its final state is recorded, else it leaves the journal, which holds the items in flight
(R89, log 111). -/
def State.journalEnd (s : State) (owner : BitVec 256) (item st : Nat) : State :=
  let js := s.start.journal
  let kept := if s.start.phase == .holdup || s.start.phase == .restarting then journalFinal owner item st js else journalDrop owner item js
  { s with start := { s.start with journal := kept } }

def State.item? (s : State) (owner : BitVec 256) (item : Nat) : Option Item :=
  s.baton.items.find? fun x => x.owner == owner && x.item == item

def State.cached? (s : State) (owner : BitVec 256) (item : Nat) : Option CacheEntry :=
  s.baton.cache.find? fun x => x.owner == owner && x.item == item

/-- Keep the TLVs that follow a page behind a new cursor of a session, and answer its CURSOR; a 17th cursor releases the oldest (R75, R76). -/
def State.openCursor (s : State) (slot opcode per : Nat) (rest : List Bytes) : Bytes × State :=
  let h := s.baton.nextCursor
  let c : Cursor := ⟨h, opcode, rest, per, s.clk⟩
  let s := { s with baton := { s.baton with nextCursor := (h + 1) % 2 ^ 32 } }
  (tlv 0x0005 (natBE 4 h), s.modSession slot fun y =>
    { y with cursors := (if y.cursors.length ≥ 16 then y.cursors.drop 1 else y.cursors) ++ [c] })

/-- The version of an item's session while that is still open, 0 without one. -/
def State.itemVer (s : State) (i : Item) : Nat :=
  match s.session? i.sess with
  | some x => if x.owner = i.owner then x.version.getD 0 else 0
  | none => 0

/-- An item in flight reaches its final state: it leaves the item table for the cache, and one COMPLETION notice goes
out if its session is still open on version 3.0 or 3.1 (R82, R83, R84, R88); `more` sets MORE in it. -/
def State.endItem (s : State) (owner : BitVec 256) (item : Nat) (st : Status) (res : Bytes := []) (more : Bool := false) : State :=
  match s.item? owner item with
  | none => s
  | some i =>
    let s := { s with baton := { s.baton with
      items := s.baton.items.filter (fun x => !(x.owner == owner && x.item == item)) } }
    let s := (s.cacheAdd owner item st.code i.opcode i.tag).journalEnd owner item st.code
    let s := s.holdEnd (.baton owner (BitVec.ofNat 32 item)) (st == .failed)
    match s.session? i.sess with
    | some x =>
      if x.owner = owner && (x.version.getD 0) ≥ 0x30 then
        s.ethSend x.port i.cls (.baton i.sess (replyPkt (x.version.getD 0) (fReply + fCompletion + if more then fMore else 0)
          i.tag i.cls item i.opcode st.code res))
      else s
    | none => s

/-- End every item in flight that waits for `w` and passes `p`. -/
def State.endWaiting (s : State) (w : WaitKind) (p : Item → Bool) (st : Status) (res : Bytes := []) : State :=
  (s.baton.items.filter fun i => i.wait == w && p i).foldl (fun s i => s.endItem i.owner i.item st res) s

/-! ### Energy (R124, R136) -/

/-- The bank in µJ as the monitor last measured it. -/
def State.bankUj (s : State) : Nat := s.get F.LEDGER_BANK_MJ * 1000

/-- µJ set aside in HOLDUP for mandatory steps and for funded items that have not ended (R134, R136). -/
def State.setAside (s : State) : Nat :=
  s.ledger.hold.items.foldl (fun a h => a + h.uj) s.ledger.hold.reserve

/-- mW held by reservations that have not lapsed (R124). -/
def State.reserved (s : State) : Nat :=
  (s.ledger.resv.filter fun r => r.till > s.clk).foldl (fun a r => a + r.mw) 0

/-- Headroom and bank cover a charge of c mJ (R124), and no floor is unmet (R128). -/
def State.covers (s : State) (c : Nat) : Bool :=
  c = 0 ||
  (s.ledger.headroom - (s.reserved : Int) ≥ (c : Int) && s.get F.LEDGER_BANK_MJ > 66 && !(s.ledger.unmet.any id))

/-- Charged work holds a reservation for 1 s from its admission (R124). -/
def State.reserve (s : State) (c : Nat) : State :=
  if c = 0 then s else { s with ledger := { s.ledger with resv := s.ledger.resv ++ [⟨c, s.clk + sec⟩] } }

/-- OBJ_READ and OBJ_READ_NEXT, the reads that HOLDUP admits (R136). -/
def isHoldRead (code : Nat) : Bool := code == 0x0101 || code == 0x0102

/-! ### The order of checks (Table 3.9) -/

/-- Step 3: reserved flags, class, length (a packet has at most 1,400 bytes, R61, log 297), TLV framing. -/
def framing (r : Req) : Except Refuse (List Tlv) :=
  if r.flags ≠ 0 then .error ⟨.badParam, some (1, 0x0005), []⟩
  else if r.cls.toNat > 3 then .error ⟨.badParam, some (3, 0x0008), []⟩
  else if r.plen.toNat ≠ r.params.length then .error ⟨.badParam, some (10, 0x0001), []⟩
  else if r.params.length > 1388 then .error ⟨.badParam, some (10, 0x0001), []⟩
  else match parseTlvs (r.params.length + 1) 12 r.params with
    | .ok ts => .ok ts
    | .error o => .error ⟨.badParam, some (o, 0x0003), []⟩

/-- The opcodes that the boot stage serves in RECOVERY (R504). -/
def recoveryServes (code : Nat) : Bool :=
  [0x0001, 0x0002, 0x0005, 0x0E01, 0x0E02, 0x0E03, 0x0E04, 0x0E05].contains code

/-- Steps 8 to 14 but for admission counts, on the module that holds the object (R90). -/
def OpDef.later (d : OpDef) (s : State) (q : Q) : Option Refuse :=
  let inHold := s.mode = modeHoldup
  let count : Option Refuse :=
    if !d.session &&
      ((q.sess.isSome && (s.baton.items.filter fun i => some i.sess == q.sess).length ≥ 32) || s.baton.items.length ≥ 1024)
    then some { status := .busy } else none
  let modeHold : Option Refuse :=
    if s.start.phase = .recovery && !(recoveryServes d.code) then some { status := .wrongMode }
    else if inHold && !d.session && !(isHoldRead d.code && s.holdReads)
    then some { status := .wrongMode } else none
  let energy : Option Refuse :=
    if inHold then
      (if isHoldRead d.code && s.bankUj < s.setAside + 200 then some { status := .noBudget } else none)
    else if s.covers d.charge then none else some { status := .noBudget }
  (d.perm s q).or <| count.or <| modeHold.or <| (d.mode s q).or <| (d.lock s q).or <| energy.or <|
    (d.exist s q).or <| d.pre s q

/-- A request is admitted: its charge is reserved and its item recorded in the journal, but for a session opcode. -/
def OpDef.begun (d : OpDef) (s : State) (q : Q) : State :=
  if d.session then s else (s.reserve d.charge).journalAdd q.owner q.r.item.toNat d.code q.tag

/-- An item that ends with its reply enters the completion cache (R84), but for a session opcode. -/
def OpDef.ended (d : OpDef) (s : State) (q : Q) (st : Status) : State :=
  if d.session then s else
    (s.cacheAdd q.owner q.r.item.toNat st.code d.code q.tag).journalEnd q.owner q.r.item.toNat st.code

/-- The item that a PENDING request leaves in the item table (R82). -/
def OpDef.item (d : OpDef) (q : Q) (w : WaitKind) (a b : Nat) (ponr : Bool) : Item :=
  ⟨q.owner, q.r.item.toNat, q.sess.getD 64, d.code, q.tag, carriedClass q.r.cls.toNat, ponr, w, a, b, q.r.params, false⟩

def State.addItem (s : State) (i : Item) : State :=
  { s with baton := { s.baton with items := s.baton.items ++ [i] } }

/-- How a run ends, answered. -/
def OpDef.close (d : OpDef) (s : State) (q : Q) : Run → State
  | .refuse x => s.refuseQ q d.code true x
  | .refuseEv x f => (f s).refuseQ q d.code true x
  | .done st res s' more => (d.ended s' q st).answer q d.code (if more then fMore else 0) st.code res
  | .pend w a b ponr s' => (s'.addItem (d.item q w a b ponr)).answer q d.code 0 Status.pending.code []

/-- Admit and run a request that has passed every check. -/
def OpDef.accept (d : OpDef) (s : State) (q : Q) : State :=
  d.close s q (if s.blkOn d.blk then d.run (d.begun s q) q else .done .failed [] (d.begun s q))

/-- A Baton request on a session: the checks of Table 3.9 in order, the first that fails answers (R81).
`defined` is false for an opcode that no chapter defines. `relay` may take the request over after step 7 (R90). -/
def batonCore (d : OpDef) (defined : Bool) (relay : State → Q → Option State) (r : Req) (s : State) : State :=
  match s.session? r.sess.val with
  | none => s
  | some x =>
    let s := s.modSession x.slot fun y => { y with last := s.clk }
    let neg := x.version.isSome
    let ver := x.version.getD r.version.toNat
    let q0 : Q := ⟨r, x.tag, x.owner, ver, some x.slot, x.port, []⟩
    -- step 2
    let verOk := if d.code = 1 then !neg else x.version == some r.version.toNat
    if !verOk then s.refuseQ q0 d.code neg { status := .badVersion } else
    -- step 3
    match framing r with
    | .error f => s.refuseQ q0 d.code neg f
    | .ok ts =>
      let q : Q := { q0 with tlvs := ts }
      -- step 4
      if r.tenant.toNat ≠ x.tag then s.refuseQ q d.code neg { status := .denied } else
      -- step 5
      if !d.session && (s.item? x.owner r.item.toNat).isSome then
        s.answer q d.code 0 Status.pending.code [] else
      match (if d.session then none else s.cached? x.owner r.item.toNat) with
      | some c => s.answer q c.opcode fCached c.status []
      | none =>
        -- step 6
        if !defined || (neg && d.since > ver) then s.refuseQ q d.code neg { status := .badOpcode } else
        -- step 7
        match (tlvFault d.schema ver ts).or (d.form s q) with
        | some f => s.refuseQ q d.code neg f
        | none =>
          match (if s.start.phase = .recovery then none else relay s q) with
          | some s' => s'
          | none =>
            -- steps 8 to 14
            match d.later s q with
            | some f => s.refuseQ q d.code neg f
            | none => d.accept s q

/-- A request of an opcode that is never relayed. -/
def batonRun (d : OpDef) (r : Req) (s : State) : State := batonCore d true (fun _ _ => none) r s

/-- The outcome of a command that the spec always lets run. -/
abbrev Res := Host.Outcome State Fault Refusal

/-! ### Pages (R75, R76) -/

/-- Serve a list of TLVs as a first page; what does not fit waits behind a cursor, which a session of version 2.0 does not
get (3.5). `fixed` comes before the first page's TLVs. A relayed request is answered whole: its relay makes the pages (log 298). -/
def pageRun (s : State) (q : Q) (opcode per : Nat) (fixed : Bytes) (ts : List Bytes) : Run :=
  let page := (ts.take per).flatten
  let rest := ts.drop per
  if rest.isEmpty then .done .ok (fixed ++ page) s else
  match q.sess with
  | none => .done .ok (fixed ++ ts.flatten) s
  | some slot =>
    if q.ver < 0x30 then .done .ok (fixed ++ page) s true else
    let (c, s) := s.openCursor slot opcode per rest
    .done .ok (fixed ++ page ++ c) s true

/-- The ELEMENT or OBJ_ENTRY TLVs a page of OBJ_READ holds, by the TLV that comes before them and their number (R75): 52 ELEMENT, or 172
OBJ_ENTRY, one less beside COUNT and CURSOR. -/
def readPage (head n : Nat) : Nat := if head = 0x0003 then 52 else if n > 172 then 171 else 172

/-- The results that the holder of a relayed OBJ_READ returned, as the first page for the sender's session; what does not fit one page waits
behind a cursor of that session (R75, R90, log 298). -/
def State.relayedPage (s : State) (i : Item) (res : Bytes) : Bytes × Bool × State :=
  match i.opcode == 0x0101, parseTlvs (res.length + 1) 0 res with
  | true, .ok (t :: ts) =>
    let per := readPage t.typ ts.length
    let tb (t : Tlv) : Bytes := tlv t.typ t.val
    if ts.length ≤ per || s.itemVer i < 0x30 then (res, false, s) else
    let (c, s) := s.openCursor i.sess 0x0101 per ((ts.drop per).map tb)
    (tb t ++ ((ts.take per).map tb).flatten ++ c, true, s)
  | _, _ => (res, false, s)

/-- The cursor of a handle on the request's session, for one opcode's pages, not yet released (R76). -/
def cursor? (s : State) (q : Q) (opcode handle : Nat) : Option Cursor :=
  match q.sess with
  | none => none
  | some slot =>
    match s.session? slot with
    | none => none
    | some x => x.cursors.find? fun c => c.handle == handle && c.opcode == opcode && s.clk < c.last + 10 * sec

/-- STALE when the cursor has been released (R76). -/
def cursorChk (opcode : Nat) : Chk := fun s q =>
  match tv? q.tlvs 0x0005 with
  | none => none
  | some b => if (cursor? s q opcode (beNat b)).isNone then some { status := .stale } else none

/-- The next page behind a cursor. -/
def nextPage (s : State) (q : Q) (opcode : Nat) : Run :=
  let handle := tn q.tlvs 0x0005
  match cursor? s q opcode handle, q.sess with
  | some c, some slot =>
    let page := (c.rest.take c.per).flatten
    let rest := c.rest.drop c.per
    if rest.isEmpty then
      .done .ok page (s.modSession slot fun y => { y with cursors := y.cursors.filter fun k => k.handle != handle })
    else
      let s := s.modSession slot fun y =>
        { y with cursors := y.cursors.map fun k => if k.handle = handle then { k with rest := rest, last := s.clk } else k }
      .done .ok (page ++ tlv 0x0005 (natBE 4 handle)) s true
  | _, _ => .refuse { status := .stale }

end Sys2Proof.Machine
end

