-- ==== Sys2Proof/Machine/Drill.lean ====
section
/-! DEFINITION. Machine/Drill.lean: the drill instruction set, its loader, the library, and the DRILL opcodes
(chapter 4, 4.5). What a verdict does to its host is in Machine/DrillHost.lean. -/

namespace Sys2Proof.Machine

/-! ### Images (R107, R109, R111) -/

/-- The fields of an instruction word (Table 4.6). -/
def drOp (w : Nat) : Nat := bitsOf w 31 26
def drD (w : Nat) : Nat := bitsOf w 25 23
def drA (w : Nat) : Nat := bitsOf w 22 20
def drB (w : Nat) : Nat := bitsOf w 19 17
def drI (w : Nat) : Nat := bit1 w 16
def drImm (w : Nat) : Nat := bitsOf w 15 0

/-- The 32-bit words of an image from byte 4 on. -/
def drillWords (img : Bytes) : List Nat := (chunks 4 (img.drop 4)).map beNat

def drillKind (img : Bytes) : Nat := beAt img 1 1
def drillCode (img : Bytes) : List Nat := (drillWords img).take (beAt img 2 1)
def drillTable (img : Bytes) : List Nat := (drillWords img).drop (beAt img 2 1)

/-- The host kind of an instance (Table 4.4). -/
def hostKind (h : Nat) : Nat := if h ≤ 3 then 1 else if h ≤ 35 then 2 else if h = 36 then 3 else 4

/-- Verdicts a host kind defines (Table 4.4). -/
def verdictCount : Nat → Nat
  | 1 => 3 | 2 => 3 | 3 => 2 | 4 => 2 | _ => 0

/-- Fields that a host kind defines (Table 4.5). -/
def fieldDefined (kind f : Nat) : Bool :=
  f == 56 || (60 ≤ f && f ≤ 63) ||
  match kind with
  | 1 => f ≤ 19 || f == 24 || f == 25
  | 2 => f ≤ 19
  | 3 => f ≤ 11 || (16 ≤ f && f ≤ 47)
  | 4 => f ≤ 7
  | _ => false

/-- Fields that a drill may write (Table 4.5). -/
def fieldWritable (kind f : Nat) : Bool :=
  (60 ≤ f && f ≤ 63) ||
  match kind with
  | 1 => f == 24 || f == 25
  | 2 => f == 8 || f == 9
  | 3 => 16 ≤ f && f ≤ 47
  | _ => false

def isAlu (op : Nat) : Bool := 0x04 ≤ op && op ≤ 0x0A
def isBranch (op : Nat) : Bool := 0x10 ≤ op && op ≤ 0x14
def opDefined (op : Nat) : Bool := (0x01 ≤ op && op ≤ 0x0D) || isBranch op || op == 0x18 || op == 0x1F

/-- The loader accepts the instruction at an index (R109). -/
def instrOk (kind idx w : Nat) : Bool :=
  let op := drOp w
  opDefined op &&
  (drI w == 0 || isAlu op || isBranch op) &&
  (!isBranch op || drImm w % 64 > idx) &&
  (op != 0x01 || fieldDefined kind (drImm w % 64)) &&
  (op != 0x0C || fieldWritable kind (drImm w % 64)) &&
  (op != 0x18 || (kind == 1 && drImm w % 256 == 1)) &&
  (op != 0x1F || verdictCount kind > drImm w % 16)

/-- The loader accepts an image (R109, R111). -/
def imageOk (img : Bytes) : Bool :=
  let n := beAt img 2 1
  let t := beAt img 3 1
  let kind := drillKind img
  beAt img 0 1 == 1 && 1 ≤ kind && kind ≤ 4 && 1 ≤ n && n ≤ 64 && t ≤ 32 && img.length == 4 + 4 * (n + t) &&
  (((List.range n).zip (drillCode img)).all fun p => instrOk kind p.1 p.2)

/-! ### A run (R108, R110) -/

/-- A run in progress. -/
structure DrillRun where
  regs   : List Nat
  fields : List (Nat × W32)
  acts   : List Nat          -- message objects that ACT 1 sends
  deriving DecidableEq, Repr

/-- How a run ended: its verdict, and the index of the faulting TAB where it ended by fault. -/
structure DrillEnd where
  verdict : Nat
  fault   : Option Nat
  run     : DrillRun
  deriving DecidableEq, Repr

def fieldGet (fs : List (Nat × W32)) (f : Nat) : Nat := ((fs.find? fun p => p.1 == f).map (·.2.toNat)).getD 0
def fieldPut (fs : List (Nat × W32)) (f v : Nat) : List (Nat × W32) :=
  (f, BitVec.ofNat 32 v) :: fs.filter fun p => p.1 != f

/-- The value an ALU operation gives (Table 4.7). -/
def aluVal (op a b : Nat) : Nat :=
  match op with
  | 0x04 => (a + b) % 2 ^ 32
  | 0x05 => (a + 2 ^ 32 - b) % 2 ^ 32
  | 0x06 => a &&& b
  | 0x07 => a ||| b
  | 0x08 => a ^^^ b
  | 0x09 => (a <<< (b % 32)) % 2 ^ 32
  | _ => a >>> (b % 32)

/-- The branch is taken (Table 4.7). -/
def branchTaken (op a b : Nat) : Bool :=
  match op with
  | 0x10 => a == b
  | 0x11 => a != b
  | 0x12 => a < b
  | 0x13 => b ≤ a
  | _ => true

/-- Run from index `pc`; every step moves forward, so 65 steps end any run. -/
def drillStep (code table : List Nat) : Nat → Nat → DrillRun → DrillEnd
  | 0, _, x => ⟨0, none, x⟩
  | fuel + 1, pc, x =>
    match code[pc]? with
    | none => ⟨0, none, x⟩
    | some w =>
      let op := drOp w
      let imm := drImm w
      let a := x.regs.getD (drA w) 0
      let setD (v : Nat) : DrillRun := { x with regs := setNth x.regs (drD w) v }
      if op = 0x01 then drillStep code table fuel (pc + 1) (setD (fieldGet x.fields (imm % 64)))
      else if op = 0x02 then drillStep code table fuel (pc + 1) (setD (wrapN 32 (sgn 16 imm)))
      else if op = 0x03 then drillStep code table fuel (pc + 1) (setD (imm * 65536 + x.regs.getD (drD w) 0 % 65536))
      else if isAlu op then
        let b := if drI w = 1 then wrapN 32 (sgn 16 imm) else x.regs.getD (drB w) 0
        drillStep code table fuel (pc + 1) (setD (aluVal op a b))
      else if op = 0x0B then
        let n := bitsOf imm 12 8
        drillStep code table fuel (pc + 1) (setD ((a >>> (imm % 32)) % 2 ^ (if n = 0 then 32 else n)))
      else if op = 0x0C then drillStep code table fuel (pc + 1) { x with fields := fieldPut x.fields (imm % 64) a }
      else if op = 0x0D then
        match table[(a + imm) % 2 ^ 32]? with
        | some v => drillStep code table fuel (pc + 1) (setD v)
        | none => ⟨0, some pc, x⟩
      else if isBranch op then
        let b := if drI w = 1 then wrapN 32 (sgn 10 (imm / 64)) else x.regs.getD (drB w) 0
        drillStep code table fuel (if branchTaken op a b then imm % 64 else pc + 1) x
      else if op = 0x18 then drillStep code table fuel (pc + 1) { x with acts := x.acts ++ [fieldGet x.fields 25] }
      else ⟨imm % 16, none, x⟩

/-- Run an image from its first instruction with D0 to D7 at 0. -/
def drillGo (img : Bytes) (fields : List (Nat × W32)) : DrillEnd :=
  drillStep (drillCode img) (drillTable img) 65 0 ⟨List.replicate 8 0, fields, []⟩

/-! ### Instances (R105, R110, R112) -/

def State.inst (s : State) (h : Nat) : DrillInst := s.drill.insts.getD h ⟨[], [0, 0, 0, 0], 0⟩

def State.setInst (s : State) (h : Nat) (f : DrillInst → DrillInst) : State :=
  { s with drill := { s.drill with insts := modNth s.drill.insts h f } }

/-- The image bound to an instance. -/
def State.boundImg (s : State) (h : Nat) : Option Bytes :=
  if s.drillOn h then (s.drill.lib.find? fun p => p.1 == s.get (F.DRILL_BIND_NUM h)).map (·.2) else none

/-- A trigger of an instance with a drill bound: it waits in the queue of 8, or finds it full. `none` where no drill is
bound; the Bool tells whether the trigger waits. -/
def State.drillTrigger (s : State) (h : Nat) (t : DrillTrig) : Option (State × Bool) :=
  if !s.drillOn h then none
  else if (s.inst h).queue.length ≥ 8 then some (s.drillOverrun h, false)
  else some (s.setInst h fun i => { i with queue := i.queue ++ [t] }, true)

/-- Run the drill of an instance on host fields: the run's end, and the state with its persistent words, counts and
fault event (R108, R110). -/
def State.drillRunOn (s : State) (h : Nat) (img : Bytes) (fields : List (Nat × W32)) : DrillEnd × State :=
  let i := s.inst h
  let fs := fields ++ [(56, BitVec.ofNat 32 i.runs)] ++ ((List.range 4).zip i.pers).map fun p => (60 + p.1, p.2)
  let e := drillGo img fs
  let pers := (List.range 4).map fun k => BitVec.ofNat 32 (fieldGet e.run.fields (60 + k))
  let s := s.setInst h fun i => { i with pers := pers, runs := i.runs + 1 }
  match e.fault with
  | none => (e, s)
  | some idx =>
    let s := s.bump (F.DRILL_CNT_FAULT h) 1
    let num := s.get (F.DRILL_BIND_NUM h)
    (e, s.raiseLim 0x1101 h sec 4 0 fun n => natBE 1 h ++ natBE 1 num ++ natBE 1 idx ++ natBE 4 n)

/-! ### Opcodes (Tables 4.8 and 4.9) -/

def tDrillNum : Nat := 0x1101
def tDrillImage : Nat := 0x1102
def tHost : Nat := 0x1103
def tEnable : Nat := 0x1104
def tCounts : Nat := 0x1105

def drillNumChk (hi : Nat) : Chk := fun _ q =>
  if tn q.tlvs tDrillNum > hi then some (badAt q.tlvs tDrillNum 0x0008) else none

def State.drillBound (s : State) (num : Nat) : Bool :=
  (List.range 38).any fun h => s.get (F.DRILL_BIND_EN h) == 1 && s.get (F.DRILL_BIND_NUM h) == num

def drillExists : Chk := fun s q =>
  if s.drill.lib.any fun p => p.1 == tn q.tlvs tDrillNum then none else some { status := .noObject }

/-- Loading a number from 0 to 63, which belong to the manifest: DENIED; only the operator loads (R112). -/
def drillOwn : Chk := fun _ q =>
  if q.tag ≠ 0 || tn q.tlvs tDrillNum < 64 then some { status := .denied } else none

def opDrillLoad : OpDef where
  code := 0x1101
  schema := [{ typ := tDrillNum, lo := 1, hi := 1 }, { typ := tDrillImage, lo := 4, hi := 388 }]
  form := fun s q => (drillNumChk 127 s q).or
    (if imageOk (tv q.tlvs tDrillImage) then none else some (badAt q.tlvs tDrillImage 0x0008))
  perm := drillOwn
  run := fun s q =>
    let n := tn q.tlvs tDrillNum
    if s.drillBound n then .refuse { status := .busy } else
    .done .ok [] { s with drill := { s.drill with
      lib := (s.drill.lib.filter fun p => p.1 != n) ++ [(n, tv q.tlvs tDrillImage)] } }

def opDrillRead : OpDef where
  code := 0x1102
  schema := [{ typ := tDrillNum, lo := 1, hi := 1 }]
  form := drillNumChk 127
  exist := drillExists
  run := fun s q =>
    let img := ((s.drill.lib.find? fun p => p.1 == tn q.tlvs tDrillNum).map (·.2)).getD []
    .done .ok (tlv tDrillImage img) s

def opDrillDelete : OpDef where
  code := 0x1103
  schema := [{ typ := tDrillNum, lo := 1, hi := 1 }]
  -- numbers 0 to 63 are outside the range of Table 4.8
  form := fun s q => if tn q.tlvs tDrillNum < 64 then some (badAt q.tlvs tDrillNum 0x0008) else drillNumChk 127 s q
  perm := onlyOperator
  exist := drillExists
  run := fun s q =>
    let n := tn q.tlvs tDrillNum
    if s.drillBound n then .refuse { status := .busy } else
    .done .ok [] { s with drill := { s.drill with lib := s.drill.lib.filter fun p => p.1 != n } }

/-- The binding of an instance as one number for DRILL_BOUND; 0 for none (R492). -/
def State.bindNum (s : State) (h : Nat) : Nat :=
  if s.get (F.DRILL_BIND_EN h) = 1 then s.get (F.DRILL_BIND_NUM h) else 0

def opDrillBind : OpDef where
  code := 0x1104
  schema := [{ typ := tHost, lo := 1, hi := 1 }, { typ := tDrillNum, lo := 1, hi := 1 }, { typ := tEnable, lo := 1, hi := 1 }]
  form := fun s q => (drillNumChk 127 s q).or <|
    if tn q.tlvs tHost > 37 then some (badAt q.tlvs tHost 0x0008)
    else if tn q.tlvs tEnable > 1 then some (badAt q.tlvs tEnable 0x0008) else none
  perm := onlyOperator
  exist := fun s q =>
    if tn q.tlvs tEnable = 0 then none else
    match (s.drill.lib.find? fun p => p.1 == tn q.tlvs tDrillNum).map (·.2) with
    | none => some { status := .noObject }
    | some img =>
      if drillKind img = hostKind (tn q.tlvs tHost) then none else some (badAt q.tlvs tDrillNum 0x0008)
  run := fun s q =>
    let h := tn q.tlvs tHost
    let en := tn q.tlvs tEnable
    let old := s.bindNum h
    let s := ((s.put (F.DRILL_BIND_EN h) en).put (F.DRILL_BIND_NUM h) (if en = 1 then tn q.tlvs tDrillNum else 0)).store (Reg.DRILL_BIND h)
    -- counts and persistent words start afresh when a drill is bound
    let s := if en = 1 then
        (s.wr (Reg.DRILL_CNT h) 0).setInst h fun i => { i with pers := [0, 0, 0, 0] }
      else s
    .done .ok [] (s.raise 0x1102 6 0 (natBE 1 h ++ natBE 1 old ++ natBE 1 (s.bindNum h)))

def opDrillStat : OpDef where
  code := 0x1105
  schema := [{ typ := tHost, lo := 1, hi := 1 }]
  form := fun _ q => if tn q.tlvs tHost > 37 then some (badAt q.tlvs tHost 0x0008) else none
  run := fun s q =>
    let h := tn q.tlvs tHost
    .done .ok (tlv tDrillNum (natBE 1 (s.get (F.DRILL_BIND_NUM h))) ++ tlv tEnable (natBE 1 (s.get (F.DRILL_BIND_EN h))) ++
      tlv tCounts (natBE 2 (s.get (F.DRILL_CNT_OVERRUN h)) ++ natBE 2 (s.get (F.DRILL_CNT_FAULT h)) ++
        natBE 8 (s.inst h).runs)) s

def execDrillLoad (r : Req) (s : State) : Res := .next (batonRun opDrillLoad r s)
def execDrillRead (r : Req) (s : State) : Res := .next (batonRun opDrillRead r s)
def execDrillDelete (r : Req) (s : State) : Res := .next (batonRun opDrillDelete r s)
def execDrillBind (r : Req) (s : State) : Res := .next (batonRun opDrillBind r s)
def execDrillStat (r : Req) (s : State) : Res := .next (batonRun opDrillStat r s)

end Sys2Proof.Machine
end

