-- ==== Sys2Proof/Machine/Float.lean ====
section
/-! DEFINITION. Machine/Float.lean: IEEE 754 binary32 and binary64 as exact numbers that are rounded once,
to nearest with ties to even, at the end of each operation. FP32 and FP64 are the element formats of
Table 2.5; FP64 is the arithmetic of the Pacer (chapter 10). -/

namespace Sys2Proof.Machine

/-- A floating-point number: `fin neg m e` is m·2^e, negated where `neg` is true. -/
inductive Fl where
  | nan
  | inf (neg : Bool)
  | fin (neg : Bool) (m : Nat) (e : Int)
  deriving DecidableEq, Repr

/-- A format: precision in bits, exponent of the least subnormal, exponent above every finite number. -/
structure FmtF where
  prec : Nat
  emin : Int
  emax : Int
  deriving DecidableEq, Repr

def fp32F : FmtF := ⟨24, -149, 128⟩
def fp64F : FmtF := ⟨53, -1074, 1024⟩

/-- 2^k for an integer k at least 0, else 1. -/
def pow2 (k : Int) : Nat := 2 ^ k.toNat

/-- The quotient n/d rounded to the nearest integer, ties to even. -/
def divRne (n d : Nat) : Nat :=
  let q := n / d
  let r := n % d
  if 2 * r > d || (2 * r == d && q % 2 == 1) then q + 1 else q

/-- n/d·2^e rounded to the format. -/
def roundQ (f : FmtF) (neg : Bool) (n d : Nat) (e : Int) : Fl :=
  if n = 0 then .fin neg 0 0 else
  let l0 : Int := (n.log2 : Int) - (d.log2 : Int)
  let big : Bool := if l0 ≥ 0 then n ≥ d * pow2 l0 else n * pow2 (-l0) ≥ d
  let l : Int := if big then l0 else l0 - 1
  let lsb : Int := max (l + e - ((f.prec : Int) - 1)) f.emin
  let sh := e - lsb
  let q := if sh ≥ 0 then divRne (n * pow2 sh) d else divRne n (d * pow2 (-sh))
  if (q.log2 : Int) + lsb ≥ f.emax && q != 0 then .inf neg else .fin neg q lsb

/-- The signed numerator of a finite number at exponent `e`. -/
def Fl.numAt (neg : Bool) (m : Nat) (e0 e : Int) : Int :=
  let v : Int := (m * pow2 (e0 - e) : Nat)
  if neg then -v else v

def Fl.neg : Fl → Fl
  | .nan => .nan
  | .inf s => .inf (!s)
  | .fin s m e => .fin (!s) m e

def Fl.abs : Fl → Fl
  | .nan => .nan
  | .inf _ => .inf false
  | .fin _ m e => .fin false m e

def Fl.isFin : Fl → Bool
  | .fin _ _ _ => true
  | _ => false

def Fl.isZero : Fl → Bool
  | .fin _ m _ => m == 0
  | _ => false

/-- An integer as a float, exact. -/
def Fl.ofInt (z : Int) : Fl := .fin (z < 0) z.natAbs 0

/-- n/d as a float of the format. -/
def Fl.ofRat (f : FmtF) (z : Int) (d : Nat) : Fl := roundQ f (z < 0) z.natAbs d 0

def Fl.round (f : FmtF) : Fl → Fl
  | .fin s m e => roundQ f s m 1 e
  | x => x

def Fl.add (f : FmtF) : Fl → Fl → Fl
  | .nan, _ => .nan
  | _, .nan => .nan
  | .inf a, .inf b => if a = b then .inf a else .nan
  | .inf a, _ => .inf a
  | _, .inf b => .inf b
  | .fin s1 m1 e1, .fin s2 m2 e2 =>
    let e := min e1 e2
    let z := Fl.numAt s1 m1 e1 e + Fl.numAt s2 m2 e2 e
    if z = 0 then .fin (s1 && s2) 0 0 else roundQ f (z < 0) z.natAbs 1 e

def Fl.sub (f : FmtF) (a b : Fl) : Fl := Fl.add f a b.neg

def Fl.mul (f : FmtF) : Fl → Fl → Fl
  | .nan, _ => .nan
  | _, .nan => .nan
  | .inf a, .inf b => .inf (a != b)
  | .inf a, .fin s m _ => if m = 0 then .nan else .inf (a != s)
  | .fin s m _, .inf b => if m = 0 then .nan else .inf (s != b)
  | .fin s1 m1 e1, .fin s2 m2 e2 => roundQ f (s1 != s2) (m1 * m2) 1 (e1 + e2)

def Fl.div (f : FmtF) : Fl → Fl → Fl
  | .nan, _ => .nan
  | _, .nan => .nan
  | .inf _, .inf _ => .nan
  | .inf a, .fin s _ _ => .inf (a != s)
  | .fin s _ _, .inf b => .fin (s != b) 0 0
  | .fin s1 m1 e1, .fin s2 m2 e2 =>
    if m2 = 0 then (if m1 = 0 then .nan else .inf (s1 != s2))
    else roundQ f (s1 != s2) m1 m2 (e1 - e2)

/-- The integer square root, one bit at a time. -/
def isqrtAux (n : Nat) : Nat → Nat → Nat
  | 0, r => r
  | k + 1, r => let c := r + 2 ^ k; isqrtAux n k (if c * c ≤ n then c else r)

def isqrt (n : Nat) : Nat := isqrtAux n (n.log2 / 2 + 1) 0

/-- The square root of a number at least 0, rounded to the format; a negative number has none. -/
def Fl.sqrt (f : FmtF) : Fl → Fl
  | .nan => .nan
  | .inf s => if s then .nan else .inf false
  | .fin s m e =>
    if m = 0 then .fin s 0 0 else if s then .nan else
    let p : Nat := 2 * (f.prec + 4)
    let e' : Int := e - p - ((e - p) % 2)
    let n := m * pow2 (e - e')
    let r := isqrt n
    -- a set last bit keeps the remainder's share of the rounding
    roundQ f false (2 * r + b2n (decide (r * r ≠ n))) 1 (e' / 2 - 1)

/-- The integer cube root, one bit at a time. -/
def icbrtAux (n : Nat) : Nat → Nat → Nat
  | 0, r => r
  | k + 1, r => let c := r + 2 ^ k; icbrtAux n k (if c * c * c ≤ n then c else r)

def icbrt (n : Nat) : Nat := icbrtAux n (n.log2 / 3 + 1) 0

/-- The cube root of a number at least 0, rounded to the format. -/
def Fl.cbrt (f : FmtF) : Fl → Fl
  | .nan => .nan
  | .inf s => .inf s
  | .fin s m e =>
    if m = 0 then .fin s 0 0 else
    let p : Nat := 3 * (f.prec + 4)
    let e' : Int := e - p - ((e - p) % 3)
    let n := m * pow2 (e - e')
    let r := icbrt n
    roundQ f s (2 * r + b2n (decide (r * r * r ≠ n))) 1 (e' / 3 - 1)

/-- ⌈x⌉ for a finite x. -/
def Fl.ceilInt : Fl → Int
  | .fin s m e =>
    let n : Int := if s then -(m : Int) else m
    if e ≥ 0 then n * pow2 e else -((-n) / (pow2 (-e) : Int))
  | _ => 0

/-- A format wide enough that sums and products of FP64 numbers are exact in it. -/
def wideF : FmtF := ⟨8192, -16384, 16384⟩

def Fl.lt : Fl → Fl → Bool
  | .nan, _ => false
  | _, .nan => false
  | .inf a, .inf b => a && !b
  | .inf a, .fin _ _ _ => a
  | .fin _ _ _, .inf b => !b
  | .fin s1 m1 e1, .fin s2 m2 e2 =>
    let e := min e1 e2
    decide (Fl.numAt s1 m1 e1 e < Fl.numAt s2 m2 e2 e)

def Fl.le (a b : Fl) : Bool :=
  match a, b with
  | .nan, _ => false
  | _, .nan => false
  | _, _ => !(Fl.lt b a)

def Fl.min (a b : Fl) : Fl := if Fl.lt b a then b else a
def Fl.max (a b : Fl) : Fl := if Fl.lt a b then b else a
def Fl.clamp (lo hi x : Fl) : Fl := Fl.max lo (Fl.min hi x)

/-- The nearest integer, ties to even; none for a NaN or an infinity. -/
def Fl.toIntRne : Fl → Option Int
  | .fin s m e =>
    let q := if e ≥ 0 then m * pow2 e else divRne m (pow2 (-e))
    some (if s then -(q : Int) else q)
  | _ => none

/-- The integer part, toward zero; none for a NaN or an infinity. -/
def Fl.toIntTrunc : Fl → Option Int
  | .fin s m e =>
    let q := if e ≥ 0 then m * pow2 e else m / pow2 (-e)
    some (if s then -(q : Int) else q)
  | _ => none

/-- A number from the bits of a format with `mb` fraction bits and `eb` exponent bits. -/
def flOfBits (mb eb w : Nat) : Fl :=
  let fr := w % 2 ^ mb
  let ex := w / 2 ^ mb % 2 ^ eb
  let s := w / 2 ^ (mb + eb) % 2 == 1
  let bias : Int := 2 ^ (eb - 1) - 1
  if ex = 2 ^ eb - 1 then (if fr = 0 then .inf s else .nan)
  else if ex = 0 then .fin s fr (1 - bias - mb)
  else .fin s (fr + 2 ^ mb) ((ex : Int) - bias - mb)

/-- The bits of a number in the format; a NaN is the quiet NaN with no other fraction bit. -/
def bitsOfFl (mb eb : Nat) (f : FmtF) (x : Fl) : Nat :=
  let bias : Int := 2 ^ (eb - 1) - 1
  let sg (s : Bool) : Nat := b2n s * 2 ^ (mb + eb)
  match x.round f with
  | .nan => (2 ^ eb - 1) * 2 ^ mb + 2 ^ (mb - 1)
  | .inf s => sg s + (2 ^ eb - 1) * 2 ^ mb
  | .fin s m e =>
    if m = 0 then sg s else
    let l : Int := (m.log2 : Int)
    let ex : Int := l + e + bias
    if ex ≥ 1 then
      let fr := if l ≥ mb then m / pow2 (l - mb) else m * pow2 ((mb : Int) - l)
      sg s + ex.toNat * 2 ^ mb + fr % 2 ^ mb
    else
      let k := e - (1 - bias - mb)
      sg s + (if k ≥ 0 then m * pow2 k else m / pow2 (-k))

def fl32 (w : Nat) : Fl := flOfBits 23 8 w
def fl64 (w : Nat) : Fl := flOfBits 52 11 w
def bits32 (x : Fl) : Nat := bitsOfFl 23 8 fp32F x
def bits64 (x : Fl) : Nat := bitsOfFl 52 11 fp64F x

end Sys2Proof.Machine
end

