-- ==== Sys2Proof/Machine/Flags.lean ====
section
/-! DEFINITION. Machine/Flags.lean: the quality flags of elements (R38 to R41), the formats of element values
(R37, R560) and what a reader of an element sees. -/

namespace Sys2Proof.Machine

def qGood : Nat := 0
def qStale : Nat := 1
def qSubst : Nat := 2
def qForced : Nat := 3
def qLost : Nat := 4
def qCold : Nat := 5

/-- The place of a quality in the order of R41, highest first. -/
def qRank (q : Nat) : Nat :=
  if q = qLost then 5 else if q = qCold then 4 else if q = qStale then 3
  else if q = qSubst then 2 else if q = qForced then 1 else 0

/-- The quality of highest precedence of several (R41). -/
def qWorst (qs : List Nat) : Nat := qs.foldl (fun a q => if qRank q > qRank a then q else a) qGood

/-- Value types of Table 2.5. -/
def vBool : Nat := 1
def vUint32 : Nat := 3
def vInt64 : Nat := 4
def vFp32 : Nat := 5
def vFp64 : Nat := 6
def vQ15 : Nat := 7

/-- Bytes 12 to 19 hold a value of the type as Table 2.5 lays it down (R560). -/
def valueOk (vt : Nat) (v : W64) : Bool :=
  let n := v.toNat
  match vt with
  | 1 => n ≤ 1
  | 2 => v == BitVec.ofInt 64 (sgn 32 n)
  | 3 => n < 2 ^ 32
  | 4 => true
  | 5 => n < 2 ^ 32
  | 6 => true
  | 7 => v == BitVec.ofInt 64 (sgn 16 n)
  | _ => false

/-- A value as a floating-point number, for the functions that work in real units. -/
def valFl (vt : Nat) (v : W64) : Fl :=
  match vt with
  | 1 => .ofInt v.toNat
  | 2 => .ofInt (sgn 32 v.toNat)
  | 3 => .ofInt (v.toNat % 2 ^ 32)
  | 4 => .ofInt (sgn 64 v.toNat)
  | 5 => fl32 v.toNat
  | 6 => fl64 v.toNat
  | 7 => Fl.fin (sgn 16 v.toNat < 0) (sgn 16 v.toNat).natAbs (-15)
  | _ => .nan

/-- A floating-point number as a value of a type, rounded to nearest and held within the type's range. -/
def flVal (vt : Nat) (x : Fl) : W64 :=
  let int (lo hi : Int) : W64 :=
    match x with
    | .nan => 0
    | .inf s => BitVec.ofInt 64 (if s then lo else hi)
    | _ => BitVec.ofInt 64 (clampI lo hi (x.toIntRne.getD 0))
  match vt with
  | 1 => int 0 1
  | 2 => int (-2147483648) 2147483647
  | 3 => int 0 4294967295
  | 4 => int (-9223372036854775808) 9223372036854775807
  | 5 => BitVec.ofNat 64 (bits32 x)
  | 6 => BitVec.ofNat 64 (bits64 x)
  | 7 =>
    match Fl.mul fp64F x (.fin false 1 15) with
    | .nan => 0
    | .inf s => BitVec.ofInt 64 (if s then -32768 else 32767)
    | y => BitVec.ofInt 64 (clampI (-32768) 32767 (y.toIntRne.getD 0))
  | _ => 0

/-- A fresh element of a declared type: value 0 and SRC COLD (R553). -/
def Elem.cold (vt : Nat) : Elem := ⟨vt, 0, 0, qCold, 0, none, none, false⟩

/-- SRC of an element as its age makes it at the present time (R39, R40). -/
def State.srcOf (s : State) (e : Elem) : Nat :=
  if e.src = qLost then qLost
  else if e.src = qCold then qCold
  else if e.fresh ≠ 0 && s.sysNow - nsOfTs e.ts > (e.fresh * msec : Nat) then qStale
  else e.src

/-- REP of an element (R39). -/
def Elem.rep (e : Elem) (src : Nat) (forced : Bool) : Nat :=
  if forced then qForced else if src ≠ qGood && e.subst.isSome then qSubst else e.inh.getD src

/-- The quality byte (Table 2.7). -/
def qByte (src rep : Nat) : Nat := src * 16 + rep

end Sys2Proof.Machine
end

