-- ==== Sys2Proof/Machine/Points.lean ====
section
/-! DEFINITION. Machine/Points.lean: objects and elements as the module holds them: what a reader sees of an
element, arrivals, source conditions, and the Changed field (chapter 2; R170 to R172 for forces). -/

namespace Sys2Proof.Machine

/-- The object of a number. -/
def State.obj? (s : State) (n : Nat) : Option Obj := s.estate.objs.find? fun x => x.num == n

/-- The tenant tag of an object, 0 where there is none. -/
def State.tagOf (s : State) (n : Nat) : Nat := ((s.obj? n).map (·.tag)).getD 0

/-- The type of an object, 0 where there is none. -/
def State.typOf (s : State) (n : Nat) : Nat := ((s.obj? n).map (·.typ)).getD 0

/-- Count of an object, header included. -/
def Obj.count (x : Obj) : Nat := x.elems.length + 1

/-- An element of an object. -/
def Obj.elem? (x : Obj) (e : Nat) : Option Elem := if e = 0 then none else x.elems[e - 1]?

def State.elem? (s : State) (o e : Nat) : Option Elem := (s.obj? o).bind fun x => x.elem? e

/-- The force on a point, if there is one (R170). -/
def State.force? (s : State) (o e : Nat) : Option Force := s.estate.forces.find? fun f => f.obj == o && f.elem == e

/-- What a consumer sees of an element: type, value in effect, timestamp, SRC and REP (R38, R39). -/
structure EView where
  vt    : Nat
  value : W64
  ts    : W64
  src   : Nat
  rep   : Nat
  deriving DecidableEq, Repr

def EView.q (v : EView) : Nat := qByte v.src v.rep

/-- An element under the force `f`, at the present time. -/
def State.viewOf (s : State) (x : Elem) (f : Option Force) : EView :=
  let src := s.srcOf x
  let rep := x.rep src f.isSome
  let value := match f with
    | some f => f.value
    | none => if rep = qSubst then x.subst.getD x.value else x.value
  ⟨x.vtype, value, x.ts, src, rep⟩

def State.view? (s : State) (o e : Nat) : Option EView := (s.elem? o e).map fun x => s.viewOf x (s.force? o e)

/-- Change an object. -/
def State.modObj (s : State) (n : Nat) (f : Obj → Obj) : State :=
  { s with estate := { s.estate with objs := s.estate.objs.map fun x => if x.num = n then f x else x } }

/-- Change an element; Changed moves when its value or its quality byte does (R551). -/
def State.setElem (s : State) (o e : Nat) (f : Elem → Elem) : State :=
  match s.elem? o e with
  | none => s
  | some x =>
    let y := f x
    let a := s.viewOf x (s.force? o e)
    let b := s.viewOf y (s.force? o e)
    let moved := x.value != y.value || a.value != b.value || a.q != b.q || (x.src == qCold && y.src != qCold)
    s.modObj o fun ob => { ob with elems := setNth ob.elems (e - 1) y, changed := if moved then s.tsNow else ob.changed }

/-- A value arrives for an element from its source, with its source time; what Baton had written is no longer kept (R552). -/
def State.arriveAt (s : State) (o e : Nat) (v ts : W64) : State :=
  s.setElem o e fun x => { x with value := v, ts := ts, src := qGood, inh := none, kept := false }

/-- A value arrives for an element now. -/
def State.arrive (s : State) (o e : Nat) (v : W64) : State := s.arriveAt o e v s.tsNow

/-- An element's source condition changes without a new value. -/
def State.setSrc (s : State) (o e src : Nat) : State := s.setElem o e fun x => { x with src := src }

/-- Fill elements of an object with values of one instant; SRC COLD where `cold` holds, LOST where `lost`. -/
def State.fillElems (s : State) (o : Nat) (ts : W64) (src : Nat) (vals : List (Nat × W64)) : State :=
  if o = 0 then s else
  vals.foldl (fun s p => s.setElem o p.1 fun e => { e with value := p.2, ts := ts, src := src }) s

/-- The source of an element is reachable again: the value it held stands as received. -/
def State.unLost (s : State) (o e : Nat) : State :=
  s.setElem o e fun x => if x.src = qLost then { x with src := if x.ts = 0 then qCold else qGood } else x

/-- The effective value of an element changes for a reason that stands outside the element (a force): Changed moves
when value or quality did. -/
def State.touch (s0 s : State) (o e : Nat) : State :=
  match s0.view? o e, s.view? o e with
  | some a, some b => if a.value != b.value || a.q != b.q then s.modObj o fun x => { x with changed := s.tsNow } else s
  | _, _ => s

/-- Worst quality of an object's header (R36, R41). -/
def State.worstOf (s : State) (x : Obj) : Nat :=
  qWorst (((List.range x.elems.length).zip x.elems).map fun p => (s.viewOf p.2 (s.force? x.num (p.1 + 1))).rep)

/-- An element record as it travels (Table 2.5). -/
def EView.bytes (v : EView) : Bytes :=
  natBE 1 v.vt ++ natBE 1 v.q ++ natBE 2 0 ++ natBE 8 v.ts.toNat ++ natBE 8 v.value.toNat

/-- An address whose path is the module's own (R550). -/
def State.isOwn (s : State) (a : W64) : Bool := addrPath a == addrPath s.estate.addr

/-- The address of an element of this module. -/
def State.addrHere (s : State) (o e : Nat) : W64 := addrOf s.estate.addr o e

/-- A binding from a source with tag a to a destination with tag b is permitted (R54). -/
def bindOk (a b : Nat) : Bool := a == b || b == 0

/-- Object types of Table 2.3. -/
def tyAI : Nat := 0x01
def tyAO : Nat := 0x02
def tyBI : Nat := 0x03
def tyBO : Nat := 0x04
def tyMSV : Nat := 0x05
def tyLoop : Nat := 0x06
def tyCircuit : Nat := 0x07
def tyThermal : Nat := 0x08
def tyPulseOut : Nat := 0x09
def tySafetyView : Nat := 0x0A
def tyZone : Nat := 0x0B
def tySub : Nat := 0x0C
def tyPlant : Nat := 0x0D
def tyStore : Nat := 0x0E
def tyPump : Nat := 0x0F
def tyPipe : Nat := 0x10
def tyNode : Nat := 0x11
def tyPlan : Nat := 0x12
def tySchedule : Nat := 0x13
def tyStation : Nat := 0x14

/-- A number as an unsigned element value. -/
def u64 (n : Nat) : W64 := BitVec.ofNat 64 n
/-- An integer as a signed element value. -/
def i64 (z : Int) : W64 := BitVec.ofInt 64 z

/-- An item of the bus classes ends FAILED or DONE for a loop or lap: the record of Table 3.8 codes. -/
def stDone : Nat := 0
def stFailed : Nat := 0x0100
def stCancelled : Nat := 0x0102

/-- The output drivers stand at START: in BLOCKS, from step 6 of Table 5.6 on, and before step 8 of start-up
(R540, R543). -/
def State.atStart (s : State) : Bool :=
  s.mode == modeBlocks || (s.closing && s.ledger.hold.step ≥ 6)

end Sys2Proof.Machine
end

