-- ==== Sys2Proof/Machine/FurunOps.lean ====
section
/-! DEFINITION. Machine/FurunOps.lean: the place of the module in its groups, the links, and the pieces of Furun
messages (R430, R433, R434; 2.5). -/

namespace Sys2Proof.Machine

/-! ### Groups on the module's path -/

/-- The module's own address, OBJ 0. -/
def State.own (s : State) : W64 := addrOf s.estate.addr 0 0

def State.fgroup? (s : State) (g : W64) : Option FGroup := s.furun.groups.find? fun x => x.addr == g

def State.modGroup (s : State) (g : W64) (f : FGroup → FGroup) : State :=
  { s with furun := { s.furun with groups := s.furun.groups.map fun x => if x.addr = g then f x else x } }

/-- The group lies on the module's path: every hop of the group is the module's. -/
def addrUnder (a g : W64) : Bool :=
  let d := addrDepth g
  d < addrDepth a && (List.range d).all fun k => addrHop a (k + 1) == addrHop g (k + 1)

/-- The module's candidate index in a group on its path: the next hop of its own path. -/
def State.hopIn (s : State) (g : W64) : Nat := addrHop s.own (addrDepth g + 1)

/-- The module is the current anchor of a group: it took the role, the group's anchor index is the module's own hop, and where that index
names a sub-group the module anchors the sub-group too (2.5.1). -/
def State.anchorsAt (s : State) : Nat → W64 → Bool
  | 0, _ => false
  | n + 1, g =>
    match s.fgroup? g with
    | none => false
    | some x =>
      x.mine && x.anchor == some (s.hopIn g) && addrUnder s.own g &&
        (addrMember g (s.hopIn g) == s.own || s.anchorsAt n (addrMember g (s.hopIn g)))

def State.anchors (s : State) (g : W64) : Bool := s.anchorsAt 8 g

/-- The groups that the module anchors. -/
def State.anchored (s : State) : List FGroup := s.furun.groups.filter fun x => s.anchors x.addr

/-- A federation is configured (R550). -/
def State.inFederation (s : State) : Bool := !s.furun.groups.isEmpty

/-- The group whose anchor is the module's anchor (R118): the innermost group that the module does not anchor. -/
def State.upGroupAt (s : State) : Nat → W64 → Option W64
  | 0, _ => none
  | n + 1, g =>
    if !(s.anchors g) then some g else if addrDepth g = 0 then none else s.upGroupAt n (addrParent g)

def State.upGroup (s : State) : Option W64 :=
  if !s.inFederation then none else s.upGroupAt 8 (addrParent s.own)

/-- The hops of a configured member set. -/
def memberHops (w : W64) : List Nat := (List.range 64).filter fun h => h ≥ 1 && bit1 w.toNat h == 1

/-! ### Links -/

def State.link? (s : State) (peer : W64) : Option FLink := s.furun.links.find? fun l => l.peer == peer

def State.modLink (s : State) (peer : W64) (f : FLink → FLink) : State :=
  { s with furun := { s.furun with links := s.furun.links.map fun l => if l.peer = peer then f l else l } }

/-- The hop that a peer has in a group, 0 where the group is not on the peer's path. -/
def peerHop (peer g : W64) : Nat := if addrUnder peer g then addrHop peer (addrDepth g + 1) else 0

/-- The peer speaks for a member of a group: it is that member, or the anchor of that sub-group as its heartbeats say. -/
def FLink.speaksFor (l : FLink) (g : W64) (hop : Nat) : Bool :=
  let m := addrMember g hop
  l.peer == m ||
  (addrUnder l.peer m && l.groups.any fun x => x.grp == m && x.anchor == peerHop l.peer m)

/-- The link that reaches a member of a group: one in contact before one that has been lost. -/
def State.linkTo (s : State) (g : W64) (hop : Nat) : Option FLink :=
  (s.furun.links.find? fun l => l.contact && l.speaksFor g hop).or (s.furun.links.find? fun l => l.speaksFor g hop)

/-- The first 8 bytes of the SM3 digest of a group's configured member set (R431), the set as the 8 bytes of GROUP_SETUP. -/
def State.groupDigest (s : State) (g : W64) : Nat :=
  let m : W64 := match s.fgroup? g with | some x => x.members | none => 0
  (Config.sm3 (natBE 8 m.toNat)).toNat / 2 ^ 192

/-- A configured member counts as in contact: a link whose heartbeats arrive and whose member digest agrees (R431, R435). -/
def State.inContact (s : State) (g : W64) (hop : Nat) : Bool :=
  hop == s.hopIn g ||
  (match s.linkTo g hop with
   | some l => l.contact && l.digests.contains (g, s.groupDigest g)
   | none => false)

/-- Configured members of a group in contact, the module included. -/
def State.contactCount (s : State) (x : FGroup) : Nat :=
  ((memberHops x.members).filter fun h => s.inContact x.addr h).length

def majority (x : FGroup) (n : Nat) : Bool := 2 * n > (memberHops x.members).length

/-- The link over which a message for a unit leaves (R430): towards a member of a shared group that lies on the
destination's path, else to the anchor of the innermost group. -/
def State.route (s : State) (dst : W64) : Option FLink :=
  let toward := s.furun.groups.findSome? fun x =>
    if addrUnder dst x.addr then
      let h := addrHop dst (addrDepth x.addr + 1)
      if h ≠ s.hopIn x.addr then s.linkTo x.addr h else none
    else none
  match toward with
  | some l => some l
  | none =>
    match s.upGroup with
    | none => none
    | some g => (s.fgroup? g).bind fun x => x.anchor.bind fun h => s.linkTo g h

/-! ### Pieces (R433, R434) -/

def pieceMax : Nat := 1344
def bodyMax : Nat := 65535

/-- The pieces of a message, header and body (Table 16.5). -/
def pieceBytes (ver typ cls : Nat) (src dst : W64) (body : Bytes) : List Bytes :=
  let ps := if body.isEmpty then [[]] else chunks pieceMax body
  ((List.range ps.length).zip ps).map fun p =>
    natBE 1 ver ++ natBE 1 typ ++ natBE 1 cls ++ natBE 1 (b2n (p.1 + 1 < ps.length)) ++
      natBE 2 p.2.length ++ natBE 2 p.1 ++ natBE 8 src.toNat ++ natBE 8 dst.toNat ++ p.2

/-- The endpoint through which a member is reached, the first that is configured; the anchor of a sub-group has that of its group's hop. -/
def State.endOf (s : State) (peer : W64) : Option FEndpoint :=
  (s.furun.ends.find? fun e => addrMember e.grp e.hop == peer).or
    (s.furun.ends.find? fun e => addrUnder peer (addrMember e.grp e.hop))

/-- The pieces of a message leave through an endpoint: on its port, in the class of the message (R421), or as relay chunks to its station,
where class 0 is carried as class 1 (R24, R386); without an endpoint none names the port. -/
def State.furunOut (s : State) (e : Option FEndpoint) (peer : W64) (cls : Nat) (ps : List Bytes) : State :=
  match e with
  | none => ps.foldl (fun s b => s.ethSend 4 cls (.furun peer b)) s
  | some e =>
    if e.kind = 2 then
      let c1 := if cls = 0 then 1 else cls
      let cs := ps.map fun b => (⟨e.port, s.get F.RELAY_CFG_ADDR, c1, 0, b⟩ : RChunk)
      { s with relay := { s.relay with txq := s.relay.txq ++ cs } }
    else ps.foldl (fun s b => s.ethSend e.port cls (.furun peer b)) s

/-- The lowest link version that knows a message type (Table 16.4). -/
def typeSince (typ : Nat) : Nat :=
  if typ = 5 then 5 else if typ = 3 || typ = 4 || typ = 7 || typ = 11 then 4 else 3

/-- Send one message on the link to a peer through an endpoint, with its source. A message, a path or a body that the link's version and
R433 do not carry is not sent (Table 16.4). -/
def State.furunVia (s : State) (e : Option FEndpoint) (peer : W64) (typ cls : Nat) (src dst : W64) (body : Bytes) : State :=
  match s.link? peer with
  | none => s
  | some l =>
    if l.ver < typeSince typ || (l.ver < 5 && (addrDepth src > 3 || addrDepth dst > 3)) || body.length > bodyMax then s else
    let s := { s with furun := { s.furun with sent := (s.furun.sent + 1) % 2 ^ 32 } }
    s.furunOut e peer cls (pieceBytes l.ver typ cls src dst body)

/-- Send one message on the link to a peer through the member's endpoint. -/
def State.furunPass (s : State) (peer : W64) (typ cls : Nat) (src dst : W64) (body : Bytes) : State :=
  s.furunVia (s.endOf peer) peer typ cls src dst body

/-- Send one message of this module on the link to a peer. -/
def State.furunSend (s : State) (peer : W64) (typ cls : Nat) (dst : W64) (body : Bytes) : State :=
  s.furunPass peer typ cls s.own dst body

/-- A record's number lies within the last 64 received and does not repeat one of them (R434). -/
def seqOk (seen : List Nat) (n : Nat) : Bool :=
  let top := seen.foldl max 0
  seen.isEmpty || (n + 64 > top && !(seen.contains n))

/-- The numbers kept once `n` has been accepted. -/
def seqKeep (seen : List Nat) (n : Nat) : List Nat :=
  let top := (n :: seen).foldl max 0
  (n :: seen).filter fun x => x + 64 > top

/-- A message for another unit is passed on (R430): one that is neither this module nor a group on its path. BATON, whose answers return
along the route, is passed on by its own command (R441). -/
def State.furunOnward (s : State) (typ : Nat) (p : FPiece) (body : Bytes) : State × Option Bytes :=
  let dst := addrOf p.dst 0 0
  if typ = 6 || dst = s.own || addrUnder s.own dst then (s, some body) else
  match s.route dst with
  | some l => (if l.peer = p.peer then s else s.furunPass l.peer typ p.cls.toNat p.src p.dst body, none)
  | none => (s, none)

/-- A piece arrives on a link: the body of the message it completes, if it does and the message is for this module (R430, R434). -/
def State.furunPiece (s : State) (typ : Nat) (p : FPiece) : State × Option Bytes :=
  match s.link? p.peer with
  | none => (s, none)
  | some l =>
    if !(seqOk l.seen p.seq.toNat) then (s, none) else
    let s := s.modLink p.peer fun l => { l with seen := seqKeep l.seen p.seq.toNat }
    if l.ver < typeSince typ then
      ({ s with furun := { s.furun with badType := (s.furun.badType + 1) % 2 ^ 32 } }, none)
    else if p.len.toNat ≠ p.body.length then (s, none) else
    let key := p.seq.toNat - p.idx.toNat
    let more := bit1 p.flags.toNat 0 == 1
    let part : FPart := (l.parts.find? fun x => x.typ == typ && x.key == key).getD ⟨typ, key, [], none, s.clk⟩
    let part := { part with
      pieces := (p.idx.toNat, p.body) :: part.pieces
      since := if p.idx = 0 then s.clk else part.since
      last := if more then part.last else some p.idx.toNat }
    let others := l.parts.filter fun x => !(x.typ == typ && x.key == key)
    let size := part.pieces.foldl (fun a x => a + x.2.length) 0
    let drop (s : State) : State := { s with furun := { s.furun with reasmDrop := (s.furun.reasmDrop + 1) % 2 ^ 32 } }
    if size > bodyMax then (drop (s.modLink p.peer fun l => { l with parts := others }), none) else
    match part.last with
    | some n =>
      if (List.range (n + 1)).all fun i => part.pieces.any fun x => x.1 == i then
        let body := ((List.range (n + 1)).map fun i => ((part.pieces.find? fun x => x.1 == i).map (·.2)).getD []).flatten
        let s := s.modLink p.peer fun l => { l with parts := others }
        { s with furun := { s.furun with recv := (s.furun.recv + 1) % 2 ^ 32 } }.furunOnward typ p body
      else if others.length ≥ 8 then (drop s, none)
      else (s.modLink p.peer fun l => { l with parts := others ++ [part] }, none)
    | none =>
      if others.length ≥ 8 then (drop s, none)
      else (s.modLink p.peer fun l => { l with parts := others ++ [part] }, none)

end Sys2Proof.Machine
end

