-- ==== Sys2Proof/Machine/Health.lean ====
section
/-! DEFINITION. Machine/Health.lean: contact with the module's anchor (R118) and the health conditions of a trial (R503). -/

namespace Sys2Proof.Machine

/-- The module has contact with its anchor (R118); a module without an anchor of its own always counts as in contact. -/
def State.anchorContact (s : State) : Bool :=
  match s.upGroup with
  | none => true
  | some g =>
    match (s.fgroup? g).bind fun x => x.anchor.bind fun h => s.linkTo g h with
    | some l => l.contact
    | none => false

/-- Condition 0 of R503: contact with the anchor; for the federation anchor, contact with more than half of the configured top-level
members. -/
def State.contactHealthy (s : State) : Bool :=
  if !s.inFederation then true else
  match s.upGroup with
  | some _ => s.anchorContact
  | none =>
    match s.furun.groups.find? fun x => addrDepth x.addr == 0 with
    | some x => majority x (s.contactCount x)
    | none => true

/-- Condition 2 of R503: every task with EN set runs, and none is halted (STATE 0 stopped, 4 halted). -/
def State.tasksHealthy (s : State) : Bool :=
  (List.range 8).all fun n =>
    let st := s.get (F.LAP_TSTAT_STATE n)
    st != 4 && (s.get (F.LAP_TCFG_EN n) == 0 || st != 0)

/-- The transfer of part 5 that a trial waits for has completed: channel A reports the part 5 of the active set (R507). -/
def State.part5Done (s : State) : Bool :=
  let man (x : FwSet) : BitVec 256 := ((x.parts[4]?).map (·.digest)).getD 0
  let act := if s.get F.UPD_STAT_SET = 0 then s.upd.setA else s.upd.setB
  let oth := if s.get F.UPD_STAT_SET = 0 then s.upd.setB else s.upd.setA
  man act == man oth || s.safe.fw == man act

/-- The conditions of R503 hold now. -/
def State.healthOk (s : State) : Bool :=
  let hc := s.get F.UPD_CFG_HC
  s.upd.trialAt.isSome &&
  (bit1 hc 0 == 0 || s.contactHealthy) &&
  (bit1 hc 1 == 0 || s.get F.RELAY_STAT_RSTATE == 3) &&
  (bit1 hc 2 == 0 || s.tasksHealthy) &&
  (bit1 hc 3 == 0 || s.upd.confirmRx) && s.part5Done

/-- The instant from which the conditions have held without a break. -/
def State.healthSync (s : State) : State :=
  { s with upd := { s.upd with heldAt := if s.healthOk then some (s.upd.heldAt.getD s.clk) else none } }

end Sys2Proof.Machine
end

