-- ==== Sys2Proof/Machine/RelayOps.lean ====
section
/-! DEFINITION. Machine/RelayOps.lean: slot map entries, the relay images and relay output write items (chapter 14). -/

namespace Sys2Proof.Machine

/-! ### Slot map entries (Table 14.6) -/

def entDir (w : Nat) : Nat := bitsOf w 31 30
def entC0 (w : Nat) : Bool := bit1 w 29 == 1
def entLen (w : Nat) : Nat := bitsOf w 28 21 + 1
def entOfs (w : Nat) : Nat := bitsOf w 14 0

/-- The active entry n. -/
def State.relayEnt (s : State) (n : Nat) : Nat := s.rd (Reg.RELAY_MAP n)

/-- RSTATE (Table 14.7). -/
def State.rstate (s : State) : Nat := s.get F.RELAY_STAT_RSTATE
def rsOff : Nat := 0
def rsLinking : Nat := 1
def rsDiscover : Nat := 2
def rsRun : Nat := 3
def rsNoframe : Nat := 4
def rsExcluded : Nat := 5

def State.relayRole (s : State) : Nat := s.get F.RELAY_CFG_ROLE

/-- Bytes that a value of a type takes in a slot (the type's width, BOOL one byte; R5). -/
def slotWidth (vt : Nat) : Nat :=
  match vt with
  | 1 => 1 | 2 => 4 | 3 => 4 | 4 => 8 | 5 => 4 | 6 => 8 | 7 => 2 | _ => 0

/-- A value as slot bytes, most significant first. -/
def slotBytes (vt : Nat) (v : W64) : Bytes := natBE (slotWidth vt) (v.toNat % 2 ^ (8 * slotWidth vt))

/-- Slot bytes as a value. -/
def slotVal (vt : Nat) (b : Bytes) : W64 :=
  match vt with
  | 1 => u64 (if beNat b = 0 then 0 else 1)
  | 2 => i64 (sgn 32 (beNat b))
  | 7 => i64 (sgn 16 (beNat b))
  | _ => u64 (beNat b)

/-- Replace bytes of a string from an offset on. -/
def setBytes (bs : Bytes) (off : Nat) (v : Bytes) : Bytes := bs.take off ++ v ++ bs.drop (off + v.length)

/-- A frame as it is sent: payload under a header, with a new FCS (R371). -/
def frameBytes (hdr pay : Bytes) (bad : Bool) (fbad : Nat) : Bytes :=
  hdr ++ pay ++ natBE 4 (crc32 (hdr ++ pay)) ++ natBE 1 (b2n bad) ++ natBE 1 fbad ++ natBE 2 0

/-! ### The output image (R373) -/

def State.setRelay (s : State) (f : RelaySt → RelaySt) : State := { s with relay := f s.relay }

/-- Put bytes into entry n of the relay output image. -/
def State.relayPut (s : State) (n off : Nat) (v : Bytes) : State :=
  let len := entLen (s.relayEnt n)
  s.setRelay fun r => { r with outImg := modNth r.outImg n fun b => setBytes (padTo len b) off v }

/-- The write bindings of an element. -/
def State.relayBindsOf (s : State) (o e : Nat) : List SlotBind :=
  s.relay.binds.filter fun b => b.obj == o && b.elem == e && b.station != 0

/-- The element's value as a value of the slot's type. -/
def convTo (vt vt' : Nat) (v : W64) : W64 := if vt = vt' then v else flVal vt' (valFl vt v)

/-- The tag of the STATION object of a relay station, 0 without one. -/
def State.relayTag (s : State) (addr : Nat) : Nat :=
  match s.relay.stations.find? fun x => x.addr == addr with
  | some x => s.tagOf x.obj
  | none => 0

/-- A write binding still permitted by the tags (R54, R56, R388): from the element to the STATION object. -/
def State.slotWriteOk (s : State) (b : SlotBind) : Bool := bindOk (s.tagOf b.obj) (s.relayTag b.station)

/-- A read binding still permitted by the tags: from the STATION object of the segment's owner to the element. The
owner is the station named by the segment that holds the entry's offset; a binding is made against the tag that RELAY_BIND found. -/
def State.slotReadOk (s : State) (src : Nat) (b : SlotBind) : Bool := bindOk (s.relayTag src) (s.tagOf b.obj)

/-- The present value of an element reaches the output image without an item (R191). -/
def State.relayImage (s : State) (o e : Nat) : State :=
  match s.view? o e with
  | none => s
  | some v => (s.relayBindsOf o e).foldl (fun s b =>
      if s.slotWriteOk b then s.relayPut b.entry b.off (slotBytes b.vt (convTo v.vt b.vt v.value)) else s) s

/-- A station that is lost or excluded (R380, R381). -/
def State.relayGone (s : State) (addr : Nat) : Bool := s.relay.lost.contains addr

/-! ### Write status (R182) -/

/-- Set the write status of an output point. -/
def State.setWstat (s : State) (task o e st : Nat) : State :=
  let rest := s.lap.wstat.filter fun w => !(w.task == task && w.obj == o && w.elem == e)
  { s with lap := { s.lap with wstat := rest ++ [⟨task, o, e, st⟩] } }

/-- A write of a task to a lost station of a bus has failed: it is gathered for housekeeping, with LAP condition 4. -/
def State.lapFail (s : State) (task bus station o e : Nat) : State :=
  let hit (f : LapFail) : Bool := f.task == task && f.bus == bus && f.station == station
  let fails := if s.lap.fails.any hit then
      s.lap.fails.map fun f => if hit f then { f with n := f.n + 1 } else f
    else s.lap.fails ++ [⟨task, bus, station, 1, (o, e)⟩]
  ({ s with lap := { s.lap with fails := fails } }).cond 3 4

/-! ### Relay output write items (R379, R380) -/

/-- The key of a relay write among the funded items of HOLDUP. -/
def relayRef (w : RWrite) : HoldRef := .link 4 (BitVec.ofNat 32 (w.station * 65536 + w.ofs))

/-- STATION elements of a relay station (Table 14.12). -/
def State.rstImage (s : State) (x : RStation) : State :=
  if x.obj = 0 then s else
  let put (s : State) (e : Nat) (v : W64) : State :=
    match s.elem? x.obj e with
    | some y => if y.value = v && y.src = qGood then s else s.arrive x.obj e v
    | none => s
  put (put (put (put (put (put (put s 1 (u64 x.addr)) 2 (u64 x.st)) 3 (u64 x.pos)) 4 (u64 x.losses)) 5 (u64 x.failed))
    6 (u64 x.seen)) 7 (u64 (b2n x.outLive))

/-- Change a station's record; the instant of a change of state is kept. -/
def State.modStation (s : State) (addr : Nat) (f : RStation → RStation) : State :=
  let g (x : RStation) : RStation := if (f x).st = x.st then f x else { f x with since := s.clk }
  let s := s.setRelay fun r => { r with stations := r.stations.map fun x => if x.addr = addr then g x else x }
  match s.relay.stations.find? fun x => x.addr == addr with
  | some x => s.rstImage x
  | none => s

/-- A relay write ends (R380): its status reaches WSTAT unless a later write of the same point is under way (R182), the mirror and
the STATION object. -/
def State.relayWriteEnd (s : State) (w : RWrite) (st : Nat) : State :=
  let newer := (s.relay.writes.dropWhile fun x => x != w).any fun x => x != w && x.task == w.task && x.obj == w.obj && x.elem == w.elem
  let s := s.setRelay fun r => { r with writes := r.writes.filter fun x => x != w }
  let s := (s.mirrorEnd 4 w.station w.ofs st).holdEnd (relayRef w) (st != stDone)
  let s := if newer then s else s.setWstat w.task w.obj w.elem (if st = stDone then 0 else 1)
  if st = stDone then s else
  let s := s.modStation w.station fun x => { x with failed := (x.failed + 1) % 2 ^ 32 }
  if s.relayGone w.station then s.lapFail w.task 0 w.station w.obj w.elem else s.cond 3 4

/-- Every write in flight that passes `p` ends. -/
def State.relayEndAll (s : State) (p : RWrite → Bool) (st : Nat) : State :=
  (s.relay.writes.filter p).foldl (fun s w => s.relayWriteEnd w st) s

/-- The relay writes of a step 2 commit are carried under the charge of step 2 and bounded by the end of the period that carries them: the
next one, or the one after where the next frame is too near (Table 5.6, step 3; R379). -/
def State.holdWrite (s : State) (w : RWrite) : State :=
  if s.closing && s.ledger.hold.items.any fun h => h.ref == .lap (Fin.ofNat 8 w.task) then
    let p := s.get F.RELAY_PER_PERIOD
    let next := s.relay.sofClk + p
    let till := if w.atNs + 2 * usec ≤ next then next + p else next + 2 * p
    let h := s.ledger.hold
    { s with ledger := { s.ledger with hold := { h with items := h.items ++ [⟨relayRef w, 0, till, false⟩] } } }
  else s

/-- A lap commit writes an output point that is bound to write entries: one item for each (R379, R181). -/
def State.relayLapWrite (s : State) (task o e : Nat) : State :=
  match s.view? o e with
  | none => s
  | some v => (s.relayBindsOf o e).foldl (fun s b =>
      if !s.slotWriteOk b then s else
      let ent := s.relayEnt b.entry
      let w : RWrite := ⟨task, o, e, b.station, entOfs ent + b.off, slotBytes b.vt (convTo v.vt b.vt v.value), s.clk, none⟩
      let s := s.mirrorAdd 4 (s.tagOf o) b.station w.ofs
      let s := s.setRelay fun r => { r with writes := r.writes ++ [w] }
      if s.relayGone b.station || s.rstate ≠ rsRun || !s.blkOn 8 then s.relayWriteEnd w stFailed else
      -- a later commit reaches the point before the frame that would have carried the earlier one
      let old := s.relay.writes.filter fun x => x != w && x.carry.isNone && x.ofs == w.ofs && x.station == w.station
      let s := old.foldl (fun s x => (s.relayWriteEnd x stFailed).setRelay fun r => { r with super := (r.super + 1) % 2 ^ 32 }) s
      (s.holdWrite w).setWstat task o e 2) s

end Sys2Proof.Machine
end

