-- ==== Sys2Proof/Machine/CanOps.lean ====
section
/-! DEFINITION. Machine/CanOps.lean: CAN frames, message objects, signals and transmit requests (chapter 15). What the commands of the
bus do with them is in Machine/Can.lean. -/

namespace Sys2Proof.Machine

/-- Interrupt source of channel c (Table 4.3). -/
def canSrc (c : Nat) : Nat := if c = 0 then 9 else 18 + c

def CanObj.zero : CanObj := ⟨CanBuf.zero, none, none, 0, false, false⟩

def State.canCh (s : State) (c : Nat) : CanCh := s.can.getD c ⟨[], CanBuf.zero, [], [], none, none, 0, 0, 0, [], []⟩
def State.setCan (s : State) (c : Nat) (f : CanCh → CanCh) : State := { s with can := modNth s.can c f }
def State.canObj (s : State) (c m : Nat) : CanObj := (s.canCh c).objs.getD m CanObj.zero
def State.setCanObj (s : State) (c m : Nat) (f : CanObj → CanObj) : State :=
  s.setCan c fun x => { x with objs := modNth x.objs m f }

/-! ### Frames (R390 to R392) -/

/-- Data bytes that a data length code stands for. -/
def dlcLen (fdf : Bool) (dlc : Nat) : Nat :=
  if dlc ≤ 8 then dlc else if !fdf then 8 else
  match dlc with
  | 9 => 12 | 10 => 16 | 11 => 20 | 12 => 24 | 13 => 32 | 14 => 48 | _ => 64

def canLen (f : CanFrame) : Nat := f.data.length

/-- Flags as drill field 1 has them (Table 4.5). -/
def canFlags (f : CanFrame) : Nat := b2n f.ide + 2 * b2n f.fdf + 4 * b2n f.brs + 8 * b2n f.rtr + 16 * b2n f.esi

/-- ⌈a / b⌉. -/
def ceilDiv (a b : Nat) : Nat := (a + b - 1) / b

/-- Nominal and data bits of a frame with n data bytes (Table 15.1). -/
def frameBits (ide fdf : Bool) (n : Nat) : Nat × Nat :=
  if fdf then (if ide then 57 else 34, ceilDiv (5 * (5 + 8 * n)) 4 + (if n ≤ 16 then 27 else 32))
  else if ide then (8 * n + 67 + (53 + 8 * n) / 4, 0) else (8 * n + 47 + (33 + 8 * n) / 4, 0)

/-- CLK_CAN cycles of a nominal and of a data bit (R391). -/
def nomBit (nbt : Nat) : Nat := bitsOf nbt 5 0 * (1 + bitsOf nbt 24 16 + bitsOf nbt 15 9)
def datBit (dbt : Nat) : Nat := bitsOf dbt 4 0 * (1 + bitsOf dbt 20 16 + bitsOf dbt 15 12)

/-- Frame time bound T in ns, rounded up (R392): one CLK_CAN cycle is 12.5 ns. -/
def frameNs (nbt dbt : Nat) (ide fdf brs : Bool) (n : Nat) : Nat :=
  let (nn, nd) := frameBits ide fdf n
  ceilDiv ((nn * nomBit nbt + nd * (if brs then datBit dbt else nomBit nbt)) * 25) 2

/-- TMAX in ns (R392). -/
def canTmaxNs (ctl nbt dbt : Nat) : Nat :=
  let fdoe := bit1 ctl 2 == 1
  frameNs nbt dbt true fdoe (fdoe && bit1 ctl 3 == 1) (if fdoe then 64 else 8)

def State.canObjOn (s : State) (c m dir : Nat) : Bool := s.get (F.CAN_OCFG_EN c m) == 1 && s.get (F.CAN_OCFG_DIR c m) == dir
def State.canIsTt (s : State) (c m : Nat) : Bool := s.get (F.CAN_OCFG_TT c m) == 1

/-- The channel takes requests: NORMAL and not bus-off or recovering (R411, R412). -/
def State.canSends (s : State) (c : Nat) : Bool :=
  (s.canCh c).mode == 1 && (s.get (F.CAN_STAT_STATE c) == 1 || s.get (F.CAN_STAT_STATE c) == 2) && s.blkOn 9

/-- The frame that a TX object sends with given data: the data fill the length of its DLC. -/
def State.canFrameOf (s : State) (c m : Nat) (data : Bytes) : CanFrame :=
  let fdf := s.get (F.CAN_OCFG_FDF c m) == 1
  let dlc := s.get (F.CAN_OCFG_DLC c m)
  let rtr := s.get (F.CAN_OCFG_RTR c m) == 1 && !fdf
  let ide := s.get (F.CAN_OCFG_IDE c m) == 1
  let id := s.get (F.CAN_OID_ID c m)
  ⟨ide, fdf, s.get (F.CAN_OCFG_BRS c m) == 1 && fdf && s.get (F.CAN_CTL_BRSE c) == 1, rtr, fdf && s.get (F.CAN_STAT_STATE c) == 2,
    BitVec.ofNat 29 (if ide then id else id % 2 ^ 11), BitVec.ofNat 4 dlc,
    if rtr then [] else padTo (dlcLen fdf dlc) data⟩

/-- The format of a TX object may be sent: FD frames only where FDOE allows them (15.8). -/
def State.canFormatOk (s : State) (c m : Nat) : Bool := s.get (F.CAN_OCFG_FDF c m) == 0 || s.get (F.CAN_CTL_FDOE c) == 1

/-- T of a frame on channel c. -/
def State.canFrameNs (s : State) (c : Nat) (f : CanFrame) : Nat :=
  frameNs (s.rd (Reg.CAN_NBT c)) (s.rd (Reg.CAN_DBT c)) f.ide f.fdf f.brs (canLen f)

/-- An attempt of object m's own request is on the wire. -/
def CanCh.onWire (ch : CanCh) (m : Nat) : Bool :=
  match ch.wire with
  | some w => w.m == m && w.kind != CanKind.reply
  | none => false

/-! ### Register images -/

/-- CAN_FIFO and the status bits of object m follow the queues. -/
def State.canSync (s : State) (c m : Nat) : State :=
  let ch : CanCh := s.canCh c
  let o : CanObj := s.canObj c m
  let s := ((s.put (F.CAN_FIFO_HEAD c) ((ch.fifo.head?.map (·.1)).getD 0)).put (F.CAN_FIFO_WIRE c) (b2n ch.wire.isSome)).put
    (F.CAN_FIFO_FILL c) ch.fifo.length
  let onWire := ch.onWire m
  let pend := (ch.fifo.any fun p => p.1 == m) || (s.canIsTt c m && o.req.isSome)
  (((s.put (F.CAN_OST_PEND c m) (b2n pend)).put (F.CAN_OST_WIRE c m) (b2n onWire)).put (F.CAN_OST_TXNEW c m)
    (b2n o.shadow.isSome)).put (F.CAN_OST_DLEN c m) (canLen o.prim.f)

/-! ### Signals (R399) -/

/-- The data bit indices of a signal, least significant first. -/
def sigBits (g : SigBind) : List Nat :=
  if g.order = 1 then (List.range g.len).map (g.start + ·)
  else ((List.range g.len).map fun i =>
    -- i places down from START: through the byte, then on from bit 7 of the next byte
    let down := 7 - g.start % 8 + i
    g.start / 8 * 8 + down / 8 * 8 + (7 - down % 8)).reverse

def bitOfBytes (bs : Bytes) (i : Nat) : Nat := bit1 (bs.getD (i / 8) 0).toNat (i % 8)

def setBitOf (bs : Bytes) (i v : Nat) : Bytes :=
  modNth bs (i / 8) fun b => BitVec.ofNat 8 (putBits b.toNat (i % 8) (i % 8) v)

/-- Read a signal; a frame too short for it gives none. -/
def sigGet (bs : Bytes) (g : SigBind) : Option W64 :=
  let ix := sigBits g
  if ix.any fun i => i / 8 ≥ bs.length then none else
  let raw := ((List.range g.len).zip ix).foldl (fun a p => a + bitOfBytes bs p.2 * 2 ^ p.1) 0
  some (match g.vt with
    | 2 => i64 (sgn g.len raw)
    | 4 => i64 (sgn g.len raw)
    | 7 => i64 (sgn g.len raw)
    | _ => u64 raw)

/-- Place a signal in data bytes. -/
def sigPut (bs : Bytes) (g : SigBind) (v : W64) : Bytes :=
  ((List.range g.len).zip (sigBits g)).foldl (fun bs p => setBitOf bs p.2 (bit1 v.toNat p.1)) bs

/-- The tag of the STATION object of message object m: the station that monitors it, or the one that a TX object names;
0 without one (R399). -/
def State.canTag (s : State) (c m : Nat) : Nat :=
  let ch : CanCh := s.canCh c
  let no := s.get (F.CAN_OCFG_STATION c m)
  match ch.stations.find? fun x => if s.canObjOn c m 2 then x.no == no && no != 0 else x.mon == m with
  | some x => s.tagOf x.obj
  | none => 0

def State.sigTxOk (s : State) (c : Nat) (g : SigBind) : Bool := bindOk (s.tagOf g.obj) (s.canTag c g.m)
def State.sigRxOk (s : State) (c : Nat) (g : SigBind) : Bool := bindOk (s.canTag c g.m) (s.tagOf g.obj)

/-! ### Items (R400, R404) -/

def State.canStationOf (s : State) (c m : Nat) : Option CanStation :=
  let no := s.get (F.CAN_OCFG_STATION c m)
  if no = 0 then none else (s.canCh c).stations.find? fun x => x.no == no

/-- The target station of a TX object is lost (R400). -/
def State.canTargetLost (s : State) (c m : Nat) : Bool := ((s.canStationOf c m).map (·.st)) == some 2

/-- STATION elements of a CAN station (Table 15.2). -/
def State.cstImage (s : State) (c : Nat) (x : CanStation) : State :=
  let put (s : State) (e : Nat) (v : W64) : State :=
    match s.elem? x.obj e with
    | some y => if y.value = v && y.src = qGood then s else s.arrive x.obj e v
    | none => s
  put (put (put (put (put (put (put s 1 (u64 c)) 2 (u64 x.st)) 3 (u64 x.mon)) 4 (u64 x.losses)) 5 (u64 x.failed))
    6 x.seen) 7 (u64 (s.get (F.CAN_STAT_STATE c)))

def State.modCanStation (s : State) (c no : Nat) (f : CanStation → CanStation) : State :=
  let s := s.setCan c fun ch => { ch with stations := ch.stations.map fun x => if x.no = no then f x else x }
  match (s.canCh c).stations.find? fun x => x.no == no with
  | some x => s.cstImage c x
  | none => s

/-- The points of a task that signals of object m carry. -/
def State.canPoints (s : State) (c m task : Nat) : List WStat :=
  s.lap.wstat.filter fun w => w.task == task && (s.canCh c).sigs.any fun g => g.m == m && g.obj == w.obj && g.elem == w.elem

/-- The request of a TX object ends: DONE, FAILED or ABORTED_CANCEL (R404, R405). -/
def State.canReqEnd (s : State) (c m : Nat) (r : CanReq) (st : Nat) : State :=
  let bad := st == stFailed
  let s := if bad then s.cond (canSrc c) 4 else s
  let s := match s.canStationOf c m with
    | some x => if bad then s.modCanStation c x.no fun y => { y with failed := (y.failed + 1) % 2 ^ 32 } else s
    | none => s
  let s := s.holdEnd (.link (Fin.ofNat 16 c) (BitVec.ofNat 32 m)) (st != stDone)
  match r with
  | .plain => s
  | .baton owner item =>
    s.endItem owner item (if bad then .failed else if st = stDone then .ok else .abortedCancel)
  | .lap task =>
    let s := s.mirrorEnd 3 c m st
    let pts := s.canPoints c m task
    -- a later message of the task that waits in the shadow keeps its points PENDING (R182)
    let newer : Bool := match (s.canObj c m).shadow with
      | some (_, .lap t) => t == task
      | _ => false
    let s := if newer then s else pts.foldl (fun s w => s.setWstat task w.obj w.elem (if st = stDone then 0 else 1)) s
    if st = stDone then s
    else if s.canTargetLost c m then
      match pts with
      | w :: _ => s.lapFail task (1 + c) (s.get (F.CAN_OCFG_STATION c m)) w.obj w.elem
      | [] => s
    else s.cond 3 4

/-- Data that has not been sent is replaced by that of the request `new`: the item of the replaced data ends FAILED and counts in
SUPERSEDED (R395); the points of a task whose new data waits are PENDING (R182). -/
def State.canSupersede (s : State) (c m : Nat) (r : Option CanReq) (new : CanReq) : State :=
  match r with
  | some r =>
    let s := (s.bump (F.CAN_CNT1_SUPERSEDED c) 1).canReqEnd c m r stFailed
    match new with
    | .lap task => (s.canPoints c m task).foldl (fun s w => s.setWstat task w.obj w.elem 2) s
    | _ => s
  | none => s

/-- CAN_FIFO_FULL, at most once per second (Table 15.8). -/
def State.canFull (s : State) (c : Nat) : State :=
  (s.cond (canSrc c) 9).raiseLim 0x0908 c sec 4 0 fun n => natBE 1 c ++ natBE 4 n

/-- The newest data of a TX object: what waits in the shadow, else the primary. -/
def State.canData (s : State) (c m : Nat) : Bytes :=
  let o : CanObj := s.canObj c m
  let fdf := s.get (F.CAN_OCFG_FDF c m) == 1
  padTo (dlcLen fdf (s.get (F.CAN_OCFG_DLC c m))) ((o.shadow.map (·.1)).getD o.prim.f.data)

/-- Put data in the primary buffer of a TX object with the request that it carries. -/
def State.canLoad (s : State) (c m : Nat) (data : Bytes) (r : CanReq) : State :=
  let f := s.canFrameOf c m data
  s.setCanObj c m fun o => { o with prim := { o.prim with f := { f with data := data } }, req := some r, hasData := true, cancel := false }

/-- A request for a TX object (R395, R400, R401, R410 to R412). An item that a full FIFO, a lost target, the channel's mode, a format that it
does not allow or HOLDUP (R135) stops ends FAILED at once. -/
def State.canRequest (s0 : State) (c m : Nat) (data : Bytes) (r : CanReq) : State :=
  let s : State := match r with
    | .lap _ => s0.mirrorAdd 3 (s0.canTag c m) c m
    | _ => s0
  if !s.canObjOn c m 2 || !s.canFormatOk c m || !s.canSends c || s.canTargetLost c m || s.mode = modeHoldup then s.canReqEnd c m r stFailed else
  let ch : CanCh := s.canCh c
  let o : CanObj := s.canObj c m
  if ch.onWire m then
    -- the data waits in the shadow until the attempt ends
    let s := s.canSupersede c m (o.shadow.map Prod.snd) r
    let s := s.setCanObj c m fun o => { o with shadow := some (data, r) }
    s.canSync c m
  else if s.canIsTt c m then ((s.canSupersede c m o.req r).canLoad c m data r).canSync c m
  else if ch.fifo.any fun p => p.1 == m then ((s.canSupersede c m o.req r).canLoad c m data r).canSync c m
  else if ch.fifo.length ≥ 32 then
    let s := match r with
      | .lap _ => s.bump (F.CAN_CNT1_FULL c) 1
      | _ => s
    (s.canFull c).canReqEnd c m r stFailed
  else
    let s := s.canLoad c m data r
    let s := s.setCan c fun x => { x with fifo := x.fifo ++ [(m, 0)] }
    let s := if (s.canCh c).fifo.length ≥ 32 then s.cond (canSrc c) 9 else s
    s.canSync c m

/-- Put the values in effect of points into the data of the objects that their signals lie in, and request each
object once (R401). -/
def State.canWrite (s : State) (pts : List (Nat × Nat)) (req : CanReq) : State :=
  (List.range 4).foldl (fun s c =>
    let ch : CanCh := s.canCh c
    let mine (g : SigBind) : Bool := s.canObjOn c g.m 2 && s.sigTxOk c g && pts.any fun p => p.1 == g.obj && p.2 == g.elem
    let sigs : List SigBind := ch.sigs.filter mine
    let ms := (List.range 64).filter fun m => sigs.any fun (g : SigBind) => g.m == m
    ms.foldl (fun s m =>
      let data := (sigs.filter fun (g : SigBind) => g.m == m).foldl (fun bs g =>
        match s.view? g.obj g.elem with
        | some v => sigPut bs g (convTo v.vt g.vt v.value)
        | none => bs) (s.canData c m)
      let s := match req with
        | .lap t => (sigs.filter fun (g : SigBind) => g.m == m).foldl (fun (s : State) (g : SigBind) => s.setWstat t g.obj g.elem 2) s
        | _ => s
      s.canRequest c m data req) s) s

end Sys2Proof.Machine
end

