-- ==== Sys2Proof/Machine/Uio.lean ====
section
/-! DEFINITION. Machine/Uio.lean: universal I/O (chapter 21): input conversions, output drivers, and the UIO opcodes. -/

namespace Sys2Proof.Machine

def State.uioCh (s : State) (n : Nat) : UioCh := s.uio.getD n ⟨0, 0, 0, none, none, 0, [], none, false, 0, none⟩
def State.setUio (s : State) (n : Nat) (f : UioCh → UioCh) : State := { s with uio := modNth s.uio n f }
def State.uioMode (s : State) (n : Nat) : Nat := s.get (F.UIO_CFG_MODE n)

/-- Modes 7 and 8 are outputs (Table 21.9). -/
def uioIsOut (mode : Nat) : Bool := mode == 7 || mode == 8

/-- The channel to which an object is assigned. -/
def State.uioOfObj (s : State) (o : Nat) : Option Nat := if o = 0 then none else firstBelow 16 fun n => (s.uioCh n).obj == o

/-- START as the raw output value of the channel's mode: mV, or bit 0. -/
def State.uioStart (s : State) (n : Nat) : Nat :=
  if s.uioMode n = 8 then s.get (F.UIO_CFG_START n) % 2 else s.get (F.UIO_CFG_START n)

/-- What the driver of a channel gives: mV or switch, none at high impedance (R540, R543). -/
def State.uioPin (s : State) (n : Nat) : Option Nat :=
  if !uioIsOut (s.uioMode n) || !s.blkOn 18 || s.start.phase == .cold || s.start.phase == .poweredOn ||
    s.start.phase == .booted || s.start.phase == .recovery then none
  else if s.get F.UIO_GSTAT_NOFLD = 1 then none
  else if (s.uioCh n).off.isSome then some 0
  else if s.atStart then some (s.uioStart n) else some (s.uioCh n).raw

/-- An element value of VALUE as a raw output value: volts held between 0 and 10 as mV, or the switch (Tables 21.13, 21.14). -/
def uioRaw (mode : Nat) (vt : Nat) (v : W64) : Nat :=
  if mode = 8 then (if (valFl vt v).isZero then 0 else 1) else
  let mv := Fl.mul fp64F (Fl.clamp (.ofInt 0) (.ofInt 10) (valFl vt v)) (.ofInt 1000)
  (mv.toIntRne.getD 0).toNat

/-- A raw output value as the value of element 1. -/
def uioValue (mode raw : Nat) : W64 :=
  if mode = 8 then u64 (raw % 2) else u64 (bits32 (Fl.ofRat fp32F raw 1000))

/-- Record what a driver gives where it has changed. -/
def State.uioOut (s0 s : State) (n : Nat) : State :=
  if s.uioPin n = s0.uioPin n then s else s.emit (.uio n (s.uioPin n))

def State.uioOutAll (s0 s : State) : State := (List.range 16).foldl (fun s n => State.uioOut s0 s n) s

/-- The elements of a channel's object that image its registers (Tables 21.11 to 21.14); a conversion renews STATUS and COUNT (log 160). -/
def State.uioImage (s : State) (n : Nat) (conv : Bool := false) : State :=
  let o := (s.uioCh n).obj
  let st := u64 (s.rd (Reg.UIO_STAT n))
  let put (s : State) (e : Nat) (v : W64) (renew : Bool) : State :=
    match s.elem? o e with
    | some x => if x.value = v && x.src = qGood && !renew then s else s.arrive o e v
    | none => s
  let cnt := if s.uioMode n = 6 then (s.uioCh n).cnt else 0
  match s.typOf o with
  | 0x01 => put (put (put (put s 2 cnt conv) 3 st conv) 4 (u64 n) false) 5 (u64 (s.uioMode n)) false
  | 0x03 => put (put (put s 2 st conv) 3 (u64 n) false) 4 (u64 ((s.uioCh n).changes % 2 ^ 32)) false
  | 0x02 => put (put s 2 st conv) 3 (u64 n) false
  | 0x04 => put (put s 2 st conv) 3 (u64 n) false
  | _ => s

/-- Give a channel its raw output value, with UIO_VALn. -/
def State.uioDrive (s : State) (n raw : Nat) : State :=
  let m := s.uioMode n
  let t := s.setUio n fun c => { c with raw := raw }
  let t := t.wr (Reg.UIO_VAL n) (if m = 8 then bits32 (.ofInt (raw % 2)) else (uioValue m raw).toNat)
  State.uioOut s t n

/-- The value of the AO or BO object of a channel reaches its driver (R543): the value in effect, a force included. -/
def State.uioFromObj (s : State) (n : Nat) : State :=
  match s.view? (s.uioCh n).obj 1 with
  | some v => if uioIsOut (s.uioMode n) then s.uioDrive n (uioRaw (s.uioMode n) v.vt v.value) else s
  | none => s

/-- A channel takes START (R543); VALUE of its object takes it too until it is written again (R552). -/
def State.uioTakeStart (s : State) (n : Nat) : State :=
  if !uioIsOut (s.uioMode n) then s else
  let o := (s.uioCh n).obj
  let s := if o = 0 then s else s.arrive o 1 (uioValue (s.uioMode n) (s.uioStart n))
  s.uioDrive n (s.uioStart n)

def State.uioAllStart (s : State) : State := (List.range 16).foldl (fun s n => s.uioTakeStart n) s

/-- On leaving BLOCKS the drivers follow their objects again, forces included (R172). -/
def State.uioAllFromObj (s : State) : State :=
  (List.range 16).foldl (fun s n => if (s.uioCh n).obj = 0 then s else s.uioFromObj n) s

/-! ### Inputs -/

/-- The faults that a conversion shows: OPEN, SHORT, OVERRANGE (Table 21.9). -/
def uioFault (mode : Nat) (x : UioSample) : Bool × Bool × Bool :=
  match mode with
  | 2 => (Fl.lt (fl32 x.val.toNat) (Fl.ofRat fp32F 36 10), false, Fl.lt (.ofInt 21) (fl32 x.val.toNat))
  | 3 => (x.mohm.toNat > 2000000, x.mohm.toNat < 800000, false)
  | _ => (false, false, false)

/-- The level that a DI input shows: on from 7 V, off up to 3 V, as before in between (Table 21.9). -/
def diLevel (old : Bool) (mv : W32) : Bool := if mv.toInt ≥ 7000 then true else if mv.toInt ≤ 3000 then false else old

/-- The time for which a level must hold before it counts (R541). -/
def filtNs (f : Nat) : Nat := if f = 0 then 0 else 100000 * 2 ^ (f - 1)

/-- What a conversion gives as VALUE: V or mA from the converter, °C from the sensor's resistance (modes 3 and 4, log 366). -/
def State.uioReading (s : State) (n : Nat) (x : UioSample) : W32 :=
  match s.uioMode n with
  | 3 => Config.pt1000Temp x.mohm
  | 4 => Config.ntcTemp x.mohm (BitVec.ofNat 16 (s.get (F.UIO_BETA_BETA n)))
  | _ => x.val

/-- A level of a DI channel, through its filter (R541); each change counts (Table 21.12). -/
def State.diSample (s : State) (n : Nat) (lv : Bool) : State :=
  let c := s.uioCh n
  let cold := s.get (F.UIO_STAT_COLD n) = 1
  let flip (s : State) : State := s.setUio n fun c => { c with level := lv, cand := none, changes := c.changes + 1 }
  if cold then s.setUio n fun c => { c with level := lv, cand := none }
  else if lv = c.level then s.setUio n fun c => { c with cand := none }
  else
    let since := match c.cand with
      | some (_, t) => t
      | none => s.clk
    if s.clk - since ≥ filtNs (s.get (F.UIO_CFG_FILT n)) then flip s
    else s.setUio n fun c => { c with cand := some (lv, since) }

/-- An input conversion completes (R542). -/
def State.uioConvert (s : State) (n : Nat) (x : UioSample) : State :=
  let m := s.uioMode n
  if m = 0 || uioIsOut m || !s.blkOn 18 then s else
  let o := (s.uioCh n).obj
  let tag := s.tagOf o
  let (op, sh, ov) := uioFault m x
  let had := s.get (F.UIO_STAT_OPEN n) + s.get (F.UIO_STAT_SHORT n) + s.get (F.UIO_STAT_OVERRANGE n) > 0
  if op || sh || ov then
    -- the bits stay until the first valid conversion; each that sets is a fault
    let fo := max (s.get (F.UIO_STAT_OPEN n)) (b2n op)
    let fs := max (s.get (F.UIO_STAT_SHORT n)) (b2n sh)
    let fr := max (s.get (F.UIO_STAT_OVERRANGE n)) (b2n ov)
    let more := fo + fs + fr > s.get (F.UIO_STAT_OPEN n) + s.get (F.UIO_STAT_SHORT n) + s.get (F.UIO_STAT_OVERRANGE n)
    let s1 := ((s.put (F.UIO_STAT_OPEN n) fo).put (F.UIO_STAT_SHORT n) fs).put (F.UIO_STAT_OVERRANGE n) fr
    let s1 := (s1.put (F.UIO_STAT_COLD n) 0).setSrc o 1 qLost
    let s1 := if had then s1 else s1.setUio n fun c => { c with fault := some s1.clk }
    let s1 := if more then (s1.cond 18 0).raise 0x1201 3 tag (natBE 1 n ++ natBE 4 (s1.rd (Reg.UIO_STAT n))) else s1
    s1.uioImage n true
  else
    let dur := match (s.uioCh n).fault with
      | some t => (s.clk - t) / msec
      | none => 0
    let s1 := if had then
        let t := ((s.put (F.UIO_STAT_OPEN n) 0).put (F.UIO_STAT_SHORT n) 0).put (F.UIO_STAT_OVERRANGE n) 0
        ((t.setUio n fun c => { c with fault := none }).cond 18 1).raise 0x1202 5 tag (natBE 1 n ++ natBE 4 dur)
      else s
    let s1 := if m = 5 then s1.diSample n (diLevel (s1.uioCh n).level x.mv) else s1
    let s1 := s1.setUio n fun c =>
      { c with tconv := s1.tsNow, edges := c.edges.filter fun t => t + sec > s1.clk }
    let val := match m with
      | 5 => u64 (b2n (s1.uioCh n).level)
      | 6 => u64 (bits32 (.ofInt (s1.uioCh n).edges.length))
      | _ => u64 (s1.uioReading n x).toNat
    let s1 := (s1.put (F.UIO_STAT_COLD n) 0).wr (Reg.UIO_VAL n) (if m = 5 then bits32 (.ofInt val.toNat) else val.toNat)
    let s1 := if o = 0 then s1 else s1.arrive o 1 val
    s1.uioImage n true

def execUioConversion (n : Fin 16) (x : UioSample) (s : State) : Res := .next (s.uioConvert n.val x)

/-- A filtered rising edge on a PULSE_IN channel (R541). -/
def execUioPulseEdge (n : Fin 16) (s : State) : Res :=
  .next <| if s.uioMode n.val = 6 && s.blkOn 18 then
    (s.setUio n.val fun c => { c with cnt := c.cnt + 1, edges := s.clk :: c.edges }).uioImage n.val
  else s

/-! ### Field supply and drivers (R543) -/

/-- VFLD stands at `mv`: it is lost when it falls below 17.0 V and back when it rises above it (R532); at each change output channels
follow it. -/
def State.vfld (s : State) (mv : Nat) : State :=
  let lost := if s.get F.UIO_GSTAT_NOFLD = 1 then mv ≤ 17000 else mv < 17000
  if !s.blkOn 18 || b2n lost = s.get F.UIO_GSTAT_NOFLD then s else
  let t := s.put F.UIO_GSTAT_NOFLD (b2n lost)
  let t := (t.cond 18 2).raise 0x1203 3 0 (natBE 1 (b2n lost) ++ natBE 4 mv)
  let t := (List.range 16).foldl (fun t n =>
    if !uioIsOut (t.uioMode n) then t else
    let t := (t.put (F.UIO_STAT_NOFLD n) (b2n lost)).put (F.UIO_STAT_OVERLOAD n) (b2n lost)
    let t := if lost then t.cond 18 3 else t
    let o := (t.uioCh n).obj
    let t := if lost then t.setSrc o 1 qLost else t.unLost o 1
    t.uioImage n) t
  State.uioOutAll s t

def execNofld (mv : BitVec 16) (s : State) : Res := .next (s.vfld mv.toNat)

/-- A driver reaches its current limit (R543): it holds the limit and OVERLOAD is set. -/
def execOverload (n : Fin 16) (s : State) : Res :=
  .next <| if uioIsOut (s.uioMode n.val) && s.blkOn 18 then
    let u := s.setUio n.val fun c => { c with limAt := some (c.limAt.getD s.clk) }
    ((u.put (F.UIO_STAT_OVERLOAD n.val) 1).cond 18 3).uioImage n.val else s

/-- A DO channel that has been at its limit for 10 ms switches off (R543). -/
def execDoSwitchOff (n : Fin 16) (s : State) : Res :=
  .next <| match (s.uioCh n.val).limAt with
  | none => s
  | some t =>
    if s.uioMode n.val = 8 && s.blkOn 18 && (s.uioCh n.val).off.isNone then
      let s := s.reach (t + 10 * msec)
      State.uioOut s (s.setUio n.val fun c => { c with off := some s.clk }) n.val
    else s

/-- Every DO channel that has been off for 1 s tries again (R543). -/
def execDoRetry (n : Fin 16) (s : State) : Res :=
  .next <| match (s.uioCh n.val).off with
  | none => s
  | some t =>
    let s := s.reach (t + sec)
    let u := (s.setUio n.val fun c => { c with off := none, limAt := none }).put (F.UIO_STAT_OVERLOAD n.val) (s.get F.UIO_GSTAT_NOFLD)
    State.uioOut s (u.uioImage n.val) n.val

/-! ### Opcodes (Tables 21.17 and 21.18) -/

def tUioChannel : Nat := 0x1201
def tUioSetup : Nat := 0x1202
def tUioState : Nat := 0x1203

def sUioChannel : TlvSpec := { typ := tUioChannel, lo := 1, hi := 1 }
def uioChForm : Chk := rangeChk tUioChannel (· ≤ 15)

/-- UIO_CFGn and UIO_BETAn hold allowed values (21.4.1). -/
def uioCfgOk (cfg beta : Nat) : Bool :=
  let m := bitsOf cfg 31 28
  let f := bitsOf cfg 27 24
  let st := bitsOf cfg 15 0
  m ≤ 8 && f ≤ 10 && (m != 6 || f ≤ 1) && (m != 7 || st ≤ 10000) && (m != 8 || st ≤ 1) && 3000 ≤ beta && beta ≤ 4500

/-- The object type and Count that a mode takes (Table 21.10). -/
def uioFits (mode typ count : Nat) : Bool :=
  match mode with
  | 1 => typ == tyAI && count == 6
  | 2 => typ == tyAI && count == 6
  | 3 => typ == tyAI && count == 6
  | 4 => typ == tyAI && count == 6
  | 6 => typ == tyAI && count == 6
  | 5 => typ == tyBI && count == 5
  | 7 => typ == tyAO && count == 4
  | 8 => typ == tyBO && count == 4
  | _ => false

/-- An enabled thermal meter names the channel (R546; the meter's settings are those of MET_THCFGt). -/
def State.thermalNames (s : State) (n : Nat) : Bool :=
  (List.range 4).any fun t => s.get (F.MET_THCFG_EN t) == 1 &&
    (s.get (F.MET_THCFG_FLOW_UIO t) == n || s.get (F.MET_THCFG_TF_UIO t) == n || s.get (F.MET_THCFG_TR_UIO t) == n)

/-- A channel's mode is set: counts and conversions begin anew (R541, R542). -/
def State.uioSetMode (s0 s : State) (n : Nat) : State :=
  if s.uioMode n = s0.uioMode n then (s.uioImage n) else
  let s := s.setUio n fun c => { c with cnt := 0, tconv := 0, fault := none, off := none, raw := 0, edges := [], cand := none, level := false, limAt := none }
  let s := ((s.wr (Reg.UIO_STAT n) (2 ^ 31)).wr (Reg.UIO_VAL n) 0).wr (Reg.UIO_OUT n) 0
  let nf := s.get F.UIO_GSTAT_NOFLD
  let s := if uioIsOut (s.uioMode n) then ((s.put (F.UIO_STAT_NOFLD n) nf).put (F.UIO_STAT_OVERLOAD n) nf) else s
  let s := if uioIsOut (s.uioMode n) then s else s.setSrc (s.uioCh n).obj 1 qCold
  (s.uioTakeStart n).uioImage n

def opUioCfg : OpDef where
  code := 0x1201
  blk := 18
  schema := [sUioChannel, { typ := tUioSetup, lo := 8, hi := 8 }]
  form := fun s q => (uioChForm s q).or <|
    let b := tv q.tlvs tUioSetup
    let n := tn q.tlvs tUioChannel
    imgFault q.tlvs tUioSetup [(Reg.UIO_CFG n, beAt b 0 4), (Reg.UIO_BETA n, beAt b 4 4)] (uioCfgOk (beAt b 0 4) (beAt b 4 4))
  perm := onlyOperator
  mode := onlyBlocks
  lock := lockChk fun s q => [(s.uioCh (tn q.tlvs tUioChannel)).obj]
  run := fun s q =>
    let n := tn q.tlvs tUioChannel
    let b := tv q.tlvs tUioSetup
    let m := bitsOf (beAt b 0 4) 31 28
    let o := (s.uioCh n).obj
    let cnt := ((s.obj? o).map Obj.count).getD 0
    if m ≠ s.uioMode n && (s.thermalNames n || (o ≠ 0 && !uioFits m (s.typOf o) cnt)) then
      .refuse ⟨.busy, some (0xFFFF, 0x000A), []⟩
    else .done .ok [] (State.uioOut s (State.uioSetMode s (s.setImgs [(Reg.UIO_CFG n, beAt b 0 4), (Reg.UIO_BETA n, beAt b 4 4)]) n) n)

def opUioAssign : OpDef where
  code := 0x1202
  blk := 18
  schema := [sUioChannel, { typ := 0x0001, lo := 8, hi := 8 }]
  form := allChk [uioChForm, addrForm 0x0001 true]
  perm := onlyOperator
  lock := lockChk fun s q => [addrObj (tAddr q.tlvs), (s.uioCh (tn q.tlvs tUioChannel)).obj]
  exist := fun s q =>
    let o := addrObj (tAddr q.tlvs)
    if o = 0 then none else
    match s.obj? o with
    | none => some { status := .noObject }
    | some x => if uioFits (s.uioMode (tn q.tlvs tUioChannel)) x.typ x.count then none else some (badAt q.tlvs 0x0001 0x0008)
  run := fun s q =>
    let n := tn q.tlvs tUioChannel
    let o := addrObj (tAddr q.tlvs)
    if o = 0 then .done .ok [] ((s.setUio n fun c => { c with obj := 0 }).uioTakeStart n)
    else if (s.uioCh n).obj ≠ 0 || (s.uioOfObj o).isSome then .refuse { status := .busy }
    else
      let s := (s.setUio n fun c => { c with obj := o }).uioImage n
      let s := if uioIsOut (s.uioMode n) then
          (if ((s.elem? o 1).map (·.src)) = some qCold then s.uioTakeStart n else s.uioFromObj n)
        else s
      .done .ok [] s

/-- The words of snapshot group n (Table 21.15). -/
def State.uioSnap (s : State) (n : Nat) : List Nat :=
  let c := s.uioCh n
  [c.cnt.toNat % 2 ^ 32, c.cnt.toNat / 2 ^ 32, s.rd (Reg.UIO_VAL n), s.rd (Reg.UIO_STAT n),
    c.tconv.toNat % 2 ^ 32, c.tconv.toNat / 2 ^ 32]

def opUioStatus : OpDef where
  code := 0x1203
  blk := 18
  schema := [sUioChannel]
  form := uioChForm
  perm := operatorOrService
  run := fun s q =>
    let n := tn q.tlvs tUioChannel
    .done .ok (tlv tUioState (natBE 4 (s.rd (Reg.UIO_STAT n)) ++ ((s.uioSnap n).map (natBE 4)).flatten)) s

def execUioCfg (r : Req) (s : State) : Res := .next (batonRun opUioCfg r s)
def execUioAssign (r : Req) (s : State) : Res := .next (batonRun opUioAssign r s)
def execUioStatus (r : Req) (s : State) : Res := .next (batonRun opUioStatus r s)

end Sys2Proof.Machine
end

