-- ==== Sys2Proof/Machine/Deliver.lean ====
section
/-! DEFINITION. Machine/Deliver.lean: an output element's value on its way to what it drives: a UIO channel, relay slots, CAN
signals (R156, R171, R190, R191). -/

namespace Sys2Proof.Machine

/-- The value in effect of an element reaches its UIO channel, if it is VALUE of one that has an output mode. -/
def State.toUio (s : State) (o e : Nat) : State :=
  if e ≠ 1 then s else
  match s.uioOfObj o with
  | some n => s.uioFromObj n
  | none => s

/-- A value that is no item: from a loop, the Pacer, a schedule or a force (R171, R191). -/
def State.deliver (s : State) (o e : Nat) : State := ((s.toUio o e).relayImage o e).canWrite [(o, e)] .plain

/-- A value that Baton writes reaches the channel and the relay image; a CAN object is sent by CAN_SEND only (R401). -/
def State.deliverWrite (s : State) (o e : Nat) : State := (s.toUio o e).relayImage o e

/-- The committed outputs of a task: its forwards to remote stations are items (R156, R379, R401). -/
def State.deliverLap (s : State) (task : Nat) (pts : List (Nat × Nat)) : State :=
  let s := pts.foldl (fun s p => (s.toUio p.1 p.2).relayLapWrite task p.1 p.2) s
  s.canWrite pts (.lap task)

/-- The station behind an output element is lost (R191). -/
def State.destLost (s : State) (o e : Nat) : Bool :=
  ((s.relayBindsOf o e).any fun b => s.relayGone b.station) ||
  (List.range 4).any fun c => (s.canCh c).sigs.any fun g => g.obj == o && g.elem == e && s.canTargetLost c g.m

end Sys2Proof.Machine
end

