-- ==== Sys2Proof/Machine/LoopMath.lean ====
section
/-! DEFINITION. Machine/LoopMath.lean: the number formats of the loop engine (R195 to R197), the biquads (R233 to R236)
and the planning and running of moves (R224 to R229). Signals are integers in units of 2⁻¹⁵, accumulators in units of 2⁻³⁰. -/

namespace Sys2Proof.Machine

/-- A result with the stages of Table 8.1 in which it saturated, the latest first (R197). -/
structure Sat (α : Type) where
  v   : α
  sat : List Nat

def q15Min : Int := -32768
def q15Max : Int := 32767
def sigMin : Int := -131072
def sigMax : Int := 131071
def accMin : Int := -(2 ^ 39)
def accMax : Int := 2 ^ 39 - 1
/-- The clamp of I: −2 to 2 − 2⁻³⁰. -/
def iMin : Int := -(2 ^ 31)
def iMax : Int := 2 ^ 31 - 1
/-- The range of v and w: −2 to 2 − 2⁻¹⁵. -/
def vMin : Int := -65536
def vMax : Int := 65535

/-- Hold a value within a range; outside it, stage `st` saturated. -/
def satTo (st : Nat) (lo hi z : Int) : Sat Int := ⟨clampI lo hi z, if z < lo || z > hi then [st] else []⟩

/-- A gain word's exponent and mantissa (R195). -/
def gainExp (g : Nat) : Int := sgn 4 (bitsOf g 19 16)
def gainMant (g : Nat) : Int := sgn 16 (bitsOf g 15 0)

/-- A signal operand times a gain word, in units of 2⁻³⁰ (R196). -/
def gainMul (x : Int) (g : Nat) : Int :=
  let p := x * gainMant g
  let e := gainExp g
  if e ≥ 0 then p * (2 ^ e.toNat : Nat) else (p + (2 ^ ((-e).toNat - 1) : Nat)) / (2 ^ (-e).toNat : Nat)

/-- A signal before a multiplier, saturated to the operand range (R196). -/
def sigOf (st : Nat) (x : Int) : Sat Int := satTo st sigMin sigMax x

/-- An exact sum, saturated once (R197). -/
def accSum (st : Nat) (zs : List Int) : Sat Int := satTo st accMin accMax (zs.foldl (· + ·) 0)

/-- From units of 2⁻³⁰ to units of 2⁻¹⁵: to nearest, ties away from zero (R197). -/
def toQ (z : Int) : Int :=
  let n : Nat := (z.natAbs + 2 ^ 14) / 2 ^ 15
  if z < 0 then -(n : Int) else n

/-- The two Q15 halves of a pair word. -/
def pairHi (w : Nat) : Int := sgn 16 (bitsOf w 31 16)
def pairLo (w : Nat) : Int := sgn 16 (bitsOf w 15 0)

/-! ### Biquads -/

/-- The value of a gain word in FP64, exact. -/
def gainFl (g : Nat) : Fl :=
  let m := gainMant g
  .fin (m < 0) m.natAbs (gainExp g - 15)

/-- Coefficients B0, B1, B2, A1, A2 of a bank from word `k`. -/
structure Coef where
  b0 : Nat
  b1 : Nat
  b2 : Nat
  a1 : Nat
  a2 : Nat

/-- One step of a biquad (R233); `st` is its stage and `lo` to `hi` its output range. -/
def biqStep (st : Nat) (lo hi : Int) (c : Coef) (b : Biquad) (x : Int) : Sat (Int × Biquad) :=
  let t := accSum st [gainMul x c.b0, b.s1]
  let o := satTo st lo hi (toQ t.v)
  let s1 := accSum st [gainMul x c.b1, -(gainMul o.v c.a1), b.s2]
  let s2 := accSum st [gainMul x c.b2, -(gainMul o.v c.a2)]
  ⟨(o.v, ⟨s1.v, s2.v⟩), s2.sat ++ s1.sat ++ o.sat ++ t.sat⟩

/-- An FP64 number times 2¹⁵-scaled level, rounded to an integer, ties away (R235, R197). -/
def flAway : Fl → Option Int
  | .fin s m e =>
    let n : Nat := if e ≥ 0 then m * pow2 e else (2 * m / pow2 (-e) + 1) / 2
    some (if s then -(n : Int) else n)
  | _ => none

/-- The preset of a biquad at level L (R235); its sums and the rounding of Y saturate as those of a step. -/
def biqPreset (st : Nat) (lo hi : Int) (c : Coef) (l : Int) : Sat (Int × Biquad) :=
  let add := Fl.add fp64F
  let den := add (add (.ofInt 1) (gainFl c.a1)) (gainFl c.a2)
  let y : Sat Int :=
    if den.isZero then ⟨l, []⟩ else
    let g := Fl.div fp64F (add (add (gainFl c.b0) (gainFl c.b1)) (gainFl c.b2)) den
    satTo st lo hi ((flAway (Fl.mul fp64F g (.ofInt l))).getD 0)
  let s2 := accSum st [gainMul l c.b2, -(gainMul y.v c.a2)]
  let s1 := accSum st [gainMul l c.b1, -(gainMul y.v c.a1), s2.v]
  ⟨(y.v, ⟨s1.v, s2.v⟩), s1.sat ++ s2.sat ++ y.sat⟩

/-! ### Moves (R227 to R229) -/

/-- 2⁻²⁰, the slack of R228. -/
def eps20 : Fl := .fin false 1 (-20)

/-- ⌈t − 2⁻²⁰⌉, not below 0. -/
def wholeSamples (t : Fl) : Nat := (Fl.ceilInt (Fl.sub fp64F t eps20)).toNat

/-- The plan of a move over distance d with limits v, a, j (R227, R228), not for v = a = 0. -/
def planMove (d v a j : Nat) : Nat × Nat × Nat × Fl × Fl × Fl :=
  let mul := Fl.mul fp64F
  let div := Fl.div fp64F
  let add := Fl.add fp64F
  let sub := Fl.sub fp64F
  let sqrt := Fl.sqrt fp64F
  let n (k : Nat) : Fl := (Fl.ofInt k).round fp64F
  let D := n d
  let V := n v
  let A := n a
  let J := n j
  let (vr, tj, ta) : Fl × Fl × Fl :=
    if a = 0 then (V, n 0, n 0) else
    let dv (x : Fl) : Fl :=
      if j = 0 then div (mul x x) A
      else if Fl.le (div (mul A A) J) x then mul x (add (div x A) (div A J))
      else mul (mul (n 2) x) (sqrt (div x J))
    let vr : Fl :=
      if v ≠ 0 && Fl.le (dv V) D then V
      else if j = 0 then sqrt (mul A D)
      else if Fl.le (div (mul (mul (mul (n 2) A) A) A) (mul J J)) D then
        div (add (div (mul A A).neg J) (sqrt (add (div (mul (mul (mul A A) A) A) (mul J J)) (mul (mul (n 4) A) D)))) (n 2)
      else Fl.cbrt fp64F (div (mul (mul D D) J) (n 4))
    let tj := if j = 0 then n 0 else Fl.min (div A J) (sqrt (div vr J))
    let full : Bool := j = 0 || (Fl.le (div A J) tj && Fl.le tj (div A J))
    let ta := if full then sub (div vr A) tj else n 0
    (vr, tj, ta)
  let tv := sub (div D vr) (add (mul (n 2) tj) ta)
  let nj := wholeSamples tj
  let na := wholeSamples ta
  let nv := wholeSamples tv
  let t := 2 * nj + na + nv
  let v' := if t = 0 then n 0 else div D (n t)
  let a' := if nj + na = 0 then n 0 else div v' (n (nj + na))
  let j' := if nj = 0 then n 0 else div a' (n nj)
  (nj, na, nv, v', a', j')

/-- The seven phases of a move: duration, acceleration at the start, jerk (R229). -/
def movePhases (m : Move) : List (Nat × Fl × Fl) :=
  let z := Fl.ofInt 0
  let a := fl64 m.a
  let j := fl64 m.j
  [(m.nj, z, j), (m.na, a, z), (m.nj, a, j.neg), (m.nv, z, z), (m.nj, z, j.neg), (m.na, a.neg, z), (m.nj, a.neg, j)]

/-- The distance covered at sample k, in FP64 from the state at the start of the phase (R229). -/
def moveDist (m : Move) (k : Nat) : Fl :=
  let mul := Fl.mul fp64F
  let add := Fl.add fp64F
  let div := Fl.div fp64F
  let n (i : Nat) : Fl := .ofInt i
  let at_ (s v a j : Fl) (t : Nat) : Fl :=
    add (add (add s (mul v (n t))) (div (mul (mul a (n t)) (n t)) (n 2))) (div (mul (mul (mul j (n t)) (n t)) (n t)) (n 6))
  let step := fun (acc : Option Fl × Nat × Fl × Fl × Nat) (p : Nat × Fl × Fl) =>
    match acc with
    | (some r, rest) => (some r, rest)
    | (none, t0, s, v, i) =>
      let v := if i = 3 && m.nj + m.na = 0 then fl64 m.v else v
      if k ≤ t0 + p.1 then (some (at_ s v p.2.1 p.2.2 (k - t0)), t0, s, v, i)
      else
        (none, t0 + p.1, at_ s v p.2.1 p.2.2 p.1,
          add (add v (mul p.2.1 (n p.1))) (div (mul (mul p.2.2 (n p.1)) (n p.1)) (n 2)), i + 1)
  match (movePhases m).foldl step (none, 0, n 0, n 0, 0) with
  | (some r, _) => r
  | (none, _, s, _) => s

/-- The length M of a move in samples (R228). -/
def moveLen (m : Move) : Nat := 2 * (2 * m.nj + m.na) + m.nv

/-- The phase 1 to 7 in which sample k lies. -/
def movePhase (m : Move) (k : Nat) : Nat :=
  let ds := (movePhases m).map (·.1)
  let r := ds.foldl (fun (acc : Nat × Nat × Option Nat) d =>
    match acc with
    | (t, i, some r) => (t, i, some r)
    | (t, i, none) => if k < t + d then (t + d, i + 1, some i) else (t + d, i + 1, none)) (0, 1, none)
  r.2.2.getD 7

/-- The position at sample k of a move, in units of 2⁻³⁰ (R229). -/
def movePos (m : Move) (k : Nat) : Int :=
  if k ≥ moveLen m then m.tgt * 32768 else
  let s := ((moveDist m k).toIntRne).getD 0
  if m.tgt * 32768 ≥ m.p0 then m.p0 + s else m.p0 - s

end Sys2Proof.Machine
end

