-- ==== Sys2Proof/Machine/Program.lean ====
section
/-! DEFINITION. Machine/Program.lean: the program slots of the lap executor, what the programs in them declare, and the data of
the active program (7.5, 7.8). -/

namespace Sys2Proof.Machine

/-! ### Slots (R173, R185) -/

def State.setLap (s : State) (f : LapSt → LapSt) : State := { s with lap := f s.lap }
def State.slot (s : State) (k : Nat) : ProgSlot := s.lap.slots.getD k ⟨0, []⟩
def State.standby (s : State) : Nat := 1 - s.get F.LAP_STAT_SLOT
def State.ocState (s : State) : Nat := s.get F.LAP_STAT_OC_STATE
def ocIdle : Nat := 0
def ocLoading : Nat := 1
def ocLoaded : Nat := 2
def ocPrepared : Nat := 3
def ocSwitching : Nat := 4

/-- Bytes from the start of the image that pieces cover without a gap. -/
def coverFrom (ps : List (Nat × Bytes)) : Nat → Nat → Nat
  | 0, cur => cur
  | f + 1, cur => coverFrom ps f (ps.foldl (fun c p => if p.1 ≤ cur then max c (p.1 + p.2.length) else c) cur)

/-- Every byte up to PROG_SIZE has been written (R185). -/
def ProgSlot.complete (p : ProgSlot) : Bool := p.size > 0 && coverFrom p.pieces (p.pieces.length + 1) 0 ≥ p.size

/-- The bytes of a slot: a later piece replaces an earlier one (R185). -/
def ProgSlot.image (p : ProgSlot) : Bytes :=
  p.pieces.reverse.foldl (fun img x => setBytes img x.1 (x.2.take (img.length - x.1))) (List.replicate p.size 0)

/-! ### Declarations -/

/-- The declarations of a task in the active program. -/
def State.taskDecl (s : State) (n : Nat) : TaskDecl := s.lap.decl.tasks.getD n ⟨[], [], 0, false⟩

/-- The task that writes an image point. -/
def State.writer (s : State) (o e : Nat) : Option Nat :=
  firstBelow 8 fun n => (s.taskDecl n).outputs.any fun p => p.obj == o && p.elem == e

/-- The declaration of a point in a program, as its value type. -/
def progPoint? (d : ProgDecl) (o e : Nat) : Option Nat :=
  (d.tasks.flatMap fun t => t.inputs ++ t.outputs).findSome? fun p => if p.obj = o && p.elem = e then some p.vt else none

/-- A task of the program writes the point. -/
def progWrites (d : ProgDecl) (o e : Nat) : Bool := d.tasks.any fun t => t.outputs.any fun p => p.obj == o && p.elem == e

/-- Bytes that a program's RETAIN variables take (R166). -/
def progRetain (d : ProgDecl) : Nat := ((d.vars.filter (·.keep)).map fun v => v.init.length).sum

/-! ### Data of the program (Tables 7.2 and 7.4) -/

/-- The entry of a path. -/
def pathGet? {α : Type} (l : List (Nat × α)) (path : Nat) : Option α := (l.find? fun p => p.1 == path).map (·.2)

/-- A list of entries with those of `new` in place of the old ones of the same path. -/
def pathPut {α : Type} (l new : List (Nat × α)) : List (Nat × α) := l.map fun p => (p.1, (pathGet? new p.1).getD p.2)

/-- Variables at a start: a RETAIN variable takes the value of the retain image, any other its declared initial value (R165). -/
def startVars (d : ProgDecl) (img : List (Nat × Bytes)) : List (Nat × Bytes) :=
  d.vars.map fun v => (v.path, if v.keep then (pathGet? img v.path).getD v.init else v.init)

/-- Charts at a start: one declared RETAIN takes the active steps of the image, any other its initial steps (R165). -/
def startCharts (d : ProgDecl) (img : List (Nat × List Nat)) : List (Nat × List Nat) :=
  d.charts.map fun c => (c.path, if c.keep then (pathGet? img c.path).getD c.init else c.init)

/-- The variables of the new program (R178): a value is carried where path and type are the same, converted where the map
converts it, and else the declared initial value. -/
def movedVars (old new : ProgDecl) (conv : Nat → Bytes → Option Bytes) (now : List (Nat × Bytes)) : List (Nat × Bytes) :=
  new.vars.map fun v =>
    match old.vars.find? fun o => o.path == v.path, pathGet? now v.path with
    | some o, some x => (v.path, if o.typ = v.typ then x else ((conv v.path x).map (padTo v.init.length)).getD v.init)
    | _, _ => (v.path, v.init)

/-- The charts of the new program (R178): active steps are carried where the step names are the same. -/
def movedCharts (old new : ProgDecl) (now : List (Nat × List Nat)) : List (Nat × List Nat) :=
  new.charts.map fun c =>
    match old.charts.find? fun o => o.path == c.path, pathGet? now c.path with
    | some o, some x => (c.path, if o.steps = c.steps then x else c.init)
    | _, _ => (c.path, c.init)

/-! ### The retain image (R144, R166) -/

/-- The data of a retain image as bytes, over which its length and its check run. The spec gives no layout (log 312). -/
def retainBytes (vars : List (Nat × Bytes)) (charts : List (Nat × List Nat)) (fbs : List FbInst) : Bytes :=
  let b (x : Bool) : Bytes := natBE 1 (b2n x)
  let ob (x : Option Bool) : Bytes := natBE 1 (match x with
    | none => 2
    | some y => b2n y)
  (vars.map fun v => natBE 4 v.1 ++ natBE 4 v.2.length ++ v.2).flatten ++
  (charts.map fun c => natBE 4 c.1 ++ natBE 2 c.2.length ++ (c.2.map (natBE 2)).flatten).flatten ++
  (fbs.map fun x => natBE 4 x.id ++ ob x.prev ++ ob x.prev2 ++ b x.since.isSome ++ b x.resume ++ b x.q ++ b x.q2 ++ natBE 8 x.et ++
    natBE 8 (wrapN 64 x.cv)).flatten

/-- The image carries its closing mark, its length and its check. -/
def RetainImg.complete (r : RetainImg) : Bool :=
  let b := retainBytes r.vars r.charts r.fbs
  r.mark && r.len == b.length && r.crc == crc32 b

/-- The image of the program's RETAIN data (R166). -/
def State.retainImg (s : State) (prog : BitVec 256) : RetainImg :=
  let d := s.lap.decl
  let vars := s.lap.vars.filter fun p => d.vars.any fun v => v.keep && v.path == p.1
  let charts := s.lap.charts.filter fun p => d.charts.any fun c => c.keep && c.path == p.1
  let fbs := s.lap.fbs.filter fun x => d.keepFb.contains x.id
  let b := retainBytes vars charts fbs
  ⟨prog, s.get F.SYS_START_CNT_COUNT, b.length, crc32 b, true, vars, charts, fbs, s.rtc.tai⟩

/-! ### One cycle of CLK_LOOP (R157, R211) -/

/-- Cycles of CLK_LOOP, 200 MHz (Table 1.3). -/
def State.loopCycle (s : State) : Nat := s.clk / 5

/-- A point as it stood before a commit or register write of the present cycle, those of task `own` apart. -/
def State.prior? (s : State) (own : Option Nat) (o e : Nat) : Option LapPrior :=
  s.lap.prior.find? fun p => p.cycle == s.loopCycle && some p.task != own && p.obj == o && p.elem == e

/-- Points as they stand in the present cycle. -/
def State.priors (s : State) (by_ : Nat) (pts : List (Nat × Nat)) : List LapPrior :=
  pts.filterMap fun p => (s.view? p.1 p.2).map fun v => ⟨s.loopCycle, by_, p.1, p.2, v.value, v.src, v.rep⟩

/-- Points as they stand, kept for captures of the present cycle; `by_` is the task that is about to commit, 8 for a register write. -/
def State.keepPrior (s : State) (by_ : Nat) (pts : List (Nat × Nat)) : State :=
  let new := s.priors by_ pts
  let c := s.loopCycle
  s.setLap fun l => { l with prior := (l.prior.filter fun p => p.cycle == c) ++ new }

end Sys2Proof.Machine
end

