-- ==== Sys2Proof/Machine/Loop.lean ====
section
/-! DEFINITION. Machine/Loop.lean: the loop engine: captures, the control law, modes, banks, sampling and the profile
generator (chapters 8 and 9). The LOOP opcodes are in Machine/LoopOps.lean. -/

namespace Sys2Proof.Machine

def State.loopSt (s : State) (n : Nat) : LoopSt := s.engine.loops.getD n LoopSt.init
def State.setLoop (s : State) (n : Nat) (f : LoopSt → LoopSt) : State :=
  { s with engine := { s.engine with loops := modNth s.engine.loops n f } }
def State.loopMode (s : State) (n : Nat) : Nat := s.get (F.LOOP_CTL_MODE n)
def State.loopEff (s : State) (n : Nat) : Nat := s.get (F.LOOP_STAT_EFF n)
def effOff : Nat := 0
def effManual : Nat := 1
def effAuto : Nat := 2
def effHold : Nat := 3

/-- The loop to which an object is assigned. -/
def State.loopOfObj (s : State) (o : Nat) : Option Nat := if o = 0 then none else firstBelow 256 fun n => (s.loopSt n).obj == o

/-- Tenant tag of a loop's object. -/
def State.loopTag (s : State) (n : Nat) : Nat := s.tagOf (s.loopSt n).obj

/-- Word i of bank b of loop n (Table 8.11). -/
def State.bank (s : State) (n b i : Nat) : Nat := s.rd (Reg.LOOP_BANK n (24 * b + i))
def State.actb (s : State) (n : Nat) : Nat := s.get (F.LOOP_CTL_ACTB n)
/-- Word i of the active bank. -/
def State.act (s : State) (n i : Nat) : Nat := s.bank n (s.actb n) i

def LoopSt.bind? (l : LoopSt) (role : Nat) : Option LoopBind := l.binds.find? fun b => b.role == role

/-! ### Elements of the LOOP object (Table 8.4) -/

/-- The elements follow the registers; a sample renews those that it sets: STATUS, MAN while it follows OUT, SPT and FF with a binding
(log 163). -/
def State.loopImage (s : State) (n : Nat) (sample : Bool := false) : State :=
  let o := (s.loopSt n).obj
  if o = 0 then s else
  let put (s : State) (e : Nat) (v : W64) (renew : Bool) : State :=
    match s.elem? o e with
    | some x => if x.value = v && x.src = qGood && !renew then s else s.arrive o e v
    | none => s
  -- SPT and FF without a binding have had no value until they are written
  let put4 (s : State) (e : Nat) (v : W64) (b : Bool) : State :=
    if !b && ((s.elem? o e).map (·.value)) = some v then s else put s e v b
  let q (f : Fld) : W64 := i64 (sgn 16 (s.get f))
  let bound (role : Nat) : Bool := sample && ((s.loopSt n).bind? role).isSome
  let follows := sample && (s.loopEff n == effAuto || s.loopEff n == effHold)
  let s := put (put (put4 s 4 (q (F.LOOP_SPT_SPT n)) (bound 1)) 5 (q (F.LOOP_MAN_MAN n)) follows) 6 (u64 (s.loopMode n)) false
  put (put (put4 s 7 (q (F.LOOP_FF_FF n)) (bound 2)) 8 (u64 (s.actb n)) false) 9 (u64 (s.rd (Reg.LOOP_STAT n))) sample

/-- OUT, PV and SP of a completed sample; `pv` is the quality of the PV source. -/
def State.loopSampleImage (s : State) (n : Nat) (src rep : Nat) : State :=
  let o := (s.loopSt n).obj
  let q (f : Fld) : W64 := i64 (sgn 16 (s.get f))
  let s1 := s.arrive o 1 (q (F.LOOP_OUT_OUT n))
  let s1 := s1.setElem o 2 fun x => { x with value := q (F.LOOP_OUT_PV n), ts := s.tsNow, src := src, inh := some rep }
  (s1.arrive o 3 (q (F.LOOP_SP_SP n))).loopImage n true

/-! ### Capture (stage 1; R190, R193, R194, R211) -/

/-- The PV rule of R193, taken for every source. -/
def repValid (rep : Nat) (substOk : Bool) : Bool := rep == qGood || rep == qForced || (rep == qSubst && substOk)

/-- (x − OFF) / SPAN to the nearest Q15 value, ties away, saturated (R190); none where x is a NaN, for which the spec states no
result. -/
def captureQ (off span : Nat) (x : Fl) : Option Int :=
  let d := Fl.sub wideF x (fl32 off)
  match d, fl32 span with
  | .fin s1 m1 e1, .fin s2 m2 e2 =>
    if m2 = 0 then none else
    let e := e1 - e2 + 16
    let num := m1 * pow2 e
    let den := m2 * pow2 (-e)
    let n := (num / den + 1) / 2
    some (clampI q15Min q15Max (if s1 != s2 then -(n : Int) else n))
  | .inf s1, .fin s2 _ _ => some (if s1 != s2 then q15Min else q15Max)
  | _, _ => none

/-- A captured source: value, valid, SRC and REP. -/
structure Cap where
  x   : Int
  ok  : Bool
  src : Nat
  rep : Nat

/-- What a sample of loop n captures of a point: the value from before a commit or register write of the same cycle (R211), and of a
relay-triggered loop the value of the previous period where the slot lies behind the trigger slot (R207). -/
def State.loopView (s : State) (n o e : Nat) : Option EView :=
  let now := s.view? o e
  match now, s.prior? none o e with
  | some v, some p => some { v with
      value := p.value
      src := p.src
      rep := p.rep }
  | _, _ =>
    if s.get (F.LOOP_PER_TRIG n) ≠ 1 || s.engine.trigLost || !s.engine.trigSeen then now else
    match now, s.engine.before.find? fun p => p.obj == o && p.elem == e with
    | some v, some p => some { v with
        value := p.value
        src := p.src
        rep := p.rep }
    | _, _ => now

/-- Capture the source of a role; none without a binding. -/
def State.capture (s : State) (n role : Nat) : Option Cap × State :=
  let l := s.loopSt n
  match l.bind? role with
  | none => (none, s)
  | some b =>
    match (if bindOk (s.tagOf b.obj) (s.tagOf l.obj) then s.loopView n b.obj b.elem else none) with
    | none => (some ⟨0, false, qLost, qLost⟩, s)
    | some v =>
      let ok := repValid v.rep (s.get (F.LOOP_CTL_SUBST_OK n) == 1)
      if v.vt = vQ15 then (some ⟨sgn 16 v.value.toNat, ok, v.src, v.rep⟩, s) else
      match captureQ b.off b.span (valFl v.vt v.value) with
      | some x => (some ⟨x, ok, v.src, v.rep⟩, s)
      | none =>
        let (w, s) := s.free
        (some ⟨sgn 16 w.toNat, ok, v.src, v.rep⟩, s)

/-- u as a value of a destination (R190): Q15 as it is, else OFF + u·SPAN in the declared type. -/
def destVal (b : LoopBind) (vt : Nat) (u : Int) : W64 :=
  if vt = vQ15 then i64 u else
  let x := Fl.mul wideF (.fin (u < 0) u.natAbs (-15)) (fl32 b.span)
  flVal vt (Fl.add wideF (fl32 b.off) x)

/-! ### Cascades (8.6) -/

/-- Loop j's output reaches role `role` of loop k as a same-sample link (R212). -/
def State.sameLink (s : State) (j k role : Nat) : Bool :=
  match (s.loopSt k).bind? role with
  | some b =>
    b.kind == 6 && b.obj == (s.loopSt j).obj && b.obj != 0 && b.elem == 1 && j < k &&
    s.get (F.LOOP_PER_TRIG j) == s.get (F.LOOP_PER_TRIG k) && s.get (F.LOOP_PER_DIV j) == s.get (F.LOOP_PER_DIV k) &&
    (s.get (F.LOOP_PER_TRIG k) != 0 ||
      (s.get (F.LOOP_PER_PERIOD j) == s.get (F.LOOP_PER_PERIOD k) && s.get (F.LOOP_OFS_OFS j) == s.get (F.LOOP_OFS_OFS k)))
  | none => false

/-- The outer loop of loop k over a same-sample link of a role. -/
def State.outerOf (s : State) (k role : Nat) : Option Nat :=
  match (s.loopSt k).bind? role with
  | some b =>
    if b.kind ≠ 6 then none else
    match s.loopOfObj b.obj with
    | some j => if s.sameLink j k role then some j else none
    | none => none
  | none => none

/-- The inner loops of same-sample SPT links whose outer loop is n (R214). -/
def State.innersOf (s : State) (n : Nat) : List Nat := (List.range 256).filter fun k => s.outerOf k 1 == some n

/-- Depth of every loop in its chain of same-sample links, loops in index order (R212). -/
def State.depths (s : State) : List Nat :=
  (List.range 256).foldl (fun ds k =>
    let d (role : Nat) : Nat := match s.outerOf k role with
      | some j => ds.getD j 0
      | none => 0
    ds ++ [1 + max (d 1) (d 2)]) []

/-- LOOP_CASCn follows bindings and timing. -/
def State.cascSync (s : State) : State :=
  (((List.range 256).zip s.depths).filter fun p => (s.loopSt p.1).obj != 0).foldl (fun s p =>
    match (s.outerOf p.1 1).or (s.outerOf p.1 2) with
    | some j => s.wr (Reg.LOOP_CASC p.1) (p.2 * 512 + 256 + j)
    | none => s.wr (Reg.LOOP_CASC p.1) (p.2 * 512)) s

/-! ### Load and sampling (R206, R208) -/

/-- The period of a loop in ns under the operating mode's minimum (R116, R206). -/
def State.loopPeriod (s : State) (n : Nat) : Nat :=
  let p := s.get (F.LOOP_PER_PERIOD n)
  (if n < 16 then max p (modeMins s.mode).2 else p) * usec

def State.relayPeriod (s : State) : Nat := s.get F.RELAY_PER_PERIOD

/-- Relay triggers to a sample, stretched in the same way. -/
def State.loopDiv (s : State) (n : Nat) : Nat :=
  let d := s.get (F.LOOP_PER_DIV n) + 1
  if n < 16 then max d (ceilDiv ((modeMins s.mode).2 * usec) (max 1 s.relayPeriod)) else d

/-- The configured period in ns: of a relay-triggered loop the relay period times DIV + 1. -/
def State.loopCfgNs (s : State) (n : Nat) : Nat :=
  if s.get (F.LOOP_PER_TRIG n) = 1 then s.relayPeriod * (s.get (F.LOOP_PER_DIV n) + 1) else s.get (F.LOOP_PER_PERIOD n) * usec

/-- Samples per second of a loop, as a fraction, from its configured timing (R208). -/
def State.loopRate (s : State) (n : Nat) : Nat × Nat :=
  let t := max 1 (s.get (F.LOOP_PER_PERIOD n) * usec)
  let r := max 1 (s.relayPeriod * (s.get (F.LOOP_PER_DIV n) + 1))
  (sec, if s.get (F.LOOP_PER_TRIG n) = 1 then min t r else t)

/-- The configured load, as a fraction of samples per second, over the loops that pass `on` (R208). -/
def State.loadOf (s : State) (on : Nat → Bool) : Nat × Nat :=
  ((List.range 256).filter on).foldl (fun (a : Nat × Nat) n =>
    let r := s.loopRate n
    (a.1 * r.2 + r.1 * a.2, a.2 * r.2)) (0, 1)

def loadFits (x : Nat × Nat) : Bool := x.1 ≤ 8000000 * x.2

/-- LOOP_GSTAT as a read finds it: the evaluation cycles of the last 1 ms in per cent, one evaluation 25 cycles of 200,000, and the load
in effect (R208). -/
def State.gstat (s : State) : Nat :=
  let x := s.loadOf fun n => s.loopMode n != 0
  let n := (s.engine.evals.filter fun t => t + msec > s.clk).length
  putBits (putBits 0 31 24 (min 100 (n * 100 / 8000))) 13 0 (min 8000 (x.1 / (x.2 * 1000)))

/-! ### Banks (R216 to R219) -/

/-- The checks of a bank at a swap (R217): 0 passes, 1 UMIN above UMAX, 2 a reserved bit set. -/
def State.bankCheck (s : State) (n b : Nat) : Nat :=
  let w := s.bank n b
  let gains := [0, 1, 2, 3, 4, 5, 9, 10, 11, 12, 13, 14, 15, 16, 17, 18]
  if pairLo (w 7) > pairHi (w 7) then 1
  else if (gains.any fun i => w i ≥ 2 ^ 20) || w 8 ≥ 2 ^ 16 || w 22 ≥ 32 || w 23 ≠ 0 then 2 else 0

def maskBit (m : Bytes) (n : Nat) : Bool := bit1 (m.getD (31 - n / 8) 0).toNat (n % 8) == 1

/-- LOOP_SWAP items and LOOP_SWGO end when every loop they name has swapped (R218, R219). -/
def State.swapDone (s : State) : State :=
  let pend (n : Nat) : Bool := s.get (F.LOOP_CTL_SWAP n) == 1
  let sel (n : Nat) : Bool := bit1 (s.get (F.LOOP_SWSEL_SEL (n / 32))) (n % 32) == 1
  let t := if s.get F.LOOP_SWGO_GO = 1 && !((List.range 256).any fun n => sel n && pend n) then s.put F.LOOP_SWGO_GO 0 else s
  t.endWaiting .loopSwap (fun i => !((List.range 256).any fun n => maskBit (i.data.drop 4) n && pend n)) .ok

/-- The swap of loop n at its sample boundary (R217). -/
def State.loopSwapNow (s : State) (n : Nat) : State :=
  let old := s.actb n
  let code := s.bankCheck n (1 - old)
  let s := s.put (F.LOOP_CTL_SWAP n) 0
  let s := if code ≠ 0 then
      let s := (s.put (F.LOOP_FLAG_SWAPERR n) 1).cond 4 1
      s.raise 0x0405 4 (s.loopTag n) (natBE 1 n ++ natBE 1 code)
    else
      let s := (s.put (F.LOOP_CTL_ACTB n) (1 - old)).cond 4 0
      s.raise 0x0404 6 (s.loopTag n) (natBE 1 n ++ natBE 1 (1 - old) ++ natBE 4 ((s.loopSt n).cnt % 2 ^ 32))
  (s.loopImage n).swapDone

/-- SWAP is requested; an OFF loop swaps at once (R217). -/
def State.loopReqSwap (s : State) (n : Nat) : State :=
  let s := s.put (F.LOOP_CTL_SWAP n) 1
  if s.loopEff n = effOff then s.loopSwapNow n else s

/-! ### The profile generator (9.1) -/

/-- The generator with its move state empty. -/
def PgSt.clear (g : PgSt) (st : Nat) (p : Int) : PgSt := { g with st := st, p := p, latch := none, move := none }

/-- Start a plan towards a target, or step to it (R224, R226, R227). The flag asks for the planning unit. -/
def pgStart (g : PgSt) (vmax amax : Nat) (target : Int) : PgSt × Bool :=
  if vmax = 0 && amax = 0 then (g.clear 2 (target * 32768), false)
  else ({ g with st := 3, planTgt := target, latch := none, move := none }, true)

/-- The sample of a generator in AUTO (R226, R229, R230). -/
def pgAuto (g : PgSt) (vmax amax : Nat) (target : Int) : PgSt × Bool :=
  let g := if g.st = 2 || g.st = 3 || g.st = 4 then g else g.clear 2 g.p
  let end_ := match g.move with
    | some m => m.tgt
    | none => g.planTgt
  let g := if g.st = 3 || g.st = 4 then { g with latch := if target = end_ then g.latch else some target } else g
  match g.st, g.move with
  | 2, _ => if target * 32768 = g.p then (g, false) else pgStart g vmax amax target
  | 3, none => (g, false)
  | _, none => (g, false)
  | _, some m =>
    if m.k ≥ moveLen m then
      let at_ := g.clear 2 (m.tgt * 32768)
      match g.latch with
      | some t => if t * 32768 = at_.p then (at_, false) else pgStart at_ vmax amax t
      | none => (at_, false)
    else ({ g with st := 4, p := movePos m m.k, move := some { m with k := m.k + 1 } }, false)

/-- One sample of the generator (R225, R231): the new state and whether a plan is asked for. -/
def pgSample (g : PgSt) (en start first : Bool) (eff : Nat) (vmax amax : Nat) (y target : Int) : PgSt × Bool :=
  if !en then (g.clear 0 (target * 32768), false) else
  let p0 := (if start then target else y) * 32768
  let g := if first || g.st = 0 then g.clear 1 p0 else g
  if eff = effManual then (g.clear 1 p0, false)
  else if eff = effHold then (g.clear 5 g.p, false)
  else pgAuto g vmax amax target

/-- LOOP_PGSTATn. -/
def State.pgSync (s : State) (n : Nat) : State :=
  let g := (s.loopSt n).pg
  let (ph, rem) := match g.st, g.move with
    | 4, some m => (movePhase m (m.k - 1), min (moveLen m - (m.k - 1)) 0xFFFFFF)
    | _, _ => (0, 0)
  s.wr (Reg.LOOP_PGSTAT n) (g.st * 2 ^ 29 + b2n g.latch.isSome * 2 ^ 28 + ph * 2 ^ 24 + rem)

/-! ### One sample (R198) -/

/-- P, D, F, ed and e of a sample with the words of bank b (R198). -/
structure Terms where
  p  : Int
  d  : Int
  f  : Int
  ed : Int
  e  : Int

def State.terms (s : State) (n b : Nat) (r y ff : Int) : Sat Terms :=
  let l := s.loopSt n
  let w := s.bank n b
  let e := sigOf 4 (r - y)
  let ep := sigOf 4 (toQ (r * pairHi (w 6)) - y)
  let ed := sigOf 4 (toQ (r * pairLo (w 6)) - y)
  let edPrev := if l.first then ed.v else l.edPrev
  let dPrev := if l.first then 0 else l.d
  let ds := sigOf 4 (toQ dPrev)
  let dd := sigOf 4 (ed.v - edPrev)
  let d := accSum 4 [gainMul ds.v (w 5), gainMul dd.v (w 2)]
  let p := accSum 4 [gainMul ep.v (w 0)]
  let f := accSum 5 [gainMul ff (w 3)]
  ⟨⟨p.v, d.v, f.v, ed.v, e.v⟩, f.sat ++ d.sat ++ dd.sat ++ ds.sat ++ p.sat ++ ed.sat ++ ep.sat ++ e.sat⟩

/-- The integral step (R199) with the gains of bank b and AW_MODE of the active bank: its terms, and whether it was dropped. -/
def State.iStep (s : State) (n b : Nat) (e : Int) : Sat (List Int × Bool) :=
  let l := s.loopSt n
  let w := s.bank n b
  let ki := gainMul e (w 1)
  if bit1 (s.act n 22) 3 = 0 then
    let d := sigOf 4 (l.uPrev - l.wPrev)
    ⟨([ki, gainMul d.v (w 4)], false), d.sat⟩
  else if l.uPrev ≠ l.wPrev && ((ki > 0 && l.wPrev > l.uPrev) || (ki < 0 && l.wPrev < l.uPrev)) then ⟨([], true), []⟩
  else ⟨([ki], false), []⟩

def mbCoef (w : Nat → Nat) : Coef := ⟨w 9, w 10, w 11, w 12, w 13⟩
def obCoef (w : Nat → Nat) : Coef := ⟨w 14, w 15, w 16, w 17, w 18⟩

/-- The effective mode of a sample, its CAUSE, and MAN (R193, R202, R214). -/
def State.effOf (s : State) (n : Nat) (pvOk : Bool) : Nat × Nat × Int :=
  let man := sgn 16 (s.get (F.LOOP_MAN_MAN n))
  let start := sgn 16 (s.get (F.LOOP_START_START n))
  if s.engine.holdup then (effManual, 4, start)
  else if s.mode = modeBlocks then (effManual, 1, start)
  else
    match (s.innersOf n).find? fun k => s.loopEff k != effAuto with
    | some k => (effManual, 3, sgn 16 (s.get (F.LOOP_OUT_PV k)))
    | none =>
      if s.loopMode n = effAuto && !pvOk then
        (if s.get (F.LOOP_CTL_PVBAD_ACT n) = 1 then effManual else effHold, 2, man)
      else (s.loopMode n, 0, man)

/-- LOOP_MODE and interrupt condition 7 (R202). -/
def State.effChanged (s : State) (n old new cause oldCause : Nat) : State :=
  let s := if cause ≠ 0 && cause ≠ oldCause then s.cond 4 7 else s
  if old = new then s else s.raise 0x0408 5 (s.loopTag n) (natBE 1 n ++ natBE 1 old ++ natBE 1 new ++ natBE 1 cause)

/-- A loop goes OFF: its integrator and states are not kept (Table 8.7). -/
def State.loopOff (s : State) (n : Nat) : State :=
  let old := s.loopEff n
  let s := ((s.put (F.LOOP_STAT_EFF n) 0).put (F.LOOP_STAT_CAUSE n) 0).setLoop n fun l =>
    { l with i := 0, d := 0, first := true, mb := ⟨0, 0⟩, ob := ⟨0, 0⟩, enWas := (false, false), pg := l.pg.clear 0 l.pg.p,
             due := none, trig := 0 }
  let s := { s with engine := { s.engine with plans := s.engine.plans.filter fun k => k != n } }
  ((s.effChanged n old 0 0 0).pgSync n).loopImage n

/-- The evaluation of this instant counts in UTIL. -/
def State.evalCount (s : State) : State :=
  { s with engine := { s.engine with evals := s.clk :: (s.engine.evals.filter fun t => t + msec > s.clk) } }

/-! ### Writes that reach a loop (R192, R204) -/

/-- Set MODE (R192, R202): a loop without an object stays OFF; a load above the limit is not set (R208). -/
def State.loopSetMode (s : State) (n m : Nat) : State :=
  if (s.loopSt n).obj = 0 then s else
  let t := s.put (F.LOOP_CTL_MODE n) m
  if s.loopMode n = 0 && m ≠ 0 && !loadFits (t.loadOf fun k => t.loopMode k != 0) then s else
  t.loopImage n

/-- A write of MODE is allowed: AUTO needs a PV binding, and the load must fit (R192, R208). -/
def State.modeOk (s : State) (n m : Nat) : Option Refuse :=
  if m > 2 then some (badP 0x0008)
  else if m = 2 && ((s.loopSt n).bind? 0).isNone then some { status := .busy }
  else if m ≠ 0 && s.loopMode n = 0 && !loadFits (s.loadOf fun k => k = n || s.loopMode k != 0) then some { status := .busy }
  else none

/-- A value in effect of elements 4 to 7 reaches the loop (R192). -/
def State.loopTake (s : State) (o e : Nat) : State :=
  match s.loopOfObj o, s.view? o e with
  | some n, some v =>
    match e with
    | 4 => if ((s.loopSt n).bind? 1).isSome then s else s.put (F.LOOP_SPT_SPT n) (v.value.toNat % 2 ^ 16)
    | 5 => if s.loopEff n = effAuto || s.loopEff n = effHold then s else s.put (F.LOOP_MAN_MAN n) (v.value.toNat % 2 ^ 16)
    | 6 => if v.value.toNat ≤ 2 && (s.modeOk n v.value.toNat).isNone then s.loopSetMode n v.value.toNat else s
    | 7 => if ((s.loopSt n).bind? 2).isSome then s else s.put (F.LOOP_FF_FF n) (v.value.toNat % 2 ^ 16)
    | _ => s
  | _, _ => s

/-- Write u to a destination (stage 9); an element of another loop takes it as that loop's own. -/
def State.loopDest (s : State) (n role : Nat) (u : Int) : State :=
  match (s.loopSt n).bind? role with
  | none => s
  | some b =>
    if !bindOk (s.loopTag n) (s.tagOf b.obj) then s else
    match s.elem? b.obj b.elem with
    | none => s
    | some x => ((s.arrive b.obj b.elem (destVal b x.vtype u)).deliver b.obj b.elem).loopTake b.obj b.elem

/-- One evaluation of loop n through its nine stages (R198). -/
def State.loopEval (s0 : State) (n : Nat) : State :=
  let s := s0.setLoop n fun l => { l with due := none }
  let swapped := s.get (F.LOOP_CTL_SWAP n) == 1
  let oldB := s.actb n
  let s := if swapped then s.loopSwapNow n else s
  let took := swapped && s.actb n != oldB
  if s.loopMode n = 0 then s.loopOff n else
  let b := s.actb n
  let w := s.bank n b
  let cfg := w 22
  let mbEn := bit1 cfg 0 == 1
  let obEn := bit1 cfg 1 == 1
  let pgEn := bit1 cfg 2 == 1
  let l := s.loopSt n
  -- stage 1
  let (pv, s) := s.capture n 0
  let (tg, s) := s.capture n 1
  let (fc, s) := s.capture n 2
  let x := (pv.map (·.x)).getD 0
  let pvOk := (pv.map (·.ok)).getD false
  let src := (pv.map (·.src)).getD qCold
  let rep := (pv.map (·.rep)).getD qCold
  let tgtLast := match tg with
    | some c => if c.ok then some c.x else l.tgtLast
    | none => some (sgn 16 (s.get (F.LOOP_SPT_SPT n)))
  let target := tgtLast.getD x
  let ffLast := match fc with
    | some c => if c.ok then some c.x else l.ffLast
    | none => some (sgn 16 (s.get (F.LOOP_FF_FF n)))
  let ff := ffLast.getD 0
  -- stage 2
  let (y, mb, sat2) : Int × Biquad × List Nat :=
    if !mbEn then (x, l.mb, [])
    else if !pvOk then (if l.pvSeen then l.yPrev else x, l.mb, [])
    else if l.first || !l.enWas.1 || l.pvWas || !l.pvSeen then
      let r := biqPreset 2 q15Min q15Max (mbCoef w) x
      (r.v.1, r.v.2, r.sat)
    else
      let r := biqStep 2 q15Min q15Max (mbCoef w) l.mb x
      (r.v.1, r.v.2, r.sat)
  -- effective mode
  let oldEff := s.loopEff n
  let oldCause := s.get (F.LOOP_STAT_CAUSE n)
  let (eff, cause, man) := s.effOf n pvOk
  -- stage 3
  let firstPg := l.first || (pgEn && l.pg.st = 0)
  let (pg, ask) := pgSample l.pg pgEn (bit1 cfg 4 == 1) firstPg eff (w 19) (w 20) y target
  let r30 := satTo 3 q15Min q15Max (toQ pg.p)
  let r := if pgEn then r30.v else target
  let sat3 := if pgEn then r30.sat else []
  -- stages 4 and 5
  let t := s.terms n b r y ff
  let uMan := clampI (pairLo (w 7)) (pairHi (w 7)) man
  let start := sgn 16 (s.get (F.LOOP_START_START n))
  let transfer := eff = effAuto && (oldEff = effManual || oldEff = effHold)
  let held : Bool := s.get (F.LOOP_CTL_CASC_AW n) == 1 && (s.innersOf n).any fun k =>
    s.get (F.LOOP_STAT_HI k) + s.get (F.LOOP_STAT_LO k) + s.get (F.LOOP_STAT_RATE k) > 0
  let uHold := if s.get (F.LOOP_CTL_PVBAD_ACT n) = 2 then clampI (pairLo (w 7)) (pairHi (w 7)) start else l.uPrev
  let (i, awh, satI) : Int × Bool × List Nat :=
    if eff = effAuto then
      if transfer then
        let a := accSum 4 [l.uPrev * 32768, -t.v.p, -t.v.d, -t.v.f]
        (a.v, false, a.sat)
      else if took && s.get (F.LOOP_CTL_BL_SWAP n) = 1 then
        let o := s.terms n oldB r y ff
        let st : Sat (List Int × Bool) := if held then ⟨([], true), []⟩ else s.iStep n oldB o.v.e
        let ai := accSum 4 (l.i :: st.v.1)
        let io := satTo 4 iMin iMax ai.v
        let sum := accSum 6 [o.v.p, io.v, o.v.d, o.v.f]
        let a := accSum 4 [sum.v, -t.v.p, -t.v.d, -t.v.f]
        (a.v, st.v.2, a.sat ++ sum.sat ++ io.sat ++ ai.sat ++ st.sat ++ o.sat)
      else if held then (l.i, true, [])
      else
        let st := s.iStep n b t.v.e
        let a := accSum 4 (l.i :: st.v.1)
        let c := satTo 4 iMin iMax a.v
        (c.v, st.v.2, c.sat ++ a.sat ++ st.sat)
    else
      let track := if eff = effManual then man else uHold
      let a := accSum 4 [track * 32768, -t.v.p, -t.v.d, -t.v.f]
      let c := satTo 4 iMin iMax a.v
      (c.v, false, c.sat ++ a.sat)
  -- stage 6
  let sum := accSum 6 [t.v.p, i, t.v.d, t.v.f]
  let v := satTo 6 vMin vMax (toQ sum.v)
  -- stages 7 and 8
  let umax := pairHi (w 7)
  let umin := pairLo (w 7)
  let rate : Int := bitsOf (w 8) 15 0
  let limited (x : Int) : Int :=
    let x := clampI umin umax x
    if rate ≠ 0 then clampI (l.uPrev - rate) (l.uPrev + rate) x else x
  let (wv, ob, sat7) : Int × Biquad × List Nat :=
    if !obEn then (v.v, l.ob, [])
    else if eff = effAuto then
      if l.first || !l.enWas.2 then
        let r := biqPreset 7 vMin vMax (obCoef w) (clampI q15Min q15Max (limited v.v))
        (r.v.1, r.v.2, r.sat)
      else
        let r := biqStep 7 vMin vMax (obCoef w) l.ob v.v
        (r.v.1, r.v.2, r.sat)
    else
      let r := biqPreset 7 vMin vMax (obCoef w) (if eff = effManual then uMan else uHold)
      (r.v.1, r.v.2, r.sat)
  let u1 := clampI umin umax wv
  let u2 := limited wv
  let u := if eff = effAuto then clampI q15Min q15Max u2 else if eff = effManual then uMan else uHold
  let byRate := eff = effAuto && u2 ≠ u1
  let lim := if eff = effAuto then wv else if eff = effManual then man
    else if s.get (F.LOOP_CTL_PVBAD_ACT n) = 2 then start else l.uPrev
  let hi := !byRate && lim > umax && !(eff = effHold && s.get (F.LOOP_CTL_PVBAD_ACT n) ≠ 2)
  let lo := !byRate && lim < umin && !(eff = effHold && s.get (F.LOOP_CTL_PVBAD_ACT n) ≠ 2)
  let sats := sat7 ++ v.sat ++ sum.sat ++ satI ++ t.sat ++ sat3 ++ sat2
  -- state of the loop after the sample
  let s := s.setLoop n fun l => { l with
    i := i, d := t.v.d, edPrev := t.v.ed, uPrev := u, wPrev := wv, yPrev := y, first := false, pvSeen := l.pvSeen || pvOk,
    pvWas := !pvOk, mb := mb, ob := ob, enWas := (mbEn && (l.enWas.1 || pvOk), obEn), tgtLast := tgtLast, ffLast := ffLast, pg := pg, cnt := l.cnt + 1 }
  -- a plan that is asked for joins the queue; one that is no longer wanted leaves it
  let plans := if ask then (s.engine.plans.filter fun k => k != n) ++ [n]
    else if pg.st = 3 && pg.move.isNone then s.engine.plans else s.engine.plans.filter fun k => k != n
  let s := { s with engine := { s.engine with plans := plans } }
  -- registers
  let dlost := ([3, 4].any fun role => match l.bind? role with
    | some b => (b.kind == 2 || b.kind == 3) && s.destLost b.obj b.elem
    | none => false)
  let trigLost := s.get (F.LOOP_PER_TRIG n) = 1 && (s.engine.trigLost || !s.engine.trigSeen)
  let s := s.wr (Reg.LOOP_STAT n) (b2n dlost * 2 ^ 23 + b2n (!pvOk) * 2 ^ 22 + b2n trigLost * 2 ^ 21 + b2n awh * 2 ^ 20 +
    b2n byRate * 2 ^ 19 + b2n lo * 2 ^ 18 + b2n hi * 2 ^ 17 + cause * 2 ^ 8 + eff)
  let s := s.wr (Reg.LOOP_OUT n) (wrapN 16 y * 65536 + wrapN 16 u)
  let s := s.wr (Reg.LOOP_SP n) (wrapN 16 target * 65536 + wrapN 16 r)
  let s := if eff = effAuto || eff = effHold then s.put (F.LOOP_MAN_MAN n) (wrapN 16 u)
    else s.put (F.LOOP_MAN_MAN n) (wrapN 16 man)
  let s := if tg.isSome then s.put (F.LOOP_SPT_SPT n) (wrapN 16 target) else s
  let s := if fc.isSome then s.put (F.LOOP_FF_FF n) (wrapN 16 ff) else s
  let s := if cause = 2 && eff = effManual then s.put (F.LOOP_CTL_MODE n) 1 else s
  let s := if sats.isEmpty then s else
    let s := ((s.put (F.LOOP_FLAG_SAT n) 1).bump (F.LOOP_CNT_SAT n) sats.length).cond 4 6
    s.raiseLim 0x0409 n sec 5 (s.loopTag n) (fun k => natBE 1 n ++ natBE 1 (sats.headD 0) ++ natBE 4 k) 0 0 sats.length
  -- events of the measurement and of the mode
  let s := if !pvOk && s0.get (F.LOOP_STAT_PVBAD n) = 0 then s.cond 4 3 else s
  let s := if cause = 2 && oldCause ≠ 2 then
      (s.setLoop n fun l => { l with pvEv := true }).raise 0x0402 3 (s.loopTag n)
        (natBE 1 n ++ natBE 1 (qByte src rep) ++ natBE 1 (s.get (F.LOOP_CTL_PVBAD_ACT n)))
    else if pvOk && l.pvEv then
      (s.setLoop n fun l => { l with pvEv := false }).raise 0x0403 5 (s.loopTag n) (natBE 1 n)
    else s
  let s := s.effChanged n oldEff eff cause oldCause
  let s := (((s.pgSync n).loopSampleImage n src rep).loopDest n 3 u).loopDest n 4 u
  s.evalCount

/-! ### Commands of the engine -/

/-- A sample falls due; one that still waits is skipped (R209). -/
def State.loopDue (s : State) (n : Nat) : State :=
  let s := if (s.loopSt n).due.isSome then
      let s := ((s.put (F.LOOP_FLAG_SKIP n) 1).bump (F.LOOP_CNT_SKIP n) 1).cond 4 2
      s.raiseLim 0x0401 n sec 4 (s.loopTag n) fun k => natBE 1 n ++ natBE 4 k
    else s
  s.setLoop n fun l => { l with due := some s.clk, lastDue := some s.clk }

/-- A loop that is sampled: requested or still effective. -/
def State.loopRuns (s : State) (n : Nat) : Bool := s.blkOn 4 && (s.loopMode n != 0 || s.loopEff n != effOff)

/-- The next instant of the internal timer of loop n: OFS + k·PERIOD on the monotonic base (R206), and of a relay-triggered loop a multiple
of PERIOD after its last sample, without OFS (R210). -/
def State.timerNext (s : State) (n : Nat) : Nat :=
  let p := max 1 (s.loopPeriod n)
  let last := (s.loopSt n).lastDue
  let o := if s.get (F.LOOP_PER_TRIG n) = 1 then last.getD s.startClk else s.startClk + s.get (F.LOOP_OFS_OFS n) * usec
  let from_ := max s.clk ((last.map (· + 1)).getD 0)
  if from_ ≤ o then o else o + ceilDiv (from_ - o) p * p

/-- A loop sample falls due by its timer: TRIG 0, or TRIG 1 while the relay trigger is lost or has not yet come (R206, R210). -/
def execLoopSampleDue (n : Fin 256) (s : State) : Res :=
  .next <| if !s.loopRuns n.val || (s.get (F.LOOP_PER_TRIG n.val) = 1 && s.engine.trigSeen && !s.engine.trigLost) then s else
  let t := s.timerNext n.val
  let s := s.reach t
  (s.loopDue n.val).setLoop n.val fun l => { l with lastDue := some t }

/-- The due sample that the engine takes next: relay-triggered loops, then fast loops, then the others, in index order (R209). -/
def State.nextEval (s : State) : Option Nat :=
  let due (n : Nat) : Bool := (s.loopSt n).due.isSome
  (firstBelow 256 fun n => due n && s.get (F.LOOP_PER_TRIG n) == 1).or <|
    (firstBelow 16 due).or (firstBelow 256 due)

/-- A loop carries loop-critical samples (R220): LP0 to LP15, triggered by the relay, from a relay slot to a relay slot. -/
def State.loopC0 (s : State) (n : Nat) : Bool :=
  let slot (role : Nat) : Bool := ((s.loopSt n).bind? role).any fun b => b.kind == 2
  n < 16 && s.get (F.LOOP_PER_TRIG n) == 1 && slot 0 && slot 3

/-- The frame on its way out goes on with the outputs that loops have put into the image since its trigger entry (R376). -/
def State.relayFlush (s : State) : State :=
  match s.relay.passing with
  | none => s
  | some p =>
    let pay := p.ents.foldl (fun pay n =>
      setBytes pay (entOfs (s.relayEnt n)) (padTo (entLen (s.relayEnt n)) (s.relay.outImg.getD n []))) p.pay
    (s.setRelay fun r => { r with passing := none }).emit (.relayFrame p.port (frameBytes p.hdr pay p.wrong p.first))

/-- No triggered loop of the frame on its way out still waits for its evaluation. -/
def State.relayFlushWhenDone (s : State) : State :=
  if s.relay.trigger || (List.range 16).any fun n => s.loopC0 n && (s.loopSt n).due.isSome then s else s.relayFlush

def execLoopEvaluation (s : State) : Res :=
  .next <| if !s.blkOn 4 then s else
  match s.nextEval with
  | some n => (s.loopEval n).relayFlushWhenDone
  | none => s

/-- The relay sample trigger, raised once when the trigger entry of a frame has completed (R207, R210, R376). -/
def execRelaySampleTrigger (s : State) : Res :=
  .next <| if !s.relay.trigger then s else
  let s := s.setRelay fun r => { r with trigger := false }
  if !s.blkOn 4 then s.relayFlush else
  let lost := s.engine.trigLost
  let rel (s : State) (n : Nat) : Bool := s.get (F.LOOP_PER_TRIG n) == 1 && s.loopRuns n
  let ns := (List.range 256).filter fun n => rel s n
  let s := s.put F.LOOP_TRIG_COUNT ((s.get F.LOOP_TRIG_COUNT + 1) % 2 ^ 32)
  let back := lost || !s.engine.trigSeen
  let s := { s with engine := { s.engine with trigSeen := true, trigLost := false, lastTrig := s.clk } }
  let s := if back then
      ns.foldl (fun s n => (s.put (F.LOOP_STAT_TRIG_LOST n) 0).setLoop n fun l => { l with trig := s.loopDiv n - 1 }) s
    else s
  let s := if lost then
      (s.cond 4 5).raise 0x0407 5 0 (natBE 2 ns.length ++ natBE 4 (s.get F.LOOP_TRIG_COUNT))
    else s
  ns.foldl (fun s n =>
    let k := (s.loopSt n).trig + 1
    if k ≥ s.loopDiv n then
      let s := s.setLoop n fun l => { l with trig := 0 }
      if back && (s.loopSt n).lastDue == some s.clk then s else s.loopDue n
    else s.setLoop n fun l => { l with trig := k }) s |>.relayFlushWhenDone

/-- The relay trigger is lost: relay-triggered loops change over to their timers (R210). -/
def execLoopTrigLost (s : State) : Res :=
  .next <| if !s.blkOn 4 || !s.engine.trigSeen || s.engine.trigLost then s else
  let ns := (List.range 256).filter fun n => s.get (F.LOOP_PER_TRIG n) == 1 && s.loopRuns n
  let t := ns.foldl (fun (a : Option Nat) n => some (match a with
    | some x => min x (s.loopPeriod n)
    | none => s.loopPeriod n)) none
  match t with
  | none => s
  | some p =>
    let s := s.reach (s.engine.lastTrig + p)
    let s := { s with engine := { s.engine with trigLost := true } }
    let s := ns.foldl (fun s n => ((s.put (F.LOOP_STAT_TRIG_LOST n) 1).put (F.LOOP_FLAG_TRIGLOSS n) 1).loopImage n) s
    (s.cond 4 4).raise 0x0406 3 0 (natBE 2 ns.length)

/-- The planning unit completes the plan at the head of its queue (R230). -/
def execProfilePlan (s : State) : Res :=
  .next <| match s.engine.plans with
  | [] => s
  | n :: rest =>
    let s := { s with engine := { s.engine with plans := rest } }
    let g := (s.loopSt n).pg
    let (nj, na, nv, v, a, j) := planMove (g.planTgt * 32768 - g.p).natAbs (s.act n 19) (s.act n 20) (s.act n 21)
    let m : Move := ⟨g.p, g.planTgt, nj, na, nv, bits64 v, bits64 a, bits64 j, 0⟩
    if g.st = 3 then s.setLoop n fun l => { l with pg := { l.pg with move := some m } } else s

/-- SWAP in LOOP_CTLn (R217). -/
def execLoopCtlSwap (n : Fin 256) (s : State) : Res :=
  .next <| if s.blkOn 4 then s.loopReqSwap n.val else s

/-- GO in LOOP_SWGO: SWAP on every selected loop at once (R218); while GO reads 1 a further one has no effect (R10). -/
def State.loopSwgo (s : State) : State :=
  if s.get F.LOOP_SWGO_GO = 1 then s else
  let sel := (List.range 256).filter fun n => bit1 (s.get (F.LOOP_SWSEL_SEL (n / 32))) (n % 32) == 1
  let s := sel.foldl (fun s n => s.put (F.LOOP_CTL_SWAP n) 1) (s.put F.LOOP_SWGO_GO 1)
  (sel.foldl (fun s n => if s.loopEff n = effOff then s.loopSwapNow n else s) s).swapDone

def execLoopSwgo (s : State) : Res := .next (if s.blkOn 4 then s.loopSwgo else s)

end Sys2Proof.Machine
end

