-- ==== Sys2Proof/Machine/LoopOps.lean ====
section
/-! DEFINITION. Machine/LoopOps.lean: the LOOP opcodes (8.10), Baton writes of LOOP elements (R192) and the rule that a
destination has one writer (R189). -/

namespace Sys2Proof.Machine

/-! ### One writer (R158, R189) -/

/-- A loop of `skip`'s complement has the element as a destination. -/
def State.loopDestTaken (s : State) (skip : Option Nat) (o e : Nat) : Bool :=
  (List.range 256).any fun n => some n != skip &&
    (s.loopSt n).binds.any fun b => b.role ≥ 3 && b.obj == o && b.elem == e

/-- A task of the active program writes the point, or one of the program that is prepared or about to become active (log 314). -/
def State.lapOutTaken (s : State) (o e : Nat) : Bool :=
  progWrites s.lap.decl o e ||
  ((s.ocState == ocPrepared || s.ocState == ocSwitching) && progWrites (Config.progDecl (s.slot s.standby).image) o e)

/-- A relay read entry or a CAN receive signal writes the element. -/
def State.linkTaken (s : State) (o e : Nat) : Bool :=
  (s.relay.binds.any fun b => b.obj == o && b.elem == e && b.station == 0) ||
  (List.range 4).any fun c => (s.canCh c).sigs.any fun g =>
    g.obj == o && g.elem == e && !s.canObjOn c g.m 2

/-- The elements that dispatch writes (R287, Table 10.1). -/
def dispatchElem (typ e : Nat) : Bool :=
  (typ == tyPipe && e == 10) || (typ == tyPump && (e == 8 || e == 9)) || (typ == tyPlant && e == 13) ||
  (typ == tyStore && e == 13) || (typ == tySub && e == 7) || (typ == tyZone && (e == 14 || e == 15))

/-- DENIED of R77 and R192: elements that no write reaches. -/
def State.loopDenied (s : State) (o e : Nat) : Bool :=
  match s.loopOfObj o with
  | none => e == 1 || e == 2 || e == 3 || e ≥ 8
  | some n => e == 1 || e == 2 || e == 3 || e ≥ 8 ||
    (e == 4 && ((s.loopSt n).bind? 1).isSome) || (e == 7 && ((s.loopSt n).bind? 2).isSome)

/-- A unit of the module fills the element by the layout of its type: a channel, a loop, the metrology, the plan's dispatch, a schedule
or the state of a station. -/
def State.unitFills (s : State) (o e : Nat) : Bool :=
  let t := s.typOf o
  if t = tyAI then e ≤ 5
  else if t = tyBI then e ≤ 4
  else if t = tyAO || t = tyBO then e == 2 || e == 3
  else if t = tyLoop then s.loopDenied o e
  else if t = tySchedule then e == 1
  else t == tyCircuit || t == tyThermal || t == tyPulseOut || t == tySafetyView || t == tyPlan || t == tyStation || dispatchElem t e

/-- BUSY because the object is the source or destination of a binding. -/
def busyBound : Refuse := ⟨.busy, some (0xFFFF, 0x000A), []⟩

/-! ### BIND (Table 8.15) -/

def bindAddr (b : Bytes) : W64 := BitVec.ofNat 64 (beAt b 4 8)
def bindOf (b : Bytes) : LoopBind :=
  ⟨beAt b 0 1, beAt b 1 1, addrObj (bindAddr b), addrElem (bindAddr b), beAt b 12 4, beAt b 16 4⟩

/-- The kinds that a role takes (Table 8.2); NONE unbinds. -/
def roleKind (role kind : Nat) : Bool :=
  kind == 0 ||
  match role with
  | 0 => kind ≤ 5
  | 1 => kind ≤ 7
  | 2 => kind ≤ 6
  | 3 => kind == 1 || kind == 2 || kind == 3 || kind == 5
  | 4 => kind == 1 || kind == 2 || kind == 3 || kind == 5
  | _ => false

def badFp (w : Nat) : Bool := !(fl32 w).isFin

/-- The faults of a BIND that it shows by itself (R186, R187, R190, R287). -/
def bindForm (s : State) (off : Nat) (b : Bytes) : Option Refuse :=
  let x := bindOf b
  let a := bindAddr b
  let bad (r : Nat) : Option Refuse := some (badTlv off r)
  if beAt b 2 2 ≠ 0 then bad 0x0005
  else if x.role > 4 || !roleKind x.role x.kind then bad 0x0008
  else if x.kind = 0 then (if a ≠ 0 then bad 0x0008 else none)
  else if addrBad a then bad 0x0006
  else if !s.isOwn a || x.elem = 0 then bad 0x0008
  else if badFp x.off || badFp x.span || (fl32 x.span).isZero then bad 0x0008
  else none

/-- The element fits the kind (Table 8.3; DEDUCED, log 20: a UIO channel stands behind AI, BI, AO and BO objects, a metrology
quantity in CIRCUIT and THERMAL objects). -/
def State.bindFits (s : State) (n : Nat) (b : LoopBind) : Bool :=
  let t := s.typOf b.obj
  match b.kind with
  | 1 => if b.role < 3 then t == tyAI || t == tyBI else (t == tyAO || t == tyBO) && b.elem == 1
  | 4 => t == tyCircuit || t == tyThermal
  | 6 => t == tyLoop && b.elem == 1 && b.obj != (s.loopSt n).obj
  | 7 => dispatchElem t b.elem
  | _ => true

def tLoop : Nat := 0x0401
def tLoopSetup : Nat := 0x0402
def tBind : Nat := 0x0403
def tBank : Nat := 0x0404
def tBankSel : Nat := 0x0405
def tLoopMask : Nat := 0x0406
def tLoopState : Nat := 0x0407
def sLoop : TlvSpec := { typ := tLoop, lo := 1, hi := 1 }
def loopN (q : Q) : Nat := tn q.tlvs tLoop

/-- Only on a loop whose MODE is OFF (R223). -/
def loopIsOff : Chk := fun s q => if s.loopMode (loopN q) = 0 then none else some { status := .busy }

/-- The operator and the tenant of the loop's object (R223). -/
def loopReader : Chk := fun s q =>
  let o := (s.loopSt (loopN q)).obj
  if o ≠ 0 && (q.tag = 0 || q.tag = s.tagOf o) then none else some { status := .denied }

def loopObjLock : Chk := lockChk fun s q => [(s.loopSt (loopN q)).obj]

def opLoopAssign : OpDef where
  code := 0x0401
  blk := 4
  schema := [sLoop, { typ := 0x0001, lo := 8, hi := 8 }]
  form := addrForm 0x0001 true
  perm := onlyOperator
  lock := lockChk fun s q => [addrObj (tAddr q.tlvs), (s.loopSt (loopN q)).obj]
  exist := fun s q =>
    match s.obj? (addrObj (tAddr q.tlvs)) with
    | none => some { status := .noObject }
    | some x => if x.typ = tyLoop && x.count = 10 then none else some (badAt q.tlvs 0x0001 0x0008)
  pre := allChk [loopIsOff, fun s q =>
    match s.loopOfObj (addrObj (tAddr q.tlvs)) with
    | some k => if k = loopN q then none else some { status := .busy }
    | none => none]
  run := fun s q =>
    let n := loopN q
    let s := s.setLoop n fun l => { l with obj := addrObj (tAddr q.tlvs), first := true }
    .done .ok [] ((s.loopImage n).cascSync)

/-- Timing within the ranges of R206. -/
def State.timingOk (s : State) (n per ofs : Nat) : Bool :=
  let p := bitsOf per 23 0
  bitsOf per 31 30 ≤ 1 && (if n < 16 then 10 else 100) ≤ p && p ≤ 10000000 && ofs < p &&
    (n < 16 || bitsOf per 31 30 = 0 || s.relayPeriod * (bitsOf per 29 24 + 1) ≥ 100000)

/-- The bits of LOOP_CTLn that LOOP_SETUP carries. -/
def ctlMask : Nat := 0x003EC000

/-- Same-sample links that stand, as outer loop, inner loop and role. -/
def State.links (s : State) : List (Nat × Nat × Nat) :=
  ((List.range 256).filter fun k => (s.loopSt k).binds.any fun b => b.kind == 6).flatMap fun k =>
    [1, 2].filterMap fun role => (s.outerOf k role).map fun j => (j, k, role)

/-- New timing of loop n ends a same-sample link (R213). -/
def State.endsLink (s : State) (n per ofs : Nat) : Bool :=
  let t := (s.wr (Reg.LOOP_PER n) per).wr (Reg.LOOP_OFS n) ofs
  s.links.any fun l => (l.1 == n || l.2.1 == n) && !(t.sameLink l.1 l.2.1 l.2.2)

/-- New timing of loop n makes a chain of more than 4 same-sample links (R212). -/
def State.longChain (s : State) (n per ofs : Nat) : Bool :=
  ((s.wr (Reg.LOOP_PER n) per).wr (Reg.LOOP_OFS n) ofs).depths.any (· > 4)

/-- Put the configuration fields of LOOP_CTLn. -/
def State.loopPutCtl (s : State) (n ctl : Nat) : State :=
  let old := s.rd (Reg.LOOP_CTL n)
  s.wr (Reg.LOOP_CTL n) (old - (old &&& ctlMask) + (ctl &&& ctlMask))

def opLoopCfg : OpDef where
  code := 0x0402
  blk := 4
  schema := [sLoop, { typ := tLoopSetup, lo := 16, hi := 16 }]
  form := fun s q =>
    let b := tv q.tlvs tLoopSetup
    let n := loopN q
    let ctl := beAt b 0 4
    let imgs := [(Reg.LOOP_PER n, beAt b 4 4), (Reg.LOOP_OFS n, beAt b 8 4), (Reg.LOOP_START n, beAt b 12 4)]
    if ctl &&& ctlMask ≠ ctl then some (badAt q.tlvs tLoopSetup 0x0005) else
    imgFault q.tlvs tLoopSetup imgs
      (bitsOf ctl 21 20 ≤ 2 && bitsOf ctl 15 14 ≤ 2 && s.timingOk n (beAt b 4 4) (beAt b 8 4))
  perm := onlyOperator
  lock := loopObjLock
  pre := allChk [loopIsOff, fun s q =>
    let b := tv q.tlvs tLoopSetup
    if s.endsLink (loopN q) (beAt b 4 4) (beAt b 8 4) then some { status := .busy }
    else if s.longChain (loopN q) (beAt b 4 4) (beAt b 8 4) then some (badAt q.tlvs tLoopSetup 0x0008) else none]
  run := fun s q =>
    let b := tv q.tlvs tLoopSetup
    let n := loopN q
    let s := (s.loopPutCtl n (beAt b 0 4)).store (Reg.LOOP_CTL n)
    let s := s.setImgs [(Reg.LOOP_PER n, beAt b 4 4), (Reg.LOOP_OFS n, beAt b 8 4), (Reg.LOOP_START n, beAt b 12 4)]
    .done .ok [] ((s.wr (Reg.LOOP_CNT n) 0).cascSync)

/-- The bindings of a loop after a LOOP_BIND (R223). -/
def newBinds (old : List LoopBind) (bs : List LoopBind) : List LoopBind :=
  (old.filter fun b => !(bs.any fun x => x.role == b.role)) ++ bs.filter fun b => b.kind != 0

def opLoopBind : OpDef where
  code := 0x0403
  blk := 4
  schema := [sLoop, { typ := tBind, lo := 20, hi := 20, maxN := 5 }]
  form := fun s q =>
    let bs := q.tlvs.filter fun t => t.typ == tBind
    let roles := bs.map fun t => beAt t.val 0 1
    let dup := (List.range bs.length).findSome? fun i =>
      if (roles.take i).contains (roles.getD i 0) then (bs[i]?).map (fun t => badTlv t.off 0x0004) else none
    dup.or (bs.findSome? fun t => bindForm s t.off t.val)
  perm := onlyOperator
  lock := loopObjLock
  exist := fun s q => (tvs q.tlvs tBind).findSome? fun v =>
    let b := bindOf v
    if b.kind = 0 then none
    else if (s.elem? b.obj b.elem).isNone then
      (if b.kind = 7 then some (badAt q.tlvs tBind 0x0008) else some { status := .noObject })
    else if s.bindFits (loopN q) b then none else some (badAt q.tlvs tBind 0x0008)
  pre := allChk [loopIsOff, fun s q =>
    let n := loopN q
    let bs := ((tvs q.tlvs tBind).map bindOf).filter fun b => b.kind != 0
    let lt := s.tagOf (s.loopSt n).obj
    let all := newBinds (s.loopSt n).binds ((tvs q.tlvs tBind).map bindOf)
    let dests := all.filter fun b => b.role ≥ 3
    let twice : Bool := match dests with
      | [a, b] => a.obj == b.obj && a.elem == b.elem
      | _ => false
    if bs.any fun b => !(if b.role < 3 then bindOk (s.tagOf b.obj) lt else bindOk lt (s.tagOf b.obj)) then
      some { status := .denied }
    else if twice || dests.any fun b => s.loopDestTaken (some n) b.obj b.elem || s.lapOutTaken b.obj b.elem || s.linkTaken b.obj b.elem ||
        s.unitFills b.obj b.elem then
      some busyBound
    else
      let t := s.setLoop n fun l => { l with binds := all }
      if t.depths.any (· > 4) then some (badAt q.tlvs tBind 0x0008) else none]
  run := fun s q =>
    let n := loopN q
    let bs := (tvs q.tlvs tBind).map bindOf
    let named (r : Nat) : Bool := bs.any fun b => b.role == r
    let s := s.setLoop n fun l => { l with
      binds := newBinds l.binds bs, tgtLast := if named 1 then none else l.tgtLast, ffLast := if named 2 then none else l.ffLast,
      pvSeen := if named 0 then false else l.pvSeen }
    .done .ok [] s.cascSync

/-- Write the words of a bank image. -/
def State.putBank (s : State) (n b : Nat) (img : Bytes) : State :=
  (List.range 24).foldl (fun s i =>
    let off := Reg.LOOP_BANK n (24 * b + i)
    (s.wr off (beAt img (4 * i) 4)).store off) s

/-- The stated ranges of bank words (Table 8.11): AD from 0 to 1 − 2⁻¹⁵, RATE to 32,767. -/
def bankWordOk (i w : Nat) : Bool :=
  if i = 5 then Fl.le (.ofInt 0) (gainFl w) && Fl.le (gainFl w) (.fin false 32767 (-15))
  else if i = 8 then bitsOf w 15 0 ≤ 32767
  else true

def opLoopBankWrite : OpDef where
  code := 0x0404
  blk := 4
  schema := [sLoop, { typ := tBank, lo := 96, hi := 96 }]
  form := fun _ q =>
    if (List.range 24).all fun i => bankWordOk i (beAt (tv q.tlvs tBank) (4 * i) 4) then none else some (badAt q.tlvs tBank 0x0008)
  perm := onlyOperator
  lock := loopObjLock
  pre := fun s q => if s.get (F.LOOP_CTL_SWAP (loopN q)) = 1 then some { status := .busy } else none
  run := fun s q => .done .ok [] (s.putBank (loopN q) (1 - s.actb (loopN q)) (tv q.tlvs tBank))

def opLoopBankRead : OpDef where
  code := 0x0405
  blk := 4
  schema := [sLoop, { typ := tBankSel, lo := 1, hi := 1 }]
  form := rangeChk tBankSel (· ≤ 3)
  perm := loopReader
  run := fun s q =>
    let n := loopN q
    let b := match tn q.tlvs tBankSel with
      | 0 => 0
      | 1 => 1
      | 2 => s.actb n
      | _ => 1 - s.actb n
    .done .ok (tlv tBank (((List.range 24).map fun i => natBE 4 (s.bank n b i)).flatten)) s

/-- The loops that a LOOP_MASK names. -/
def maskLoops (m : Bytes) : List Nat := (List.range 256).filter (maskBit m)

def opLoopSwap : OpDef where
  code := 0x0406
  blk := 4
  schema := [{ typ := tLoopMask, lo := 32, hi := 32 }]
  perm := onlyOperator
  lock := lockChk fun s q => (maskLoops (tv q.tlvs tLoopMask)).map fun n => (s.loopSt n).obj
  run := fun s q =>
    let ns := maskLoops (tv q.tlvs tLoopMask)
    if ns.any fun n => s.bankCheck n (1 - s.actb n) ≠ 0 then .done .failed [] s else
    let s := ns.foldl (fun s n => s.put (F.LOOP_CTL_SWAP n) 1) s
    let s := ns.foldl (fun s n => if s.loopEff n = effOff then s.loopSwapNow n else s) s
    if ns.any fun n => s.get (F.LOOP_CTL_SWAP n) == 1 then .pend .loopSwap 0 0 true s else .done .ok [] s

/-- The words of snapshot group n (Table 8.12). -/
def State.loopSnap (s : State) (n : Nat) : List Nat :=
  let l := s.loopSt n
  let w (z : Int) : List Nat := [wrapN 64 z % 2 ^ 32, wrapN 64 z / 2 ^ 32]
  w l.i ++ w l.d ++ [s.rd (Reg.LOOP_OUT n), s.rd (Reg.LOOP_SP n), s.rd (Reg.LOOP_STAT n), l.cnt % 2 ^ 32, l.cnt / 2 ^ 32 % 2 ^ 32]

def opLoopRead : OpDef where
  code := 0x0407
  blk := 4
  schema := [sLoop]
  perm := loopReader
  run := fun s q => .done .ok (tlv tLoopState ((s.loopSnap (loopN q)).map (natBE 4)).flatten) s

/-- A binding as it travels (Table 8.15). -/
def State.bindBytes (s : State) (b : LoopBind) : Bytes :=
  natBE 1 b.role ++ natBE 1 b.kind ++ natBE 2 0 ++ natBE 8 (s.addrHere b.obj b.elem).toNat ++ natBE 4 b.off ++ natBE 4 b.span

def opLoopBindRead : OpDef where
  code := 0x0408
  blk := 4
  schema := [sLoop]
  perm := loopReader
  run := fun s q =>
    let bs := (List.range 5).filterMap fun r => (s.loopSt (loopN q)).bind? r
    .done .ok (bs.map fun b => tlv tBind (s.bindBytes b)).flatten s

def execLoopAssign (r : Req) (s : State) : Res := .next (batonRun opLoopAssign r s)
def execLoopCfg (r : Req) (s : State) : Res := .next (batonRun opLoopCfg r s)
def execLoopBind (r : Req) (s : State) : Res := .next (batonRun opLoopBind r s)
def execLoopBankWrite (r : Req) (s : State) : Res := .next (batonRun opLoopBankWrite r s)
def execLoopBankRead (r : Req) (s : State) : Res := .next (batonRun opLoopBankRead r s)
def execLoopSwap (r : Req) (s : State) : Res := .next (batonRun opLoopSwap r s)
def execLoopRead (r : Req) (s : State) : Res := .next (batonRun opLoopRead r s)
def execLoopBindRead (r : Req) (s : State) : Res := .next (batonRun opLoopBindRead r s)

/-! ### Writes by Baton and the registers (R192, 8.9) -/

/-- The refusals of R192 for a write of one element. -/
def State.loopVet (s : State) (o e : Nat) (v : W64) : Option Refuse :=
  match s.loopOfObj o with
  | none => none
  | some n =>
    if e = 5 && (s.loopEff n = effAuto || s.loopEff n = effHold) then some { status := .busy }
    else if e = 6 then s.modeOk n v.toNat
    else none

end Sys2Proof.Machine
end

