-- ==== Sys2Proof/Machine/Lap.lean ====
section
/-! DEFINITION. Machine/Lap.lean: the lap executor: tasks and their laps, function blocks, online change, forces and the
LAP opcodes (chapter 7). The program itself is a black box: a command gives what it returned. -/

namespace Sys2Proof.Machine

/-! ### Tasks -/

def LapTask.zero : LapTask := ⟨.idle, 0, 0, 0, 0, none, false, [], [], [], [], [], false, false, none, 1, 0, false⟩
def State.task (s : State) (n : Nat) : LapTask := s.lap.tasks.getD n LapTask.zero
def State.setTask (s : State) (n : Nat) (f : LapTask → LapTask) : State :=
  { s with lap := { s.lap with tasks := modNth s.lap.tasks n f } }

/-- STATE of LAP_TSTATn. -/
def State.tstate (s : State) (n : Nat) : Nat := s.get (F.LAP_TSTAT_STATE n)
def tsStopped : Nat := 0
def tsWaiting : Nat := 1
def tsReady : Nat := 2
def tsRunning : Nat := 3
def tsHalted : Nat := 4

/-- The task takes part in laps: neither stopped nor halted. -/
def State.taskLive (s : State) (n : Nat) : Bool := s.tstate n != tsStopped && s.tstate n != tsHalted

/-- A task enters a state; TASK_STATE_CHANGED for changes among stopped, waiting and halted (Table 7.12; causes 0 command, 1 operating
mode, 2 overrun: DESIGN CHOICE, log 21). -/
def State.taskTo (s : State) (n new cause : Nat) : State :=
  let old := s.tstate n
  let s := (s.put (F.LAP_TSTAT_STATE n) new).healthSync
  if old = new then s else s.raise 0x0303 6 0 (natBE 1 n ++ natBE 1 old ++ natBE 1 new ++ natBE 1 cause)

/-- A step within a lap, of which no event tells. -/
def State.taskStep (s : State) (n new : Nat) : State := s.put (F.LAP_TSTAT_STATE n) new

/-- The operating mode allows laps (7.1). -/
def State.lapsRun (s : State) : Bool :=
  s.blkOn 3 && s.start.phase == .running && (s.mode == modeSprint || s.mode == modePace || s.mode == modeMarathon || s.mode == modeIsland)

/-- The period of a task in ns under the operating mode's minimum (R116). -/
def State.taskPeriod (s : State) (n : Nat) : Nat := max (s.get (F.LAP_TPER_PERIOD n)) (modeMins s.mode).1 * usec

/-- The task runs in step with the relay period (R153, R154). -/
def State.aligned (s : State) (n : Nat) : Bool :=
  s.get (F.LAP_TCFG_ALIGN n) == 1 && s.rstate == rsRun && !(s.task n).alignLost

/-- The first start of a relay period at or after an instant, by the latest start and the period. -/
def State.relayStart (s : State) (t : Nat) : Nat :=
  let p := max 1 s.relayPeriod
  if t ≤ s.relay.sofClk then s.relay.sofClk else s.relay.sofClk + ceilDiv (t - s.relay.sofClk) p * p

/-- The task's first release after the present instant (R153): OFS + k·PERIOD on the monotonic base, or with ALIGN the next relay period;
OFS is ignored with ALIGN set. -/
def State.firstRelease (s : State) (n : Nat) : Nat :=
  if s.aligned n then s.relayStart (s.clk + 1) else
  let p := max 1 (s.taskPeriod n)
  let base := s.startClk + (if s.get (F.LAP_TCFG_ALIGN n) = 1 then 0 else s.get (F.LAP_TOFS_OFS n) * usec)
  if s.clk < base then base else base + ((s.clk - base) / p + 1) * p

/-- The release after the one that falls due (R153, R154): with ALIGN the relay period start nearest to one PERIOD later, and while the relay
has lost its period one PERIOD later on the monotonic base. -/
def State.nextRelease (s : State) (n : Nat) : Nat :=
  let t := s.clk + s.taskPeriod n
  if s.get (F.LAP_TCFG_ALIGN n) ≠ 1 then s.firstRelease n
  else if s.aligned n then s.relayStart (t - s.relayPeriod / 2)
  else t

/-- Every task of a mask has stopped or halted: the TASK_STOP items that wait for that end OK (Table 7.10). -/
def State.stopCheck (s : State) : State :=
  s.endWaiting .taskStop (fun i => (List.range 8).all fun n => bit1 i.a n == 0 || !s.taskLive n) .ok

/-- The outputs of a task take their start values (R120, R168): START of a UIO channel, else the declared value. -/
def State.taskStartValues (s : State) (n : Nat) : State :=
  (s.taskDecl n).outputs.foldl (fun s p =>
    match (if p.elem = 1 then s.uioOfObj p.obj else none) with
    | some ch => s.uioTakeStart ch
    | none => ((s.arrive p.obj p.elem p.start).deliver p.obj p.elem).loopTake p.obj p.elem) s

/-- An output force reaches its destination when no running task will write the point (R171). -/
def State.forceOut (s : State) (o e : Nat) : State := (s.deliver o e).loopTake o e

/-- Forces on points of a task that no longer runs take effect (R171). -/
def State.forceFlush (s : State) (n : Nat) : State :=
  (s.estate.forces.filter fun f => s.writer f.obj f.elem == some n).foldl (fun s f => s.forceOut f.obj f.elem) s

/-- A task stops, with start values when BLOCKS stopped it (R120, R169). -/
def State.taskStopped (s : State) (n cause : Nat) : State :=
  let s := (s.setTask n fun t => { t with next := none, stop := none, held := false, phase := .idle }).taskTo n tsStopped cause
  let s := if cause = 1 then s.taskStartValues n else s
  (s.forceFlush n).stopCheck

/-- A task is to stop at the end of its current lap (R169); a stop that BLOCKS has asked for stays one. -/
def State.taskStop (s : State) (n cause : Nat) : State :=
  if (s.task n).phase = .idle then s.taskStopped n cause
  else s.setTask n fun t => { t with stop := some (if t.stop = some 1 then 1 else cause) }

/-- A task begins to wait for its first release. -/
def State.taskBegin (s : State) (n cause : Nat) : State :=
  let s := (s.put (F.LAP_TSTAT_CONSEC n) 0).taskTo n tsWaiting cause
  let next := s.firstRelease n
  s.setTask n fun t => { t with next := some next, stop := none, held := false, phase := .idle }

/-- The core of a task that has given it up goes to the task of lowest index that is ready; one that was preempted runs on (R152). -/
def State.coreNext (s : State) (n : Nat) : State :=
  match firstBelow 8 fun k => s.get (F.LAP_TCFG_CORE k) == s.get (F.LAP_TCFG_CORE n) &&
      ((s.task k).phase == .captured || (s.task k).phase == .running) with
  | some k => if (s.task k).phase = .running then s.taskStep k tsRunning else s
  | none => s

/-- A lap that is given up commits nothing: what it had done to variables, charts and function blocks does not stand (R166, R168). -/
def State.lapUndo (s : State) (n : Nat) : State :=
  let u := (s.task n).undo
  let s := s.setLap fun l => { l with fbs := (l.fbs.filter fun x => !(u.any fun p => p.1 == x.id)) ++ u.filterMap (·.2) }
  s.setTask n fun t => { t with vars := [], charts := [], undo := [] }

/-- A task is halted (R168): its lap commits nothing. -/
def State.taskHalt (s : State) (n : Nat) : State :=
  let act := s.get (F.LAP_TCFG_HALT_ACT n)
  let lap := (s.task n).laps - 1
  let s := s.lapUndo n
  let s := (s.setTask n fun t => { t with phase := .idle, next := none, stop := none, held := false }).taskTo n tsHalted 2
  let s := (s.cond 3 1).raise 0x0302 2 0 (natBE 1 n ++ natBE 8 lap ++ natBE 1 act)
  let s := if act = 1 then s.taskStartValues n else s
  (((s.holdEnd (.lap (Fin.ofNat 8 n)) true).forceFlush n).stopCheck).coreNext n

/-- A lap ends at once and commits nothing (Table 5.6). -/
def State.lapAbort (s : State) (n : Nat) : State :=
  if (s.task n).phase = .idle then s else
  ((((s.lapUndo n).setTask n fun t => { t with phase := .idle }).taskStep n tsWaiting)).coreNext n

/-- On leaving BLOCKS every task with EN starts (7.1). -/
def State.lapRunEntry (s : State) : State :=
  (List.range 8).foldl (fun s n =>
    if s.get (F.LAP_TCFG_EN n) = 1 && s.tstate n = tsStopped then s.taskBegin n 1 else s) s

/-- On entry to BLOCKS the tasks stop at the end of their laps (R120). -/
def State.lapBlocksEntry (s : State) : State :=
  (List.range 8).foldl (fun s n => if s.taskLive n then s.taskStop n 1 else s.taskStartValues n) s

/-! ### The four phases (R155) -/

/-- What a capture of task n takes of a point: the value from before a commit of another task in the same CLK_LOOP cycle (R157). -/
def State.lapSees (s : State) (n : Nat) (o e : Nat) : LapIn :=
  match s.prior? (some n) o e with
  | some p => ⟨o, e, p.value, qByte p.src p.rep⟩
  | none =>
    match s.view? o e with
    | some v => ⟨o, e, v.value, v.q⟩
    | none => ⟨o, e, 0, qByte qLost qLost⟩

/-- Input capture (phase 1). -/
def State.lapCapture (s : State) (n : Nat) : State :=
  let ins : List LapIn := (s.taskDecl n).inputs.map fun p => s.lapSees n p.obj p.elem
  let ts := s.tsNow
  let mono := s.mono
  let at_ := s.clk
  let s := s.setTask n fun t => { t with
    phase := .captured, laps := t.laps + 1, ts := ts, mono := mono, relAt := at_, inputs := ins, late := false,
    skipped := false, held := false, firstLap := t.firstNext, firstNext := 0 }
  s.taskStep n tsReady

/-- A release falls due (R155, R167, R168, R177). -/
def State.lapRelease (s0 : State) (n : Nat) : State :=
  if !s0.taskLive n || !s0.lapsRun then s0 else
  let s := s0.reach ((s0.task n).next.getD s0.clk)
  if s.lap.copy.isSome then s.setTask n fun t => { t with held := true } else
  let next := s.nextRelease n
  let s := s.setTask n fun t => { t with next := some next }
  if (s.task n).phase = .idle then s.lapCapture n else
  let c := satAdd 255 (s.get (F.LAP_TSTAT_CONSEC n)) 1
  let s := ((s.bump (F.LAP_TCNT_OVERRUN n) 1).put (F.LAP_TSTAT_CONSEC n) c).cond 3 0
  let lap := (s.task n).laps - 1
  let s := (s.setTask n fun t => { t with skipped := true }).raiseLim 0x0301 n sec 4 0
    fun _ => natBE 1 n ++ natBE 8 lap ++ natBE 1 c
  if c ≥ s.get (F.LAP_TCFG_OVR_LIMIT n) then s.taskHalt n else s

def execLapRelease (n : Fin 8) (s : State) : Res := .next (s.lapRelease n.val)

/-! ### Function blocks (R162 to R164) -/

/-- An instance before its first evaluation; a counter holds its declared initial value. -/
def FbInst.new (id : Nat) (cv : Int) : FbInst := ⟨id, none, none, none, false, false, false, 0, cv⟩

/-- One evaluation of an instance at the monotonic time `m` of its lap. -/
def FbInst.eval (x : FbInst) (c : FbCall) (m : Int) : FbInst :=
  let rise := c.a && !(x.prev.getD c.a)
  let fall := !c.a && x.prev.getD c.a
  let rise2 := c.b && !(x.prev2.getD c.b)
  let x := if x.resume then { x with resume := false, since := some (m - x.et) } else x
  let y := { x with prev := some c.a, prev2 := some c.b }
  let pt := max 0 c.p
  let el (t0 : Int) : Nat := (min (m - t0) pt).toNat
  match c.kind with
  | .rTrig => { y with q := rise }
  | .fTrig => { y with q := fall }
  | .ton =>
    if c.a then
      let t0 := x.since.getD m
      { y with since := some t0, et := el t0, q := m - t0 ≥ pt }
    else { y with since := none, et := 0, q := false }
  | .tof =>
    if c.a then { y with since := none, et := 0, q := true }
    else
      let t0 : Option Int := if x.since.isSome then x.since else if x.q then some m else none
      match t0 with
      | some t => { y with since := some t, et := el t, q := m - t < pt }
      | none => { y with q := false }
  | .tp =>
    let t0 : Option Int := if x.since.isSome then x.since else if rise then some m else none
    match t0 with
    | none => { y with q := false, et := 0 }
    | some t =>
      if m - t < pt then { y with since := some t, et := el t, q := true }
      else if c.a then { y with since := some t, et := el t, q := false }
      else { y with since := none, et := 0, q := false }
  | .ctu =>
    let cv := if c.r then 0 else if rise && x.cv < c.hi then x.cv + 1 else x.cv
    { y with cv := cv, q := cv ≥ c.p }
  | .ctd =>
    let cv := if c.ld then clampI c.lo c.hi c.p else if rise && x.cv > c.lo then x.cv - 1 else x.cv
    { y with cv := cv, q := cv ≤ 0 }
  | .ctud =>
    let cv := if c.r then 0 else if c.ld then clampI c.lo c.hi c.p
      else if rise && rise2 then x.cv
      else if rise && x.cv < c.hi then x.cv + 1 else if rise2 && x.cv > c.lo then x.cv - 1 else x.cv
    { y with cv := cv, q := cv ≥ c.p, q2 := cv ≤ 0 }

def State.fb? (s : State) (id : Nat) : Option FbInst := s.lap.fbs.find? fun x => x.id == id
def State.fb (s : State) (id : Nat) : FbInst := (s.fb? id).getD (FbInst.new id ((pathGet? s.lap.decl.counts id).getD 0))

/-- A call in a lap of task n; the lap remembers how the instance stood before it. -/
def State.fbCall (s : State) (n : Nat) (c : FbCall) : State :=
  let y := (s.fb c.inst).eval c (s.task n).mono
  let was := s.fb? c.inst
  let s := s.setTask n fun t => { t with undo := if t.undo.any fun p => p.1 == c.inst then t.undo else t.undo ++ [(c.inst, was)] }
  s.setLap fun l => { l with fbs := (l.fbs.filter fun x => x.id != c.inst) ++ [y] }

/-- The core gives a captured task the processor, unless a task of lower index on the same core is ready; it takes the core from
tasks of higher index (R152). -/
def State.lapExec (s : State) (n : Nat) (calls : List FbCall) : State :=
  let core (k : Nat) : Nat := s.get (F.LAP_TCFG_CORE k)
  let busy (k : Nat) : Bool := (s.task k).phase == .captured || (s.task k).phase == .running
  if !(busy n) || !s.blkOn 3 || (List.range n).any fun k => busy k && core k == core n then s else
  let s := ((List.range 8).filter fun k => k > n && core k == core n && s.tstate k == tsRunning).foldl (fun s k => s.taskStep k tsReady) s
  let s := (s.setTask n fun t => { t with phase := .running }).taskStep n tsRunning
  calls.foldl (fun s c => s.fbCall n c) s

def execLapExecution (n : Fin 8) (calls : List FbCall) (s : State) : Res := .next (s.lapExec n.val calls)

/-- The tags still permit what the program binds to an object (R56). -/
def State.outOk (s : State) (o : Nat) : Bool :=
  s.lap.decl.binds.all fun p => p.2 != o || bindOk (s.tagOf p.1) (s.tagOf o)

/-- An output variable of a task: as the program left it, and before its first write at its start value. -/
def State.outVar (s : State) (n : Nat) (d : PointDecl) : W64 :=
  (((s.task n).outs.find? fun p => p.1 == d.obj && p.2.1 == d.elem).map (·.2.2)).getD d.start

/-- Output commit (phase 3; R156, R171): every output point of the task. -/
def State.lapOutput (s : State) (n : Nat) : State :=
  let outs : List (Nat × Nat × W64) :=
    ((s.taskDecl n).outputs.filter fun d => s.outOk d.obj).map fun d => (d.obj, d.elem, s.outVar n d)
  let pts := outs.map fun p => (p.1, p.2.1)
  let s := outs.foldl (fun s p => s.arrive p.1 p.2.1 p.2.2) (s.keepPrior n pts)
  let s := pts.foldl (fun s p => s.loopTake p.1 p.2) (s.deliverLap n pts)
  s.holdEnd (.lap (Fin.ofNat 8 n)) false

/-- One STATION_WRITES_FAILED per lost station (R182). -/
def State.lapReport (s : State) (n : Nat) : State :=
  let mine := s.lap.fails.filter fun f => f.task == n
  let s := s.setLap fun l => { l with fails := l.fails.filter fun f => f.task != n }
  mine.foldl (fun s f => s.raise 0x0306 3 (s.tagOf f.first.1)
    (natBE 1 n ++ natBE 1 f.station ++ natBE 2 f.n ++ natBE 8 (s.addrHere f.first.1 f.first.2).toNat) f.first.1 f.first.2) s

/-- Commit and housekeeping (phases 3 and 4). -/
def State.lapFinish (s : State) (n : Nat) : State :=
  let s := (s.lapOutput n).lapReport n
  let us := ((s.clk - (s.task n).relAt) / usec) % 2 ^ 32
  let s := s.wr (Reg.LAP_TLAST n) us
  let s := s.wr (Reg.LAP_TMAX n) (max us (s.rd (Reg.LAP_TMAX n)))
  let s := if (s.task n).skipped then s else s.put (F.LAP_TSTAT_CONSEC n) 0
  let t := s.task n
  let s := s.setLap fun l => { l with
    vars := pathPut l.vars t.vars
    charts := pathPut l.charts t.charts }
  let s := (s.setTask n fun t => { t with phase := .idle, vars := [], charts := [], undo := [] }).taskStep n tsWaiting
  let s := match t.stop with
    | some c => s.taskStopped n c
    | none => s
  s.coreNext n

/-- A declared variable as a program left it, in its declared length. -/
def State.varOf (s : State) (v : LapVar) : Option (Nat × Bytes) :=
  (s.lap.decl.vars.find? fun d => d.path == v.path.toNat).map fun d => (d.path, padTo d.init.length v.value)

/-- The program returns (R155, R167): what it has written of its output variables, its other variables and its charts. -/
def State.lapReturn (s : State) (n : Nat) (outs : List LapOut) (vars : List LapVar) (charts : List LapChart) : State :=
  if (s.task n).phase ≠ .running || s.tstate n ≠ tsRunning then s else
  let new := outs.map fun o => (o.obj.toNat, o.elem.toNat, o.value)
  let vs := vars.filterMap s.varOf
  let cs := charts.map fun c => (c.path.toNat, c.steps.map (·.toNat))
  let keep (p : Nat × Nat × W64) : Bool := !(new.any fun q => q.1 == p.1 && q.2.1 == p.2.1)
  let s := s.setTask n fun t => { t with
    outs := t.outs.filter keep ++ new
    vars := vs
    charts := cs }
  let due := (s.task n).relAt + s.get (F.LAP_TCOM_COMMIT_OFS n) * usec
  if s.get (F.LAP_TCFG_COMMIT n) = 0 then s.lapFinish n
  else if s.clk ≤ due && !(s.task n).late then ((s.setTask n fun t => { t with phase := .returned }).taskStep n tsReady).coreNext n
  else (if (s.task n).late then s else s.bump (F.LAP_TCNT_LATE n) 1).lapFinish n

def execProgramReturn (n : Fin 8) (outs : List LapOut) (data : LapData) (s : State) : Res :=
  .next (s.lapReturn n.val outs data.vars data.charts)

/-- COMMIT_OFS has come (R155, R167). -/
def State.lapCommit (s : State) (n : Nat) : State :=
  let t := s.task n
  if t.phase = .idle || s.get (F.LAP_TCFG_COMMIT n) = 0 then s else
  let s := s.reach (t.relAt + s.get (F.LAP_TCOM_COMMIT_OFS n) * usec)
  if t.phase = .returned then s.lapFinish n
  else if t.late then s
  else (s.bump (F.LAP_TCNT_LATE n) 1).setTask n fun t => { t with late := true }

def execLapCommit (n : Fin 8) (s : State) : Res := .next (s.lapCommit n.val)

/-- The write status of an output point of a task (R182); of a point that has forwarded nothing the spec states none. -/
def State.wstat (s : State) (n o e : Nat) : State :=
  match s.lap.wstat.find? fun w => w.task == n && w.obj == o && w.elem == e with
  | some w => s.emit (.wstat n o e w.st)
  | none => s.free.2.emit (.wstat n o e s.free.1.toNat)

def execWstat (n : Fin 8) (obj : BitVec 13) (elem : Byte) (s : State) : Res := .next (s.wstat n.val obj.toNat elem.toNat)

/-! ### Alignment (R154) -/

/-- The relay has lost its period. -/
def State.alignLoss (s : State) : State :=
  (List.range 8).foldl (fun s n =>
    if s.taskLive n && s.get (F.LAP_TCFG_ALIGN n) = 1 && !(s.task n).alignLost then
      ((s.setTask n fun t => { t with alignLost := true }).cond 3 5).raise 0x0308 3 0 (natBE 1 n ++ natBE 8 s.relay.k)
    else s) s

/-- The ring has returned: the next release of a task with ALIGN moves to the first relay period start that does not shorten its lap. -/
def State.alignBack (s : State) : State :=
  (List.range 8).foldl (fun s n =>
    if s.get (F.LAP_TCFG_ALIGN n) = 1 then
      let at_ := (s.task n).next.map s.relayStart
      s.setTask n fun t => { t with alignLost := false, next := at_ }
    else s) s

/-! ### Program slots and online change (7.8) -/

/-- A relay period multiple where ALIGN is declared, and a period in range (R153). -/
def State.periodOk (s : State) (us : Nat) (align : Bool) : Bool :=
  250 ≤ us && us ≤ 60000000 && (!align || (s.relayPeriod > 0 && us * usec % s.relayPeriod == 0))

/-- Two tasks write one output point (R158). -/
def twoWriters (ts : List TaskDecl) : Bool :=
  let pts := ts.map fun t => t.outputs.map fun p => (p.obj, p.elem)
  (List.range pts.length).any fun i => (List.range i).any fun j => (pts.getD i []).any fun p => (pts.getD j []).contains p

/-- RESULT of a preparation (R174, Table 7.6). -/
def State.prepResult (s : State) (size : Nat) (d : ProgDecl) : Nat :=
  if !d.sigOk then 1
  else if !d.hwOk || size > 67108864 then 2
  else if progRetain d > 1048576 then 3
  else if twoWriters d.tasks then 4
  else if d.binds.any fun p => !bindOk (s.tagOf p.1) (s.tagOf p.2) then 5
  else if d.tasks.any fun t => !s.periodOk t.period t.align then 6
  else if !d.hasMap then 7
  else if d.xferUs > s.get F.LAP_OC_CFG_XFER_MAX then 10 else 0

/-- A force on a point would conflict with the program `d` (R175). -/
def State.forceConflict (s : State) (d : ProgDecl) (o e : Nat) : Bool :=
  match progPoint? s.lap.decl o e with
  | none => false
  | some vt => progPoint? d o e != some vt

/-- Conflicting forces (R175). -/
def State.conflicts (s : State) (d : ProgDecl) : Nat := (s.estate.forces.filter fun f => s.forceConflict d f.obj f.elem).length

/-- PROG_INFO of a slot. -/
def State.progInfo (s : State) (k : Nat) : Bytes :=
  let img := (s.slot k).image
  tlv 0x0307 (natBE 32 (Config.sm3 img).toNat ++ natBE 4 img.length ++ natBE 4 (progRetain (Config.progDecl img)) ++
    natBE 4 (s.get F.LAP_OC_STAT_XFER_EST))

/-- A switch or revert fails: RESULT, condition 3 and PROG_SWITCH_FAILED; the state becomes IDLE. -/
def State.swFail (s : State) (result : Nat) (rev : Bool) : State :=
  let s := s.setLap fun l => { l with sw := none, copy := none }
  let s := (s.put F.LAP_STAT_OC_STATE ocIdle).put F.LAP_OC_STAT_RESULT result
  (s.cond 3 3).raise 0x0305 3 0 (natBE 1 result ++ natBE 1 (b2n rev))

/-- CANCEL before the point of no return (R177). -/
def State.swCancel (s : State) : State :=
  (s.setLap fun l => { l with sw := none, copy := none }).put F.LAP_STAT_OC_STATE ocIdle

/-- A quiet instant: the copy begins (R176). -/
def State.switchPoint (s : State) : State :=
  if s.lap.sw.isNone || s.lap.copy.isSome || !((List.range 8).all fun n => (s.task n).phase == .idle) then s else
  let s := { s with baton := { s.baton with items := s.baton.items.map fun (i : Item) => if i.wait = WaitKind.progSwitch then { i with ponr := true } else i } }
  s.setLap fun l => { l with copy := some s.clk }

def execSwitchPoint (s : State) : Res := .next s.switchPoint

/-- The copy completes (R176 to R178, R180). -/
def State.switchDone (s : State) : State :=
  match s.lap.copy, s.lap.sw with
  | some t0, some (_, rev) =>
    let k := s.standby
    let old := (s.slot (1 - k)).image
    let img := (s.slot k).image
    let d := Config.progDecl img
    let hold := min ((s.clk - t0) / usec) 65535
    let m := Config.fbMap old img rev
    let d0 := s.lap.decl
    let moved (x : FbInst) : Option FbInst := (m.find? fun p => p.1 == x.id).map fun p => { x with id := p.2 }
    let same (p : Nat × Nat × W64) : Bool := (progPoint? d0 p.1 p.2.1).isSome && progPoint? d0 p.1 p.2.1 == progPoint? d p.1 p.2.1
    let outs := (s.lap.tasks.flatMap (·.outs)).filter same
    let s := s.setLap fun l => { l with
      decl := d
      vars := movedVars d0 d (Config.varConv old img rev) l.vars
      charts := movedCharts d0 d l.charts
      swCnt := (l.swCnt + 1) % 2 ^ 32
      sw := none
      copy := none
      fbs := l.fbs.filterMap moved }
    let s := (List.range 8).foldl (fun s n =>
      let mine (p : Nat × Nat × W64) : Bool := (s.taskDecl n).outputs.any fun q => q.obj == p.1 && q.elem == p.2.1
      s.setTask n fun t => { t with outs := outs.filter mine }) s
    let s := ((s.put F.LAP_STAT_SLOT k).put F.LAP_STAT_OC_STATE ocIdle).put F.LAP_OC_STAT_RESULT 0
    let s := (s.cond 3 2).raise 0x0304 4 0 (natBE 8 ((Config.sm3 img).toNat / 2 ^ 192) ++ natBE 2 hold ++ natBE 1 (b2n rev))
    let info := s.progInfo k
    let s := s.endWaiting .progSwitch (fun _ => true) .ok info
    (List.range 8).foldl (fun s n => if (s.task n).held then s.lapRelease n else s) s
  | _, _ => s

def execSwitchCopyDone (s : State) : Res := .next s.switchDone

/-- SW_WAIT has passed (R177). -/
def State.switchTimeout (s : State) : State :=
  match s.lap.copy, s.lap.sw with
  | none, some (t0, rev) =>
    let s := s.reach (t0 + s.get F.LAP_OC_CFG_SW_WAIT * 100 * msec)
    (s.swFail 8 rev).endWaiting .progSwitch (fun _ => true) .failed
  | _, _ => s

def execSwitchTimeout (s : State) : Res := .next s.switchTimeout

/-! ### Opcodes (7.11) -/

def tTask : Nat := 0x0301
def tTaskMask : Nat := 0x0302
def tTaskCfg : Nat := 0x0303
def tForce : Nat := 0x0309
def tClearAll : Nat := 0x030A
def sTask : TlvSpec := { typ := tTask, lo := 1, hi := 1 }
def taskN (q : Q) : Nat := tn q.tlvs tTask
def taskForm : Chk := rangeChk tTask (· ≤ 7)
def notSwitching : Chk := fun s _ => if s.ocState = ocSwitching then some { status := .busy } else none

def taskImgs (n : Nat) (b : Bytes) : List (Nat × Nat) :=
  [(Reg.LAP_TCFG n, beAt b 0 4), (Reg.LAP_TPER n, beAt b 4 4), (Reg.LAP_TOFS n, beAt b 8 4), (Reg.LAP_TCOM n, beAt b 12 4)]

/-- The four words of a task's configuration hold allowed values, ALIGN apart (7.10). -/
def taskCfgOk (cfg per ofs com : Nat) : Bool :=
  bitsOf cfg 25 24 ≥ 1 && bitsOf cfg 23 16 ≥ 1 && 250 ≤ per && per ≤ 60000000 && ofs < per && 1 ≤ com && com < per

def opTaskCfg : OpDef where
  code := 0x0301
  blk := 3
  schema := [sTask, { typ := tTaskCfg, lo := 16, hi := 16 }]
  form := fun s q => (taskForm s q).or <|
    let b := tv q.tlvs tTaskCfg
    imgFault q.tlvs tTaskCfg (taskImgs (taskN q) b) (taskCfgOk (beAt b 0 4) (beAt b 4 4) (beAt b 8 4) (beAt b 12 4))
  perm := onlyOperator
  pre := allChk [notSwitching, fun s q =>
    let b := tv q.tlvs tTaskCfg
    if s.taskLive (taskN q) then some { status := .busy }
    else if s.periodOk (beAt b 4 4) (bit1 (beAt b 0 4) 1 == 1) then none else some (badAt q.tlvs tTaskCfg 0x0008)]
  run := fun s q =>
    let n := taskN q
    let s := s.setImgs (taskImgs n (tv q.tlvs tTaskCfg))
    .done .ok [] ((s.wr (Reg.LAP_TCNT n) 0).wr (Reg.LAP_TMAX n) 0)

def opTaskStart : OpDef where
  code := 0x0302
  blk := 3
  schema := [{ typ := tTaskMask, lo := 1, hi := 1 }]
  perm := onlyOperator
  mode := fun s _ => if s.mode = modeBlocks || s.mode = modeHoldup then some { status := .wrongMode } else none
  run := fun s q =>
    let m := tn q.tlvs tTaskMask
    .done .ok [] ((List.range 8).foldl (fun s n =>
      if bit1 m n = 0 || s.taskLive n then s else
      ((s.wr (Reg.LAP_TMAX n) 0).taskBegin n 0).setTask n fun t => { t with firstNext := 3 }) s)

def opTaskStop : OpDef where
  code := 0x0303
  blk := 3
  schema := [{ typ := tTaskMask, lo := 1, hi := 1 }]
  perm := onlyOperator
  run := fun s q =>
    let m := tn q.tlvs tTaskMask
    let s := (List.range 8).foldl (fun s n => if bit1 m n = 1 && s.taskLive n then s.taskStop n 0 else s) s
    if (List.range 8).any fun n => bit1 m n == 1 && s.taskLive n then .pend .taskStop m 0 true s else .done .ok [] s

def opProgLoad : OpDef where
  code := 0x0304
  blk := 3
  schema := [{ typ := 0x0304, lo := 4, hi := 4 }, { typ := 0x0305, lo := 1, hi := 1024 }, { typ := 0x0306, lo := 4, hi := 4, minN := 0 }]
  form := fun _ q =>
    match tv? q.tlvs 0x0306 with
    | some b => if beNat b = 0 || beNat b > 67108864 then some (badAt q.tlvs 0x0306 0x0008)
      else if tn q.tlvs 0x0304 + (tv q.tlvs 0x0305).length > beNat b then some (badAt q.tlvs 0x0304 0x0008) else none
    | none => none
  perm := onlyOperator
  charge := 1
  pre := allChk [notSwitching, fun s q =>
    if (tv? q.tlvs 0x0306).isSome then none
    else if s.ocState = ocIdle then some (badP 0x0004)
    else if tn q.tlvs 0x0304 + (tv q.tlvs 0x0305).length > (s.slot s.standby).size then some (badAt q.tlvs 0x0304 0x0008) else none]
  run := fun s q =>
    let k := s.standby
    let old := s.slot k
    let fresh : Bool := match tv? q.tlvs 0x0306 with
      | some b => !(s.ocState == ocLoading && beNat b == old.size)
      | none => false
    let base : ProgSlot := if fresh then ⟨tn q.tlvs 0x0306, []⟩ else old
    let p : ProgSlot := { base with pieces := (tn q.tlvs 0x0304, tv q.tlvs 0x0305) :: base.pieces }
    let s := s.setLap fun l => { l with slots := setNth l.slots k p }
    .done .ok [] (s.put F.LAP_STAT_OC_STATE (if p.complete then ocLoaded else ocLoading))

/-- BUSY with 0x000A while an output of the standby program is the destination of a binding (R189). -/
def outsFree : Chk := fun s _ =>
  let d := Config.progDecl (s.slot s.standby).image
  if (d.tasks.flatMap fun t => t.outputs).any fun p => s.loopDestTaken none p.obj p.elem || s.linkTaken p.obj p.elem then
    some busyBound else none

def opProgPrepare : OpDef where
  code := 0x0305
  blk := 3
  perm := onlyOperator
  charge := 30
  pre := allChk [notSwitching, fun s _ =>
    if s.ocState ≠ ocLoaded && s.ocState ≠ ocPrepared then some { status := .busy } else none, outsFree]
  run := fun s _ =>
    let img := (s.slot s.standby).image
    let d := Config.progDecl img
    let r := s.prepResult img.length d
    let s := s.put F.LAP_OC_STAT_RESULT r
    if r = 0 then
      let s := (s.put F.LAP_OC_STAT_XFER_EST d.xferUs).put F.LAP_STAT_OC_STATE ocPrepared
      .done .ok (s.progInfo s.standby) s
    else .done .failed [] ((s.put F.LAP_STAT_OC_STATE ocLoaded).cond 3 3)

/-- BUSY with COUNT while forces conflict with the standby program (R175). -/
def conflictChk : Chk := fun s _ =>
  let c := s.conflicts (Config.progDecl (s.slot s.standby).image)
  if c = 0 then none else some ⟨.busy, none, tlv 0x0008 (natBE 2 c)⟩

def opProgSwitch : OpDef where
  code := 0x0306
  blk := 3
  perm := onlyOperator
  charge := 20
  pre := allChk [fun s _ => if s.ocState = ocPrepared then none else some { status := .busy }, outsFree, conflictChk]
  run := fun s _ =>
    .pend .progSwitch 0 0 false ((s.put F.LAP_STAT_OC_STATE ocSwitching).setLap fun l => { l with sw := some (s.clk, false) })

def opProgRevert : OpDef where
  code := 0x0307
  blk := 3
  perm := onlyOperator
  charge := 20
  pre := allChk [fun s _ => if s.ocState = ocIdle then none else some { status := .busy }, outsFree, conflictChk]
  run := fun s _ =>
    let p := s.slot s.standby
    if !p.complete || !(Config.progDecl p.image).hasRev then .done .failed [] (s.swFail 9 true) else
    .pend .progSwitch 1 0 false ((s.put F.LAP_STAT_OC_STATE ocSwitching).setLap fun l => { l with sw := some (s.clk, true) })

/-- The point and value of a FORCE_ENTRY. -/
def forceOf (b : Bytes) : Force :=
  let a : W64 := BitVec.ofNat 64 (beAt b 0 8)
  ⟨addrObj a, addrElem a, beAt b 8 1, BitVec.ofNat 64 (beAt b 12 8)⟩

/-- FORCES and FORCE_CHANGED. -/
def State.forceEvent (s : State) (o e : Nat) (cleared : Bool) : State :=
  let n := s.estate.forces.length
  (s.put F.LAP_STAT_FORCES n).raise 0x0307 5 (s.tagOf o) (natBE 8 (s.addrHere o e).toNat ++ natBE 1 (b2n cleared) ++ natBE 2 n) o e

/-- A force is set or cleared (R170, R171): a running task's output takes it at its next commit. -/
def State.forcePut (s0 : State) (o e : Nat) (f : Option Force) : State :=
  let rest := s0.estate.forces.filter fun x => !(x.obj == o && x.elem == e)
  let s := { s0 with estate := { s0.estate with forces := rest ++ f.toList } }
  let s := (State.touch s0 s o e).forceEvent o e f.isNone
  match s.writer o e with
  | some n => if s.taskLive n then s else s.forceOut o e
  | none => s.forceOut o e

def opForceSet : OpDef where
  code := 0x0308
  blk := 3
  schema := [{ typ := tForce, lo := 20, hi := 20 }]
  form := fun s q =>
    let b := tv q.tlvs tForce
    let a : W64 := BitVec.ofNat 64 (beAt b 0 8)
    let f := forceOf b
    if beAt b 9 3 ≠ 0 then some (badAt q.tlvs tForce 0x0005)
    else if !valueOk f.vtype f.value then some (badAt q.tlvs tForce 0x0008)
    else if addrBad a then some (badAt q.tlvs tForce 0x0006)
    else if addrElem a = 0 || !s.isOwn a then some (badAt q.tlvs tForce 0x0008) else none
  perm := fun s q => (onlyOperator s q).or <|
    if s.typOf (forceOf (tv q.tlvs tForce)).obj = tySafetyView then some { status := .denied } else none
  exist := fun s q =>
    let f := forceOf (tv q.tlvs tForce)
    match s.elem? f.obj f.elem with
    | none => some { status := .noObject }
    | some x => if x.vtype = f.vtype then none else some (badAt q.tlvs tForce 0x0007)
  pre := fun s q =>
    let f := forceOf (tv q.tlvs tForce)
    if (s.force? f.obj f.elem).isNone && s.estate.forces.length ≥ 256 then some { status := .busy }
    else if s.ocState = ocPrepared && s.forceConflict (Config.progDecl (s.slot s.standby).image) f.obj f.elem then
      some { status := .busy } else none
  run := fun s q =>
    let f := forceOf (tv q.tlvs tForce)
    .done .ok [] (s.forcePut f.obj f.elem (some f))

/-- Every force is cleared, oldest first (CLEAR_ALL, and a cold start). -/
def State.forceClearAll (s : State) : State := s.estate.forces.foldl (fun s f => s.forcePut f.obj f.elem none) s

def opForceClear : OpDef where
  code := 0x0309
  blk := 3
  schema := [{ typ := 0x0001, lo := 8, hi := 8, minN := 0 }, { typ := tClearAll, lo := 1, hi := 1, minN := 0 }]
  form := fun s q =>
    match tv? q.tlvs 0x0001, tv? q.tlvs tClearAll with
    | some _, none =>
      (addrForm 0x0001 false s q).or <| if addrElem (tAddr q.tlvs) = 0 then some (badAt q.tlvs 0x0001 0x0008) else none
    | none, some b => if beNat b = 1 then none else some (badAt q.tlvs tClearAll 0x0008)
    | _, _ => some (badP 0x0004)
  perm := onlyOperator
  exist := fun s q =>
    match tv? q.tlvs 0x0001 with
    | some _ => if (s.elem? (addrObj (tAddr q.tlvs)) (addrElem (tAddr q.tlvs))).isNone then some { status := .noObject } else none
    | none => none
  run := fun s q =>
    match tv? q.tlvs 0x0001 with
    | some _ =>
      let o := addrObj (tAddr q.tlvs)
      let e := addrElem (tAddr q.tlvs)
      .done .ok [] (if (s.force? o e).isSome then s.forcePut o e none else s)
    | none => .done .ok [] s.forceClearAll

def State.forceBytes (s : State) (f : Force) : Bytes :=
  tlv tForce (natBE 8 (s.addrHere f.obj f.elem).toNat ++ natBE 1 f.vtype ++ natBE 3 0 ++ natBE 8 f.value.toNat)

/-- Lists of at most n entries. -/
def pagesOf (n : Nat) : Nat → List Bytes → List (List Bytes)
  | 0, _ => []
  | k + 1, l => if l.isEmpty then [] else l.take n :: pagesOf n k (l.drop n)

def opForceList : OpDef where
  code := 0x030A
  blk := 3
  schema := [{ typ := 0x0005, lo := 4, hi := 4, minN := 0, since := 0x30 }]
  perm := operatorOrService
  pre := cursorChk 0x030A
  run := fun s q =>
    match tv? q.tlvs 0x0005 with
    | some _ => nextPage s q 0x030A
    | none =>
      let cnt := tlv 0x0008 (natBE 2 s.estate.forces.length)
      let ps := (pagesOf 57 256 (s.estate.forces.map s.forceBytes)).map fun p => cnt ++ p.flatten
      pageRun s q 0x030A 1 [] (if ps.isEmpty then [cnt] else ps)

/-- The words of snapshot group g (Tables 7.7 and 7.8). -/
def State.lapSnap (s : State) (g : Nat) : List Nat :=
  let w (n : Nat) : List Nat := [n % 2 ^ 32, n / 2 ^ 32 % 2 ^ 32]
  if g = 0 then
    let id := (Config.sm3 (s.slot (s.get F.LAP_STAT_SLOT)).image).toNat
    ((List.range 8).map fun i => id / 2 ^ (32 * i) % 2 ^ 32) ++ [s.lap.swCnt]
  else
    let t := s.task (g - 1)
    w (t.laps - 1) ++ w t.ts.toNat ++ w t.mono

def opLapStatus : OpDef where
  code := 0x030B
  blk := 3
  schema := [sTask]
  form := taskForm
  perm := operatorOrService
  run := fun s q =>
    let n := taskN q
    let t := s.task n
    .done .ok (tlv 0x0308 (natBE 4 (s.rd (Reg.LAP_TSTAT n)) ++ natBE 4 (s.rd (Reg.LAP_TCNT n)) ++ natBE 4 (s.rd (Reg.LAP_TLAST n)) ++
      natBE 4 (s.rd (Reg.LAP_TMAX n)) ++ natBE 8 (t.laps - 1) ++ natBE 8 t.ts.toNat ++ natBE 8 t.mono)) s

def execTaskCfg (r : Req) (s : State) : Res := .next (batonRun opTaskCfg r s)
def execTaskStart (r : Req) (s : State) : Res := .next (batonRun opTaskStart r s)
def execTaskStop (r : Req) (s : State) : Res := .next (batonRun opTaskStop r s)
def execProgLoad (r : Req) (s : State) : Res := .next (batonRun opProgLoad r s)
def execProgPrepare (r : Req) (s : State) : Res := .next (batonRun opProgPrepare r s)
def execProgSwitch (r : Req) (s : State) : Res := .next (batonRun opProgSwitch r s)
def execProgRevert (r : Req) (s : State) : Res := .next (batonRun opProgRevert r s)
def execForceSet (r : Req) (s : State) : Res := .next (batonRun opForceSet r s)
def execForceClear (r : Req) (s : State) : Res := .next (batonRun opForceClear r s)
def execForceList (r : Req) (s : State) : Res := .next (batonRun opForceList r s)
def execLapStatus (r : Req) (s : State) : Res := .next (batonRun opLapStatus r s)

end Sys2Proof.Machine
end

