-- ==== Sys2Proof/Machine/Can.lean ====
section
/-! DEFINITION. Machine/Can.lean: the CAN channels on the bus: receiving, transmitting, the schedule matrix, modes and errors, and
the CAN opcodes (chapter 15). -/

namespace Sys2Proof.Machine

/-! ### Error states (R412) -/

/-- TEC, REC and RP of CAN_STAT follow the counters. -/
def State.canTec (s : State) (c : Nat) (tec : Nat) : State :=
  (s.setCan c fun ch => { ch with tec := tec }).put (F.CAN_STAT_TEC c) (min 255 tec)

/-- The receive error counter: REC and, above 127, RP. -/
def State.canRecCtr (s : State) (c : Nat) : Nat := s.get (F.CAN_STAT_RP c) * 128 + s.get (F.CAN_STAT_REC c)

def State.setRec (s : State) (c n : Nat) : State :=
  (s.put (F.CAN_STAT_RP c) (b2n (n > 127))).put (F.CAN_STAT_REC c) (if n > 127 then min 127 (n - 128) else n)

/-- STATE of a channel changes: condition 5, its stations' BUS element, and CAN_ERR_STATE between active and passive. -/
def State.canStateTo (s : State) (c st : Nat) : State :=
  let old := s.get (F.CAN_STAT_STATE c)
  if old = st then s else
  let s := (s.put (F.CAN_STAT_STATE c) st).cond (canSrc c) 5
  let s := (s.canCh c).stations.foldl (fun s x => s.cstImage c x) s
  if (old = 1 || old = 2) && (st = 1 || st = 2) then
    s.raise 0x0901 4 0 (natBE 1 c ++ natBE 1 old ++ natBE 1 st ++ natBE 1 (min 255 (s.canCh c).tec) ++ natBE 1 (min 255 (s.canRecCtr c)))
  else s

/-- Active or passive by the counters. -/
def State.canErrSync (s : State) (c : Nat) : State :=
  let st := s.get (F.CAN_STAT_STATE c)
  if st = 1 || st = 2 then s.canStateTo c (if (s.canCh c).tec > 127 || s.canRecCtr c > 127 then 2 else 1) else s

/-- An error detected while receiving (R411 to R413). In LISTEN the counters stay. -/
def State.canBusError (s : State) (c lec : Nat) : State :=
  if !s.blkOn 9 || (s.canCh c).mode = 0 || lec = 0 then s else
  let s := s.put (F.CAN_STAT_LEC c) (if lec = 7 && s.get (F.CAN_CTL_PXE c) = 0 then 2 else lec)
  -- a protocol exception is no error (R413)
  if (lec = 7 && s.get (F.CAN_CTL_PXE c) = 1) || (s.canCh c).mode = 2 || s.get (F.CAN_STAT_STATE c) = 3 || s.get (F.CAN_STAT_STATE c) = 5 then s
  else (s.setRec c (s.canRecCtr c + 1)).canErrSync c

def execCanBusError (c : Fin 4) (lec : Fin 8) (s : State) : Res := .next (s.canBusError c.val lec.val)

/-- A successful reception lowers the counter; from above 127 ISO 11898-1 puts it to a value from 119 to 127 that it leaves open. -/
def State.canRxOk (s : State) (c : Nat) : State :=
  let n := s.canRecCtr c
  if (s.canCh c).mode = 2 || n = 0 then s
  else if n ≤ 127 then (s.setRec c (n - 1)).canErrSync c
  else (s.free.2.setRec c (119 + s.free.1.toNat % 9)).canErrSync c

/-! ### Receiving (R394, R396 to R400) -/

/-- A stored frame reaches the elements of the object's signals (R399). -/
def State.canSignals (s : State) (c m : Nat) (data : Bytes) : State :=
  ((s.canCh c).sigs.filter fun g => g.m == m).foldl (fun s g =>
    if !s.sigRxOk c g then s.setSrc g.obj g.elem qLost else
    match sigGet data g, s.elem? g.obj g.elem with
    | some v, some x => ((s.arrive g.obj g.elem (convTo g.vt x.vtype v)).deliver g.obj g.elem).loopTake g.obj g.elem
    | _, _ => s) s

/-- The stations that object m monitors hear a frame (R400). -/
def State.canHeard (s : State) (c m : Nat) : State :=
  ((s.canCh c).stations.filter fun x => x.mon == m).foldl (fun s x =>
    let ts := s.tsNow
    let s := s.modCanStation c x.no fun y => { y with st := 1, seen := ts }
    if x.st = 2 then
      s.raise 0x0906 5 (s.tagOf x.obj) (natBE 1 c ++ natBE 1 x.no ++ natBE 4 ((s.clk - x.lostAt) / msec)) x.obj 0
    else s) s

/-- A frame is stored in an RX object (R394). -/
def State.canStore (s : State) (c m : Nat) (f : CanFrame) : State :=
  let ts := s.tsNow
  let at_ := s.clk
  let s := s.setCanObj c m fun o => { o with prim := ⟨f, ts⟩, since := at_ }
  let s := if s.get (F.CAN_OST_NEWDAT c m) = 1 then
      ((s.put (F.CAN_OST_MSGLOST c m) 1).cond (canSrc c) 2).raiseLim 0x0909 (64 * c + m) sec 5 0
        fun n => natBE 1 c ++ natBE 1 m ++ natBE 4 n
    else s
  let s := ((s.put (F.CAN_OST_NEWDAT c m) 1).put (F.CAN_OST_RXTO c m) 0).put (F.CAN_OST_DLEN c m) (canLen f)
  ((s.cond (canSrc c) 1).canHeard c m).canSignals c m f.data

/-- A frame is stored in the high-priority buffer (R397). -/
def State.canStoreHp (s : State) (c : Nat) (f : CanFrame) : State :=
  let ts := s.tsNow
  ((s.setCan c fun ch => { ch with hp := ⟨f, ts⟩ }).cond (canSrc c) 0).canSignals c 64 f.data

/-- The lowest enabled RX object that a frame fits (R396). -/
def State.canMatch (s : State) (c : Nat) (f : CanFrame) : Option Nat :=
  let id (m : Nat) : Nat := if f.ide then s.get (F.CAN_OID_ID c m) else s.get (F.CAN_OID_ID c m) % 2 ^ 11
  firstBelow 64 fun m => s.canObjOn c m 1 && id m == f.id.toNat && s.get (F.CAN_OCFG_IDE c m) == b2n f.ide &&
    s.get (F.CAN_OCFG_FDF c m) == b2n f.fdf && s.get (F.CAN_OCFG_RTR c m) == b2n f.rtr

/-- ACCEPT into the object that field 24 names (R396). -/
def State.canAccept (s : State) (c m : Nat) (f : CanFrame) : State :=
  if m < 64 && s.canObjOn c m 1 then s.canStore c m f else (s.bump (F.CAN_CNT2_MISDIR c) 1).cond (canSrc c) 10

/-- Host fields of a frame (Table 4.5). -/
def canFields (f : CanFrame) : List (Nat × W32) :=
  [(0, BitVec.ofNat 32 f.id.toNat), (1, BitVec.ofNat 32 (canFlags f)), (2, BitVec.ofNat 32 f.dlc.toNat), (3, BitVec.ofNat 32 (canLen f))] ++
    (List.range 16).map fun w => (4 + w, BitVec.ofNat 32 (beNat (padTo 4 (slice f.data (4 * w) 4))))

/-- A frame received without error (R396). -/
def State.canReceive (s : State) (c : Nat) (f : CanFrame) : State :=
  let st := s.get (F.CAN_STAT_STATE c)
  if !s.blkOn 9 || (s.canCh c).mode = 0 || st = 0 || st = 3 || st = 5 || (f.fdf && s.get (F.CAN_CTL_FDOE c) = 0) then s else
  let s := s.canRxOk c
  match s.drillTrigger c ⟨canFields f, .can c f⟩ with
  | some (t, _) => t
  | none =>
    match s.canMatch c f with
    | some m => s.canStore c m f
    | none => s

def execCanFrameReceived (c : Fin 4) (f : CanFrame) (s : State) : Res := .next (s.canReceive c.val f)

/-- A request that waits ends: its FIFO entry, its data in the shadow and a TT object's request. -/
def State.canDrop (s : State) (c m st : Nat) : State :=
  let o : CanObj := s.canObj c m
  let ch : CanCh := s.canCh c
  let s := match o.shadow with
    | some (_, r) => (s.setCanObj c m fun o => { o with shadow := none }).canReqEnd c m r st
    | none => s
  let s := s.setCan c fun ch => { ch with fifo := ch.fifo.filter fun p => p.1 != m }
  let s := match o.req with
    | some r => if ch.onWire m && s.canIsTt c m then s else (s.setCanObj c m fun o => { o with req := none }).canReqEnd c m r st
    | none => s
  s.canSync c m

/-- Every request of a channel ends FAILED (R410, R412); the number that ended. -/
def State.canDropAll (s : State) (c : Nat) : State × Nat :=
  let ch : CanCh := s.canCh c
  let live (m : Nat) : Bool := (s.canObj c m).shadow.isSome || (s.canObj c m).req.isSome || ch.fifo.any fun p => p.1 == m
  let n := ((List.range 64).map fun m => b2n (s.canObj c m).shadow.isSome + b2n (s.canObj c m).req.isSome).foldl (· + ·) 0
  let s := s.setCan c fun ch => { ch with wire := none, cell := none, replies := [] }
  ((((List.range 64).filter live).foldl (fun s m => s.canDrop c m stFailed) s), n)

/-- An RX object has stored no frame for TIMEOUT (R398, R400). -/
def State.canRxTimeout (s : State) (c m : Nat) : State :=
  let lim := s.get (F.CAN_OTIM_TIMEOUT c m)
  if !s.blkOn 9 || !s.canObjOn c m 1 || lim = 0 || (s.canCh c).mode = 0 || s.get (F.CAN_OST_RXTO c m) = 1 then s else
  let s := s.reach ((s.canObj c m).since + lim * msec)
  let s := (s.put (F.CAN_OST_RXTO c m) 1).cond (canSrc c) 7
  let s := ((s.canCh c).sigs.filter fun g => g.m == m).foldl (fun s g =>
    let s := s.setSrc g.obj g.elem qLost
    match (if g.elem = 1 then s.uioOfObj g.obj else none) with
    | some n => s.uioTakeStart n
    | none => s) s
  let s := s.raiseLim 0x0904 (64 * c + m) sec 4 0 fun _ => natBE 1 c ++ natBE 1 m
  ((s.canCh c).stations.filter fun x => x.mon == m && x.st != 2).foldl (fun s x =>
    let at_ := s.clk
    let s := s.modCanStation c x.no fun y => { y with st := 2, losses := (y.losses + 1) % 2 ^ 32, lostAt := at_ }
    let s := s.raise 0x0905 3 (s.tagOf x.obj) (natBE 1 c ++ natBE 1 x.no) x.obj 0
    ((List.range 64).filter fun k => s.canObjOn c k 2 && s.get (F.CAN_OCFG_STATION c k) == x.no && !((s.canCh c).onWire k)).foldl
      (fun s k => s.canDrop c k stFailed) s) s

def execCanRxTimeout (c : Fin 4) (m : Fin 64) (s : State) : Res := .next (s.canRxTimeout c.val m.val)

/-! ### The schedule matrix (R406, R407, R409) -/

def State.colNs (s : State) (c : Nat) : Nat := max 1 (s.get (F.CAN_TT_COL_LEN c)) * usec

/-- The TT object of absolute column n, if the column is assigned. -/
def State.colObj (s : State) (c n : Nat) : Option Nat :=
  if s.get (F.CAN_TTCOL_EN c (n % 64)) = 1 then some (s.get (F.CAN_TTCOL_OBJ c (n % 64))) else none

/-- The object that sends in the cell of absolute column n. -/
def State.cellObj (s : State) (c n : Nat) : Option Nat :=
  match s.colObj c n with
  | some m => if s.canObjOn c m 2 && s.canIsTt c m && bit1 (s.get (F.CAN_OTIM_BCMASK c m)) (n / 64 % 16) = 1 then some m else none
  | none => none

/-- The absolute column of the present instant. -/
def State.colNow (s : State) (c : Nat) : Nat := (s.sysNow / s.colNs c).toNat

/-- ns to the start of the next assigned column (R402). -/
def State.nextCol (s : State) (c : Nat) : Option Nat :=
  if s.get (F.CAN_TT_TT_EN c) = 0 then none else
  (firstBelow 64 fun i => (s.colObj c (s.colNow c + 1 + i)).isSome).map fun i =>
    ((((s.colNow c + 1 + i) * s.colNs c : Nat) : Int) - s.sysNow).toNat

/-- The frame that object m would send now. -/
def State.canOut (s : State) (c m : Nat) : CanFrame := s.canFrameOf c m (s.canObj c m).prim.f.data

/-- The cell is missed: no attempt can still start (R407). -/
def State.ttMiss (s : State) (c : Nat) : State :=
  match (s.canCh c).cell with
  | none => s
  | some (m, t) =>
    if (s.canCh c).onWire m then s else
    let s := s.reach (t + s.colNs c - s.canFrameNs c (s.canOut c m))
    let s := s.setCan c fun ch => { ch with cell := none }
    let s := (s.bump (F.CAN_CNT2_TTMISS c) 1).cond (canSrc c) 8
    let s := match (s.canObj c m).req with
      | some r => (s.setCanObj c m fun o => { o with req := none }).canReqEnd c m r stFailed
      | none => s
    (s.raiseLim 0x0907 (64 * c + m) sec 4 0 fun n => natBE 1 c ++ natBE 1 m ++ natBE 4 n).canSync c m

def execCanTtMiss (c : Fin 4) (s : State) : Res := .next (s.ttMiss c.val)

/-- The start of the next cell (R407). -/
def State.ttCell (s : State) (c : Nat) : State :=
  if s.get (F.CAN_TT_TT_EN c) = 0 || !s.canSends c then s else
  let s := s.ttMiss c
  let n0 := s.colNow c
  let here : Nat := if s.sysNow % s.colNs c = 0 && (s.canCh c).cell.isNone then 0 else 1
  match firstBelow 1025 fun i => i ≥ here && (s.cellObj c (n0 + i)).isSome with
  | none => s
  | some i =>
    let t := s.clk + ((((n0 + i) * s.colNs c : Nat) : Int) - s.sysNow).toNat
    let s := s.reach t
    match s.cellObj c (n0 + i) with
    | some m => if (s.canObj c m).hasData then s.setCan c fun ch => { ch with cell := some (m, t) } else s
    | none => s

def execTtCell (c : Fin 4) (s : State) : Res := .next (s.ttCell c.val)

/-- A step of the system time (R409): items that wait on a cell which a forward step skips end FAILED. `d` is the step in ns. -/
def State.canStep (s : State) (d : Int) : State :=
  (List.range 4).foldl (fun s c =>
    let s := s.setCan c fun ch => if (ch.cell.any fun p => ch.onWire p.1) then ch else { ch with cell := none }
    if d ≤ 0 || s.get (F.CAN_TT_TT_EN c) = 0 then s else
    let n1 := s.colNow c
    let n0 := ((s.sysNow - d) / s.colNs c).toNat
    let skipped (m : Nat) : Bool := (List.range (min 1024 (n1 - n0))).any fun i => s.cellObj c (n1 - i) == some m
    ((List.range 64).filter fun m => s.canIsTt c m && (s.canObj c m).req.isSome && !((s.canCh c).onWire m) && skipped m).foldl (fun s m =>
      match (s.canObj c m).req with
      | some r => ((s.setCanObj c m fun o => { o with req := none }).canReqEnd c m r stFailed).canSync c m
      | none => s) s) s

/-! ### Transmitting (R402, R404) -/

/-- The point of no return of the CAN_SEND item whose attempt starts or ends (R405). -/
def State.canPonr (s : State) (c m : Nat) (on : Bool) : State :=
  match (s.canObj c m).req with
  | some (.baton owner item) =>
    { s with baton := { s.baton with items := s.baton.items.map fun (i : Item) =>
        if i.owner = owner ∧ i.item = item then { i with ponr := on } else i } }
  | _ => s

/-- What goes out next, by R402. -/
def State.canChoose (s : State) (c : Nat) : Option CanWire :=
  let ch : CanCh := s.canCh c
  let tt : Option CanWire := match ch.cell with
    | some (m, t) => if (s.canObj c m).hasData && s.clk + s.canFrameNs c (s.canOut c m) ≤ t + s.colNs c then some ⟨.tt, m⟩ else none
    | none => none
  let fifo : Option CanWire := match ch.fifo with
    | (m, _) :: _ =>
      match s.nextCol c with
      | some d => if s.canFrameNs c (s.canOut c m) ≤ d then some ⟨.fifo, m⟩ else none
      | none => some ⟨.fifo, m⟩
    | [] => none
  tt.or ((ch.replies.head?.map fun m => (⟨.reply, m⟩ : CanWire)).or fifo)

/-- An attempt starts. -/
def State.canTxStart (s : State) (c : Nat) : State :=
  if !s.canSends c || (s.canCh c).wire.isSome then s else
  match s.canChoose c with
  | none => s
  | some w =>
    let f := s.canOut c w.m
    let s := s.setCan c fun ch => { ch with wire := some w, fifo :=
      (match w.kind, ch.fifo with
       | .fifo, (m, n) :: r => (m, n + 1) :: r
       | _, l => l) }
    let s := if w.kind = CanKind.reply then s else s.canPonr c w.m true
    (s.emit (.can c f)).canSync c w.m

def execCanTxStart (c : Fin 4) (s : State) : Res := .next (s.canTxStart c.val)

/-- The waiting data swaps into the primary buffer when the attempt has ended (R395). -/
def State.canSwapIn (s : State) (c m : Nat) : State :=
  match (s.canObj c m).shadow with
  | some (d, r) => (s.setCanObj c m fun o => { o with shadow := none }).canLoad c m d r
  | none => s

/-- End the request that object m carries. -/
def State.canEndReq (s : State) (c m st : Nat) : State :=
  match (s.canObj c m).req with
  | some r => (s.setCanObj c m fun o => { o with req := none }).canReqEnd c m r st
  | none => s

/-- An attempt succeeded (R404). -/
def State.canSent (s : State) (c : Nat) (w : CanWire) : State :=
  let s := ((s.canTec c ((s.canCh c).tec - 1)).canErrSync c).cond (canSrc c) 3
  match w.kind with
  | .reply => s.setCan c fun ch => { ch with replies := ch.replies.drop 1 }
  | .tt =>
    let s := (s.setCan c fun ch => { ch with cell := none }).canEndReq c w.m stDone
    let s := if (s.canObj c w.m).cancel then s.setCanObj c w.m fun o => { o with cancel := false, hasData := false } else s
    s.canSwapIn c w.m
  | .fifo =>
    let s := (s.setCan c fun ch => { ch with fifo := ch.fifo.drop 1 }).canEndReq c w.m stDone
    let s := s.setCanObj c w.m fun o => { o with cancel := false }
    if (s.canObj c w.m).shadow.isNone then s else
    -- the new data is a request of its own, behind the entries that wait
    if (s.canCh c).fifo.length ≥ 32 then s.canDrop c w.m stFailed
    else (s.canSwapIn c w.m).setCan c fun ch => { ch with fifo := ch.fifo ++ [(w.m, 0)] }

/-- An attempt lost arbitration or met an error: it is retried, cancelled, superseded or out of attempts (R395, R402, R405). -/
def State.canMissed (s : State) (c : Nat) (w : CanWire) : State :=
  if w.kind = CanKind.reply then s else
  let s := s.canPonr c w.m false
  let o : CanObj := s.canObj c w.m
  if let some (_, r) := o.shadow then
    let s := (s.canSupersede c w.m o.req r).canSwapIn c w.m
    s.setCan c fun ch => { ch with fifo := ch.fifo.map fun p => if p.1 = w.m then (p.1, 0) else p }
  else if o.cancel then
    let s := (s.setCan c fun ch => { ch with
      fifo := ch.fifo.filter (fun p => p.1 != w.m), cell := if w.kind = CanKind.tt then none else ch.cell }).canEndReq c w.m stCancelled
    s.setCanObj c w.m fun o => { o with cancel := false, hasData := false }
  else if s.canTargetLost c w.m then s.canDrop c w.m stFailed
  else
    let lim := s.get (F.CAN_CTL_RETRY c)
    match w.kind, (s.canCh c).fifo with
    | .fifo, (_, n) :: _ => if lim ≠ 0 && n ≥ lim then s.canDrop c w.m stFailed else s
    | _, _ => s

/-- An attempt ends. -/
def State.canTxEnd (s : State) (c : Nat) (x : CanTxResult) : State :=
  match (s.canCh c).wire with
  | none => s
  | some w =>
    let s := s.setCan c fun ch => { ch with wire := none }
    let s := match x with
      | .ok => s.canSent c w
      | .lost => s.canMissed c w
      | .error lec => (((s.put (F.CAN_STAT_LEC c) lec.val).canTec c ((s.canCh c).tec + 8)).canErrSync c).canMissed c w
    -- step 3 of Table 5.6 waits for a frame that carries no request until it has gone out
    let s := if x = .ok then s.holdEnd (.link (Fin.ofNat 16 c) (BitVec.ofNat 32 w.m)) false else s
    s.canSync c w.m

def execCanTxEnd (c : Fin 4) (x : CanTxResult) (s : State) : Res := .next (s.canTxEnd c.val x)

/-- A cancel of object m (R405). -/
def State.canCancel (s : State) (c m : Nat) : State :=
  let ch : CanCh := s.canCh c
  if !s.canObjOn c m 2 then s
  else if ch.onWire m then
    let s := match (s.canObj c m).shadow with
      | some (_, r) => (s.setCanObj c m fun o => { o with shadow := none }).canReqEnd c m r stCancelled
      | none => s
    (s.setCanObj c m fun o => { o with cancel := true }).canSync c m
  else (s.canDrop c m stCancelled).setCanObj c m fun o => { o with hasData := false }

/-- Recovery starts (R412). -/
def State.canRecover (s : State) (c : Nat) : State :=
  if s.get (F.CAN_STAT_STATE c) = 3 then s.canStateTo c 5 else s

def execCanTxctlRecover (c : Fin 4) (s : State) : Res := .next (if s.blkOn 9 then s.canRecover c.val else s)

def execCanTxctlCancel (c : Fin 4) (s : State) : Res :=
  .next (if s.blkOn 9 then s.canCancel c.val (s.get (F.CAN_TXCTL_OBJ c.val)) else s)

/-- GO in CAN_TXCTL: the staged data go to the object and are requested (15.8). -/
def execCanTxctlGo (c : Fin 4) (s : State) : Res :=
  .next <| if !s.blkOn 9 then s else
  let data := ((List.range 16).map fun w => natBE 4 (s.rd (Reg.CAN_TXD c.val w))).flatten
  let n := s.get (F.CAN_TXCTL_DLEN c.val)
  if n > 64 then s else s.canRequest c.val (s.get (F.CAN_TXCTL_OBJ c.val)) (data.take n) .plain

/-- TEC has passed 255 (R412). -/
def State.canBusOff (s : State) (c : Nat) : State :=
  if (s.canCh c).tec ≤ 255 || !s.canSends c then s else
  let (s, n) := s.canDropAll c
  let at_ := s.clk
  let s := (s.canStateTo c 3).setCan c fun ch => { ch with offAt := at_ }
  let s := (s.cond (canSrc c) 6).raise 0x0902 2 0 (natBE 1 c ++ natBE 2 n)
  if s.get (F.CAN_CTL_AUTO_REC c) = 1 then s.canRecover c else s

def execCanBusOff (c : Fin 4) (s : State) : Res := .next (s.canBusOff c.val)

/-- Recovery ends (R412). -/
def State.canRecovered (s : State) (c : Nat) : State :=
  if s.get (F.CAN_STAT_STATE c) ≠ 5 then s else
  let s := ((s.canTec c 0).setRec c 0).canStateTo c 1
  s.raise 0x0903 5 0 (natBE 1 c ++ natBE 4 ((s.clk - (s.canCh c).offAt) / msec))

def execCanRecovered (c : Fin 4) (s : State) : Res := .next (s.canRecovered c.val)

/-- CAN_MODE ends OK: its MODE is the one that later starts load (R554). -/
def State.canModeStore (s : State) (c : Nat) : State :=
  s.storeVal (Reg.CAN_CTL c) (putBits (s.cfg (Reg.CAN_CTL c)) 1 0 (s.get (F.CAN_CTL_MODE c)))

/-- The items that wait for a change of MODE end: OK where theirs is the mode in effect, FAILED where a later one has replaced it. -/
def State.canModeEnds (s : State) (c m : Nat) : State :=
  (s.endWaiting .canMode (fun i => i.a == c && i.b == m) .ok).endWaiting .canMode (fun i => i.a == c && i.b != m) .failed

/-- The requested MODE takes effect at bus idle (R410). -/
def State.canModeChange (s : State) (c : Nat) : State :=
  let m := s.get (F.CAN_CTL_MODE c)
  if !s.blkOn 9 || (s.canCh c).mode = m || (s.canCh c).wire.isSome then s else
  let s := if m = 1 then s else (s.canDropAll c).1
  let at_ := s.clk
  let s := s.setCan c fun ch => { ch with mode := m, objs := ch.objs.map fun o => { o with since := at_ } }
  let st := if m = 0 then 0 else if m = 2 then 4
    else if (s.canCh c).tec > 255 then (if s.get (F.CAN_CTL_AUTO_REC c) = 1 then 5 else 3)
    else if (s.canCh c).tec > 127 || s.canRecCtr c > 127 then 2 else 1
  let s := if s.baton.items.any fun i => i.wait == .canMode && i.a == c && i.b == m then s.canModeStore c else s
  (s.canStateTo c st).canModeEnds c m

def execCanModeChange (c : Fin 4) (s : State) : Res := .next (s.canModeChange c.val)

/-! ### Opcodes (Tables 15.6 and 15.7) -/

def tChan : Nat := 0x0901
def tCanSetup : Nat := 0x0902
def tObjSetup : Nat := 0x0903
def tTtCol : Nat := 0x0904
def tCanMode : Nat := 0x0905
def tObjNo : Nat := 0x0906
def tCanData : Nat := 0x0907
def tSigBind : Nat := 0x0908
def tCanStationNo : Nat := 0x0909
def sChan : TlvSpec := { typ := tChan, lo := 1, hi := 1 }
def sObjNo : TlvSpec := { typ := tObjNo, lo := 1, hi := 1 }
def chanN (q : Q) : Nat := tn q.tlvs tChan
def objN (q : Q) : Nat := tn q.tlvs tObjNo
def chanForm : Chk := rangeChk tChan (· ≤ 3)

/-- Configuration changes only in INIT (R393). -/
def canInit : Chk := fun s q =>
  if s.get (F.CAN_CTL_MODE (chanN q)) = 0 && (s.canCh (chanN q)).mode = 0 then none else some { status := .busy }

/-- Bit timing, schedule and control within R391, R406 and 15.8. -/
def canCfgOk (ctl nbt dbt tt : Nat) : Bool :=
  let n1 := bitsOf nbt 24 16
  let n2 := bitsOf nbt 15 9
  let d1 := bitsOf dbt 20 16
  let d2 := bitsOf dbt 15 12
  let nj := bitsOf nbt 31 25
  let dj := bitsOf dbt 24 21
  1 ≤ bitsOf nbt 5 0 && bitsOf nbt 5 0 ≤ 32 && 2 ≤ n1 && n1 ≤ 256 && 2 ≤ n2 && 1 ≤ nj && nj ≤ n2 &&
  1 ≤ bitsOf dbt 4 0 && 1 ≤ d1 && 1 ≤ d2 && 1 ≤ dj && dj ≤ d2 &&
  80 ≤ nomBit nbt && nomBit nbt ≤ 640 && 16 ≤ datBit dbt && datBit dbt ≤ 80 && datBit dbt ≤ nomBit nbt &&
  canTmaxNs ctl nbt dbt ≤ bitsOf tt 31 16 * usec

def opCanCfg : OpDef where
  code := 0x0901
  blk := 9
  schema := [sChan, { typ := tCanSetup, lo := 16, hi := 16 }]
  form := fun s q => (chanForm s q).or <|
    let b := tv q.tlvs tCanSetup
    let c := chanN q
    imgFault q.tlvs tCanSetup [(Reg.CAN_CTL c, beAt b 0 4), (Reg.CAN_NBT c, beAt b 4 4), (Reg.CAN_DBT c, beAt b 8 4), (Reg.CAN_TT c, beAt b 12 4)]
      (canCfgOk (beAt b 0 4) (beAt b 4 4) (beAt b 8 4) (beAt b 12 4))
  perm := onlyOperator
  pre := canInit
  run := fun s q =>
    let b := tv q.tlvs tCanSetup
    let c := chanN q
    let ctl := beAt b 0 4 / 4 * 4
    let mode := bitsOf (s.cfg (Reg.CAN_CTL c)) 1 0
    let s := s.setImgs [(Reg.CAN_CTL c, ctl), (Reg.CAN_NBT c, beAt b 4 4), (Reg.CAN_DBT c, beAt b 8 4), (Reg.CAN_TT c, beAt b 12 4)]
    -- the stored MODE is CAN_MODE's
    let s := s.storeVal (Reg.CAN_CTL c) (putBits ctl 1 0 mode)
    .done .ok [] (((s.wr (Reg.CAN_CNT1 c) 0).wr (Reg.CAN_CNT2 c) 0).wr (Reg.CAN_TMAX c) (canTmaxNs ctl (beAt b 4 4) (beAt b 8 4)))

/-- An object's configuration holds allowed values (R393). -/
def objCfgOk (w : Nat) : Bool :=
  bitsOf w 30 29 != 3 && bitsOf w 23 16 ≤ 254 && (bitsOf w 30 29 != 2 || bit1 w 27 == 1 || bitsOf w 15 12 ≤ 8) &&
  !(bit1 w 27 == 1 && bit1 w 25 == 1)

/-- An enabled time-triggered TX object. -/
def isTtCfg (w : Nat) : Bool := bit1 w 28 == 1 && bitsOf w 30 29 == 2

def opCanObjCfg : OpDef where
  code := 0x0902
  blk := 9
  schema := [sChan, { typ := tObjSetup, lo := 13, hi := 13, maxN := 16 }]
  form := fun s q => (chanForm s q).or <|
    let c := chanN q
    let es := q.tlvs.filter fun t => t.typ == tObjSetup
    let bad (t : Tlv) (r : Nat) : Option Refuse := some (badTlv t.off r)
    es.findSome? fun t =>
      let m := beAt t.val 0 1
      let imgs := [(Reg.CAN_OCFG c m, beAt t.val 1 4), (Reg.CAN_OID c m, beAt t.val 5 4)]
      if m > 63 then bad t 0x0008
      else if imgs.any fun p => rsvBits p.1 p.2 then bad t 0x0005
      else if !objCfgOk (beAt t.val 1 4) then bad t 0x0008
      else if (es.filter fun u => beAt u.val 0 1 == m).length > 1 then bad t 0x0004 else none
  perm := onlyOperator
  pre := allChk [canInit, fun s q =>
    let c := chanN q
    let t := (tvs q.tlvs tObjSetup).foldl (fun t v => t.wr (Reg.CAN_OCFG c (beAt v 0 1)) (beAt v 1 4)) s
    if ((List.range 64).filter fun m => isTtCfg (t.rd (Reg.CAN_OCFG c m))).length > 8 then some (badAt q.tlvs tObjSetup 0x0008) else none]
  run := fun s q =>
    let c := chanN q
    .done .ok [] ((tvs q.tlvs tObjSetup).foldl (fun s v =>
      let m := beAt v 0 1
      let s := s.setImgs [(Reg.CAN_OCFG c m, beAt v 1 4), (Reg.CAN_OID c m, beAt v 5 4), (Reg.CAN_OTIM c m, beAt v 9 4)]
      (s.setCanObj c m fun _ => CanObj.zero).wr (Reg.CAN_OST c m) 0) s)

def opCanTtCfg : OpDef where
  code := 0x0903
  blk := 9
  schema := [sChan, { typ := tTtCol, lo := 5, hi := 5, maxN := 64 }]
  form := fun s q => (chanForm s q).or <|
    let c := chanN q
    let es := q.tlvs.filter fun t => t.typ == tTtCol
    let bad (t : Tlv) (r : Nat) : Option Refuse := some (badTlv t.off r)
    es.findSome? fun t =>
      let k := beAt t.val 0 1
      if k > 63 then bad t 0x0008
      else if rsvBits (Reg.CAN_TTCOL c k) (beAt t.val 1 4) then bad t 0x0005
      else if (es.filter fun u => beAt u.val 0 1 == k).length > 1 then bad t 0x0004 else none
  perm := onlyOperator
  pre := allChk [canInit, fun s q =>
    if (tvs q.tlvs tTtCol).any fun v => beAt v 1 4 ≥ 2 ^ 31 && !isTtCfg (s.rd (Reg.CAN_OCFG (chanN q) (beAt v 4 1 % 64))) then
      some (badAt q.tlvs tTtCol 0x0008) else none]
  run := fun s q => .done .ok [] (s.setImgs ((tvs q.tlvs tTtCol).map fun v => (Reg.CAN_TTCOL (chanN q) (beAt v 0 1), beAt v 1 4)))

def opCanMode : OpDef where
  code := 0x0904
  blk := 9
  schema := [sChan, { typ := tCanMode, lo := 1, hi := 1 }]
  form := allChk [chanForm, rangeChk tCanMode (· ≤ 2)]
  perm := onlyOperator
  run := fun s q =>
    let c := chanN q
    let s := s.put (F.CAN_CTL_MODE c) (tn q.tlvs tCanMode)
    if (s.canCh c).mode = tn q.tlvs tCanMode then .done .ok [] ((s.canModeStore c).canModeEnds c (tn q.tlvs tCanMode))
    else .pend .canMode c (tn q.tlvs tCanMode) true s

def opCanSend : OpDef where
  code := 0x0905
  blk := 9
  schema := [sChan, sObjNo, { typ := tCanData, lo := 0, hi := 64 }]
  form := allChk [chanForm, rangeChk tObjNo (· ≤ 63)]
  perm := onlyOperator
  pre := fun s q =>
    if !s.canObjOn (chanN q) (objN q) 2 then some (badAt q.tlvs tObjNo 0x0008)
    else if !s.canSends (chanN q) then some { status := .busy } else none
  run := fun s q =>
    let c := chanN q
    let m := objN q
    let queued := (s.canCh c).fifo.any fun p => p.1 == m
    let stops := s.canTargetLost c m || !s.canFormatOk c m
    if !stops && !queued && !s.canIsTt c m && !(s.canCh c).onWire m && (s.canCh c).fifo.length ≥ 32 then
      .refuseEv { status := .busy } fun s => s.canFull c
    else
      let s := s.canRequest c m (tv q.tlvs tCanData) (.baton q.owner q.r.item.toNat)
      if stops then .done .failed [] s else .pend .canSend c m false s

def opCanCancelObj : OpDef where
  code := 0x0906
  blk := 9
  schema := [sChan, sObjNo]
  form := allChk [chanForm, rangeChk tObjNo (· ≤ 63)]
  perm := onlyOperator
  run := fun s q => .done .ok [] (s.canCancel (chanN q) (objN q))

def opCanRecover : OpDef where
  code := 0x0907
  blk := 9
  schema := [sChan]
  form := chanForm
  perm := onlyOperator
  run := fun s q => .done .ok [] (s.canRecover (chanN q))

def sigOfBytes (b : Bytes) : SigBind :=
  let a : W64 := BitVec.ofNat 64 (beAt b 0 8)
  ⟨addrObj a, addrElem a, beAt b 8 1, beAt b 9 2, beAt b 11 1, beAt b 12 1, beAt b 13 1⟩

/-- A field that matches its value type (R399). -/
def sigTypeOk (g : SigBind) : Bool :=
  match g.vt with
  | 1 => g.len == 1
  | 2 => g.len ≤ 32
  | 3 => g.len ≤ 32
  | 4 => g.len ≤ 64
  | 5 => g.len == 32
  | 6 => g.len == 64
  | 7 => g.len == 16
  | _ => false

def sigOverlap (a b : SigBind) : Bool := a.m == b.m && (sigBits a).any fun i => (sigBits b).contains i

/-- The binding that a new one of the same element and object replaces. -/
def sigSame (a b : SigBind) : Bool := a.obj == b.obj && a.elem == b.elem && a.m == b.m

def opCanBind : OpDef where
  code := 0x0908
  blk := 9
  schema := [sChan, { typ := tSigBind, lo := 16, hi := 16, maxN := 16 }]
  form := fun s q => (chanForm s q).or <| (q.tlvs.filter fun t => t.typ == tSigBind).findSome? fun t =>
    let a : W64 := BitVec.ofNat 64 (beAt t.val 0 8)
    let g := sigOfBytes t.val
    let bad (r : Nat) : Option Refuse := some (badTlv t.off r)
    if beAt t.val 14 2 ≠ 0 then bad 0x0005
    else if addrBad a then bad 0x0006
    else if g.elem = 0 || !s.isOwn a || g.m > 64 || g.len = 0 || g.len > 64 || g.order > 1 || !sigTypeOk g ||
      (sigBits g).any (· ≥ 512) then bad 0x0008 else none
  perm := onlyOperator
  lock := lockChk fun _ q => (tvs q.tlvs tSigBind).map fun v => (sigOfBytes v).obj
  exist := fun s q => (tvs q.tlvs tSigBind).findSome? fun v =>
    if (s.elem? (sigOfBytes v).obj (sigOfBytes v).elem).isNone then some { status := .noObject } else none
  pre := fun s q =>
    let c := chanN q
    let new := (tvs q.tlvs tSigBind).map sigOfBytes
    let old := (s.canCh c).sigs.filter fun g => !(new.any (sigSame g))
    let clash := (List.range new.length).any fun i =>
      match new[i]? with
      | some g => (old ++ new.take i).any (sigOverlap g)
      | none => false
    if clash then some (badAt q.tlvs tSigBind 0x0008) else
    new.findSome? fun g =>
      if s.canObjOn c g.m 2 && g.m < 64 then (if s.sigTxOk c g then none else some { status := .denied })
      else if !s.sigRxOk c g || s.typOf g.obj = tySafetyView then some { status := .denied }
      else if s.loopDestTaken none g.obj g.elem || s.lapOutTaken g.obj g.elem ||
        (s.linkTaken g.obj g.elem && !((s.canCh c).sigs.any (sigSame g))) then some busyBound else none
  run := fun s q =>
    let new := (tvs q.tlvs tSigBind).map sigOfBytes
    .done .ok [] (s.setCan (chanN q) fun ch => { ch with sigs := (ch.sigs.filter fun g => !(new.any (sigSame g))) ++ new })

def opCanStation : OpDef where
  code := 0x0909
  blk := 9
  schema := [sChan, { typ := tCanStationNo, lo := 1, hi := 1 }, sObjNo, { typ := 0x0001, lo := 8, hi := 8 }]
  form := allChk [chanForm, rangeChk tCanStationNo fun n => 1 ≤ n && n ≤ 254, rangeChk tObjNo (· ≤ 63), addrForm 0x0001 true]
  perm := onlyOperator
  lock := lockChk fun _ q => [addrObj (tAddr q.tlvs)]
  exist := fun s q =>
    match s.obj? (addrObj (tAddr q.tlvs)) with
    | none => some { status := .noObject }
    | some x => if x.typ = tyStation && x.count = 8 then none else some (badAt q.tlvs 0x0001 0x0008)
  pre := fun s q =>
    let o := addrObj (tAddr q.tlvs)
    if !s.canObjOn (chanN q) (objN q) 1 then some (badAt q.tlvs tObjNo 0x0008)
    else if (s.relay.stations.any fun x => x.obj == o) || (List.range 4).any fun c =>
      (s.canCh c).stations.any fun x => x.obj == o && !(c == chanN q && x.no == tn q.tlvs tCanStationNo) then some { status := .busy }
    else none
  run := fun s q =>
    let c := chanN q
    let no := tn q.tlvs tCanStationNo
    let x : CanStation := ⟨no, objN q, addrObj (tAddr q.tlvs), 0, 0, 0, 0, 0⟩
    let s := s.setCan c fun ch => { ch with stations := (ch.stations.filter fun y => y.no != no) ++ [x] }
    .done .ok [] (s.modCanStation c no id)

def opCanStatus : OpDef where
  code := 0x090A
  blk := 9
  schema := [sChan]
  form := chanForm
  perm := operatorOrService
  run := fun s q =>
    let c := chanN q
    .done .ok (tlv 0x090A (([Reg.CAN_CTL c, Reg.CAN_STAT c, Reg.CAN_FIFO c, Reg.CAN_CNT1 c, Reg.CAN_CNT2 c, Reg.CAN_TMAX c].map
      fun o => natBE 4 (s.rd o)).flatten)) s

/-- The words of snapshot group m of channel c (Table 15.4). -/
def State.canSnap (s : State) (c m : Nat) : List Nat :=
  let b : CanBuf := if m = 64 then (s.canCh c).hp else (s.canObj c m).prim
  [b.f.id.toNat, canLen b.f * 2 ^ 16 + b.f.dlc.toNat * 2 ^ 8 + canFlags b.f, b.ts.toNat % 2 ^ 32, b.ts.toNat / 2 ^ 32] ++
    (List.range 16).map fun w => beNat (padTo 4 (slice b.f.data (4 * w) 4))

def opCanRead : OpDef where
  code := 0x090B
  blk := 9
  schema := [sChan, sObjNo]
  form := allChk [chanForm, rangeChk tObjNo (· ≤ 64)]
  perm := operatorOrService
  run := fun s q => .done .ok (tlv 0x090B (((s.canSnap (chanN q) (objN q)).map (natBE 4)).flatten)) s

def execCanCfg (r : Req) (s : State) : Res := .next (batonRun opCanCfg r s)
def execCanObjCfg (r : Req) (s : State) : Res := .next (batonRun opCanObjCfg r s)
def execCanTtCfg (r : Req) (s : State) : Res := .next (batonRun opCanTtCfg r s)
def execCanMode (r : Req) (s : State) : Res := .next (batonRun opCanMode r s)
def execCanSend (r : Req) (s : State) : Res := .next (batonRun opCanSend r s)
def execCanCancelObj (r : Req) (s : State) : Res := .next (batonRun opCanCancelObj r s)
def execCanRecover (r : Req) (s : State) : Res := .next (batonRun opCanRecover r s)
def execCanBind (r : Req) (s : State) : Res := .next (batonRun opCanBind r s)
def execCanStation (r : Req) (s : State) : Res := .next (batonRun opCanStation r s)
def execCanStatus (r : Req) (s : State) : Res := .next (batonRun opCanStatus r s)
def execCanRead (r : Req) (s : State) : Res := .next (batonRun opCanRead r s)

end Sys2Proof.Machine
end

