-- ==== Sys2Proof/Machine/Memory.lean ====
section
/-! DEFINITION. Machine/Memory.lean: the byte memory that DMA reaches: DRAM (Config.isDram) and the Pacer
SRAM (R254). It is a list of cells with rising addresses and no cell that holds 0, the value of every
unlisted byte; in the SRAM a cell holds the difference from what the engine has left there. -/

namespace Sys2Proof.Machine

/-- The byte at an address. -/
def memGet (m : List Host.Cell) (a : Nat) : Byte :=
  match m with
  | [] => 0
  | (k, v) :: r => if k = a then v else memGet r a

/-- The cells but those of an address. -/
def memDel (m : List Host.Cell) (a : Nat) : List Host.Cell :=
  match m with
  | [] => []
  | (k, w) :: r => if k = a then memDel r a else (k, w) :: memDel r a

/-- A cell put in its place among rising addresses. -/
def memIns (m : List Host.Cell) (a : Nat) (v : Byte) : List Host.Cell :=
  match m with
  | [] => [(a, v)]
  | (k, w) :: r => if k < a then (k, w) :: memIns r a v else (a, v) :: (k, w) :: r

/-- Write one byte, keeping the canonical form. -/
def memPut (m : List Host.Cell) (a : Nat) (v : Byte) : List Host.Cell :=
  if v = 0 then memDel m a else memIns (memDel m a) a v

/-- `n` bytes from an address on. -/
def memRead (m : List Host.Cell) (a n : Nat) : Bytes := (List.range n).map fun i => memGet m (a + i)

/-- Write bytes from an address on, in ascending order. -/
def memWrite (m : List Host.Cell) (a : Nat) : Bytes → List Host.Cell
  | [] => m
  | b :: bs => memWrite (memPut m a b) (a + 1) bs

/-- The canonical form: addresses strictly rising from `lo` on, no listed byte 0. -/
def memWfFrom : Nat → List Host.Cell → Bool
  | _, [] => true
  | lo, (k, v) :: r => lo ≤ k && v != 0 && memWfFrom (k + 1) r

/-- The memory is in its canonical form. -/
def Memory.wf (m : List Host.Cell) : Bool := memWfFrom 0 m

/-! ### The Pacer SRAM (R254, Table 10.6) -/

def sramBase : Nat := 0xE8000000
def sramEnd : Nat := 0xE9800000

def inSram (a : Nat) : Bool := sramBase ≤ a && a < sramEnd

/-- Regions D and W, which discard writes while the engine factorises or iterates. -/
def inSramDW (a : Nat) : Bool :=
  inSram a && (a < sramBase + 0x100000 || sramBase + 0x300000 ≤ a)

/-- Length of the schedule at the start of region P. -/
def State.schedLen (s : State) : Nat := match s.pacer.plan with | some p => 4 * p.n * p.vars.length | none => 0

/-- The part of region P behind the schedule: the coupling exchange area. -/
def State.inCoupling (s : State) (a : Nat) : Bool :=
  sramBase + 0x200000 + s.schedLen ≤ a && a < sramBase + 0x300000

/-- What a byte of the Pacer SRAM holds that nothing has written since the engine last did: 0 before the first build; then
Config.sramByte in regions D and W and in the coupling exchange area, whose layout the spec leaves open (Table 10.6). The cells of `mem` hold the
difference from it. -/
def State.sramBg (s : State) (a : Nat) : Byte :=
  if s.pacer.sramD = 0 then 0
  else if inSramDW a && a < sramBase + 0x100000 then Config.sramByte (2 * s.pacer.sramD) (a - sramBase)
  else if inSramDW a || s.inCoupling a then Config.sramByte (2 * s.pacer.sramW + 1) (a - sramBase)
  else 0

/-- The engine writes its regions: what stood there is gone. A build writes D too. -/
def State.sramEngine (s : State) (build : Bool) : State :=
  let p := { s.pacer with sramD := s.pacer.sramD + b2n build, sramW := s.pacer.sramW + 1 }
  { s with pacer := p, mem := s.mem.filter fun c =>
    !((inSramDW c.1 && (build || sramBase + 0x100000 ≤ c.1)) || s.inCoupling c.1) }

/-- The SRAM loses its contents when PD_PACER is gated. -/
def State.sramLost (s : State) : State :=
  { s with mem := s.mem.filter fun c => !inSram c.1, pacer := { s.pacer with sramD := 0, sramW := 0 } }

/-- A byte of memory as the addressed unit gives it: the Pacer SRAM reads 0 while PD_PACER is off (R254). -/
def State.memLd (s : State) (a : Nat) : Byte :=
  if inSram a then (if s.pdOn 2 then memGet s.mem a ^^^ s.sramBg a else 0) else memGet s.mem a

/-- A 32-bit word in the little-endian order of the application cores (R94, Table 20.2). -/
def State.memLdWord (s : State) (a : Nat) : Nat := beNat ((List.range 4).map fun i => s.memLd (a + i)).reverse

/-- Write a byte of memory as the addressed unit takes it. -/
def State.memSt (s : State) (a : Nat) (v : Byte) : State :=
  let st := s.get F.PACER_STAT_STATE
  if inSram a && !s.pdOn 2 then s
  else if inSramDW a && (st = 2 || st = 3) then s
  else { s with mem := memPut s.mem a (if inSram a then v ^^^ s.sramBg a else v) }

end Sys2Proof.Machine
end

