-- ==== Sys2Proof/Machine/Dma.lean ====
section
/-! DEFINITION. Machine/Dma.lean: DMA channels, descriptors, completion, chaining and faults (chapter 20, 20.4,
20.5 and 20.7). -/

namespace Sys2Proof.Machine

def dIdle : Nat := 0
def dQueued : Nat := 1
def dActive : Nat := 2
def dHalted : Nat := 3

def State.dmaCh (s : State) (c : Nat) : DmaCh := s.dma.getD c ⟨0, none, 0, 0, 0, 0, false⟩
def State.setDma (s : State) (c : Nat) (f : DmaCh → DmaCh) : State := { s with dma := modNth s.dma c f }
def State.dmaState (s : State) (c : Nat) : Nat := s.get (F.DMA_CHSTAT_STATE c)

/-- Channels in a state. -/
def State.dmaCount (s : State) (st : Nat) : Nat := ((List.range 32).filter fun c => s.dmaState c == st).length

/-- Change a channel's state, and with it DMA_GSTAT and DMA_HALT. -/
def State.dmaTo (s : State) (c st : Nat) : State :=
  let s := s.put (F.DMA_CHSTAT_STATE c) st
  let s := (s.put F.DMA_GSTAT_ACTIVE (s.dmaCount dActive)).put F.DMA_GSTAT_QUEUED (s.dmaCount dQueued)
  s.wr Reg.DMA_HALT ((List.range 32).foldl (fun a k => a + b2n (s.dmaState k == dHalted) * 2 ^ k) 0)

/-- The register window, 16 MiB from 0xF000_0000 (R92). -/
def inWindow (a : Nat) : Bool := 0xF0000000 ≤ a && a < 0xF1000000

/-- The regions a descriptor may address: DRAM and the Pacer SRAM; no block chapter names a register region, so none in the window
(R92, R93, R521). -/
def dmaRegion (a : Nat) : Bool := a < 2 ^ 40 && !inWindow a && (inSram a || Config.isDram (BitVec.ofNat 64 a))

/-- Every byte of a range lies in the permitted regions: both ends do, and the range neither leaves the SRAM nor spans it. -/
def dmaRange (a n : Nat) : Bool :=
  dmaRegion a && dmaRegion (a + n - 1) && (inSram a == inSram (a + n - 1)) &&
    (inSram a || !(a < sramBase && sramBase ≤ a + n - 1))

/-- The bytes that an end of a transfer addresses: a fixed address addresses one word. -/
def spanOf (fixed : Bool) (n : Nat) : Nat := if fixed then 4 else n

/-- A descriptor read from memory (Table 20.2). -/
def fetchDesc (s : State) (a : Nat) : Desc :=
  let w (k : Nat) : Nat := s.memLdWord (a + 4 * k)
  ⟨BitVec.ofNat 32 (w 0), BitVec.ofNat 32 (w 1), BitVec.ofNat 64 (w 2 + w 3 * 2 ^ 32),
    BitVec.ofNat 64 (w 4 + w 5 * 2 ^ 32), BitVec.ofNat 64 (w 6 + w 7 * 2 ^ 32)⟩

/-- The class in which a descriptor is carried: 0 goes as 1 (R24). -/
def Desc.cls (d : Desc) : Nat := let c := bitsOf d.w0.toNat 29 28; if c = 0 then 1 else c
def Desc.srcFix (d : Desc) : Bool := bit1 d.w0.toNat 27 == 1
def Desc.dstFix (d : Desc) : Bool := bit1 d.w0.toNat 26 == 1

/-- A descriptor that ends FAILED before it moves any data (R522). -/
def State.descBad (s : State) (d : Desc) : Bool :=
  let w0 := d.w0.toNat
  let n := d.len.toNat
  let src := d.src.toNat
  let dst := d.dst.toNat
  let sn := spanOf d.srcFix n
  let dn := spanOf d.dstFix n
  bitsOf w0 25 8 != 0 || bitsOf w0 3 0 != 0 || n = 0 || n > 16777216 ||
  src ≥ 2 ^ 40 || dst ≥ 2 ^ 40 || d.next.toNat % 32 != 0 ||
  !(dmaRange src sn) || !(dmaRange dst dn) ||
  (src < dst + dn && dst < src + sn) ||
  ((d.srcFix || d.dstFix) && n % 4 != 0) || (d.srcFix && src % 4 != 0) || (d.dstFix && dst % 4 != 0) ||
  ((inSram src || inSram dst) && !s.pdOn 2)

/-- Write word 0 of a descriptor back with VALID 0 and a STATUS (R525), as the addressed unit takes it (R254). -/
def State.writeBack (s : State) (a : Nat) (d : Desc) (st : Nat) : State :=
  let w : W32 := BitVec.ofNat 32 (putBits (putBits d.w0.toNat 31 31 0) 7 4 st)
  (List.range 4).foldl (fun t i => t.memSt (a + i) (BitVec.ofNat 8 (w.toNat / 2 ^ (8 * i)))) s

/-- A bus error on an access of channel c: the channel halts (R526). -/
def State.dmaHalt (s : State) (c : Nat) (addr : Nat) (write : Bool) (cause : Nat) : State :=
  let word := if inSram addr || Config.isDram (BitVec.ofNat 64 addr) then addr / 8 * 8 else addr / 4 * 4
  let s := s.setDma c fun x => { x with desc := none, errAddr := BitVec.ofNat 64 word, await := false }
  let s := ((s.dmaTo c dHalted).put (F.DMA_CHSTAT_ERRDIR c) (b2n write)).put (F.DMA_CHSTAT_ERRCAUSE c) cause
  (s.cond 16 2).raise 0x1001 3 0 (natBE 1 c ++ natBE 1 (b2n write) ++ natBE 1 cause ++ natBE 4 word)

/-- A descriptor ends FAILED: it is written back with STATUS 2, runs no drill and ends the chain (R525). -/
def State.dmaFail (s : State) (c : Nat) (d : Desc) : State :=
  let a := (s.dmaCh c).addr.toNat
  let s := ((s.writeBack a d 2).cond 16 1).mirrorEnd 2 c (a % 2 ^ 32) Status.failed.code
  s.holdEnd (.dma (Fin.ofNat 32 c)) true

/-- Start a descriptor as a new item: it runs, or ends FAILED before it moves data (R521, R522). -/
def State.dmaBegin (s : State) (c : Nat) (d : Desc) : State :=
  let s := s.mirrorAdd 2 0 c ((s.dmaCh c).addr.toNat % 2 ^ 32)
  if s.descBad d then ((s.dmaFail c d).setDma c fun x => { x with desc := none, await := false }).dmaTo c dIdle
  else (s.setDma c fun x => { x with desc := some d, since := s.clk, bytes := 0, await := false }).dmaTo c dActive

/-- Fetch the descriptor at an address for channel c (R522): VALID 0 ends the chain without an item, and an address that
no target decodes halts the channel. -/
def State.dmaFetch (s : State) (c a : Nat) : State :=
  if !(dmaRange a 32) then s.dmaHalt c a false 1
  else if inSram a && !s.pdOn 2 then s.dmaHalt c a false 3
  else
    let d := fetchDesc s a
    let s := s.setDma c fun x => { x with addr := BitVec.ofNat 64 a, desc := none, await := false, bytes := 0 }
    if bit1 d.w0.toNat 31 = 0 then s.dmaTo c dIdle else s.dmaBegin c d

/-- Move the first `n` bytes of a descriptor, in ascending address order (R523, R524). -/
def State.dmaMove (s : State) (d : Desc) (n : Nat) : State :=
  (List.range n).foldl (fun t i =>
    let v := s.memLd (d.src.toNat + (if d.srcFix then i % 4 else i))
    t.memSt (d.dst.toNat + (if d.dstFix then i % 4 else i)) v) s

/-- What follows a descriptor that ended DONE, by its verdict: 0 STOP, 1 CHAIN, 2 REPEAT (R525). While Table 5.6 runs CHAIN and
REPEAT act as STOP. -/
def State.dmaVerdict (s : State) (c v lo hi : Nat) : State :=
  match (s.dmaCh c).desc with
  | none => s
  | some d =>
    let stop := (s.setDma c fun x => { x with desc := none, await := false }).dmaTo c dIdle
    if s.closing then stop
    else if v = 1 then
      let a := lo + hi * 2 ^ 32
      if a = 0 then stop else s.dmaFetch c a
    else if v = 2 then s.dmaBegin c d
    else stop

/-! ### Commands -/

/-- GO on a channel (R523, R526, R528): only an IDLE channel is queued; in HOLDUP none is. -/
def State.dmaGo (s : State) (c : Nat) : State :=
  if s.dmaState c = dIdle && s.mode ≠ modeHoldup then s.dmaTo c dQueued else s

def execDmaGo (c : Fin 32) (s : State) : Res := .next (s.dmaGo c.val)

/-- DMA_TRIGGER (R523, R528): every channel with that trigger source is queued when IDLE; a channel that is neither IDLE
nor halted counts TRIG_OVR. -/
def execDmaTrigger (src : Fin 4) (s : State) : Res :=
  .next <| if src.val = 0 || s.mode = modeHoldup || !s.blkOn 16 then s else
  (List.range 32).foldl (fun s c =>
    if s.get (F.DMA_CHCTL_TRIG c) ≠ src.val then s
    else if s.dmaState c = dIdle then s.dmaTo c dQueued
    else if s.dmaState c = dHalted then s
    else (s.bump (F.DMA_CHSTAT_TRIG_OVR c) 1).cond 16 3) s

/-- DMA_ACTIVATE (R523): a free place goes to the QUEUED channel whose first descriptor has the lowest class, and among
equals to the lowest channel. -/
def execDmaActivate (s : State) : Res :=
  .next <| if s.dmaCount dActive ≥ 16 || !s.blkOn 16 then s else
  let cls (c : Nat) : Nat := (fetchDesc s (s.dmaCh c).first.toNat).cls
  let best := (List.range 32).foldl (fun (b : Option Nat) c =>
    if s.dmaState c ≠ dQueued then b else
    match b with
    | none => some c
    | some k => if cls c < cls k then some c else b) none
  match best with
  | none => s
  | some c => s.dmaFetch c (s.dmaCh c).first.toNat

/-- The running descriptor's last write is acknowledged: its bytes stand and it is written back DONE (R525). -/
def State.dmaEnd (s : State) (c : Nat) (d : Desc) : State :=
  let a := (s.dmaCh c).addr.toNat
  let s := (s.dmaMove d d.len.toNat).setDma c fun x => { x with bytes := d.len.toNat, await := true }
  let s := (s.writeBack a d 1).mirrorEnd 2 c (a % 2 ^ 32) Status.ok.code
  let s := if bit1 d.w0.toNat 30 = 1 then s.cond 16 0 else s
  s.holdEnd (.dma (Fin.ofNat 32 c)) false

/-- What follows a descriptor that ended DONE: a bound drill is triggered, else the chain goes on (R525, R106). -/
def State.dmaNext (s : State) (c : Nat) (d : Desc) : State :=
  let a := (s.dmaCh c).addr.toNat
  let fields : List (Nat × W32) := [(0, BitVec.ofNat 32 c), (1, BitVec.ofNat 32 a), (2, BitVec.ofNat 32 (a / 2 ^ 32)),
    (3, BitVec.ofNat 32 d.len.toNat), (4, 1), (5, BitVec.ofNat 32 d.cls)]
  if s.closing then s.dmaVerdict c 0 0 0 else
  match s.drillTrigger (4 + c) ⟨fields, .dma c⟩ with
  | some (s, true) => s
  | some (s, false) => s.dmaVerdict c 0 0 0
  | none =>
    if d.next = 0 then s.dmaVerdict c 0 0 0 else s.dmaFetch c d.next.toNat

/-- DESCRIPTOR_DONE on an ACTIVE channel. -/
def State.dmaDone (s : State) (c : Nat) : State :=
  match (s.dmaCh c).desc with
  | none => s
  | some d => if (s.dmaCh c).await then s else (s.dmaEnd c d).dmaNext c d

def execDescriptorDone (c : Fin 32) (s : State) : Res :=
  .next <| if s.dmaState c.val = dActive then s.dmaDone c.val else s

/-- A bus error on the running descriptor of channel c (R526): the bytes written before it stand, the descriptor ends FAILED and the
channel halts. `addr` gives the failing address and direction from the bytes moved. -/
def State.dmaError (s : State) (c moved cause : Nat) (addr : Desc → Nat → Nat × Bool) : State :=
  match (s.dmaCh c).desc with
  | none => s
  | some d =>
    if s.dmaState c ≠ dActive || (s.dmaCh c).await then s else
    let n := min moved (d.len.toNat - 1)
    let s := (s.dmaMove d n).setDma c fun x => { x with bytes := n }
    (s.dmaFail c d).dmaHalt c (addr d n).1 (addr d n).2 cause

/-- DMA_BUS_ERROR (R526). -/
def execDmaBusError (c : Fin 32) (moved : Nat) (addr : W64) (write : Bool) (cause : DmaCause) (s : State) : Res :=
  let k := match cause with | .noTarget => 1 | .ecc => 2 | .gated => 3
  .next (s.dmaError c.val moved k fun _ _ => (addr.toNat, write))

/-- PD_PACER is gated without waiting while descriptors move data to or from its SRAM (R15, R526): each of those accesses is a bus
error. How far each has come is open: a free value says it. -/
def State.dmaSramCut (s : State) : State :=
  (List.range 32).foldl (fun s c =>
    match (s.dmaCh c).desc with
    | none => s
    | some d =>
      if !(inSram d.src.toNat) && !(inSram d.dst.toNat) then s else
      let (x, s) := s.free
      s.dmaError c x.toNat 3 fun d n =>
        if inSram d.src.toNat then (d.src.toNat + (if d.srcFix then 0 else n), false) else (d.dst.toNat + (if d.dstFix then 0 else n), true)) s

/-- ABORT (R528): a QUEUED channel returns to IDLE without an item; a running descriptor ends FAILED after the current
beat, or DONE when its final write was acknowledged in that cycle. -/
def State.dmaAbort (s : State) (c moved : Nat) (lastAck : Bool) : State :=
  if s.dmaState c = dQueued then s.dmaTo c dIdle
  else if s.dmaState c ≠ dActive then s
  else match (s.dmaCh c).desc with
  | none => s.dmaTo c dIdle
  | some d =>
    if (s.dmaCh c).await then (s.setDma c fun x => { x with desc := none, await := false }).dmaTo c dIdle
    else if lastAck then ((s.dmaEnd c d).setDma c fun x => { x with desc := none, await := false }).dmaTo c dIdle
    else
      let n := min moved (d.len.toNat - 1)
      let s := (s.dmaMove d n).setDma c fun x => { x with bytes := n }
      ((s.dmaFail c d).setDma c fun x => { x with desc := none, await := false }).dmaTo c dIdle

def execDmaAbort (c : Fin 32) (moved : Nat) (lastAck : Bool) (s : State) : Res :=
  .next (s.dmaAbort c.val moved lastAck)

/-- RECOVER returns a halted channel to IDLE; on any other it has no effect (R527). -/
def State.dmaRecover (s : State) (c : Nat) : State :=
  if s.dmaState c = dHalted then (s.dmaTo c dIdle).raise 0x1002 5 0 (natBE 1 c) else s

def execDmaChctlRecover (c : Fin 32) (s : State) : Res := .next (s.dmaRecover c.val)

/-! ### Opcodes (Table 20.7) -/

/-- The words of snapshot group c (Table 20.5). -/
def State.dmaSnap (s : State) (c : Nat) : List Nat :=
  let x := s.dmaCh c
  [x.addr.toNat % 2 ^ 32, x.addr.toNat / 2 ^ 32, x.bytes, x.errAddr.toNat % 2 ^ 32, x.errAddr.toNat / 2 ^ 32]

def channelForm : Chk := fun _ q => if tn q.tlvs 0x1001 > 31 then some (badAt q.tlvs 0x1001 0x0008) else none

def opDmaStatus : OpDef where
  code := 0x1001
  schema := [{ typ := 0x1001, lo := 1, hi := 1 }]
  form := channelForm
  perm := onlyOperator
  run := fun s q =>
    let c := tn q.tlvs 0x1001
    .done .ok (tlv 0x1002 (natBE 4 (s.rd (Reg.DMA_CHSTAT c)) ++ ((s.dmaSnap c).map (natBE 4)).flatten)) s

def opDmaRecover : OpDef where
  code := 0x1002
  schema := [{ typ := 0x1001, lo := 1, hi := 1 }]
  form := channelForm
  perm := onlyOperator
  run := fun s q => .done .ok [] (s.dmaRecover (tn q.tlvs 0x1001))

def execDmaStatus (r : Req) (s : State) : Res := .next (batonRun opDmaStatus r s)
def execDmaRecover (r : Req) (s : State) : Res := .next (batonRun opDmaRecover r s)

end Sys2Proof.Machine
end

