-- ==== Sys2Proof/Machine/Evr.lean ====
section
/-! DEFINITION. Machine/Evr.lean: the event recorder (chapter 20, 20.1 to 20.3 and 20.6): ingest, storage,
repeats, the full store, trigger spans, reader windows and the EVR opcodes. -/

namespace Sys2Proof.Machine

/-! ### Records -/

/-- A stored record as its 32 bytes (Table 20.1). -/
def Rec.bytes (x : Rec) : Bytes :=
  let b := natBE 8 x.ev.ts.toNat ++ natBE 2 x.ev.code ++ natBE 1 x.ev.sev ++ natBE 1 x.ev.tag ++ natBE 2 x.rep ++
    natBE 2 x.ev.obj ++ natBE 1 x.ev.elem ++ natBE 1 0 ++ padTo 12 x.ev.data
  b ++ natBE 2 (crc16 b)

/-- Capacity of the store (R512). -/
def evrSlots : Nat := 131072

def State.newestSeq (s : State) : Nat := s.evr.nextSeq - 1
def State.oldestSeq (s : State) : Nat := ((s.evr.recs.head?).map (·.seq)).getD 0

/-! ### Windows (R517) -/

def State.win (s : State) (w : Nat) : Window := s.evr.wins.getD w ⟨0, 0, 0⟩
def State.winOpen (s : State) (w : Nat) : Bool := s.get (F.EVR_WCFG_EN w) == 1
def State.setWin (s : State) (w : Nat) (f : Window → Window) : State :=
  { s with evr := { s.evr with wins := modNth s.evr.wins w f } }

/-- A record passes the tag, severity and block tests of window w (R517). -/
def State.winPasses (s : State) (w : Nat) (e : Event) : Bool :=
  let tag := s.get (F.EVR_WCFG_TAG w)
  (tag == 0 || e.tag == tag) && e.sev ≤ s.get (F.EVR_WCFG_SEVMAX w) && bit1 (s.rd (Reg.EVR_WMASK w)) (e.code / 256) == 1

/-- The stored records that window w returns from sequence `k` on. -/
def State.winRecs (s : State) (w k : Nat) : List Rec := s.evr.recs.filter fun x => x.seq ≥ k && s.winPasses w x.ev

/-- A record has been returned by a window: its repeat count may no longer rise (R514). -/
def State.markShown (s : State) (seqs : List Nat) : State :=
  { s with evr := { s.evr with recs := s.evr.recs.map fun x => if seqs.contains x.seq then { x with shown := true } else x } }

/-- Window w counts a lost record (R515), and EVR_WINDOW_LOST is raised at most once per minute per window. -/
def State.winLost (s : State) (w : Nat) : State :=
  let s := (s.bump ⟨Reg.EVR_WLOST w, 31, 0⟩ 1).cond 15 2
  s.raiseLim 0x0F01 w (60 * sec) 4 (s.get (F.EVR_WCFG_TAG w)) fun n => natBE 1 w ++ natBE 4 n

/-! ### Trigger spans (R516) -/

/-- The sequence lies within the held span. -/
def State.inSpan (s : State) (q : Nat) : Bool :=
  match s.evr.span with
  | some p => p.seq ≤ q + p.pre && q ≤ p.seq + p.post
  | none => false

/-- The span is complete: TRIG_DONE is set and EVR_TRIGGERED is raised. -/
def State.spanDone (s : State) (seq : Nat) : State :=
  let code := ((s.evr.recs.find? fun x => x.seq == seq).map (·.ev.code)).getD 0
  ((s.put F.EVR_STAT_TRIG_DONE 1).cond 15 3).raise 0x0F02 4 0 (natBE 8 seq ++ natBE 2 code)

/-- A verdict of TRIGGER on the record of sequence `seq`. -/
def State.trigger (s : State) (seq : Nat) : State :=
  if s.evr.span.isSome then s.bump F.EVR_OVW_TRIG_MISSED 1 else
  let post := s.get F.EVR_TRIG_POST
  let s := { s with evr := { s.evr with span := some ⟨seq, s.get F.EVR_TRIG_PRE, post, post⟩ } }
  let s := s.put F.EVR_STAT_TRIG_HELD 1
  if post = 0 then s.spanDone seq else s

/-- A record has been stored behind the trigger. -/
def State.spanCount (s : State) : State :=
  match s.evr.span with
  | some p =>
    if p.left = 0 then s else
    let s := { s with evr := { s.evr with span := some { p with left := p.left - 1 } } }
    if p.left = 1 then s.spanDone p.seq else s
  | none => s

/-- Release the held span. -/
def State.spanRelease (s : State) : State :=
  let s := { s with evr := { s.evr with span := none } }
  (s.put F.EVR_STAT_TRIG_HELD 0).put F.EVR_STAT_TRIG_DONE 0

/-! ### Storage (R512 to R515) -/

/-- The event repeats the newest stored record (R514). -/
def State.repeats (s : State) (e : Event) : Bool :=
  match s.evr.recs.getLast? with
  | none => false
  | some x =>
    let win := s.get F.EVR_CFG_REP_WIN
    win != 0 && x.ev.code == e.code && x.ev.tag == e.tag && x.ev.obj == e.obj && x.ev.elem == e.elem &&
    x.ev.data == e.data && x.ev.ts.toNat ≤ e.ts.toNat && e.ts.toNat < x.ev.ts.toNat + win * 2 ^ 24 &&
    x.rep < 0xFFFF && !x.shown &&
    ((List.range 16).all fun w => !(s.winOpen w && (s.win w).cursor > x.seq))

/-- Append a record to the store. -/
def State.append (s : State) (e : Event) : State :=
  let q := s.evr.nextSeq
  let s := { s with evr := { s.evr with recs := s.evr.recs ++ [(⟨q, e, 0, false⟩ : Rec)], nextSeq := q + 1 } }
  let s := s.put F.EVR_STAT_FILL s.evr.recs.length
  if e.sev ≤ 2 then s.cond 15 0 else s

/-- A new record in a full store takes the place of the oldest record that R515 lets go; false where none may. -/
def State.makeRoom (s : State) (sev : Nat) : State × Bool :=
  if s.evr.recs.length < evrSlots then (s, true) else
  match s.evr.recs.find? fun x => x.ev.sev ≥ sev && !s.inSpan x.seq with
  | none => (s, false)
  | some x =>
    let t := { s with evr := { s.evr with recs := s.evr.recs.filter fun y => y.seq != x.seq } }
    let t := t.bump ⟨Reg.EVR_OVWCNT, 31, 0⟩ 1
    ((List.range 16).foldl (fun t w =>
      if s.winOpen w && s.winPasses w x.ev && (s.win w).cursor ≤ x.seq then t.winLost w else t) t, true)

/-- Store an event, or merge it as a repeat, with the drill's verdict. -/
def State.storeEvent (s : State) (e : Event) (trig : Bool) : State :=
  if s.repeats e then
    let q := s.newestSeq
    let up := fun (x : Rec) => if x.seq = q then { x with rep := x.rep + 1 } else x
    let s := { s with evr := { s.evr with recs := s.evr.recs.map up } }
    if trig then s.trigger q else s
  else
    match s.makeRoom e.sev with
    | (s, false) => (s.bump ⟨Reg.EVR_DROP, 31, 0⟩ 1).cond 15 1
    | (s, true) =>
      let q := s.evr.nextSeq
      let s := (s.append e).spanCount
      if trig then s.trigger q else s

/-- Every event of the ingest queue is stored, in order, without waiting for a drill's verdict. -/
def State.storeAll (s : State) : State :=
  s.evr.queue.foldl (fun s i => s.storeEvent i.ev (i.dv == .verdict 1)) { s with evr := { s.evr with queue := [] } }

/-! ### Commands -/

/-- EVENT_INGEST (R513): a block places an event in the ingest queue. -/
def execEventIngest (e : EvSpec) (s : State) : Res :=
  .next (s.raise e.code.toNat e.sev.val e.tenant.toNat e.data e.obj.toNat e.elem.toNat)

/-- EVENT_STORE (R512): the head of the queue is stored, once a bound drill has given its verdict. -/
def execEventStore (s : State) : Res :=
  .next <| match s.evr.queue with
  | [] => s
  | i :: rest =>
    if i.dv = .waiting && s.drillOn 37 then s else
    let s := { s with evr := { s.evr with queue := rest } }
    s.storeEvent i.ev (i.dv == .verdict 1)

/-- EVR_TRIGCTL_REL (R516). -/
def execEvrTrigctlRel (s : State) : Res := .next s.spanRelease

/-- ADV in EVR_WCTLw (R520): only after a capture of the window's own group that latched a record. -/
def State.winAdvance (s : State) (w : Nat) : State :=
  let x := s.win w
  if s.winOpen w && bitsOf (s.rd 0x780014) 15 8 = 1 + w && x.latched ≠ 0 then
    s.setWin w fun y => { y with cursor := max y.cursor (y.latched + 1) }
  else s

def execEvrWctlAdv (w : Fin 16) (s : State) : Res := .next (s.winAdvance w.val)

/-! ### Opcodes (Tables 20.7 and 20.8) -/

def tWinSetup : Nat := 0x0F01
def tWindow : Nat := 0x0F02
def tFrom : Nat := 0x0F03
def tUpto : Nat := 0x0F04
def tEvrRecord : Nat := 0x0F05
def tWinState : Nat := 0x0F06
def tEvrSetup : Nat := 0x0F07

def sWindow : TlvSpec := { typ := tWindow, lo := 1, hi := 1 }

def windowForm : Chk := fun _ q => if tn q.tlvs tWindow > 15 then some (badAt q.tlvs tWindow 0x0008) else none

/-- The owner of the window, and the operator (R518). -/
def windowPerm : Chk := fun s q =>
  let w := tn q.tlvs tWindow
  if q.tag = 0 || (s.winOpen w && (s.win w).owner == q.owner) then none else some { status := .denied }

def windowExists : Chk := fun s q => if s.winOpen (tn q.tlvs tWindow) then none else some { status := .noObject }

def opEvrOpen : OpDef where
  code := 0x0F01
  schema := [{ typ := tWinSetup, lo := 8, hi := 8 }]
  form := fun _ q =>
    let b := tv q.tlvs tWinSetup
    if beAt b 0 1 > 7 then some (badAt q.tlvs tWinSetup 0x0008)
    else if beAt b 1 3 ≠ 0 then some (badAt q.tlvs tWinSetup 0x0005) else none
  run := fun s q =>
    match firstBelow 16 fun w => !s.winOpen w with
    | none => .refuse { status := .busy }
    | some w =>
      let b := tv q.tlvs tWinSetup
      let s := (((s.wr (Reg.EVR_WCFG w) 0).put (F.EVR_WCFG_EN w) 1).put (F.EVR_WCFG_SEVMAX w) (beAt b 0 1)).put (F.EVR_WCFG_TAG w) q.tag
      let s := (s.wr (Reg.EVR_WMASK w) (beAt b 4 4)).wr (Reg.EVR_WLOST w) 0
      let first := if s.evr.recs.isEmpty then s.evr.nextSeq else s.oldestSeq
      let s := s.setWin w fun _ => ⟨q.owner, first, 0⟩
      .done .ok (tlv tWindow (natBE 1 w)) s

def opEvrClose : OpDef where
  code := 0x0F02
  schema := [sWindow]
  form := windowForm
  perm := windowPerm
  exist := windowExists
  run := fun s q =>
    let w := tn q.tlvs tWindow
    .done .ok [] ((((s.wr (Reg.EVR_WCFG w) 0).wr (Reg.EVR_WMASK w) 0).wr (Reg.EVR_WLOST w) 0).setWin w fun _ => ⟨0, 0, 0⟩)

def opEvrRead : OpDef where
  code := 0x0F03
  schema := [sWindow, { typ := tFrom, lo := 8, hi := 8, minN := 0 }]
  form := windowForm
  perm := windowPerm
  exist := windowExists
  run := fun s q =>
    let w := tn q.tlvs tWindow
    let cur := (s.win w).cursor
    let recs := (s.winRecs w (max cur (tn q.tlvs tFrom))).take 30
    let st := natBE 8 cur ++ natBE 4 (s.rd (Reg.EVR_WLOST w)) ++ natBE 8 s.newestSeq ++ natBE 8 s.oldestSeq
    .done .ok ((recs.map fun x => tlv tEvrRecord (natBE 8 x.seq ++ x.bytes)).flatten ++ tlv tWinState st)
      (s.markShown (recs.map (·.seq)))

def opEvrAck : OpDef where
  code := 0x0F04
  schema := [sWindow, { typ := tUpto, lo := 8, hi := 8 }]
  form := windowForm
  perm := windowPerm
  exist := fun s q => (windowExists s q).or <|
    if tn q.tlvs tUpto > s.newestSeq then some (badAt q.tlvs tUpto 0x0008) else none
  run := fun s q =>
    let u := tn q.tlvs tUpto
    .done .ok [] (s.setWin (tn q.tlvs tWindow) fun y => { y with cursor := max y.cursor (u + 1) })

/-- EVR_CFG and EVR_TRIG hold allowed values (R516). -/
def evrSetupOk (cfg trig : Nat) : Bool := cfg ≤ 3600 && bitsOf trig 31 16 + bitsOf trig 15 0 ≤ 8192

def opEvrCfg : OpDef where
  code := 0x0F05
  schema := [{ typ := tEvrSetup, lo := 8, hi := 8 }]
  form := fun _ q =>
    let b := tv q.tlvs tEvrSetup
    imgFault q.tlvs tEvrSetup [(Reg.EVR_CFG, beAt b 0 4), (Reg.EVR_TRIG, beAt b 4 4)] (evrSetupOk (beAt b 0 4) (beAt b 4 4))
  perm := onlyOperator
  run := fun s q =>
    let b := tv q.tlvs tEvrSetup
    .done .ok [] (s.setImgs [(Reg.EVR_CFG, beAt b 0 4), (Reg.EVR_TRIG, beAt b 4 4)])

def opEvrTrigRelease : OpDef where
  code := 0x0F06
  perm := onlyOperator
  run := fun s _ => .done .ok [] s.spanRelease

def execEvrOpen (r : Req) (s : State) : Res := .next (batonRun opEvrOpen r s)
def execEvrClose (r : Req) (s : State) : Res := .next (batonRun opEvrClose r s)
def execEvrRead (r : Req) (s : State) : Res := .next (batonRun opEvrRead r s)
def execEvrAck (r : Req) (s : State) : Res := .next (batonRun opEvrAck r s)
def execEvrCfg (r : Req) (s : State) : Res := .next (batonRun opEvrCfg r s)
def execEvrTrigRelease (r : Req) (s : State) : Res := .next (batonRun opEvrTrigRelease r s)

end Sys2Proof.Machine
end

