-- ==== Sys2Proof/Machine/Relay.lean ====
section
/-! DEFINITION. Machine/Relay.lean: the relay link as master and as node: frames, slot maps, discovery, loss, break and
return, and the RELAY opcodes (chapter 14). -/

namespace Sys2Proof.Machine

/-! ### Bitmaps and the ring map (R370) -/

/-- Station s in a bitmap: bit 7 − (s mod 8) of byte s div 8. -/
def mapBit (bs : Bytes) (a : Nat) : Bool := bit1 (bs.getD (a / 8) 0).toNat (7 - a % 8) == 1

/-- A 32-byte bitmap of stations. -/
def bitmap (as : List Nat) : Bytes :=
  (List.range 32).map fun i => BitVec.ofNat 8 ((List.range 8).foldl (fun v j => v + b2n (as.contains (8 * i + j)) * 2 ^ (7 - j)) 0)

def mapList (bs : Bytes) : List Nat := (List.range 256).filter (mapBit bs)

def State.relayAddr (s : State) : Nat := s.get F.RELAY_CFG_ADDR
def State.relayL (s : State) : Nat := s.get F.RELAY_LEN_L
def State.msgLen (s : State) : Nat := s.get F.RELAY_LEN_MSG_LEN

/-- Segments with their payload offsets, in payload order. -/
def segOffsets : Nat → List RingSeg → List (RingSeg × Nat)
  | _, [] => []
  | o, g :: r => (g, o) :: segOffsets (o + g.len) r

/-- The segments of the ring: the master status segment takes the first 68 bytes. -/
def State.ringSegs (s : State) : List (RingSeg × Nat) := segOffsets 68 (Config.ringMap (s.rd Reg.RELAY_MAPID))

def State.ringPos (s : State) (addr : Nat) : Nat := ((s.ringSegs.find? fun p => p.1.addr == addr).map (·.1.pos)).getD 0

/-- The owner of the segment in which a payload offset lies. -/
def State.ringOwner (s : State) (ofs : Nat) : Nat :=
  ((s.ringSegs.find? fun p => p.2 ≤ ofs && ofs < p.2 + p.1.len).map (·.1.addr)).getD 0

/-- The first bytes of the message area and of the acknowledge area. -/
def State.msgOfs (s : State) : Nat := s.relayL - 32 - s.msgLen
def State.ackOfs (s : State) : Nat := s.relayL - 32

/-! ### Slot maps (R372, R377) -/

def entOverlap (a b : Nat) : Bool := entOfs a < entOfs b + entLen b && entOfs b < entOfs a + entLen a

/-- A slot map keeps the rules of R372. -/
def State.mapOk (s : State) (es : List Nat) : Bool :=
  let own := s.ringSegs.find? fun p => p.1.addr == s.relayAddr
  let used := es.filter fun w => entDir w != 0
  (used.all fun w =>
    bitsOf w 20 15 == 0 && entDir w != 3 &&
    (if entDir w = 2 then
      match own with
      | some p => p.2 + 4 ≤ entOfs w && entOfs w + entLen w ≤ p.2 + p.1.len
      | none => false
    else 68 ≤ entOfs w && entOfs w + entLen w ≤ s.msgOfs)) &&
  (List.range used.length).all fun i => (List.range i).all fun j =>
    let a := used.getD i 0
    let b := used.getD j 0
    !(entOverlap a b && ((entDir a == 2 && entDir b == 2) || (entC0 a != entC0 b)))

def State.stagedMap (s : State) : List Nat := (List.range 32).map fun n => s.rd (Reg.RELAY_MAPS n)

/-- GO: the staged map is committed; it applies from the next frame (R377). A map that breaks R372 is not committed. -/
def State.mapGo (s : State) : State :=
  if s.get F.RELAY_MAPGO_GO = 1 || !s.mapOk s.stagedMap then s else s.put F.RELAY_MAPGO_GO 1

def execRelayMapgo (s : State) : Res := .next (if s.blkOn 8 then s.mapGo else s)

/-- Frame k is the first with the new map. -/
def State.mapApplied (s : State) (k : Nat) : State := (s.cond 8 7).raise 0x080A 6 0 (natBE 8 k)

/-- The entries of a RELAY_MAP that ends OK enter configuration memory (R554). -/
def State.mapStore (s : State) (i : Item) : State :=
  match parseTlvs (i.data.length + 1) 12 i.data with
  | .ok ts => (tvs ts 0x0802).foldl (fun s v => s.storeVal (Reg.RELAY_MAPS (beAt v 0 1)) (beAt v 1 4)) s
  | .error _ => s

/-- Committed maps apply at the start of frame k (R377). -/
def State.mapApply (s : State) (k : Nat) : State :=
  let s := if s.get F.RELAY_MAPGO_GO = 1 then
      let s := s.stagedMap.zip (List.range 32) |>.foldl (fun s p => s.wr (Reg.RELAY_MAP p.2) p.1) s
      let s := (s.baton.items.filter fun i => i.wait == .relayMap).foldl State.mapStore s
      ((s.put F.RELAY_MAPGO_GO 0).mapApplied k).endWaiting .relayMap (fun _ => true) .ok
    else s
  if s.relay.drillMap.isEmpty then s else
  let dm := s.relay.drillMap
  let s := s.setRelay fun r => { r with drillMap := [] }
  let t := dm.foldl (fun t p => t.wr (Reg.RELAY_MAP p.1) p.2.toNat) s
  if t.mapOk ((List.range 32).map fun n => t.relayEnt n) then t.mapApplied k else s

/-! ### States and stations -/

/-- RSTATE changes (Table 14.7). A node that leaves RUN has no upstream port (R364). -/
def State.relayTo (s : State) (st : Nat) : State :=
  let old := s.rstate
  if old = st then s else
  let s := if old = rsRun then s.setRelay fun r => { r with upPort := none } else s
  ((s.put F.RELAY_STAT_RSTATE st).healthSync.cond 8 0).raise 0x0801 6 0 (natBE 1 old ++ natBE 1 st ++ natBE 1 (s.get F.RELAY_STAT_TOPO_RX))

/-- LOST on every element of a read entry whose owner passes `p`; a point that has had no first receipt stays COLD. -/
def State.relayPointsLost (s : State) (p : Nat → Bool) : State :=
  (s.relay.binds.filter fun b => b.station == 0 && p (s.ringOwner (entOfs (s.relayEnt b.entry)))).foldl (fun s b =>
    match s.elem? b.obj b.elem with
    | some x => if x.src = qCold then s else s.setSrc b.obj b.elem qLost
    | none => s) s

/-- A read entry is handed to the image whole, and its bound elements take their values (R373, R375, R388). -/
def State.relayRead (s : State) (n : Nat) (bytes : Bytes) : State :=
  let s := s.setRelay fun r => { r with inImg := setNth r.inImg n bytes }
  let owner := s.ringOwner (entOfs (s.relayEnt n))
  if s.relayGone owner then s else
  (s.relay.binds.filter fun b => b.station == 0 && b.entry == n).foldl (fun s b =>
    if !s.slotReadOk owner b then s.setSrc b.obj b.elem qLost else
    match s.elem? b.obj b.elem with
    | some x =>
      let v := slotVal b.vt (slice bytes b.off (slotWidth b.vt))
      ((s.arrive b.obj b.elem (convTo b.vt x.vtype v)).deliver b.obj b.elem).loopTake b.obj b.elem
    | none => s) s

/-- A read entry is received: a C0 entry when it ends before a symbol error, another one when the frame's FCS passes (R374). -/
def State.readOk (s : State) (n : Nat) (bad : Option Nat) (ok : Bool) : Bool :=
  let w := s.relayEnt n
  entDir w == 1 && if entC0 w then (match bad with
    | some b => Nat.ble (entOfs w + entLen w) b
    | none => true) else ok

/-- Where an entry completes: C0 entries as they pass, the others at the end of the frame, in payload order. -/
def entRank (w : Nat) : Nat := (if entC0 w then 0 else 2 ^ 15) + entOfs w

/-- The trigger entry, while TRIG_EN is set (R376). -/
def State.trigEnt? (s : State) : Option Nat :=
  if s.get F.RELAY_TMO_TRIG_EN = 1 then some (s.get F.RELAY_TMO_TRIG_ENT) else none

/-- Points bound to entry n as they stand. -/
def State.slotPriors (s : State) (n : Nat) : List SlotPrior :=
  (s.relay.binds.filter fun b => b.station == 0 && b.entry == n).filterMap fun b =>
    (s.view? b.obj b.elem).map fun v => ⟨b.obj, b.elem, v.vt, v.value, v.src, v.rep⟩

/-- Read entries of a payload. When the trigger entry is among them its trigger is to come, and the points behind it are kept as the
samples of that trigger capture them (R207). -/
def State.relayReads (s : State) (pay : Bytes) (bad : Option Nat) (ok : Bool) : State :=
  let got := (List.range 32).filter fun n => s.readOk n bad ok
  let late : List SlotPrior := match s.trigEnt? with
    | some t => (got.filter fun n => entRank (s.relayEnt n) > entRank (s.relayEnt t)).flatMap s.slotPriors
    | none => []
  let s := { s with engine := { s.engine with before := late } }
  let s := got.foldl (fun s n => s.relayRead n (slice pay (entOfs (s.relayEnt n)) (entLen (s.relayEnt n)))) s
  if s.trigEnt?.any got.contains then s.setRelay fun r => { r with trigger := true } else s

/-- Due lap writes reach the output image with the frame that carries them (R379). -/
def State.relayLoad (s : State) (k : Nat) : State :=
  let due := s.relay.writes.filter fun w => w.carry.isNone && w.atNs + 2000 ≤ s.clk
  due.foldl (fun s w =>
    let s := match firstBelow 32 fun n => entDir (s.relayEnt n) == 2 && entOfs (s.relayEnt n) ≤ w.ofs &&
        w.ofs + w.data.length ≤ entOfs (s.relayEnt n) + entLen (s.relayEnt n) with
      | some n => s.relayPut n (w.ofs - entOfs (s.relayEnt n)) w.data
      | none => s
    s.setRelay fun r => { r with writes := r.writes.map fun x => if x = w then { x with carry := some k } else x }) s

/-- The write entries fill their bytes of a payload from the output image (R373). -/
def State.relayFill (s : State) (pay : Bytes) : Bytes :=
  (List.range 32).foldl (fun pay n =>
    let w := s.relayEnt n
    if entDir w = 2 then setBytes pay (entOfs w) (padTo (entLen w) (s.relay.outImg.getD n [])) else pay) pay

/-- Flags of the own segment. -/
def State.segFlags (s : State) : Nat :=
  1 + b2n s.relay.outLive * 2 + (s.get F.RELAY_STAT_LINK0 * s.get F.RELAY_STAT_LINK1) * 4

/-- What the segments of a payload tell of their stations: WRITTEN and OUT_LIVE. -/
def State.segSeen (s : State) (pay : Bytes) (k : Nat) : State :=
  s.ringSegs.foldl (fun s p =>
    let f := beAt pay (p.2 + 1) 1
    if bit1 f 0 = 0 || p.1.addr = 0 then s else
    if s.relay.stations.any fun x => x.addr == p.1.addr && x.obj != 0 then
      s.modStation p.1.addr fun x => { x with seen := k, outLive := bit1 f 1 == 1, st := if x.st = 0 then 1 else x.st, pos := p.1.pos }
    else s) s

/-- Writes in flight whose outcome APPLIED of frame k shows end (R380); `after` tells whether a target applies the carrying frame
itself. -/
def State.relayApplied (s : State) (k : Nat) (applied : List Nat) (after : Nat → Bool) : State :=
  let eff (w : RWrite) : Option Nat := w.carry.map fun c => if after w.station then c else c + 1
  let s := s.setRelay fun r => { r with applied := applied, appliedK := k }
  let done := s.relay.writes.filter fun w => eff w == some k && applied.contains w.station
  let failed := s.relay.writes.filter fun w =>
    match eff w with
    | some e => e < k || (e == k && !applied.contains w.station)
    | none => false
  let s := done.foldl (fun s w => s.relayWriteEnd w stDone) s
  failed.foldl (fun s w => s.relayWriteEnd w stFailed) s

/-- A header or FCS fault (R369, R371). -/
def State.relayFault (s : State) (firstBad : Nat) : State :=
  ((s.bump F.RELAY_CNT_FCS 1).cond 8 5).raiseLim 0x0807 0 sec 4 0 fun n => natBE 1 firstBad ++ natBE 4 n

/-! ### Message area (R386) -/

/-- A chunk as bytes, its data padded to 4 bytes. -/
def RChunk.bytes (c : RChunk) (consumed : Bool) : Bytes :=
  natBE 1 c.dst ++ natBE 1 c.src ++ natBE 1 c.cls ++ natBE 1 (b2n consumed) ++ natBE 2 c.data.length ++ natBE 2 c.seq ++
    padTo ((c.data.length + 3) / 4 * 4) c.data

def RChunk.size (c : RChunk) : Nat := 8 + (c.data.length + 3) / 4 * 4

/-- The chunks of a message area, with CONSUMED; a length of 0 marks free space. -/
def parseChunks : Nat → Bytes → List (RChunk × Bool)
  | 0, _ => []
  | f + 1, bs =>
    let n := beAt bs 4 2
    if bs.length < 8 || n = 0 || bs.length < 8 + n then [] else
    let c : RChunk := ⟨beAt bs 0 1, beAt bs 1 1, beAt bs 2 1, beAt bs 6 2, slice bs 8 n⟩
    (c, beAt bs 3 1 % 2 == 1) :: parseChunks f (bs.drop c.size)

def chunkBytes (cs : List RChunk) : Nat := cs.foldl (fun a c => a + c.size) 0

/-- The queued chunks that free space takes, chosen among the classes by weight (R23, R386). -/
def State.pickChunks (s : State) (space : Nat) : List RChunk :=
  wrrTake RChunk.cls RChunk.size (s.get F.RELAY_WGT_W1, s.get F.RELAY_WGT_W2, s.get F.RELAY_WGT_W3) s.relay.txq.length space (0, 0, 0)
    s.relay.txq

/-- Put queued chunks into the free space of an area that already holds `cs`. -/
def State.msgFill (s : State) (cs : List (RChunk × Bool)) : Bytes × State :=
  let used := chunkBytes (cs.map Prod.fst)
  let new := s.pickChunks (s.msgLen - used)
  let s := s.setRelay fun r => { r with txq := r.txq.filter fun c => !(new.contains c) }
  (padTo s.msgLen ((cs.map fun p => p.1.bytes p.2).flatten ++ (new.map fun c => c.bytes false).flatten), s)

/-! ### Frames (R369 to R371) -/

/-- A frame whose header check passes. -/
structure RFrame where
  typ    : Nat
  k      : Nat
  sof    : Nat
  period : Nat
  mapId  : Nat
  topo   : Nat
  pay    : Bytes
  fcsOk  : Bool
  bad    : Bool
  fbad   : Nat
  deriving DecidableEq, Repr

def parseFrame (bs : Bytes) : Option RFrame :=
  if bs.length < 32 || beAt bs 0 1 ≠ 2 || crc16 (bs.take 30) ≠ beAt bs 30 2 then none else
  let typ := beAt bs 1 1
  let n := if typ = 1 then 2048 else beAt bs 2 2
  some ⟨typ, beAt bs 4 8, beAt bs 12 8, beAt bs 20 4, beAt bs 24 4, beAt bs 28 1, slice bs 32 n,
    bs.length == n + 40 && crc32 (bs.take (32 + n)) == beAt bs (32 + n) 4, beAt bs (36 + n) 1 % 2 == 1, beAt bs (37 + n) 1⟩

/-- The header of Table 14.3. -/
def State.relayHdr (s : State) (typ k : Nat) (sof : W64) : Bytes :=
  let h := natBE 1 2 ++ natBE 1 typ ++ natBE 2 s.relayL ++ natBE 8 k ++ natBE 8 sof.toNat ++ natBE 4 s.relayPeriod ++
    natBE 4 (s.rd Reg.RELAY_MAPID) ++ natBE 1 (s.get F.RELAY_STAT_TOPO_RX) ++ natBE 1 0
  h ++ natBE 2 (crc16 h)

def State.relaySend (s : State) (port : Nat) (bs : Bytes) : State := s.emit (.relayFrame port bs)

/-! ### Node (R364 to R377, R380 to R382) -/

def linkFld (port : Nat) : Fld := if port = 0 then F.RELAY_STAT_LINK0 else F.RELAY_STAT_LINK1

/-- Where a node sends on what arrives at a port: out of the other port, or back out of the same one while that one is not locked or loops
(R363, R383). -/
def State.outPort (s : State) (port : Nat) : Nat :=
  if s.get (linkFld (1 - port)) = 1 && !s.relay.looped.contains (1 - port) then 1 - port else port

/-- The node processes the frame: at its upstream port, or in SPLIT the first time that frame k passes; on the way back it does not (R363,
R364, R384). -/
def State.nodeTakes (s : State) (port : Nat) (f : RFrame) : Bool :=
  match s.relay.upPort with
  | none => true
  | some u => if f.topo = 2 then f.k != s.relay.k else u == port

/-- The node's record of a HELLO frame (R378). -/
def State.helloAnswer (s : State) (pay : Bytes) : Bytes × State :=
  let a := s.relayAddr
  let o := 8 * (a - 1)
  let old := slice pay o 8
  if old.all (· == 0) then
    (setBytes pay o (natBE 1 a ++ natBE 1 2 ++ natBE 1 2 ++ natBE 1 1 ++ natBE 4 (s.rd Reg.RELAY_MAPID)),
     s.setRelay fun r => { r with claimed := true, excluded := r.excluded.filter fun x => x.1 != a })
  else
    (setBytes pay (o + 3) (natBE 1 (satAdd 255 (beAt old 3 1) 1)),
     s.setRelay fun r => { r with excluded := (r.excluded.filter fun x => x.1 != a) ++ [(a, 3)] })

/-- What every valid frame brings a node: the period, the topology and the upstream port (R364). -/
def State.nodeHeard (s : State) (port : Nat) (f : RFrame) : State :=
  let s := ((s.put F.RELAY_PER_PERIOD f.period).put F.RELAY_STAT_TOPO_RX f.topo).setRelay fun r =>
    { r with k := f.k, sof := BitVec.ofNat 64 f.sof, sofClk := s.clk, lastOk := s.clk, upPort := some (r.upPort.getD port) }
  s.put F.RELAY_STAT_UP1 port

/-- The node leaves a frame alone: it passes its bytes on. -/
def State.nodePass (s : State) (port : Nat) (bs : Bytes) : State := s.relaySend (s.outPort port) bs

/-- The RELAY drill host at the end of the frame (Table 4.5). -/
def State.relayDrill (s : State) : State :=
  let bm (w : Nat) : W32 := BitVec.ofNat 32 ((List.range 32).foldl (fun v j => v + b2n (s.relay.lost.contains (32 * w + j + 1)) * 2 ^ j) 0)
  let fs : List (Nat × W32) := [(0, BitVec.ofNat 32 s.relay.k), (1, BitVec.ofNat 32 s.relayAddr), (2, BitVec.ofNat 32 s.rstate)] ++
    (List.range 8).map fun w => (if w = 0 then 3 else 3 + w, bm w)
  match s.drillTrigger 36 ⟨fs, .relay⟩ with
  | some (t, _) => t
  | none => s

/-- LOST of the master status segment, as a node takes it (R381). -/
def State.nodeLost (s : State) (lost : List Nat) : State :=
  let s := s.setRelay fun r => { r with lost := lost }
  let s := s.relay.stations.foldl (fun s x =>
    if lost.contains x.addr && x.st = 1 then
      s.modStation x.addr fun y => { y with st := 2, losses := (y.losses + 1) % 2 ^ 32, lostAt := s.relay.k }
    else if !lost.contains x.addr && x.st = 2 then s.modStation x.addr fun y => { y with st := 1 } else s) s
  (s.relayPointsLost fun a => lost.contains a).relayEndAll (fun w => lost.contains w.station) stFailed

/-- A chunk that arrives marked class 0 is carried on as class 1 (R24, R386). -/
def RChunk.carried (c : RChunk) : RChunk := { c with cls := if c.cls = 0 then 1 else c.cls }

/-- Chunks that arrive marked class 0 are counted (R24). -/
def State.c0Chunks (s : State) (cs : List (RChunk × Bool)) : State :=
  s.setRelay fun r => { r with c0recl := (r.c0recl + (cs.filter fun p => p.1.cls == 0).length) % 2 ^ 32 }

/-- The station copies the chunks for it, or for all stations, which nobody has consumed (R386). -/
def State.msgCopy (s : State) (cs : List (RChunk × Bool)) : State :=
  s.setRelay fun r => { r with rx := (cs.filter fun p => !p.2 && (p.1.dst == s.relayAddr || p.1.dst == 255)).map fun p => p.1.carried }

/-- Mark the chunks for this station (R386); class 0 goes on as class 1. -/
def State.msgTake (s : State) (cs : List (RChunk × Bool)) : List (RChunk × Bool) :=
  cs.map fun p => (p.1.carried, p.2 || p.1.dst == s.relayAddr)

/-- The write entries that take a loop's output in the frame of its trigger (R376): bound to DEST0 of a loop that meets R220, and
starting at least 100 bytes after the end of the trigger entry. -/
def State.sameFrame (s : State) (bad : Option Nat) (ok : Bool) : List Nat :=
  match s.trigEnt? with
  | none => []
  | some t =>
    let far := entOfs (s.relayEnt t) + entLen (s.relayEnt t) + 100
    if !s.blkOn 4 || !s.readOk t bad ok || !entC0 (s.relayEnt t) then [] else
    (List.range 32).filter fun n => entDir (s.relayEnt n) == 2 && Nat.ble far (entOfs (s.relayEnt n)) &&
      (List.range 16).any fun k => s.loopC0 k && s.loopRuns k && ((s.loopSt k).bind? 3).any fun d =>
        s.relay.binds.any fun b => b.entry == n && b.station != 0 && b.obj == d.obj && b.elem == d.elem

/-- Every read entry has been received without a symbol error (R380). -/
def State.allRead (s : State) (bad : Option Nat) : Bool :=
  (List.range 32).all fun n =>
    let w := s.relayEnt n
    entDir w != 1 || match bad with
      | some b => Nat.ble (entOfs w + entLen w) b
      | none => true

/-- The end of a frame with Topology 0 ends the loopback of a port that is locked (R385). -/
def State.endLoop (s : State) (topo : Nat) : State :=
  if topo ≠ 0 then s else s.setRelay fun r => { r with looped := r.looped.filter fun p => s.get (linkFld p) == 0 }

/-- A cyclic frame at a node that takes part. -/
def State.nodeCyclic (s : State) (port : Nat) (f : RFrame) (hdr : Bytes) (bad : Option Nat) : State :=
  let s := s.mapApply f.k
  let s := if s.rstate = rsRun then s else
    ((s.relayTo rsRun).put F.RELAY_STAT_POS (s.ringPos s.relayAddr)).alignBack
  let ok := f.fcsOk && !f.bad && bad.isNone
  let s := s.relayLoad f.k
  -- the own segment, the message area and the acknowledge bit
  let pay := match s.ringSegs.find? fun p => p.1.addr == s.relayAddr with
    | some p => s.relayFill (setBytes f.pay (p.2 + 1) (natBE 1 s.segFlags))
    | none => f.pay
  let arrived := parseChunks s.msgLen (slice f.pay s.msgOfs s.msgLen)
  let (msg, s) := ((s.c0Chunks arrived).msgCopy arrived).msgFill (s.msgTake arrived)
  let pay := setBytes pay s.msgOfs msg
  let ack := if s.allRead bad then bitmap (mapList (slice pay s.ackOfs 32) ++ [s.relayAddr]) else slice pay s.ackOfs 32
  let pay := setBytes pay s.ackOfs ack
  let pos := s.get F.RELAY_STAT_POS
  let wrong := f.bad || !f.fcsOk
  let first := if !f.fcsOk && f.fbad = 0 then pos else f.fbad
  let ents := s.sameFrame bad ok
  let s := if ents.isEmpty then s.relaySend (s.outPort port) (frameBytes hdr pay wrong first)
    else s.setRelay fun r => { r with passing := some ⟨s.outPort port, hdr, pay, wrong, first, ents⟩ }
  -- what the frame brings
  let s := if f.fcsOk then s else s.relayFault (if f.fbad = 0 then pos else f.fbad)
  let s := s.segSeen f.pay f.k
  let s := s.nodeLost (mapList (slice f.pay 4 32))
  let s := s.relayReads f.pay bad ok
  let s := s.relayApplied (f.k - 1) (mapList (slice f.pay 36 32)) fun a =>
    -- in the RL1 half the positions are taken in the reverse order (R384)
    if f.topo = 2 && s.relay.upPort != some port then s.ringPos a < pos else s.ringPos a > pos
  let s := if ok then s.setRelay fun r => { r with outLive := true } else s
  (s.endLoop f.topo).relayDrill

/-- The first cyclic frame after a HELLO frame that the node has answered tells by LOST whether the master leaves it out (R378). -/
def State.claimEnd (s : State) (f : RFrame) : State :=
  if !s.relay.claimed || !f.fcsOk then s else
  let a := s.relayAddr
  s.setRelay fun r => { r with claimed := false, excluded := if mapBit (slice f.pay 4 32) a then r.excluded ++ [(a, 0)] else r.excluded }

/-- A frame reaches a node's port. -/
def State.nodeFrame (s : State) (port : Nat) (bs : Bytes) (bad : Option Nat) : State :=
  if s.relayRole ≠ 1 || s.rstate = rsOff || !s.blkOn 8 then s else
  match parseFrame bs with
  | none => (s.relayFault 0).nodePass port bs
  | some f =>
    if !s.nodeTakes port f then s.nodePass port bs else
    let s := s.relayFlush.nodeHeard port f
    let hdr := bs.take 32
    if f.typ = 1 then
      let (pay, s) := s.helloAnswer f.pay
      let s := s.relayTo rsDiscover
      s.relaySend (s.outPort port) (frameBytes hdr pay f.bad f.fbad)
    else if f.mapId ≠ s.rd Reg.RELAY_MAPID then
      let s := if s.relay.mapExcl then s else
        (s.setRelay fun r => { r with mapExcl := true }).raise 0x0804 3 0 (natBE 1 s.relayAddr ++ natBE 1 2)
      (s.relayTo rsExcluded).nodePass port (frameBytes hdr f.pay f.bad f.fbad)
    else
      let s := s.claimEnd f
      if s.relay.excluded.any fun x => x.1 == s.relayAddr then
        (s.relayTo rsExcluded).nodePass port (frameBytes hdr f.pay f.bad f.fbad)
      else (s.setRelay fun r => { r with mapExcl := false }).nodeCyclic port f hdr bad

def execRelayFrame (port : Fin 2) (bs : Bytes) (bad : Option Nat) (s : State) : Res := .next (s.nodeFrame port.val bs bad)

/-- A node hears no valid frame for LOSS_N periods (R381). -/
def State.noframe (s : State) : State :=
  if s.relayRole ≠ 1 || (s.rstate ≠ rsRun && s.rstate ≠ rsExcluded) then s else
  let s := (s.reach (s.relay.lastOk + s.get F.RELAY_TMO_LOSS_N * s.relayPeriod)).relayFlush
  let s := (s.relayTo rsNoframe).relayPointsLost fun _ => true
  (s.relayEndAll (fun _ => true) stFailed).alignLoss

def execNoframe (s : State) : Res := .next s.noframe

/-- The last valid frame is HOLD_MS old (R382). -/
def State.relayHold (s : State) : State :=
  if s.relayRole ≠ 1 || !s.relay.outLive then s else
  let s := s.reach (s.relay.lastOk + s.get F.RELAY_TMO_HOLD_MS * msec)
  let s := s.setRelay fun r => { r with outLive := false }
  (s.relay.binds.filter fun b => b.station == 0 && b.elem == 1).foldl (fun s b =>
    match s.uioOfObj b.obj with
    | some n => s.uioTakeStart n
    | none => s) s

def execRelayHold (s : State) : Res := .next s.relayHold

/-! ### Master (R366 to R368, R375, R378, R380, R383 to R386) -/

/-- R367 holds for a payload length over a span of periods. -/
def State.budgetOk (s : State) (l span : Nat) : Bool := 8 * (l + 72) + s.get F.RELAY_DELAY_D ≤ span

/-- The check of R367 with the measured delay. -/
def State.budgetCheck (s : State) : State :=
  if s.budgetOk s.relayL s.relayPeriod then s
  else s.raise 0x0809 3 0 (natBE 4 s.relayL ++ natBE 4 (s.get F.RELAY_DELAY_D) ++ natBE 4 s.relayPeriod)

/-- The master goes over to SPLIT (R383). -/
def State.toSplit (s : State) (lo hi : Nat) : State :=
  if s.relayRole ≠ 2 || s.get F.RELAY_CFG_TOPO ≠ 0 || s.rstate ≠ rsRun || s.get F.RELAY_STAT_TOPO_RX = 2 then s else
  let s := (s.put F.RELAY_STAT_TOPO_RX 2).setRelay fun r => { r with splitAt := some s.clk, linksOk := none }
  (((s.cond 8 3).raise 0x0805 2 0 (natBE 1 lo ++ natBE 1 hi))).budgetCheck

/-- The payload of a cyclic frame as the master sends it (R370, R375). -/
def State.masterPay (s : State) : Bytes × State :=
  let st := natBE 1 255 ++ natBE 1 s.segFlags ++ natBE 2 68 ++ bitmap s.relay.lost ++ bitmap s.relay.applied
  let segs := (s.ringSegs.map fun p =>
    let old := padTo p.1.len (slice s.relay.last p.2 p.1.len)
    let fl := if p.1.addr = 0 then s.segFlags else (beAt old 1 1) / 2 * 2 % 8
    natBE 1 p.1.addr ++ natBE 1 fl ++ natBE 2 p.1.len ++ old.drop 4).flatten
  let (msg, s) := s.msgFill (s.relay.carryOver.map fun c => (c, false))
  let s := s.setRelay fun r => { r with carryOver := [] }
  (s.relayFill (padTo s.msgOfs (st ++ segs) ++ msg ++ List.replicate 32 0), s)

/-- The next multiple of PERIOD of the system time, and the clock at that instant. -/
def State.nextPeriod (s : State) : Nat × Nat :=
  let p : Int := max 1 s.relayPeriod
  let now := s.sysNow
  let k := if now % p = 0 && (now / p).toNat ≠ s.relay.k then now / p else now / p + 1
  (k.toNat, (s.clk + (k * p - now)).toNat)

/-- Ports on which the master sends; the frame that closes the ring still goes out of both (R385). -/
def State.masterPorts (s : State) : List Nat :=
  if s.relay.closing || s.get F.RELAY_STAT_TOPO_RX = 2 || s.get F.RELAY_CFG_TOPO = 2 then [0, 1] else [0]

/-- The instant of frame k at the master (R366, R368, R378). -/
def State.frameStart (s : State) (lo hi : Nat) : State :=
  if s.relayRole ≠ 2 || !s.blkOn 8 || (s.rstate ≠ rsDiscover && s.rstate ≠ rsRun) then s else
  let (k, t) := s.nextPeriod
  let s := s.reach t
  let sof := s.tsNow
  let s := s.setRelay fun r => { r with k := k, sof := sof, sofClk := s.clk }
  -- HELLO frames go out every m periods
  let m := max 1 (ceilDiv (8 * 2120 + s.get F.RELAY_DELAY_D) (max 1 s.relayPeriod))
  if s.rstate = rsDiscover && k % m ≠ 0 then s else
  if s.relay.outstanding then
    let s := ((s.bump F.RELAY_CNT_SKIP 1).cond 8 6).raiseLim 0x0808 0 sec 3 0 fun n => natBE 4 (s.get F.RELAY_DELAY_D) ++ natBE 4 n
    (s.setRelay fun r => { r with outstanding := false, helloN := 0 }).toSplit lo hi
  else if s.rstate = rsDiscover then
    let bs := frameBytes (s.relayHdr 1 k sof) (List.replicate 2048 0) false 0
    (s.masterPorts.foldl (fun s p => s.relaySend p bs) s).setRelay fun r => { r with outstanding := true }
  else
    let s := (s.mapApply k).relayLoad k
    let (pay, s) := s.masterPay
    let bs := frameBytes (s.relayHdr 2 k sof) pay false 0
    (s.masterPorts.foldl (fun s p => s.relaySend p bs) s).setRelay fun r => { r with outstanding := true, closing := false }

def execRelayFrameStart (lo hi : Byte) (s : State) : Res := .next (s.frameStart lo.toNat hi.toNat)

/-- The segments of several returned halves merged: each from the half in which its owner wrote it (R384). -/
def State.mergePay (s : State) (ps : List Bytes) : Bytes :=
  match ps with
  | [] => []
  | p :: rest =>
    let pay := s.ringSegs.foldl (fun pay g =>
      match rest.find? fun q => beAt pay (g.2 + 1) 1 % 2 = 0 && beAt q (g.2 + 1) 1 % 2 = 1 with
      | some q => setBytes pay g.2 (slice q g.2 g.1.len)
      | none => pay) p
    setBytes pay s.ackOfs (bitmap ((p :: rest).flatMap fun q => mapList (slice q s.ackOfs 32)))

/-- WRITTEN of each station in a returned frame: losses and returns (R381). -/
def State.masterStations (s : State) (pay : Bytes) (k : Nat) : State :=
  let excl (a : Nat) : Bool := s.relay.excluded.any fun x => x.1 == a
  (s.ringSegs.filter fun p => p.1.addr != 0 && !excl p.1.addr).foldl (fun s p =>
    let a := p.1.addr
    let s := if s.relay.stations.any fun x => x.addr == a then s else
      s.setRelay fun r => { r with stations := r.stations ++ [⟨a, 0, 0, p.1.pos, 0, 0, 0, false, 0, 0, 0, s.clk⟩] }
    let written := beAt pay (p.2 + 1) 1 % 2 = 1
    match s.relay.stations.find? fun x => x.addr == a with
    | none => s
    | some x =>
      let obj := x.obj
      if written then
        if s.relayGone a then
          if x.back + 1 ≥ 2 then
            let s := s.setRelay fun r => { r with lost := r.lost.filter (· != a) }
            let s := s.modStation a fun y => { y with st := 1, back := 0, miss := 0, seen := k }
            (s.cond 8 2).raise 0x0803 5 (s.tagOf obj) (natBE 1 a ++ natBE 8 (k - x.lostAt)) obj 0
          else s.modStation a fun y => { y with back := y.back + 1 }
        else s.modStation a fun y => { y with st := 1, miss := 0, seen := k }
      else
        let m := x.miss + 1
        let s := s.modStation a fun y => { y with miss := m, back := 0 }
        if m ≥ s.get F.RELAY_TMO_LOSS_N && !s.relayGone a then
          let s := s.setRelay fun r => { r with lost := r.lost ++ [a] }
          let s := s.modStation a fun y => { y with st := 2, losses := (y.losses + 1) % 2 ^ 32, lostAt := k }
          let s := (s.cond 8 1).raise 0x0802 3 (s.tagOf obj) (natBE 1 a ++ natBE 1 p.1.pos ++ natBE 8 k) obj 0
          (s.relayPointsLost (· == a)).relayEndAll (fun w => w.station == a) stFailed
        else s) s

/-- Chunks of a returned area: consumed ones go, others wait for the next frame, old ones are dropped (R386). -/
def State.masterMsgs (s : State) (pay : Bytes) : State :=
  let arrived := parseChunks s.msgLen (slice pay s.msgOfs s.msgLen)
  arrived.foldl (fun s p =>
    let c := p.1.carried
    let key := (c.src, c.seq)
    if p.2 || c.dst = 0 then s.setRelay fun r => { r with unconsumed := r.unconsumed.filter (· != key) } else
    if (s.relay.unconsumed.filter (· == key)).length ≥ 2 then
      let s := s.setRelay fun r => { r with unconsumed := r.unconsumed.filter (· != key), drops := (r.drops + 1) % 2 ^ 32 }
      s.cond 8 8
    else s.setRelay fun r => { r with unconsumed := r.unconsumed ++ [key], carryOver := r.carryOver ++ [c] }) ((s.c0Chunks arrived).msgCopy arrived)

/-- Every node shows LINKS_OK (R385). -/
def State.linksSeen (s : State) (pay : Bytes) : State :=
  let all := (s.ringSegs.filter fun p => p.1.addr != 0).all fun p => bit1 (beAt pay (p.2 + 1) 1) 2 = 1
  s.setRelay fun r => { r with linksOk := if all then (if r.linksOk.isSome then r.linksOk else some s.clk) else none }

/-- Records of a HELLO payload that a node has written. -/
def helloRecs (pay : Bytes) : List HelloRec :=
  ((List.range 254).map fun i => (⟨i + 1, beAt pay (8 * i + 1) 1, beAt pay (8 * i + 2) 1, beAt pay (8 * i + 3) 1, beAt pay (8 * i + 4) 4⟩ : HelloRec)).filter
    fun r => r.claims != 0

/-- Why the master leaves a node out (R378): 1 format, 2 MAP_ID, 3 duplicate. -/
def State.exclReason (s : State) (r : HelloRec) : Nat :=
  if r.lo > 2 || r.hi < 2 then 1 else if r.mapId ≠ s.rd Reg.RELAY_MAPID then 2 else if r.claims > 1 then 3 else 0

/-- A HELLO frame returns (R378). -/
def State.helloReturn (s : State) (pay : Bytes) : State :=
  let recs := helloRecs pay
  let n := if recs = s.relay.hello then s.relay.helloN + 1 else 1
  let s := s.setRelay fun r => { r with hello := recs, helloN := n }
  if n < 3 then s else
  let s := s.setRelay fun r => { r with helloN := 0 }
  if !s.budgetOk s.relayL s.relayPeriod then s.budgetCheck else
  let excl := (recs.map fun r => (r.addr, s.exclReason r)).filter fun p => p.2 != 0
  let answered (a : Nat) : Bool := recs.any fun r => r.addr == a
  let out := s.ringSegs.filter fun p => p.1.addr != 0 && !answered p.1.addr
  let absent := out.map fun p => p.1.addr
  let s := out.foldl (fun s p => if s.relay.stations.any fun x => x.addr == p.1.addr then s else
    s.setRelay fun r => { r with stations := r.stations ++ [⟨p.1.addr, 0, 0, p.1.pos, 0, 0, 0, false, 0, 0, 0, s.clk⟩] }) s
  let state (x : RStation) : Nat := if excl.any (fun p => p.1 == x.addr) then 3 else if absent.contains x.addr then 2 else x.st
  let sts := s.relay.stations.map fun x => { x with st := state x, miss := 0, back := 0, lostAt := if state x = 2 then s.relay.k else x.lostAt, since := if state x = x.st then x.since else s.clk }
  let s := s.setRelay fun r => { r with excluded := excl, lost := excl.map Prod.fst ++ absent, stations := sts }
  let s := s.relay.stations.foldl (fun s x => s.rstImage x) s
  let s := excl.foldl (fun s p => s.raise 0x0804 3 0 (natBE 1 p.1 ++ natBE 1 p.2)) s
  let s := s.put F.RELAY_STAT_TOPO_RX (if s.get F.RELAY_CFG_TOPO = 0 then 0 else 1)
  (s.relayTo rsRun).alignBack

/-- A frame, or both halves of one, returns to the master (R368, R375, R380, R381). -/
def State.masterReturn (s : State) (d : Nat) (frames : List Bytes) (bad : Option Nat) : State :=
  if s.relayRole ≠ 2 || !s.blkOn 8 || !s.relay.outstanding then s else
  let s := (s.wr Reg.RELAY_DELAY d).setRelay fun r => { r with outstanding := false }
  let fs := frames.filterMap parseFrame
  if fs.isEmpty || fs.length ≠ frames.length then s.relayFault 0 else
  let anyBad := fs.any fun f => f.bad || !f.fcsOk
  let fbad := (fs.map (·.fbad)).foldl (fun a b => if a = 0 then b else if b = 0 then a else min a b) 0
  if fs.all fun f => f.typ == 1 then
    (if s.rstate ≠ rsDiscover then s
     else if anyBad || bad.isSome then s.setRelay fun r => { r with helloN := 0 } else s.helloReturn ((fs.head?.map (·.pay)).getD []))
  else
    let k := s.relay.k
    let s := if anyBad then s.relayFault fbad else s
    let pay := s.mergePay (fs.map (·.pay))
    let acks := mapList (slice pay s.ackOfs 32)
    let applied := if fs.any (·.bad) then acks.filter fun a => s.ringPos a < fbad else acks
    let s := s.setRelay fun r => { r with last := pay }
    let s := s.segSeen pay k
    let s := (s.masterStations pay k).linksSeen pay
    let s := s.relayReads pay bad (!anyBad && bad.isNone)
    let s := s.relayApplied k applied fun _ => true
    let s := if anyBad then s else s.setRelay fun r => { r with outLive := true }
    (s.masterMsgs pay).relayDrill

def execFrameReturn (d : W32) (frames : List Bytes) (bad : Option Nat) (s : State) : Res :=
  .next (s.masterReturn d.toNat frames bad)

/-- Every node has shown LINKS_OK for 100 ms: the ring closes (R385). -/
def State.ringClose (s : State) : State :=
  match s.relay.linksOk, s.relay.splitAt with
  | some t, some b =>
    if s.relayRole ≠ 2 || s.get F.RELAY_STAT_TOPO_RX ≠ 2 then s else
    let s := s.reach (t + 100 * msec)
    let s := (s.put F.RELAY_STAT_TOPO_RX 0).setRelay fun r => { r with splitAt := none, linksOk := none, closing := true }
    ((s.cond 8 4).raise 0x0806 4 0 (natBE 4 ((s.clk - b) / msec))).budgetCheck
  | _, _ => s

def execRingClose (s : State) : Res := .next s.ringClose

/-! ### Links -/

/-- A port locks (R364). -/
def State.relayLinkUp (s : State) (port : Nat) : State :=
  if !s.blkOn 8 || s.relayRole = 0 then s else
  let s := s.put (linkFld port) 1
  if s.rstate = rsLinking then s.relayTo rsDiscover else s

def execRelayLinkUp (port : Fin 2) (s : State) : Res := .next (s.relayLinkUp port.val)

/-- No receiver is locked any more (R21, R381): link loss. What XC3 and XC4 hold is discarded: chunks to be sent, and the slot maps
committed or set by a drill that have not applied; the items in flight there end FAILED. -/
def State.relayLost (s : State) : State :=
  let run := s.rstate = rsRun
  let s := s.setRelay fun r => { r with txq := [], carryOver := [], unconsumed := [], drillMap := [], upPort := none, looped := [] }
  let s := (s.put F.RELAY_MAPGO_GO 0).endWaiting .relayMap (fun _ => true) .failed
  let s := (s.relayEndAll (fun _ => true) stFailed).relayTo rsLinking
  if run then (s.relayPointsLost fun _ => true).alignLoss else s

/-- A port has had no valid symbol for 512 ns (R383, R556). -/
def State.portLost (s : State) (port lo hi : Nat) : State :=
  if !s.blkOn 8 || s.relayRole = 0 then s else
  let locked := 0 < s.get F.RELAY_STAT_LINK0 + s.get F.RELAY_STAT_LINK1
  let s := s.put (linkFld port) 0
  -- a node loops the other port's frames back; out of RUN the upstream port is open again
  let s := if s.relayRole ≠ 1 then s else s.setRelay fun r => { r with
    looped := if r.looped.contains port then r.looped else r.looped ++ [port]
    upPort := if s.rstate ≠ rsRun && r.upPort = some port then none else r.upPort }
  let s := if port = 1 then s.toSplit lo hi else s
  if s.get F.RELAY_STAT_LINK0 + s.get F.RELAY_STAT_LINK1 = 0 then
    -- the last locked receiver: CLK_RELAY is lost (R556)
    if locked then (s.put F.SYS_CLK_STAT_LOST (putBits (s.get F.SYS_CLK_STAT_LOST) 4 4 1)).relayLost else s
  else s

def execPortLockLost (port : Fin 2) (lo hi : Byte) (s : State) : Res := .next (s.portLost port.val lo.toNat hi.toNat)

/-! ### Opcodes (Tables 14.13 and 14.14) -/

def tRelaySetup : Nat := 0x0801
def tMapEntry : Nat := 0x0802
def tSlotBind : Nat := 0x0803
def tStationNo : Nat := 0x0804

def relayImgs (b : Bytes) : List (Nat × Nat) :=
  [(Reg.RELAY_CFG, beAt b 0 4), (Reg.RELAY_PER, beAt b 4 4), (Reg.RELAY_LEN, beAt b 8 4), (Reg.RELAY_TMO, beAt b 12 4),
   (Reg.RELAY_WGT, beAt b 16 4), (Reg.RELAY_MAPID, beAt b 20 4)]

/-- The configuration words hold allowed values (14.10). -/
def relayCfgOk (cfg per len tmo wgt : Nat) : Bool :=
  let role := bitsOf cfg 1 0
  let addr := bitsOf cfg 23 16
  let l := bitsOf len 15 0
  let m := bitsOf len 31 16
  role ≤ 2 && bitsOf cfg 9 8 ≤ 2 && (role != 1 || (1 ≤ addr && addr ≤ 254)) && (role != 2 || addr == 0) && addr ≤ 254 &&
  31250 ≤ per && per ≤ 10000000 && l % 4 == 0 && 100 ≤ l && l ≤ 32768 && m % 4 == 0 && m + 100 ≤ l &&
  1 ≤ bitsOf tmo 31 16 && bitsOf tmo 31 16 ≤ 10000 && 2 ≤ bitsOf tmo 7 0 &&
  bitsOf wgt 23 16 > 0 && bitsOf wgt 15 8 > 0 && bitsOf wgt 7 0 > 0 && bitsOf wgt 23 16 + bitsOf wgt 15 8 + bitsOf wgt 7 0 == 100

/-- The link begins anew under a new configuration (14.4). A role that changed raises RELAY_STATE even where the state stays (R26). -/
def State.relayAnew (s : State) (oldRole : Nat) : State :=
  let st := s.rstate
  let s := ((s.put F.RELAY_STAT_POS 0).put F.RELAY_STAT_UP1 0).put F.RELAY_STAT_TOPO_RX 0
  let s := s.setRelay fun r => { r with
    outstanding := false, last := [], lost := [], applied := [], hello := [], helloN := 0, excluded := [], splitAt := none, linksOk := none,
    mapExcl := false, upPort := none, looped := [], claimed := false, closing := false, rx := [] }
  let up := s.get F.RELAY_STAT_LINK0 + s.get F.RELAY_STAT_LINK1 > 0
  let s := s.relayTo (if s.relayRole = 0 then rsOff else if up then rsDiscover else rsLinking)
  if s.relayRole ≠ oldRole && s.rstate = st then s.raise 0x0801 6 0 (natBE 1 st ++ natBE 1 st ++ natBE 1 (s.get F.RELAY_STAT_TOPO_RX)) else s

/-- With a relay period, the relay-triggered loops from LP16 on keep 100 µs or more between samples (R206). -/
def State.trigPeriodsOk (s : State) (p : Nat) : Bool :=
  (List.range 256).all fun n => n < 16 || s.get (F.LOOP_PER_TRIG n) != 1 || p * (s.get (F.LOOP_PER_DIV n) + 1) ≥ 100000

def opRelayCfg : OpDef where
  code := 0x0801
  blk := 8
  schema := [{ typ := tRelaySetup, lo := 24, hi := 24 }]
  form := fun _ q =>
    let b := tv q.tlvs tRelaySetup
    imgFault q.tlvs tRelaySetup (relayImgs b) (relayCfgOk (beAt b 0 4) (beAt b 4 4) (beAt b 8 4) (beAt b 12 4) (beAt b 16 4))
  perm := onlyOperator
  mode := onlyBlocks
  pre := fun s q => if s.trigPeriodsOk (beAt (tv q.tlvs tRelaySetup) 4 4) then none else some (badAt q.tlvs tRelaySetup 0x0008)
  run := fun s q =>
    let b := tv q.tlvs tRelaySetup
    let old := s.relayRole
    let s := s.relayEndAll (fun _ => true) stFailed
    .done .ok [] (((s.setImgs (relayImgs b)).wr Reg.RELAY_CNT 0).relayAnew old)

def opRelayMap : OpDef where
  code := 0x0802
  blk := 8
  schema := [{ typ := tMapEntry, lo := 5, hi := 5, maxN := 32 }]
  form := fun _ q =>
    let es := q.tlvs.filter fun t => t.typ == tMapEntry
    let bad (t : Tlv) (r : Nat) : Option Refuse := some (badTlv t.off r)
    ((List.range es.length).findSome? fun i =>
      match es[i]? with
      | some t => if (es.take i).any fun u => beAt u.val 0 1 == beAt t.val 0 1 then bad t 0x0004 else none
      | none => none).or <|
    es.findSome? fun t =>
      let w := beAt t.val 1 4
      if bitsOf w 20 15 ≠ 0 then bad t 0x0005 else if beAt t.val 0 1 > 31 || entDir w = 3 then bad t 0x0008 else none
  perm := onlyOperator
  pre := fun s q =>
    if s.get F.RELAY_MAPGO_GO = 1 then some { status := .busy } else
    let t := (tvs q.tlvs tMapEntry).foldl (fun t v => t.wr (Reg.RELAY_MAPS (beAt v 0 1)) (beAt v 1 4)) s
    if t.mapOk t.stagedMap then none else some (badAt q.tlvs tMapEntry 0x0008)
  run := fun s q =>
    let s := (tvs q.tlvs tMapEntry).foldl (fun t v => t.wr (Reg.RELAY_MAPS (beAt v 0 1)) (beAt v 1 4)) s
    .pend .relayMap 0 0 true (s.put F.RELAY_MAPGO_GO 1)

def slotBindOf (b : Bytes) : SlotBind :=
  let a : W64 := BitVec.ofNat 64 (beAt b 0 8)
  ⟨addrObj a, addrElem a, beAt b 8 1, beAt b 9 1, beAt b 10 1, beAt b 11 1⟩

/-- A point that another writer already has (R189). -/
def State.destTaken (s : State) (o e : Nat) : Bool := s.loopDestTaken none o e || s.lapOutTaken o e || s.linkTaken o e

def opRelayBind : OpDef where
  code := 0x0803
  blk := 8
  schema := [{ typ := tSlotBind, lo := 16, hi := 16, maxN := 32 }]
  form := fun s q => (q.tlvs.filter fun t => t.typ == tSlotBind).findSome? fun t =>
    let a : W64 := BitVec.ofNat 64 (beAt t.val 0 8)
    let b := slotBindOf t.val
    let bad (r : Nat) : Option Refuse := some (badTlv t.off r)
    if beAt t.val 12 4 ≠ 0 then bad 0x0005
    else if addrBad a then bad 0x0006
    else if b.elem = 0 || !s.isOwn a || b.entry > 31 || b.vt = 0 || b.vt > 7 || b.station = 255 then bad 0x0008 else none
  perm := onlyOperator
  lock := lockChk fun _ q => (tvs q.tlvs tSlotBind).map fun v => (slotBindOf v).obj
  exist := fun s q => (tvs q.tlvs tSlotBind).findSome? fun v =>
    let b := slotBindOf v
    if (s.elem? b.obj b.elem).isNone then some { status := .noObject } else none
  pre := fun s q => (tvs q.tlvs tSlotBind).findSome? fun v =>
    let b := slotBindOf v
    let w := s.relayEnt b.entry
    if entDir w = 0 || b.off + slotWidth b.vt > entLen w || (entDir w = 2) != (b.station ≠ 0) then some (badAt q.tlvs tSlotBind 0x0008)
    else if entDir w = 1 then
      (if s.typOf b.obj = tySafetyView || !s.slotReadOk (s.ringOwner (entOfs w)) b then some { status := .denied }
       else if s.destTaken b.obj b.elem && !(s.relay.binds.any fun x => x.obj == b.obj && x.elem == b.elem && x.station == 0) then some busyBound
       else none)
    else if s.slotWriteOk b then none else some { status := .denied }
  run := fun s q =>
    .done .ok [] ((tvs q.tlvs tSlotBind).foldl (fun s v =>
      let b := slotBindOf v
      let same (x : SlotBind) : Bool := x.obj == b.obj && x.elem == b.elem && (x.entry == b.entry || (x.station == 0 && b.station == 0))
      let s := s.setRelay fun r => { r with binds := (r.binds.filter fun x => !same x) ++ [b] }
      if b.station = 0 then s else s.relayImage b.obj b.elem) s)

def opRelayStation : OpDef where
  code := 0x0804
  blk := 8
  schema := [{ typ := tStationNo, lo := 1, hi := 1 }, { typ := 0x0001, lo := 8, hi := 8 }]
  form := allChk [rangeChk tStationNo fun n => 1 ≤ n && n ≤ 254, addrForm 0x0001 true]
  perm := onlyOperator
  lock := lockChk fun _ q => [addrObj (tAddr q.tlvs)]
  exist := fun s q =>
    match s.obj? (addrObj (tAddr q.tlvs)) with
    | none => some { status := .noObject }
    | some x => if x.typ = tyStation && x.count = 8 then none else some (badAt q.tlvs 0x0001 0x0008)
  pre := fun s q =>
    let o := addrObj (tAddr q.tlvs)
    if (s.relay.stations.any fun x => x.obj == o && x.addr != tn q.tlvs tStationNo) ||
      (List.range 4).any fun c => (s.canCh c).stations.any fun x => x.obj == o then some { status := .busy } else none
  run := fun s q =>
    let o := addrObj (tAddr q.tlvs)
    let a := tn q.tlvs tStationNo
    let s := if s.relay.stations.any fun x => x.addr == a then s else
      s.setRelay fun r => { r with stations := r.stations ++ [⟨a, 0, if r.lost.contains a then 2 else 0, s.ringPos a, 0, 0, 0, false, 0, 0, 0, s.clk⟩] }
    .done .ok [] (s.modStation a fun x => { x with obj := o })

/-- The words of snapshot group 0 (Table 14.10). -/
def State.relaySnap (s : State) : List Nat :=
  let lost (w : Nat) : Nat := (List.range 32).foldl (fun v j => v + b2n (s.relay.lost.contains (32 * w + j)) * 2 ^ j) 0
  [s.relay.k % 2 ^ 32, s.relay.k / 2 ^ 32, s.relay.sof.toNat % 2 ^ 32, s.relay.sof.toNat / 2 ^ 32] ++ (List.range 8).map lost ++
    [s.relay.drops, s.relay.super]

def opRelayStatus : OpDef where
  code := 0x0805
  blk := 8
  perm := operatorOrService
  run := fun s _ => .done .ok (tlv 0x0805 ((([s.rd Reg.RELAY_STAT, s.rd Reg.RELAY_DELAY, s.rd Reg.RELAY_CNT] ++ s.relaySnap).map (natBE 4)).flatten)) s

def execRelayCfg (r : Req) (s : State) : Res := .next (batonRun opRelayCfg r s)
def execRelayMap (r : Req) (s : State) : Res := .next (batonRun opRelayMap r s)
def execRelayBind (r : Req) (s : State) : Res := .next (batonRun opRelayBind r s)
def execRelayStation (r : Req) (s : State) : Res := .next (batonRun opRelayStation r s)
def execRelayStatus (r : Req) (s : State) : Res := .next (batonRun opRelayStatus r s)

end Sys2Proof.Machine
end

