-- ==== Sys2Proof/Machine/DrillHost.lean ====
section
/-! DEFINITION. Machine/DrillHost.lean: DRILL_RUN: a trigger that waits at a host instance is run, and the host acts on the
verdict (R105, R106, R108). -/

namespace Sys2Proof.Machine

/-- Without a drill any more the trigger takes the host's default verdict, like a run that gives it. -/
def State.runBound (s : State) (h : Nat) (fields : List (Nat × W32)) : DrillEnd × State :=
  match s.boundImg h with
  | some img => s.drillRunOn h img fields
  | none => (⟨0, none, ⟨[], fields, []⟩⟩, s)

/-- CAN (R106, R396, R397): 0 rejects the frame, 1 stores it in the object of field 24, 2 in the high-priority buffer; each ACT 1
queues a reply (R401). -/
def State.canVerdict (s : State) (c : Nat) (f : CanFrame) (e : DrillEnd) : State :=
  let acts := e.run.acts.filter fun m => m < 64 && s.canObjOn c m 2 && s.canSends c && s.mode != modeHoldup
  let s := s.setCan c fun ch => { ch with replies := ch.replies ++ acts }
  if e.verdict = 1 then s.canAccept c (fieldGet e.run.fields 24) f
  else if e.verdict = 2 then s.canStoreHp c f else s

/-- RELAY (R106, R377): COMMIT applies the entries that the run has written, equal to the active ones or not, from the next frame on. The
fields 16 to 47 start the run at 0 (4.5.2): they are listed only where the run has written them (log 299). -/
def State.relayVerdict (s : State) (e : DrillEnd) : State :=
  if e.verdict = 1 then
    let ws := (List.range 32).filterMap fun n => (e.run.fields.find? fun p => p.1 == 16 + n).map fun p => (n, p.2)
    s.setRelay fun r => { r with drillMap := ws }
  else s

/-- The first event that waits for its verdict takes it. -/
def setVerdict (v : Nat) : List Ingest → List Ingest
  | [] => []
  | i :: r => if i.dv = .waiting then { i with dv := .verdict v } :: r else i :: setVerdict v r

/-- Host fields of an event (Table 4.5). -/
def evrFields (e : Event) : List (Nat × W32) :=
  [(0, BitVec.ofNat 32 e.code), (1, BitVec.ofNat 32 e.sev), (2, BitVec.ofNat 32 e.tag), (3, BitVec.ofNat 32 e.obj),
   (4, BitVec.ofNat 32 (beAt e.data 0 4)), (5, BitVec.ofNat 32 (beAt e.data 4 4)), (6, BitVec.ofNat 32 (beAt e.data 8 4)),
   (7, BitVec.ofNat 32 (e.ts.toNat / 2 ^ 24))]

/-- The oldest trigger of an instance is run. -/
def State.drillNext (s : State) (h : Nat) : State :=
  if h = 37 then
    match s.evr.queue.find? fun i => i.dv == .waiting with
    | none => s
    | some i =>
      let (e, s) := s.runBound 37 (evrFields i.ev)
      { s with evr := { s.evr with queue := setVerdict e.verdict s.evr.queue } }
  else
    match (s.inst h).queue with
    | [] => s
    | t :: rest =>
      let s := s.setInst h fun i => { i with queue := rest }
      match t.ref with
      | .can c f =>
        let (e, s) := s.runBound h t.fields
        s.canVerdict c f e
      | .dma c =>
        let (e, s) := s.runBound h t.fields
        s.dmaVerdict c e.verdict (fieldGet e.run.fields 8) (fieldGet e.run.fields 9)
      | .relay =>
        let (e, s) := s.runBound h t.fields
        s.relayVerdict e

/-- The block that hosts an instance (Table 4.4). -/
def drillBlk (h : Nat) : Nat := if h ≤ 3 then 9 else if h ≤ 35 then 16 else if h = 36 then 8 else 15

/-- DRILL_RUN (R108). -/
def execDrillRun (h : Fin 38) (s : State) : Res := .next (if s.blkOn (drillBlk h.val) then s.drillNext h.val else s)

end Sys2Proof.Machine
end

