-- ==== Sys2Proof/Machine/KeysOps.lean ====
section
/-! DEFINITION. Machine/KeysOps.lean: the derivation tree, the vault, and sealed replicas (18.2, 18.3, 18.6). -/

namespace Sys2Proof.Machine

def State.setKeys (s : State) (f : KeysSt → KeysSt) : State := { s with keys := f s.keys }

/-! ### Derivation (R468, R469) -/

def xorBytes (a b : Bytes) : Bytes := (a.zip b).map fun p => p.1 ^^^ p.2

/-- HMAC-SM3 under a 256-bit key (RFC 2104, block of 64 bytes). -/
def hmac (key : BitVec 256) (msg : Bytes) : BitVec 256 :=
  let k := padTo 64 (natBE 32 key.toNat)
  let inner := Config.sm3 (xorBytes k (List.replicate 64 0x36) ++ msg)
  Config.sm3 (xorBytes k (List.replicate 64 0x5C) ++ natBE 32 inner.toNat)

/-- Four ASCII letters. -/
def ascii (s : String) : Bytes := s.toList.map fun c => BitVec.ofNat 8 c.toNat

/-- A child key: label, level and context under its parent. -/
def derive (parent : BitVec 256) (label : Bytes) (level : Nat) (ctx : Bytes) : BitVec 256 :=
  hmac parent (label ++ natBE 1 level ++ natBE 1 ctx.length ++ ctx)

/-- The SM4 key of a derived output: its first 16 bytes. -/
def sm4Key (x : BitVec 256) : Bytes := (natBE 32 x.toNat).take 16

/-- The SM2 scalar of a derived output. -/
def sm2Scalar (x : BitVec 256) : Nat := x.toNat % (Config.sm2Order - 1) + 1

/-- The device identity key, its public key, and the device identity (R476). -/
def didk : Nat := sm2Scalar (derive Config.drs (ascii "DIDK") 1 [])
def didkPub : Bytes := padTo 64 (Config.sm2Pub didk)
def deviceId : BitVec 256 := Config.sm3 didkPub

/-- The public key of the operational key of a generation. -/
def oprkPub (gen : Nat) : Bytes :=
  padTo 64 (Config.sm2Pub (sm2Scalar (derive Config.drs (ascii "OPRK") 1 (natBE 1 gen))))

/-! ### Vault (R471 to R473) -/

def State.root? (s : State) (slot : Nat) : Option (BitVec 256) := ((s.keys.vault[slot]?).getD none).map (·.1)

/-- The root of a group that the module holds. -/
def State.groupRoot (s : State) (g : W64) : Option (BitVec 256) :=
  ((List.range 4).findSome? fun k => ((s.keys.vault[k + 1]?).getD none).bind fun x => if x.2 = g then some x.1 else none)

/-- SLOTS of KEYS_STAT. -/
def State.slotBits (s : State) : Nat :=
  (List.range 5).foldl (fun a k => a + b2n (s.root? k).isSome * 2 ^ k) 0

/-- KEYS_STAT and what PD_AON remembers of the vault follow the vault and the handle table. -/
def State.keysSync (s : State) : State :=
  let n := s.slotBits
  ((s.put F.KEYS_STAT_SLOTS n).put F.KEYS_STAT_HANDLES s.keys.handles.length).setKeys fun k => { k with wasSet := n }

/-- Every slot of the vault is zeroed. -/
def State.zeroise (s : State) : State := (s.setKeys fun k => { k with vault := List.replicate 5 none }).keysSync

/-- The vault holds a root. -/
def State.vaultHolds (s : State) : Bool := s.keys.vault.any Option.isSome

/-- The anti-rollback counter rises to a target, fuse by fuse; one at or below COUNT, or above 128, changes nothing (R488). -/
def State.rollbackTo (s : State) (target : Nat) : State :=
  let old := s.get F.KEYS_ROLLBACK_COUNT
  if target ≤ old || target > 128 then s else
  ((s.put F.KEYS_ROLLBACK_COUNT target).cond 13 3).raise 0x0D04 4 0 (natBE 1 old ++ natBE 1 target)

/-! ### Views and replicas (R481 to R484) -/

/-- The view key of a group and tag. -/
def viewKey (root : BitVec 256) (g : W64) (tag : Nat) : BitVec 256 :=
  derive root (ascii "VIEW") 1 (natBE 8 g.toNat ++ natBE 1 tag)

/-- The replica key of a holder and seal epoch below a view key. -/
def replicaKey (view : BitVec 256) (holder : W64) (epoch : Nat) : Bytes :=
  sm4Key (derive view (ascii "RPLC") 2 (natBE 8 holder.toNat ++ natBE 4 epoch))

/-- KEYS_NO_ROOT, once per group per start. -/
def State.noRootEvent (s : State) (g : W64) (anchor : Bool) : State :=
  if s.keys.noRoot.contains g then s else
  (s.setKeys fun k => { k with noRoot := g :: k.noRoot }).raise 0x0D07 3 0 (natBE 8 g.toNat ++ natBE 1 (b2n anchor))

/-- The additional data of a sealed replica. -/
def sealAad (obj : W64) (tag seq epoch typ : Nat) : Bytes :=
  natBE 8 obj.toNat ++ natBE 1 tag ++ natBE 4 seq ++ natBE 4 epoch ++ natBE 1 typ

/-- Seal an object record for replication (R481, R482): the sealed object, and none without the group root. The seal epoch rises
before the first replica of a start, and when SEQ would wrap. -/
def State.sealReplica (s : State) (g obj : W64) (tag typ : Nat) (data : Bytes) : State × Option (Nat × Bytes) :=
  match s.groupRoot g with
  | none => (s.noRootEvent g false, none)
  | some root =>
    let s : State :=
      if s.keys.sealed && s.furun.replSeq < 2 ^ 32 then s else
      let s := s.put F.KEYS_EPOCH_EPOCH (s.get F.KEYS_EPOCH_EPOCH + 1)
      let s := s.setKeys fun k => { k with sealed := true }
      { s with furun := { s.furun with replSeq := 0 } }
    let seq := s.furun.replSeq
    let epoch := s.get F.KEYS_EPOCH_EPOCH
    let key := replicaKey (viewKey root g tag) (addrOf s.estate.addr 0 0) epoch
    let ct := Config.sm4Seal key (natBE 4 seq ++ natBE 8 0) (sealAad obj tag seq epoch typ) data
    let s : State := { s with furun := { s.furun with replSeq := seq + 1 } }
    (s, some (seq, natBE 4 epoch ++ natBE 1 typ ++ natBE 3 0 ++ ct))

/-- Open a sealed object (R481, R483): `who` is the tag of the engine session slot, none for the anchor's aggregation, which is given the
header and the energies alone: elements 1 to 24 of a CIRCUIT, 1 to 9 of a THERMAL. -/
def State.openReplica (s : State) (g holder obj : W64) (tag seq : Nat) (who : Option Nat) (sealed_ : Bytes) : Option Bytes :=
  let allowed := match who with
    | some t => t == 0 || t == tag
    | none => true
  let typ := beAt sealed_ 4 1
  if !allowed || (who.isNone && typ != 0x07 && typ != 0x08) then none else
  match s.groupRoot g with
  | none => none
  | some root =>
    let epoch := beAt sealed_ 0 4
    let key := replicaKey (viewKey root g tag) holder epoch
    (Config.sm4Open key (natBE 4 seq ++ natBE 8 0) (sealAad obj tag seq epoch typ) (sealed_.drop 8)).map fun b =>
      if who.isSome then b else b.take (16 + 20 * (if typ = 0x07 then 24 else 9))

end Sys2Proof.Machine
end

