-- ==== Sys2Proof/Machine/Aggr.lean ====
section
/-! DEFINITION. Machine/Aggr.lean: the aggregate objects of the groups that the module anchors (R42, R43, R27; 2.5). -/

namespace Sys2Proof.Machine

/-- An object header (Table 2.4). -/
def headerBytes (typ tag count worst flags : Nat) (changed : W64) : Bytes :=
  natBE 1 typ ++ natBE 1 tag ++ natBE 2 count ++ natBE 1 worst ++ natBE 1 flags ++ natBE 2 0 ++ natBE 8 changed.toNat

/-- Flags of the headers of a unit: bit 1 SUSPECT. -/
def State.suspectFlag (s : State) (unit : W64) : Nat := if s.furun.suspects.contains unit then 2 else 0

/-- The header of an object of this module. -/
def State.header (s : State) (x : Obj) : Bytes :=
  headerBytes x.typ x.tag x.count (s.worstOf x) (s.suspectFlag s.own) x.changed

/-- What a reader sees of the elements of an object, in order. -/
def State.objViews (s : State) (x : Obj) : List EView :=
  ((List.range x.elems.length).zip x.elems).map fun p => s.viewOf p.2 (s.force? x.num (p.1 + 1))

/-- The whole object as it is replicated: header and element records (R438). -/
def State.objRecord (s : State) (x : Obj) : Bytes := s.header x ++ ((s.objViews x).map EView.bytes).flatten

/-- An element record as bytes, taken apart (Table 2.5). -/
def viewOfBytes (b : Bytes) : EView :=
  ⟨beAt b 0 1, u64 (beAt b 12 8), u64 (beAt b 4 8), bitsOf (beAt b 1 1) 6 4, bitsOf (beAt b 1 1) 2 0⟩

/-- The element records of an object record. -/
def recordViews (b : Bytes) : List EView := (chunks 20 (b.drop 16)).map viewOfBytes

/-- An object that is replicated to the anchor: marked, or an assigned circuit or thermal meter (R438). -/
def State.replicated (s : State) (o : Nat) : Bool :=
  s.furun.marks.contains o || s.met.cirs.any (fun c => c.obj == o) || s.met.thms.any (fun t => t.obj == o)

/-- A contribution to an aggregate: its record, and whether its holder is lost. -/
structure Contrib where
  views : List EView
  lost  : Bool

/-- SRC of a contribution's element. -/
def Contrib.src (c : Contrib) (e : Nat) : Nat :=
  if c.lost then qLost else ((c.views[e - 1]?).map (·.src)).getD qCold

/-- The contribution holds an element: of a sealed record the key engine gives the energies alone (R483). -/
def Contrib.has (c : Contrib) (e : Nat) : Bool := e ≤ c.views.length

def Contrib.val (c : Contrib) (e : Nat) : Nat := ((c.views[e - 1]?).map (·.value.toNat)).getD 0

/-- The record of a replica as the anchor forms sums from it (R483): opened where it is sealed. -/
def State.replicaRecord (s : State) (r : FReplica) : Option Bytes :=
  if r.tag = 0 then some r.data else s.openReplica (addrParent r.holder) r.holder r.obj r.tag r.seq none r.data

/-- The contributions to aggregate `typ` of a group: the module's own objects where it is a member itself, and the replicas of
the group's members, by rising address (R43). -/
def State.contribs (s : State) (g : W64) (typ : Nat) : List Contrib :=
  let mine := if addrParent s.own == g then
      (s.estate.objs.filter fun x => x.typ == typ && s.replicated x.num).map fun x => (⟨s.objViews x, false⟩ : Contrib)
    else []
  -- a replica counts while its unit is a configured member; of a sub-group that the module anchors itself its own sums count instead
  let members := ((s.fgroup? g).map fun x => x.members).getD 0
  let rs := s.furun.replicas.filter fun r =>
    let u := addrOf r.obj 0 0
    addrParent u == g && bit1 members.toNat (addrLast u) == 1 && u != s.own && !(s.anchors u)
  let theirs := rs.filterMap fun r =>
    match s.replicaRecord r with
    | some b => if beAt b 0 1 = typ then some (⟨recordViews b, r.lost⟩ : Contrib) else none
    | none => none
  let subs := (s.furun.aggs.filter fun a => addrDepth a.grp = addrDepth g + 1 && addrParent a.grp == g && a.obj == (if typ = tyCircuit then 1 else 2)).map
    fun a => (⟨a.elems.map fun e => ⟨e.vtype, e.value, e.ts, e.src, e.src⟩, false⟩ : Contrib)
  mine ++ subs ++ theirs

/-- The sum of a 96-bit quantity over contributions, as three words (R43). -/
def sum96 (cs : List Contrib) (e : Nat) : Nat :=
  (cs.foldl (fun a c => a + c.val e * 2 ^ 64 + c.val (e + 1) * 2 ^ 32 + c.val (e + 2)) 0) % 2 ^ 96

/-- The elements of aggregate CIRCUIT or THERMAL: `trip` quantities of 96 bits from element 1 on, and the FP32 sum of element
`dem` (0: none). The other elements of the type hold no group value and stay COLD. -/
def aggElems (cs : List Contrib) (types : List Nat) (trip dem : Nat) (ts : W64) : List Elem :=
  let src (e : Nat) : Nat := if (cs.filter fun c => c.has e).isEmpty then qCold else qWorst ((cs.filter fun c => c.has e).map fun c => c.src e)
  ((List.range types.length).zip types).map fun p =>
    let e := p.1 + 1
    if p.1 < 3 * trip then
      let k := p.1 / 3 * 3 + 1
      let w := sum96 cs k / 2 ^ (32 * (2 - p.1 % 3)) % 2 ^ 32
      { Elem.cold p.2 with value := u64 w, ts := ts, src := src e }
    else if e = dem then
      let v := cs.foldl (fun a c => Fl.add fp64F a (fl32 (c.val e % 2 ^ 32))) (.fin false 0 0)
      { Elem.cold p.2 with value := u64 (bits32 (Fl.round fp32F v)), ts := ts, src := src e }
    else Elem.cold p.2

/-- Declared types of CIRCUIT and THERMAL (Tables 12.3 and 12.5). -/
def circuitTypes : List Nat := List.replicate 24 vUint32 ++ List.replicate 16 vFp32 ++ [vUint32]
def thermalTypes : List Nat := List.replicate 9 vUint32 ++ List.replicate 5 vFp32 ++ [vUint32, vUint32]

/-- The aggregate takes new elements; Changed moves where a value or a quality does (R551). -/
def State.putAgg (s : State) (a : FAgg) : State :=
  let key (e : Elem) : W64 × Nat := (e.value, e.src)
  let same := s.furun.aggs.find? fun x => x.grp == a.grp && x.obj == a.obj && x.elems.map key == a.elems.map key
  let a : FAgg := { a with changed := (same.map (·.changed)).getD a.changed }
  { s with furun := { s.furun with aggs := s.furun.aggs.filter (fun x => !(x.grp == a.grp && x.obj == a.obj)) ++ [a] } }

/-- The anchor updates the aggregates of one group (R43); an element to which no member contributes is COLD (log 281). The spec does not say what makes an alarm active: the counts of OBJ 4 are
free values (log 3). -/
def State.aggregate (s : State) (g : W64) : State :=
  let ts := s.tsNow
  let s := s.putAgg ⟨g, 1, aggElems (s.contribs g tyCircuit) circuitTypes 8 39 ts, ts⟩
  let s := s.putAgg ⟨g, 2, aggElems (s.contribs g tyThermal) thermalTypes 2 0 ts, ts⟩
  let (els, s) := (List.range 8).foldl (fun (acc : List Elem × State) _ =>
    let (v, s) := acc.2.free
    (acc.1 ++ [{ Elem.cold vUint32 with value := u64 (v.toNat % 2 ^ 32), ts := ts, src := qGood }], s)) ([], s)
  s.putAgg ⟨g, 4, els, ts⟩

/-- Once per plan period, innermost groups first: an outer group takes up the inner one's sums. -/
def State.aggregateAll (s : State) : State :=
  (List.range 8).foldl (fun s k =>
    (s.anchored.filter fun x => addrDepth x.addr = 7 - k).foldl (fun s x => s.aggregate x.addr) s) s

/-- A new anchor serves the aggregates as STALE until the next plan period (R27). -/
def State.aggStale (s : State) (g : W64) : State :=
  let mk (o : Nat) (ts : List Nat) : FAgg := ⟨g, o, ts.map fun t => { Elem.cold t with src := qStale }, s.tsNow⟩
  ((s.putAgg (mk 1 circuitTypes)).putAgg (mk 2 thermalTypes)).putAgg (mk 4 (List.replicate 8 vUint32))

/-- The aggregates of a group that the module no longer anchors. -/
def State.aggDrop (s : State) (g : W64) : State :=
  { s with
    furun := { s.furun with aggs := s.furun.aggs.filter fun a => a.grp != g }
    pacer := { s.pacer with obj3 := s.pacer.obj3.filter fun e => e.1 != g } }

/-- A new anchor of a group holds no replicas of it until each member's next period (R439). -/
def State.replDrop (s : State) (g : W64) : State :=
  { s with furun := { s.furun with replicas := s.furun.replicas.filter fun r => addrParent (addrOf r.obj 0 0) != g } }

end Sys2Proof.Machine
end

