-- ==== Sys2Proof/Machine/PacerEngine.lean ====
section
/-! DEFINITION. Machine/PacerEngine.lean: the Pacer engine: the arithmetic of R257 and the sequence of R256, FACTOR and ITERATE,
over a problem whose values are FP32 words. It depends on the problem, the warm start and the linear terms alone, not on the
lanes (R258). -/

namespace Sys2Proof.Machine

/-! ### FP64 arithmetic -/

def dAdd (a b : Fl) : Fl := Fl.add fp64F a b
def dSub (a b : Fl) : Fl := Fl.sub fp64F a b
def dMul (a b : Fl) : Fl := Fl.mul fp64F a b
def dDiv (a b : Fl) : Fl := Fl.div fp64F a b
def dSqrt (a : Fl) : Fl := Fl.sqrt fp64F a
def dNat (n : Nat) : Fl := .ofInt n

/-- An FP64 value as it is stored: rounded once to FP32 (R257). -/
def st32 (x : Fl) : Fl := Fl.round fp32F x

abbrev Vec := List Fl
abbrev Mat := List (List Fl)

/-- Element i of a vector. -/
def vAt (v : Vec) (i : Nat) : Fl := (v[i]?).getD (dNat 0)

/-- A vector in blocks of 8 consecutive indices. -/
def blocks8 : Nat → Vec → List Vec
  | 0, _ => []
  | f + 1, v => if v.isEmpty then [] else v.take 8 :: blocks8 f (v.drop 8)

/-- The sum of a block in ascending index order. -/
def blockSum : Vec → Fl
  | [] => dNat 0
  | x :: r => r.foldl dAdd x

/-- One level of the pairwise tree: neighbours are added, a last one without a neighbour goes up unchanged. -/
def pairUp : Vec → Vec
  | a :: b :: r => dAdd a b :: pairUp r
  | v => v

/-- The pairwise tree over the block index. -/
def treeSum : Nat → Vec → Fl
  | 0, v => vAt v 0
  | f + 1, v => if v.length ≤ 1 then vAt v 0 else treeSum f (pairUp v)

/-- The dot product of R257 before it is rounded: exact products, FP64 sums within blocks of 8, the block sums in a pairwise tree. -/
def dot (a b : Vec) : Fl :=
  let ps := (a.zip b).map fun p => dMul p.1 p.2
  let bs := (blocks8 ps.length ps).map blockSum
  treeSum bs.length bs

/-- Column j of a matrix, and its first n columns. -/
def Mat.col (m : Mat) (j : Nat) : Vec := m.map fun r => vAt r j
def Mat.cols (m : Mat) (n : Nat) : Mat := (List.range n).map fun j => Mat.col m j

/-- A matrix, and a product with a matrix given by its columns, element by element (FP64, not yet rounded). -/
def Mat.mulT (m cols : Mat) : Mat := m.map fun r => cols.map fun c => dot r c

/-- A numeric fault: phase (2 FACTOR, 3 ITERATE), step and variable index (R260). -/
abbrev Flt := Nat × Nat × Nat

/-- Each stored value of a vector is finite; the index counts from `i0`. -/
def chkVec (ph k i0 : Nat) (v : Vec) : Except Flt Unit :=
  match v.findIdx? fun x => !x.isFin with
  | some i => .error (ph, k, i0 + i)
  | none => .ok ()

/-- Each stored value of a matrix is finite; the fault names the row. -/
def chkMat (ph k i0 : Nat) (m : Mat) : Except Flt Unit :=
  match m.findIdx? fun r => r.any fun x => !x.isFin with
  | some i => .error (ph, k, i0 + i)
  | none => .ok ()

/-! ### Triangular systems -/

/-- A row of the Cholesky factor left of its diagonal, and the pivot. -/
def cholRow (ls : Mat) (row : Vec) : Vec × Fl :=
  let left := (ls.zip row).foldl (fun acc p => acc ++ [st32 (dDiv (dSub p.2 (dot acc p.1)) (p.1.getLastD (dNat 0)))]) []
  (left, dSub (vAt row ls.length) (dot left left))

/-- The Cholesky factor of a matrix, rows up to the diagonal; a pivot that is not positive is a fault (R260). -/
def cholesky (k i0 : Nat) : Mat → Mat → Except Flt Mat
  | [], ls => .ok ls
  | row :: r, ls =>
    let (left, piv) := cholRow ls row
    let d := st32 (dSqrt piv)
    if !(Fl.lt (dNat 0) piv) || (left ++ [d]).any (fun x => !x.isFin) then .error (2, k, i0 + ls.length)
    else cholesky k i0 r (ls ++ [left ++ [d]])

/-- L·y = b. -/
def lowerSolve (l : Mat) (b : Vec) : Vec :=
  (l.zip b).foldl (fun ys p => ys ++ [st32 (dDiv (dSub p.2 (dot ys p.1)) (p.1.getLastD (dNat 0)))]) []

/-- Lᵀ·x = y. -/
def upperSolve (l : Mat) (y : Vec) : Vec :=
  (List.range l.length).foldr (fun i xs =>
    st32 (dDiv (dSub (vAt y i) (dot xs ((l.drop (i + 1)).map fun r => vAt r i))) (vAt ((l[i]?).getD []) i)) :: xs) []

/-- (L·Lᵀ)·x = b. -/
def cholSolve (l : Mat) (b : Vec) : Vec := upperSolve l (lowerSolve l b)

/-! ### The problem as numbers -/

/-- One step as numbers: its matrices by rows, Aᵀ and Bᵀ, and the columns of C. -/
structure QF where
  aT : Mat
  bT : Mat
  a  : Mat
  b  : Mat
  c  : Vec
  ef : Mat
  ct : Mat
  lo : Vec
  hi : Vec
  w  : Vec
  q  : Vec

/-- Column j of C: the unit vector of the box rows, then the general rows. -/
def cCol (nw : Nat) (ef : Mat) (j : Nat) : Vec := (List.range nw).map (fun i => dNat (b2n (i == j))) ++ Mat.col ef j

def QStep.nums (nx nu : Nat) (x : QStep) : QF :=
  let m (l : List (List Nat)) : Mat := l.map fun r => r.map fl32
  let a := m x.a
  let b := m x.b
  let ef := m x.ef
  ⟨Mat.cols a nx, Mat.cols b nu, a, b, x.c.map fl32, ef, (List.range (nx + nu)).map fun j => cCol (nx + nu) ef j,
    x.lo.map fl32, x.hi.map fl32, x.w.map fl32, x.q.map fl32⟩

/-- The values of a step as they stand in SRAM are finite. -/
def QF.chk (k nx : Nat) (x : QF) : Except Flt Unit := do
  chkMat 2 k 0 x.a
  chkMat 2 k 0 x.b
  chkVec 2 k 0 x.c
  chkVec 2 k 0 x.w
  chkVec 2 k 0 x.q
  chkMat 2 k (nx + x.bT.length) x.ef
  chkVec 2 k 0 x.lo
  chkVec 2 k 0 x.hi

/-! ### FACTOR (R256) -/

/-- What the factorisation keeps of a step: P_k, the gain K_k by columns, and the Cholesky factor L_k. -/
structure Gain where
  p  : Mat
  kT : Mat
  l  : Mat

/-- Row i of a matrix of FP64 values plus a matrix, stored. -/
def addStore (a b : Mat) : Mat := (a.zip b).map fun p => (p.1.zip p.2).map fun q => st32 (dAdd q.1 q.2)

/-- One backward step: rho·Cᵀ·C is folded into Wx, Wu and the cross term, then the Riccati step. -/
def factorStep (nx nu : Nat) (rho : Fl) (k : Nat) (p' : Mat) (x : QF) : Except Flt Gain := do
  x.chk k nx
  let h : Mat := ((List.range (nx + nu)).zip x.ct).map fun ci => ((List.range (nx + nu)).zip x.ct).map fun cj =>
    st32 (dAdd (if ci.1 = cj.1 then vAt x.w ci.1 else dNat 0) (dMul rho (dot ci.2 cj.2)))
  chkMat 2 k 0 h
  let hxx := (h.take nx).map (·.take nx)
  let hux := (h.drop nx).map (·.take nx)
  let huu := (h.drop nx).map (·.drop nx)
  let pb := (Mat.mulT p' x.bT).map (·.map st32)
  let pa := (Mat.mulT p' x.aT).map (·.map st32)
  chkMat 2 k 0 pb
  chkMat 2 k 0 pa
  let m := addStore huu (Mat.mulT x.bT (Mat.cols pb nu))
  let g := addStore hux (Mat.mulT x.bT (Mat.cols pa nx))
  chkMat 2 k nx m
  chkMat 2 k nx g
  let l ← cholesky k nx m []
  let gT := Mat.cols g nx
  let kT := gT.map fun c => (cholSolve l c).map Fl.neg
  chkMat 2 k 0 kT
  let p := (hxx.zip ((Mat.mulT x.aT (Mat.cols pa nx)).zip (Mat.mulT gT kT))).map fun r =>
    (r.1.zip (r.2.1.zip r.2.2)).map fun e => st32 (dAdd (dAdd e.1 e.2.1) e.2.2)
  chkMat 2 k 0 p
  return ⟨p, kT, l⟩

/-- FACTOR from the last step to step k, P after the horizon being 0. -/
def factorFrom (nx nu : Nat) (rho : Fl) : Nat → List QF → Except Flt (List Gain)
  | _, [] => .ok []
  | k, x :: r => do
    let gs ← factorFrom nx nu rho (k + 1) r
    let p' := match gs with
      | g :: _ => g.p
      | [] => List.replicate nx (List.replicate nx (dNat 0))
    let g ← factorStep nx nu rho k p' x
    return g :: gs

/-! ### ITERATE (R256) -/

/-- The backward pass of the substitution: the vector p_k, and kf for each step. -/
def backPass (nx : Nat) : Nat → List (QF × Gain × Vec) → Except Flt (Vec × List Vec)
  | _, [] => .ok (List.replicate nx (dNat 0), [])
  | k, (x, g, lin) :: r => do
    let (pv, kfs) ← backPass nx (k + 1) r
    let p' := match r with
      | (_, g', _) :: _ => g'.p
      | [] => List.replicate nx (List.replicate nx (dNat 0))
    let h := (p'.zip pv).map fun e => st32 (dAdd (dot e.1 x.c) e.2)
    chkVec 3 k 0 h
    let gu := (x.bT.zip (lin.drop nx)).map fun e => st32 (dAdd e.2 (dot e.1 h))
    chkVec 3 k nx gu
    let kf := (cholSolve g.l gu).map Fl.neg
    chkVec 3 k nx kf
    let p := (x.aT.zip (g.kT.zip (lin.take nx))).map fun e => st32 (dAdd (dAdd e.2.2 (dot e.1 h)) (dot e.2.1 gu))
    chkVec 3 k 0 p
    return (p, kf :: kfs)

/-- The forward pass: w = (x, u) of each step. -/
def forwardPass (nx : Nat) : Nat → Vec → List (QF × Gain × Vec) → Except Flt (List Vec)
  | _, _, [] => .ok []
  | k, xs, (x, g, kf) :: r => do
    let us := ((Mat.cols g.kT kf.length).zip kf).map fun e => st32 (dAdd (dot e.1 xs) e.2)
    chkVec 3 k nx us
    let nxt := (x.a.zip (x.b.zip x.c)).map fun e => st32 (dAdd (dAdd (dot e.1 xs) (dot e.2.1 us)) e.2.2)
    chkVec 3 (k + 1) 0 nxt
    let ws ← forwardPass nx (k + 1) nxt r
    return (xs ++ us) :: ws

/-- The state of the iteration: iterations run, w, z and y by step, rp and rd. -/
structure It where
  j  : Nat
  w  : List Vec
  z  : List Vec
  y  : List Vec
  rp : Fl
  rd : Fl

/-- clip(x, lo, hi). -/
def clipF (lo hi x : Fl) : Fl := if Fl.lt x lo then lo else if Fl.lt hi x then hi else x

/-- The largest magnitude of a vector, exact. -/
def maxAbs (v : Vec) : Fl := v.foldl (fun a x => Fl.max a x.abs) (dNat 0)

/-- One step of an iteration after the substitution: z_new, y, |v − z_new| and |Cᵀ·(z_new − z)|. -/
def zStep (k : Nat) (x : QF) (w z y : Vec) : Except Flt (Vec × Vec × Fl × Fl) := do
  let v := w ++ x.ef.map fun r => st32 (dot r w)
  chkVec 3 k 0 v
  let s := (v.zip y).map fun e => st32 (dAdd e.1 e.2)
  chkVec 3 k 0 s
  let zn := (s.zip (x.lo.zip x.hi)).map fun e => clipF e.2.1 e.2.2 e.1
  let yn := (v.zip (y.zip zn)).map fun e => st32 (dSub (dAdd e.1 e.2.1) e.2.2)
  chkVec 3 k 0 yn
  let dv := (v.zip zn).map fun e => st32 (dSub e.1 e.2)
  chkVec 3 k 0 dv
  let dz := (zn.zip z).map fun e => st32 (dSub e.1 e.2)
  chkVec 3 k 0 dz
  let cd := x.ct.map fun c => st32 (dot c dz)
  chkVec 3 k 0 cd
  return (zn, yn, maxAbs dv, maxAbs cd)

/-- The steps of an iteration after the substitution, in ascending order. -/
def zSteps : Nat → List (QF × Vec × Vec × Vec) → Except Flt (List (Vec × Vec × Fl × Fl))
  | _, [] => .ok []
  | k, (x, w, z, y) :: r => do
    let a ← zStep k x w z y
    let rs ← zSteps (k + 1) r
    return a :: rs

/-- The linear terms q + rho·Cᵀ·(y − z) of each step. -/
def linTerms (rho : Fl) : Nat → List (QF × Vec × Vec) → Except Flt (List Vec)
  | _, [] => .ok []
  | k, (x, z, y) :: r => do
    let d := (y.zip z).map fun e => st32 (dSub e.1 e.2)
    let l := (x.ct.zip x.q).map fun e => st32 (dAdd e.2 (dMul rho (dot e.1 d)))
    chkVec 3 k 0 l
    let rs ← linTerms rho (k + 1) r
    return l :: rs

/-- One iteration of R256. -/
def iterStep (nx : Nat) (rho : Fl) (x0 : Vec) (qs : List QF) (gs : List Gain) (s : It) : Except Flt It := do
  let lin ← linTerms rho 0 (qs.zip (s.z.zip s.y))
  let (_, kfs) ← backPass nx 0 (qs.zip (gs.zip lin))
  let w ← forwardPass nx 0 x0 (qs.zip (gs.zip kfs))
  let rs ← zSteps 0 (qs.zip (w.zip (s.z.zip s.y)))
  let rp := rs.foldl (fun a r => Fl.max a r.2.2.1) (dNat 0)
  let rd := st32 (dMul rho (rs.foldl (fun a r => Fl.max a r.2.2.2) (dNat 0)))
  if !rd.isFin then .error (3, 0, 0) else
  return ⟨s.j + 1, w, rs.map (·.1), rs.map (·.2.1), rp, rd⟩

/-- The residuals meet their tolerances. -/
def It.met (s : It) (epsP epsD : Fl) : Bool := s.j != 0 && Fl.le s.rp epsP && Fl.le s.rd epsD

/-- ITERATE for at most `lim` iterations. -/
def iterate (nx : Nat) (rho epsP epsD : Fl) (x0 : Vec) (qs : List QF) (gs : List Gain) : Nat → It → Except Flt It
  | 0, s => .ok s
  | f + 1, s => do
    let s ← iterStep nx rho x0 qs gs s
    if s.met epsP epsD then return s else iterate nx rho epsP epsD x0 qs gs f s

/-! ### The engine's answer -/

/-- What a solve leaves: iterations, whether the residuals are met, rp and rd, and w, z and y by step, all FP32. -/
structure EngOut where
  iters : Nat
  met   : Bool
  rp    : Nat
  rd    : Nat
  w     : List (List Nat)
  z     : List (List Nat)
  y     : List (List Nat)
  deriving DecidableEq, Repr

/-- The problem that the engine works on: shape, rho, tolerances, initial state and steps. -/
structure EngIn where
  nx   : Nat
  nu   : Nat
  rho  : Nat
  epsP : Nat
  epsD : Nat
  x0   : List Nat
  qs   : List QStep

/-- FACTOR of a problem. -/
def EngIn.factor (e : EngIn) : Except Flt (List QF × List Gain) := do
  chkVec 2 0 0 (e.x0.map fl32)
  let qs := e.qs.map fun x => x.nums e.nx e.nu
  let gs ← factorFrom e.nx e.nu (fl32 e.rho) 0 qs
  return (qs, gs)

/-- FACTOR, and ITERATE from a warm start for at most `lim` iterations. -/
def EngIn.solve (e : EngIn) (z y : List (List Nat)) (lim : Nat) : Except Flt EngOut := do
  let (qs, gs) ← e.factor
  let vs (l : List (List Nat)) : List Vec := l.map fun r => r.map fl32
  let s ← iterate e.nx (fl32 e.rho) (fl32 e.epsP) (fl32 e.epsD) (e.x0.map fl32) qs gs lim
    ⟨0, [], vs z, vs y, .inf false, .inf false⟩
  let bs (l : List Vec) : List (List Nat) := l.map fun r => r.map bits32
  return ⟨s.j, s.met (fl32 e.epsP) (fl32 e.epsD), bits32 s.rp, bits32 s.rd, bs s.w, bs s.z, bs s.y⟩

end Sys2Proof.Machine
end

