-- ==== Sys2Proof/Machine/PacerOps.lean ====
section
/-! DEFINITION. Machine/PacerOps.lean: the grid, series and model objects of the Pacer (chapter 10), the
arithmetic of the rounds and of the flex envelopes (R269, R281, R284), and the messages of 11.11. -/

namespace Sys2Proof.Machine

/-! ### The TAI grid (R238, R239) -/

/-- The TAI second of the system time. -/
def State.taiSec (s : State) : Nat := (s.sysNow / (sec : Int)).toNat

/-- The clk instant of a TAI second. -/
def State.clkOfTai (s : State) (t : Nat) : Nat := ((t * sec : Nat) - s.sysOfs).toNat

/-- A TAI second as an event record timestamp. -/
def tsSec (t : Nat) : W64 := BitVec.ofNat 64 (t * 2 ^ 24)

/-- The step boundary at or before a TAI second. -/
def stepStart (t stepMin : Nat) : Nat := t / (60 * stepMin) * (60 * stepMin)

/-- The shift s of earlier values (R239); none where they are no usable previous values. -/
def shiftOf (step0 n stepMin newStep0 newStepMin : Nat) : Option Nat :=
  if stepMin ≠ newStepMin || newStep0 < step0 || stepMin = 0 then none else
  let k := (newStep0 - step0) / (60 * stepMin)
  if k ≥ n then none else some k

/-- Values by step, shifted by `k` steps and cut or extended to `n` by repeating the last (R239). -/
def shiftVals (vs : List Nat) (k n : Nat) : List Nat :=
  (List.range n).map fun i => (vs[min (k + i) (vs.length - 1)]?).getD 0

/-! ### Series (10.3) -/

def State.series? (s : State) (n : Nat) : Option Series := s.pacer.series.find? fun x => x.no == n

/-- The value of a series for a plan step: that of the interval with the step's midpoint (10.3). -/
def Series.at (x : Series) (step0 stepMin k : Nat) : Nat :=
  let mid := (2 * step0 + (2 * k + 1) * stepMin * 60) * 2 ^ 23
  let i := if mid < x.start then 0 else (mid - x.start) / (x.step * 60 * 2 ^ 24)
  (x.vals[min i (x.vals.length - 1)]?).getD 0

/-! ### FP64 arithmetic of the service -/

/-- 1.163, kW per (m³/h · K). -/
def dHeat : Fl := Fl.ofRat fp64F 1163 1000
/-- Round once to FP32 bits (R289). -/
def r32 (x : Fl) : Nat := bits32 x
/-- An FP64 number from its bits, and back. -/
def d64 (w : Nat) : Fl := fl64 w
def b64 (x : Fl) : Nat := bits64 x

/-! ### Model objects (Table 10.1) -/

/-- The value of an element as it stands. -/
def State.ev (s : State) (o e : Nat) : Nat := match s.view? o e with | some v => v.value.toNat | none => 0
def State.evF (s : State) (o e : Nat) : Fl := fl32 (s.ev o e)

def isModelType (t : Nat) : Bool := tyZone ≤ t && t ≤ tyNode

/-- Model objects, ascending. -/
def State.models (s : State) : List Obj := s.estate.objs.filter fun x => isModelType x.typ

/-- The fixed Count of a model type (Table 10.1). -/
def modelCount (t : Nat) : Nat :=
  if t = tyNode then 10 else if t = tyPipe then 11 else if t = tyPump then 10 else if t = tyPlant then 14
  else if t = tyStore then 14 else if t = tySub then 8 else if t = tyZone then 16 else 0

/-- The Read elements of a model type (Table 10.1). -/
def readElems (t : Nat) : List Nat :=
  if t = tyPipe then [10] else if t = tyPump then [8, 9] else if t = tyPlant then [13] else if t = tyStore then [13]
  else if t = tySub then [7] else if t = tyZone then [14, 15] else []

/-- Elements that name a NODE. -/
def nodeElems (t : Nat) : List Nat :=
  if t = tyPipe then [1, 2] else if t = tyPump then [1, 2, 7] else if t = tyPlant then [2, 3]
  else if t = tyStore then [2] else if t = tySub then [1, 2] else if t = tyZone then [1] else []

/-- Elements that name a series. -/
def seriesElems (t : Nat) : List Nat :=
  if t = tyNode then [6, 7] else if t = tyPlant then [9, 10] else if t = tySub then [5]
  else if t = tyZone then [6, 7, 8, 9, 10] else []

/-- The ..._SRC element of a type, 0 for none. -/
def srcElem (t : Nat) : Nat :=
  if t = tyNode then 9 else if t = tyPlant then 12 else if t = tyStore then 12 else if t = tySub then 6
  else if t = tyZone then 13 else 0

/-- The stated range of a written model element (Table 10.1); an element without one takes any value of its type. -/
def modelRange (t e : Nat) (v : Nat) : Bool :=
  let f := fl32 v
  let within (lo hi : Fl) : Bool := Fl.le lo f && Fl.le f hi
  let q (a b : Nat) : Fl := Fl.ofRat fp64F a b
  let pos := Fl.lt (dNat 0) f
  if t = tyNode then
    if e = 1 then v ≤ 6 else if e = 6 || e = 7 then v ≤ 255 else if e = 8 then within (q 1 100) (dNat 1000) else true
  else if t = tyPipe then
    if e = 3 || e = 6 || e = 7 then pos else if e = 5 then within (dNat 0) (q 1 2)
    else if e = 8 then within (dNat 1) (dNat 80) else if e = 9 then v ≤ 1 else true
  else if t = tyPump then
    if e = 6 then within (q 1 10) (dNat 1) else true
  else if t = tyPlant then
    if e = 1 then v ≤ 3 else if e = 9 || e = 10 then v ≤ 255 else if e = 11 then Fl.le (dNat 0) f else true
  else if t = tyStore then
    if e = 1 then v ≤ 1 else if e = 7 || e = 8 then within (q 1 2) (dNat 1) else if e = 9 then within (dNat 0) (q 1 10) else true
  else if t = tySub then
    if e = 4 then within (dNat 0) (q 1 5) else if e = 5 then v ≤ 255 else true
  else if t = tyZone then
    if e = 2 then v ≤ 1 else if e = 3 || e = 4 then pos else if 6 ≤ e && e ≤ 10 then v ≤ 255 else true
  else true

/-- The binding that a reference of a model object makes is permitted, or it names nothing (R54, R243, R293). -/
def State.modelRefOk (s : State) (x : Obj) (e : Nat) : Bool :=
  let v := s.ev x.num e
  if (nodeElems x.typ).contains e then v == 0 || (s.obj? v).isNone || bindOk (s.tagOf v) (s.tagOf x.num)
  else if (seriesElems x.typ).contains e then (match s.series? v with | some y => bindOk y.tag (s.tagOf x.num) | none => true)
  else if srcElem x.typ = e && v ≠ 0 then
    let a : W64 := BitVec.ofNat 64 v
    !s.isOwn a || (s.obj? (addrObj a)).isNone || bindOk (s.tagOf (addrObj a)) (s.tagOf x.num)
  else true

/-- After a change of tag the references of model objects that are no longer permitted go LOST, and those permitted again come back (R56). -/
def State.modelRefsSync (s0 s : State) : State :=
  s0.models.foldl (fun s x =>
    (nodeElems x.typ ++ seriesElems x.typ ++ [srcElem x.typ]).foldl (fun s e =>
      if e = 0 then s
      else match s0.modelRefOk x e, s.modelRefOk x e with
        | true, false => s.setSrc x.num e qLost
        | false, true => s.unLost x.num e
        | _, _ => s) s) s

/-- KIND of a node, 7 where the number names no NODE of the list. -/
def State.nodeKind (s : State) (ok : List Nat) (o : Nat) : Nat := if ok.contains o then s.ev o 1 else 7

/-- The carrier of a node kind: 0 heat, 1 cold, 2 electric. -/
def kindCarrier (k : Nat) : Nat := if k = 0 || k = 4 then 0 else if k = 1 || k = 5 then 1 else 2

/-- A node with a pressure variable: heat or cold, PMAX above PMIN. -/
def State.hasP (s : State) (o : Nat) : Bool := s.ev o 1 ≤ 1 && Fl.lt (s.evF o 2) (s.evF o 3)

/-! ### Shape and times (R255, R259) -/

/-- WSTEP of R255. -/
def wstepOf (n m g : Nat) : Nat :=
  let x := 4 * ((n + m) * (n + m + g) + 8 * (n + m) + 4 * g)
  (x + 255) / 256 * 256

/-- Iteration and factorisation cycles of R259. -/
def iterCycles (N n m g l : Nat) : Nat := N * ((2 * (n + m) * (n + m + g) + 8 * (n + m + g) + l - 1) / l + 40)
def factCycles (N n m g l : Nat) : Nat := N * (((n + m) * (n + m) * (n + m + g) + l - 1) / l + 200)

/-- Cycles of 600 MHz in ns and in µs, rounded up. -/
def cycNs (c : Nat) : Nat := (c * 5 + 2) / 3
def cycUs (c : Nat) : Nat := (c + 599) / 600

/-! ### Vectors over carriers and steps -/

/-- The part of a vector that belongs to the i-th carrier. -/
def vecPart (v : List Nat) (i n : Nat) : List Nat := (v.drop (i * n)).take n

/-- A vector of FP32 values as bytes, and back. -/
def vecBytes (v : List Nat) : Bytes := (v.map fun x => natBE 4 x).flatten
def bytesVec (b : Bytes) (len : Nat) : List Nat := (List.range len).map fun i => beAt b (4 * i) 4

/-- A vector carried from one grid to another (R239), carrier by carrier; none where it is not usable. -/
def shiftVec (v : List Nat) (nc step0 n stepMin newStep0 newN newStepMin : Nat) : Option (List Nat) :=
  (shiftOf step0 n stepMin newStep0 newStepMin).map fun k =>
    ((List.range nc).map fun i => shiftVals (vecPart v i n) k newN).flatten

/-- As `shiftVec`, and beyond the horizon the value of the last step (R285). -/
def shiftVecLast (v : List Nat) (nc step0 n stepMin newStep0 newN newStepMin : Nat) : List Nat :=
  match shiftVec v nc step0 n stepMin newStep0 newN newStepMin with
  | some w => w
  | none => ((List.range nc).map fun i => List.replicate newN ((vecPart v i n)[n - 1]?.getD 0)).flatten

/-! ### The round arithmetic (R269, R289) -/

/-- What one completed round gives at one carrier and step. -/
structure Upd where
  r    : Fl
  rbar : Fl
  u    : Fl
  tE   : Fl
  e    : Fl

/-- R269 at one carrier and step: `bs` are the participants' B in ascending hop. -/
def roundStep (port : Bool) (rhoF rhoP : Fl) (bs : List Fl) (e u a lp : Fl) : Upd :=
  let sum := bs.foldl dAdd (dNat 0)
  let r := dSub sum e
  let rbar := dDiv r (dNat (bs.length + b2n port))
  let u' := dAdd u rbar
  let tE := dAdd (dAdd e rbar) u'
  let e' := if port then dDiv (dAdd (dSub (dMul rhoP a) lp) (dMul rhoF tE)) (dAdd rhoP rhoF) else dNat 0
  ⟨r, rbar, u', tE, e'⟩

/-! ### Flex envelopes (R281 to R284) -/

/-- One step record of an envelope: E*, Emin, Emax, λ* and its segments as END and SLOPE, all FP32 bits. -/
structure EnvStep where
  e    : Nat
  emin : Nat
  emax : Nat
  lam  : Nat
  segs : List (Nat × Nat)
  deriving DecidableEq, Repr

/-- E_j made non-rising with price (R281). -/
def monotone : List Fl → List Fl
  | [] => []
  | x :: xs => x :: go x xs
where
  go (m : Fl) : List Fl → List Fl
    | [] => []
    | y :: ys => let z := Fl.min y m; z :: go z ys

/-- The step record from the nine responses E_0 to E_8, λ* and PSTEP (R281). -/
def envStep (es : List Fl) (lam pstep : Fl) : EnvStep :=
  let es := monotone es
  let e (j : Nat) : Fl := (es[j]?).getD (dNat 0)
  let lj (j : Nat) : Fl := dAdd lam (dMul (.ofInt ((j : Int) - 4)) pstep)
  let segs := (List.range 8).filterMap fun i0 =>
    let i := i0 + 1
    let lo := e (8 - (i - 1))
    let hi := e (8 - i)
    if Fl.lt lo hi then some (r32 hi, r32 (dDiv (dAdd (lj (9 - i)) (lj (8 - i))) (dNat 2)).neg) else none
  ⟨r32 (e 4), r32 (e 8), r32 (e 0), r32 lam, segs⟩

/-- A step record as 84 bytes (Table 11.4). -/
def EnvStep.bytes (x : EnvStep) : Bytes :=
  natBE 4 x.e ++ natBE 4 x.emin ++ natBE 4 x.emax ++ natBE 4 x.lam ++ natBE 1 x.segs.length ++ natBE 3 0 ++
    padTo 64 (x.segs.map fun p => natBE 4 p.1 ++ natBE 4 p.2).flatten

/-- A step record from its bytes. -/
def envStepOf (b : Bytes) : EnvStep :=
  ⟨beAt b 0 4, beAt b 4 4, beAt b 8 4, beAt b 12 4,
    (List.range (min 8 (beAt b 16 1))).map fun i => (beAt b (20 + 8 * i) 4, beAt b (24 + 8 * i) 4)⟩

/-- The carriers of a carrier byte. -/
def carsOf (b : Nat) : List Nat := (List.range 3).filter fun c => bit1 b c == 1
def carsByte (cs : List Nat) : Nat := cs.foldl (fun a c => a ||| 2 ^ c) 0

/-- The record of a carrier and step in an envelope's bytes. -/
def envRec (b : Bytes) (c k : Nat) : Option EnvStep :=
  let cs := carsOf (beAt b 2 1)
  let n := beAt b 4 2
  match cs.idxOf? c with
  | some i => if k < n then some (envStepOf (slice b (40 + 84 * (i * n + k)) 84)) else none
  | none => none

/-- The tests of R283 on the bytes of an envelope, by number from 1: format, check, N and STEP_MIN, Emin ≤ E* ≤ Emax, END
values, slopes, finite values. -/
def envFault (b : Bytes) (n stepMin : Nat) : Option Nat :=
  let cs := carsOf (beAt b 2 1)
  let len := 44 + 84 * beAt b 4 2 * cs.length
  if beAt b 0 1 ≠ 2 || b.length ≠ len || beAt b 2 1 > 7 then some 1
  else if crc32 (b.take (len - 4)) ≠ beAt b (len - 4) 4 then some 2
  else if beAt b 4 2 ≠ n || beAt b 6 1 ≠ stepMin then some 3
  else
    let recs := (List.range (n * cs.length)).map fun i => envStepOf (slice b (40 + 84 * i) 84)
    let rising (l : List Nat) : Bool := (l.zip (l.drop 1)).all fun p => Fl.lt (fl32 p.1) (fl32 p.2)
    let f (w : Nat) : Bool := (fl32 w).isFin
    if recs.any fun r => !(Fl.le (fl32 r.emin) (fl32 r.e) && Fl.le (fl32 r.e) (fl32 r.emax)) then some 4
    else if recs.any fun r => !(rising (r.emin :: r.segs.map (·.1))) ||
        (!r.segs.isEmpty && ((r.segs.map (·.1)).getLast?) != some r.emax) then some 5
    else if recs.any fun r => !(rising (r.segs.map (·.2))) then some 6
    else if recs.any fun r => !(f r.e && f r.emin && f r.emax && f r.lam && r.segs.all fun p => f p.1 && f p.2) then some 7
    else none

/-- R284: the E that minimises the envelope cost plus Δh·(ρF/2)·(E − t)². -/
def envSolve (x : EnvStep) (t rhoF : Fl) : Fl :=
  if x.segs.isEmpty then fl32 x.e else go (fl32 x.emin) x.segs
where
  go (start : Fl) : List (Nat × Nat) → Fl
    | [] => fl32 x.emax
    | (en, sl) :: r =>
      let ec := dSub t (dDiv (fl32 sl) rhoF)
      if Fl.le ec (fl32 en) then Fl.max ec start else go (fl32 en) r

/-- The E that an envelope takes at a price: the end of the last segment whose marginal cost lies below minus the price. -/
def envAtPrice (x : EnvStep) (lam : Fl) : Fl :=
  if x.segs.isEmpty then fl32 x.e else
  x.segs.foldl (fun e p => if Fl.lt (fl32 p.2) lam.neg then fl32 p.1 else e) (fl32 x.emin)

/-! ### Messages (Tables 11.6 and 11.7) -/

structure PHead where
  typ     : Nat
  cars    : List Nat
  n       : Nat
  stepMin : Nat
  qual    : Nat
  round   : Nat
  start   : Nat
  step0   : Nat
  epoch   : Nat
  period  : Nat
  hop     : Nat
  parts   : Nat

def PHead.bytes (h : PHead) : Bytes :=
  natBE 1 h.typ ++ natBE 1 (carsByte h.cars) ++ natBE 2 h.n ++ natBE 1 h.stepMin ++ natBE 1 h.qual ++ natBE 2 h.round ++
    natBE 8 (h.start * 2 ^ 24) ++ natBE 8 (h.step0 * 2 ^ 24) ++ natBE 4 h.epoch ++ natBE 2 h.period ++ natBE 2 h.hop ++
    natBE 8 h.parts

def pheadOf (b : Bytes) : PHead :=
  ⟨beAt b 0 1, carsOf (beAt b 1 1), beAt b 2 2, beAt b 4 1, beAt b 5 1, beAt b 6 2, beAt b 8 8 / 2 ^ 24,
    beAt b 16 8 / 2 ^ 24, beAt b 24 4, beAt b 28 2, beAt b 30 2, beAt b 32 8⟩

/-! ### Region S (R254, Table 10.6) -/

/-- A series as its entry of 784 bytes holds it, in the byte order of the application cores. -/
def Series.sram (x : Series) : Bytes :=
  (natBE 8 x.start).reverse ++ (natBE 2 x.step).reverse ++ (natBE 2 x.vals.length).reverse ++ natBE 4 0 ++
    padTo 768 (x.vals.map fun v => (natBE 4 v).reverse).flatten

def seriesAddr (n : Nat) : Nat := sramBase + 0x100000 + 784 * (n - 1)

/-- Put one series entry into region S while PD_PACER is on. -/
def State.seriesSram (s : State) (n : Nat) : State :=
  if !s.pdOn 2 then s else
  let b := match s.series? n with | some x => x.sram | none => List.replicate 784 0
  { s with mem := memWrite s.mem (seriesAddr n) b }

/-- The service writes regions S and P back when PD_PACER is powered (R254). Region P lists the schedule step by step, the
variables in the order of R252. -/
def State.pacerReload (s : State) : State :=
  let s := s.pacer.series.foldl (fun s x => s.seriesSram x.no) s
  match s.pacer.plan with
  | none => s
  | some p =>
    let b := ((List.range p.n).map fun k =>
      (p.vars.map fun v => (natBE 4 ((v.2.2[k]?).getD 0)).reverse).flatten).flatten
    if s.pdOn 2 then { s with mem := memWrite s.mem (sramBase + 0x200000) b } else s

end Sys2Proof.Machine
end

