-- ==== Sys2Proof/Machine/PacerModel.lean ====
section
/-! DEFINITION. Machine/PacerModel.lean: the local problem as the service builds it from the model objects (R238 to R253): variables
and bounds, rows, dynamics and costs, the linearisation, the scaling, and the local solve of a problem. -/

namespace Sys2Proof.Machine

/-- What a build works on: the snapshot, the grid, the shifted previous plan, and the quadratic coupling cost. -/
structure PCtx where
  s       : State
  step0   : Nat
  n       : Nat
  stepMin : Nat
  prev    : Option (PSched × Nat)
  fed     : Bool
  cw      : Fl

/-! ### Values of the snapshot (R239, R242, R246 to R250) -/

/-- Previous values of a variable, shifted. -/
def PCtx.old (c : PCtx) (o : Nat) (k : PKind) : Option (List Nat) :=
  match c.prev with
  | none => none
  | some (p, sh) => (p.vars.find? fun v => v.1 == o && v.2.1 == k).map fun v => shiftVals v.2.2 sh c.n

/-- A series element's value at a step; an element that names no series gives 0. -/
def PCtx.ser (c : PCtx) (o e k : Nat) : Fl :=
  match c.s.series? (c.s.ev o e) with
  | some x => fl32 (x.at c.step0 c.stepMin k)
  | none => dNat 0

/-- Δh, the step length in hours. -/
def PCtx.dh (c : PCtx) : Fl := Fl.ofRat fp64F c.stepMin 60

/-- UNSERVED of a node, 5 before it is written (Table 10.1). -/
def PCtx.unserved (c : PCtx) (o : Nat) : Fl :=
  match c.s.elem? o 8 with
  | some e => if e.src = qCold then dNat 5 else c.s.evF o 8
  | none => dNat 5

/-- kW per m³/h in a pipe: 1.163·DT_NOM (R245). -/
def PCtx.heatPer (c : PCtx) (o : Nat) : Fl := dMul dHeat (c.s.evF o 8)

/-- Q̄ of a pipe at each step: the previous flow, or QNOM (R246, R248). -/
def PCtx.qbar (c : PCtx) (o : Nat) : List Fl :=
  match c.old o .heat with
  | some hs => hs.map fun h => dDiv (fl32 h) (c.heatPer o)
  | none => List.replicate c.n (c.s.evF o 7)

/-- Q̄ of a pipe's pressure drop at a step: at least 0.05·QNOM in magnitude, with its own sign, positive when it is 0 (R246). -/
def PCtx.qdrop (c : PCtx) (o k : Nat) : Fl :=
  let q := vAt (c.qbar o) k
  let m := Fl.max q.abs (dMul (Fl.ofRat fp64F 5 100) (c.s.evF o 7))
  if Fl.lt q (dNat 0) then m.neg else m

/-- Q̄ and h̄ of a pump at a step: the previous flow and head, or (QMIN + QMAX) / 2 and HMAX / 2 (R246, R248). -/
def PCtx.pumpBar (c : PCtx) (o k : Nat) : Fl × Fl :=
  match c.old o .flow, c.old o .head with
  | some q, some h => (fl32 ((q[k]?).getD 0), fl32 ((h[k]?).getD 0))
  | _, _ => (dDiv (dAdd (c.s.evF o 3) (c.s.evF o 4)) (dNat 2), dDiv (c.s.evF o 5) (dNat 2))

/-- τ of a pipe in hours (R247). -/
def PCtx.tau (c : PCtx) (o : Nat) : Fl :=
  let qs := (c.qbar o).take 8
  let mean := dDiv (qs.foldl (fun a q => dAdd a q.abs) (dNat 0)) (dNat qs.length)
  let qnom := c.s.evF o 7
  let qm := if Fl.lt mean (dMul (Fl.ofRat fp64F 5 100) qnom) then qnom else mean
  dDiv (c.s.evF o 3) qm

/-- The transport delay d of a pipe in steps (R247). -/
def PCtx.delay (c : PCtx) (o : Nat) : Nat :=
  let x := dAdd (dDiv (c.tau o) c.dh) (Fl.ofRat fp64F 1 2)
  match x with
  | .fin false _ _ => min 16 (x.toIntTrunc.getD 0).toNat
  | .inf false => 16
  | _ => 0

/-- 1 − λ of a pipe, λ = LOSS·τ (R247). -/
def PCtx.keep (c : PCtx) (o : Nat) : Fl := dSub (dNat 1) (dMul (c.s.evF o 5) (c.tau o))

/-- e^(−x) for a finite x at least 0, from a Taylor sum in fixed point of 1,400 bits, rounded to FP64. -/
def expNeg (x : Fl) : Fl :=
  match x with
  | .fin false m e =>
    if Fl.le (dNat 800) x then dNat 0 else
    -- y = x / 2^16 in units of 2^−1400
    let y := if e + 1384 ≥ 0 then m * pow2 (e + 1384) else m / pow2 (-(e + 1384))
    let sum := ((List.range 160).foldl (fun (a : Int × Nat) i =>
      let t : Nat := a.2 * y / 2 ^ 1400 / (i + 1)
      (if i % 2 = 0 then a.1 - (t : Int) else a.1 + (t : Int), t)) (((2 ^ 1400 : Nat) : Int), 2 ^ 1400)).1.toNat
    let r := (List.range 16).foldl (fun (a : Nat) _ => a * a / 2 ^ 1400) sum
    roundQ fp64F false r 1 (-1400)
  | .inf false => dNat 0
  | _ => .nan

/-- a of a zone: exp(−UA·Δh / CAP) (R245). -/
def PCtx.zoneA (c : PCtx) (o : Nat) : Fl := expNeg (dDiv (dMul (c.s.evF o 4) c.dh) (c.s.evF o 3))

/-- COMMIT of a plant at a step. -/
def PCtx.committed (c : PCtx) (o k : Nat) : Bool := Fl.le (Fl.ofRat fp64F 1 2) (c.ser o 10 k)

/-- The fixed demand of a substation with NODE_SEC 0: BASE / (1 − LOSS). -/
def PCtx.fixedDraw (c : PCtx) (o k : Nat) : Fl := dDiv (c.ser o 5 k) (dSub (dNat 1) (c.s.evF o 4))

/-- The largest of a value over the horizon, at least 0. -/
def PCtx.maxOf (c : PCtx) (f : Nat → Fl) : Fl := (List.range c.n).foldl (fun m k => Fl.max m (f k)) (dNat 0)

/-- The largest loads at a node: substations drawing, their fixed demand, and zones. -/
def PCtx.loadAt (c : PCtx) (objs : List Obj) (node : Nat) : Fl :=
  objs.foldl (fun a x =>
    if x.typ = tySub then
      let a := if c.s.ev x.num 1 = node then
        dAdd a (if c.s.ev x.num 2 = 0 then c.maxOf (c.fixedDraw x.num) else c.s.evF x.num 3) else a
      if c.s.ev x.num 2 = node then dAdd a (c.maxOf (c.ser x.num 5)) else a
    else if x.typ = tyZone && c.s.ev x.num 1 = node then dAdd a (c.s.evF x.num 5) else a) (dNat 0)

/-! ### Variables and bounds (R241, R245) -/

/-- The variables that an object contributes, states before inputs where Table 10.2 lists both. -/
def PCtx.vars (c : PCtx) (objs : List Obj) (x : Obj) : List PVar :=
  let o := x.num
  let f (e : Nat) : Fl := c.s.evF o e
  let v (k : PKind) (st : Bool) (lo hi : Nat → Fl) : PVar :=
    ⟨o, k, st, (List.range c.n).map fun i => r32 (lo i), (List.range c.n).map fun i => r32 (hi i)⟩
  let cst (a : Fl) : Nat → Fl := fun _ => a
  let zero := cst (dNat 0)
  if x.typ = tyNode then
    let k := c.s.ev o 1
    if k ≤ 1 then
      [v .unserved false zero (cst (c.loadAt objs o))] ++
        (if c.s.hasP o then [v .pressure false (cst (f 2)) (cst (f 3))] else [])
    else if k = 3 then [v .import_ false zero (cst (f 4)), v .export_ false zero (cst (f 5))]
    else if k ≥ 4 then
      (if c.fed then [v .inflow false (cst (f 5).neg) (cst (f 4))] else [v .inflow false zero zero])
    else []
  else if x.typ = tyPipe then
    let top := dMul (c.heatPer o) (f 6)
    let lo := if c.s.ev o 9 = 1 then top.neg else dNat 0
    ((List.range (c.delay o)).map fun j => v (.delay j) true (cst lo) (cst top)) ++ [v .heat false (cst lo) (cst top)]
  else if x.typ = tyPump then
    [v .flow false (cst (f 3)) (cst (f 4)), v .head false zero (cst (f 5))]
  else if x.typ = tyPlant then
    (if Fl.lt (dNat 0) (f 6) then [v .prevOut true zero (cst (f 5))] else []) ++
      [v .output false (fun i => if c.committed o i then f 4 else dNat 0) (fun i => if c.committed o i then f 5 else dNat 0)]
  else if x.typ = tyStore then
    -- S reaches from the lowest end level that the last step can leave to E_END
    let low := dSub (dMul (dSub (dNat 1) (dMul (f 9) c.dh)) (f 3)) (dDiv (dMul c.dh (f 6)) (f 8))
    [v .level true (cst (f 3)) (cst (f 4)), v .charge false zero (cst (f 5)), v .discharge false zero (cst (f 6)),
      v .shortfall false zero (cst (Fl.max (dNat 0) (dSub (f 10) low)))]
  else if x.typ = tySub then
    if c.s.ev o 2 = 0 then [v .transfer false (c.fixedDraw o) (c.fixedDraw o)] else [v .transfer false zero (cst (f 3))]
  else if x.typ = tyZone then
    [v .temp true (cst (.ofInt (-50))) (cst (dNat 100)), v .power false zero (cst (f 5)), v .slack false zero (cst (dNat 50))]
  else []

/-! ### Rows, dynamics and costs (R245, R246) -/

/-- A term of a row: variable and coefficient. -/
abbrev PTerm := (Nat × PKind) × Fl

/-- What flows into a node less what flows out of it, at a step: terms, and what depends on no variable. -/
def PCtx.balance (c : PCtx) (objs : List Obj) (node k : Nat) : List PTerm × Fl :=
  objs.foldl (fun (ts, cst) x =>
    let o := x.num
    let f (e : Nat) : Fl := c.s.evF o e
    let at_ (e : Nat) : Bool := c.s.ev o e == node
    let one := dNat 1
    if x.typ = tyNode then
      if o ≠ node then (ts, cst) else
      let kd := c.s.ev o 1
      (ts ++ (if kd ≤ 1 then [((o, .unserved), one)] else if kd = 3 then [((o, .import_), one), ((o, .export_), one.neg)]
        else if kd ≥ 4 then [((o, .inflow), one)] else []), cst)
    else if x.typ = tyPipe then
      (ts ++ (if at_ 1 then [((o, .heat), one.neg)] else []) ++
        (if at_ 2 then [((o, if c.delay o = 0 then .heat else .delay (c.delay o - 1)), c.keep o)] else []), cst)
    else if x.typ = tyPump then
      if !at_ 7 then (ts, cst) else
      -- (h̄·Q + Q̄·h − Q̄·h̄) / (3,600·ETA) flows out (R246)
      let (q, h) := c.pumpBar o k
      let den := dMul (dNat 3600) (f 6)
      (ts ++ [((o, .flow), (dDiv h den).neg), ((o, .head), (dDiv q den).neg)], dAdd cst (dDiv (dMul q h) den))
    else if x.typ = tyPlant then
      let kd := c.s.ev o 1
      (ts ++ (if at_ 2 then [((o, .output), one)] else []) ++
        (if at_ 3 && kd ≠ 0 then [((o, .output), if kd = 3 then f 8 else (dDiv one (f 7)).neg)] else []), cst)
    else if x.typ = tyStore then
      (ts ++ (if at_ 2 then [((o, .discharge), one), ((o, .charge), one.neg)] else []), cst)
    else if x.typ = tySub then
      let sec := c.s.ev o 2 != 0 && at_ 2
      (ts ++ (if at_ 1 then [((o, .transfer), one.neg)] else []) ++
        (if sec then [((o, .transfer), dSub one (f 4))] else []), if sec then dSub cst (c.ser o 5 k) else cst)
    else if x.typ = tyZone then (ts ++ (if at_ 1 then [((o, .power), one.neg)] else []), cst)
    else (ts, cst)) ([], dNat 0)

/-- A general row: object and row of the object, terms, and its bounds, none where it is open on that side. -/
structure PRow where
  key : Nat × Nat
  ts  : List PTerm
  lo  : Option Fl
  hi  : Option Fl

/-- An equality row. -/
def PRow.eq (o r : Nat) (ts : List PTerm) (v : Fl) : PRow := ⟨(o, r), ts, some v, some v⟩

/-- The terms and the constant of E_(k+1) of a store. -/
def PCtx.storeNext (c : PCtx) (o : Nat) : List PTerm :=
  let f (e : Nat) : Fl := c.s.evF o e
  [((o, .level), dSub (dNat 1) (dMul (f 9) c.dh)), ((o, .charge), dMul c.dh (f 7)), ((o, .discharge), (dDiv c.dh (f 8)).neg)]

/-- The general rows of an object at a step, in the order of Table 10.2. -/
def PCtx.rows (c : PCtx) (objs : List Obj) (x : Obj) (k : Nat) : List PRow :=
  let o := x.num
  let f (e : Nat) : Fl := c.s.evF o e
  let n1 := c.s.ev o 1
  let n2 := c.s.ev o 2
  let one := dNat 1
  if x.typ = tyNode then
    let (ts, cst) := c.balance objs o k
    [PRow.eq o 0 ts cst.neg]
  else if x.typ = tyPipe then
    if !(c.s.hasP n1 && c.s.hasP n2) then [] else
    -- p_in − p_out = KDROP·(2·Q̄·Q − Q̄·|Q̄|), Q = H / (1.163·DT_NOM)
    let q := c.qdrop o k
    [PRow.eq o 0 [((n1, .pressure), one), ((n2, .pressure), one.neg),
      ((o, .heat), (dDiv (dMul (f 4) (dMul (dNat 2) q)) (c.heatPer o)).neg)] (dMul (f 4) (dMul q q.abs)).neg]
  else if x.typ = tyPump then
    let leave := (objs.filter fun y => y.typ == tyPipe && c.s.ev y.num 1 == n2).map fun y =>
      (((y.num, PKind.heat), (dDiv one (c.heatPer y.num)).neg) : PTerm)
    [PRow.eq o 0 (((o, .flow), one) :: leave) (dNat 0),
     PRow.eq o 1 [((n2, .pressure), one), ((n1, .pressure), one.neg), ((o, .head), one.neg)] (dNat 0)]
  else if x.typ = tyPlant then
    if !(Fl.lt (dNat 0) (f 6)) then [] else
    [⟨(o, 0), [((o, .output), one), ((o, .prevOut), one.neg)], some (f 6).neg, some (f 6)⟩]
  else if x.typ = tyStore then
    if k + 1 ≠ c.n then [] else [⟨(o, 0), c.storeNext o ++ [((o, .shortfall), one)], some (f 10), none⟩]
  else if x.typ = tyZone then
    [⟨(o, 0), [((o, .temp), one), ((o, .slack), one)], some (c.ser o 8 k), none⟩,
     ⟨(o, 1), [((o, .temp), one), ((o, .slack), one.neg)], none, some (c.ser o 9 k)⟩]
  else []

/-- A state at the next step: terms, and what depends on no variable. -/
def PCtx.next (c : PCtx) (v : PVar) (k : Nat) : List PTerm × Fl :=
  let o := v.obj
  match v.kind with
  | .delay 0 => ([((o, .heat), dNat 1)], dNat 0)
  | .delay (j + 1) => ([((o, .delay j), dNat 1)], dNat 0)
  | .prevOut => ([((o, .output), dNat 1)], dNat 0)
  | .level => (c.storeNext o, dNat 0)
  | .temp =>
    let a := c.zoneA o
    let b := dDiv (dSub (dNat 1) a) (c.s.evF o 4)
    ([((o, .temp), a), ((o, .power), if c.s.ev o 2 = 1 then b.neg else b)],
      dAdd (dMul (dSub (dNat 1) a) (c.ser o 6 k)) (dMul b (c.ser o 7 k)))
  | _ => ([], dNat 0)

/-- The cost of a variable at a step: W and q of ½·W·v² + q·v, and what depends on no variable (R245). -/
def PCtx.cost (c : PCtx) (v : PVar) (k : Nat) : Fl × Fl × Fl :=
  let o := v.obj
  let f (e : Nat) : Fl := c.s.evF o e
  let z := dNat 0
  match v.kind with
  | .import_ => (z, dMul c.dh (c.ser o 6 k), z)
  | .export_ => (z, (dMul c.dh (c.ser o 7 k)).neg, z)
  | .unserved => (z, dMul c.dh (c.unserved o), z)
  | .output =>
    let fuel := c.s.ev o 1 = 0 || c.s.ev o 1 = 3
    (dMul (dNat 2) (dMul c.dh (f 11)), if fuel then dDiv (dMul c.dh (c.ser o 9 k)) (f 7) else z, z)
  | .shortfall => (z, if k + 1 = c.n then f 11 else z, z)
  | .temp =>
    let w := dMul c.dh (f 11)
    let p := c.ser o 10 k
    (dMul (dNat 2) w, (dMul (dNat 2) (dMul w p)).neg, dMul w (dMul p p))
  | .slack => (z, dMul c.dh (f 12), z)
  | _ => (z, z, z)

/-! ### What is left out, and the initial state (R250, R251) -/

/-- Why an object is left out (Table 10.3); `nodes` are the NODE objects included. A node or series that R54 no longer permits the object is
none (R56). -/
def PCtx.reject (c : PCtx) (nodes : List Nat) (objs : List Obj) (x : Obj) : Option Nat :=
  let o := x.num
  let kind (e : Nat) : Nat :=
    if bindOk (c.s.tagOf (c.s.ev o e)) x.tag then c.s.nodeKind nodes (c.s.ev o e) else 7
  let thermal (k : Nat) : Bool := k == 0 || k == 1 || k == 4 || k == 5
  let power (k : Nat) : Bool := k == 2 || k == 3 || k == 6
  let badNode : Bool :=
    if x.typ = tyPipe then !(thermal (kind 1) && thermal (kind 2) && kindCarrier (kind 1) == kindCarrier (kind 2))
    else if x.typ = tyPump then
      !(kind 1 ≤ 1 && kind 2 ≤ 1 && c.s.hasP (c.s.ev o 1) && c.s.hasP (c.s.ev o 2) && power (kind 7))
    else if x.typ = tyPlant then
      let cold := c.s.ev o 1 = 2
      !(thermal (kind 2) && kindCarrier (kind 2) == b2n cold && (power (kind 3) || (c.s.ev o 1 == 0 && c.s.ev o 3 == 0)))
    else if x.typ = tyStore then kind 2 = 7 || kind 2 = 3
    else if x.typ = tySub then !(thermal (kind 1)) || (c.s.ev o 2 ≠ 0 && !(thermal (kind 2)))
    else if x.typ = tyZone then kind 1 = 7
    else false
  let noSeries := (seriesElems x.typ).any fun e => c.s.ev o e != 0 &&
    (match c.s.series? (c.s.ev o e) with | some y => !(bindOk y.tag x.tag) | none => true)
  let inverted :=
    ((c.vars objs x).any fun v => (v.lo.zip v.hi).any fun p => Fl.lt (fl32 p.2) (fl32 p.1)) ||
    (x.typ == tyNode && Fl.lt (c.s.evF o 3) (c.s.evF o 2)) ||
    (x.typ == tyZone && (List.range c.n).any fun k => Fl.lt (c.ser o 9 k) (c.ser o 8 k))
  if badNode then some 1
  else if x.typ = tyZone && power (kind 1) then some 4
  else if noSeries then some 3
  else if inverted then some 2 else none

/-- The initial value of a state (R250): the source's, else the previous plan's, else the midpoint; and whether the source
was not used. A source that R54 no longer permits the object is not used (R56). -/
def PCtx.initOf (c : PCtx) (v : PVar) (typ : Nat) : Fl × Bool :=
  match v.kind with
  | .delay j =>
    match c.prev with
    | some (p, sh) =>
      match p.vars.find? fun w => w.1 == v.obj && w.2.1 == .heat with
      | some w =>
        -- H of the step j + 1 before the new step 0
        if sh ≥ j + 1 then (fl32 ((w.2.2[sh - (j + 1)]?).getD 0), false)
        else (fl32 ((((p.vars.find? fun y => y.1 == v.obj && y.2.1 == .delay (j - sh)).map fun y => y.2.2.headD 0)).getD 0), false)
      | none => (dNat 0, false)
    | none => (dMul (c.heatPer v.obj) (c.s.evF v.obj 7), false)
  | k =>
    let a : W64 := BitVec.ofNat 64 (c.s.ev v.obj (srcElem typ))
    match (if c.s.isOwn a && bindOk (c.s.tagOf (addrObj a)) (c.s.tagOf v.obj) then c.s.view? (addrObj a) (addrElem a) else none) with
    | some e =>
      if e.rep = qGood || e.rep = qForced || e.rep = qSubst then (valFl e.vt e.value, false) else (fallback k, true)
    | none => (fallback k, true)
where
  fallback (k : PKind) : Fl :=
    match c.old v.obj k with
    | some (x :: _) => fl32 x
    | _ => dDiv (dAdd (fl32 (v.lo.headD 0)) (fl32 (v.hi.headD 0))) (dNat 2)

/-! ### Scaling and the build (R249 to R252) -/

/-- c and r of a variable: midpoint and half-width of the union of its bounds over the horizon, r at least 10⁻³ (R252). -/
def PVar.scale (v : PVar) : Fl × Fl :=
  let lo := v.lo.foldl (fun a x => Fl.min a (fl32 x)) (fl32 (v.lo.headD 0))
  let hi := v.hi.foldl (fun a x => Fl.max a (fl32 x)) (fl32 (v.hi.headD 0))
  (st32 (dDiv (dAdd lo hi) (dNat 2)), st32 (Fl.max (Fl.ofRat fp64F 1 1000) (dDiv (dSub hi lo) (dNat 2))))

/-- The coefficients of a list of terms over the variables. -/
def denseRow (vars : List PVar) (ts : List PTerm) : Vec :=
  vars.map fun v => (ts.filter fun t => t.1 == (v.obj, v.kind)).foldl (fun a t => dAdd a t.2) (dNat 0)

/-- The largest finite FP32 value, which stands for an open side of a row. -/
def fMax : Fl := .fin false (2 ^ 24 - 1) 104

/-- A physical value of a variable in scaled units, and back. -/
def toScaled (cr : Fl × Fl) (v : Fl) : Fl := st32 (dDiv (dSub v cr.1) cr.2)
def ofScaled (cr : Fl × Fl) (z : Fl) : Fl := st32 (dAdd cr.1 (dMul cr.2 z))

/-- One step of the problem in scaled units. -/
def PCtx.step (c : PCtx) (objs : List Obj) (vars : List PVar) (sc : List (Fl × Fl)) (costs : List (Fl × Fl)) (k : Nat) : QStep :=
  let nx := (vars.filter (·.st)).length
  let scd (row : Vec) : Vec := (row.zip sc).map fun e => dMul e.1 e.2.2
  let mid (row : Vec) : Fl := (row.zip sc).foldl (fun a e => dAdd a (dMul e.1 e.2.1)) (dNat 0)
  let dyn := ((vars.zip sc).take nx).map fun e =>
    let (ts, cst) := c.next e.1 k
    let row := denseRow vars ts
    ((scd row).map fun x => r32 (dDiv x e.2.2), r32 (dDiv (dSub (dAdd (mid row) cst) e.2.1) e.2.2))
  let rows := (objs.map fun x => c.rows objs x k).flatten
  let ef := rows.map fun r => denseRow vars r.ts
  let side (open_ : Fl) (b : PRow → Option Fl) : List Nat := (rows.zip ef).map fun e =>
    match b e.1 with
    | some v => r32 (dSub v (mid e.2))
    | none => r32 open_
  let box (b : PVar → List Nat) : List Nat := (vars.zip sc).map fun e => r32 (toScaled e.2 (fl32 (((b e.1)[k]?).getD 0)))
  { a := dyn.map fun d => d.1.take nx
    b := dyn.map fun d => d.1.drop nx
    c := dyn.map (·.2)
    ef := ef.map fun r => (scd r).map r32
    lo := box (·.lo) ++ side fMax.neg (·.lo)
    hi := box (·.hi) ++ side fMax (·.hi)
    w := (costs.zip sc).map fun e => r32 (dMul e.1.1 (dMul e.2.2 e.2.2))
    q := (costs.zip sc).map fun e => r32 (dMul e.2.2 (dAdd (dMul e.1.1 e.2.1) e.1.2))
    keys := rows.map (·.key) }

/-- The result of a build: the problem, what was left out with its reason, and the states whose source was not used. -/
structure PBuild where
  prob : PProb
  out  : List (Nat × Nat)
  subs : List Nat
  nx   : Nat
  nu   : Nat

/-- The warm start of a step: the previous z in the new scale, C·z at the general rows, and the previous y (R239, R256). -/
def PCtx.warm (c : PCtx) (vars : List PVar) (sc : List (Fl × Fl)) (q : QStep) (k : Nat) : List Nat × List Nat :=
  let at_ (l : List Nat) : Nat := (l[k]?).getD 0
  let zb := (vars.zip sc).map fun e => match c.old e.1.obj e.1.kind with
    | some v => toScaled e.2 (fl32 (at_ v))
    | none => dNat 0
  let zg := q.ef.map fun r => st32 (dot (r.map fl32) zb)
  let ys (g : PSched → Option (List Nat)) : Nat :=
    match c.prev with
    | some (p, sh) => ((g p).map fun l => at_ (shiftVals l sh c.n)).getD 0
    | none => 0
  ((if c.prev.isSome then zb ++ zg else (zb ++ zg).map fun _ => dNat 0).map r32,
    (vars.map fun v => ys fun p => (p.duals.find? fun d => d.1 == v.obj && d.2.1 == v.kind).map (·.2.2)) ++
      q.keys.map fun r => ys fun p => (p.rowDuals.find? fun d => d.1 == r.1 && d.2.1 == r.2).map (·.2.2))

/-- Build the local problem from one snapshot (R249 to R252). -/
def PCtx.build (c : PCtx) : PBuild :=
  let all := c.s.models
  let nodeObjs := all.filter fun x => x.typ == tyNode
  let rej0 := nodeObjs.filterMap fun x => (c.reject [] all x).map fun r => (x.num, r)
  let nodes := (nodeObjs.map (·.num)).filter fun o => !(rej0.any fun r => r.1 == o)
  let rej := all.filterMap fun x => (c.reject nodes all x).map fun r => (x.num, r)
  let objs := all.filter fun x => !(rej.any fun r => r.1 == x.num)
  let listed := (objs.map fun x => c.vars objs x).flatten
  let vars := listed.filter (·.st) ++ listed.filter fun v => !v.st
  let sc := vars.map (·.scale)
  let typOf (o : Nat) : Nat := ((objs.find? fun x => x.num == o).map (·.typ)).getD 0
  let inits := (vars.filter (·.st)).map fun v => (v.obj, c.initOf v (typOf v.obj))
  let ks := List.range c.n
  let costs := ks.map fun k => vars.map fun v => c.cost v k
  let steps := (ks.zip costs).map fun e => c.step objs vars sc (e.2.map fun x => (x.1, x.2.1)) e.1
  let warm := (ks.zip steps).map fun e => c.warm vars sc e.2 e.1
  let delays := (objs.filter fun x => x.typ == tyPipe).map fun x => (x.num, c.delay x.num)
  let bound := (nodeObjs.filter fun x => nodes.contains x.num && c.s.ev x.num 1 ≥ 4).map fun x =>
    (c.s.ev x.num 1 - 4, x.num)
  let nx := (vars.filter (·.st)).length
  let prob : PProb := {
    vars := vars, delays := delays
    g := steps.foldl (fun a q => max a q.keys.length) 0
    scale := sc.map fun e => (r32 e.1, r32 e.2)
    steps := steps
    costs := costs.map fun l => ⟨l.map fun x => b64 x.1, l.map fun x => b64 x.2.1, b64 (l.foldl (fun a x => dAdd a x.2.2) (dNat 0))⟩
    x0 := (inits.zip sc).map fun e => r32 (toScaled e.2 e.1.2.1)
    rho := c.s.rd Reg.PACER_RHO, epsP := c.s.rd Reg.PACER_EPSP, epsD := c.s.rd Reg.PACER_EPSD
    cw := b64 c.cw, bound := bound, warmZ := warm.map (·.1), warmY := warm.map (·.2) }
  ⟨prob, rej, (inits.filter fun p => p.2.2).map (·.1) |>.eraseDups, nx, vars.length - nx⟩

/-! ### The local solve of a problem (R256, R270, R280, R286) -/

def PProb.nx (p : PProb) : Nat := (p.vars.filter (·.st)).length

def PProb.crAt (p : PProb) (i : Nat) : Fl × Fl := match p.scale[i]? with | some e => (fl32 e.1, fl32 e.2) | none => (dNat 0, dNat 1)

/-- The steps with the coupling cost ½·cw·B² + lin·B on the inflow of each boundary node; `lin` by carrier and step. -/
def PProb.coupled (p : PProb) (cw : Fl) (lin : Nat → Nat → Fl) : List QStep :=
  ((List.range p.steps.length).zip p.steps).map fun e =>
    p.bound.foldl (fun q b =>
      match p.vars.findIdx? fun v => v.obj == b.2 && v.kind == .inflow with
      | none => q
      | some i =>
        let (c, r) := p.crAt i
        { q with w := q.w.set i (r32 (dMul cw (dMul r r))), q := q.q.set i (r32 (dMul r (dAdd (dMul cw c) (lin b.1 e.1)))) }) e.2

/-- The problem as the engine takes it. -/
def PProb.engine (p : PProb) (cw : Fl) (lin : Nat → Nat → Fl) : EngIn :=
  ⟨p.nx, p.vars.length - p.nx, p.rho, p.epsP, p.epsD, p.x0, p.coupled cw lin⟩

/-- The values of the plan by variable and step: z in physical units, within its box exactly (R252, R278). -/
def PProb.values (p : PProb) (z : List (List Nat)) : List (List Nat) :=
  ((List.range p.vars.length).zip p.vars).map fun e =>
    ((List.range z.length).zip z).map fun r =>
      let at_ (l : List Nat) : Fl := fl32 ((l[r.1]?).getD 0)
      r32 (clipF (at_ e.2.lo) (at_ e.2.hi) (ofScaled (p.crAt e.1) (fl32 ((r.2[e.1]?).getD 0))))

/-- The objective at the values of a plan: the costs of R245 summed step by step (FP64). -/
def PProb.objective (p : PProb) (vals : List (List Nat)) : Nat :=
  b64 (((List.range p.costs.length).zip p.costs).foldl (fun a e =>
    dAdd (((List.range p.vars.length).zip (e.2.w.zip e.2.q)).foldl (fun a v =>
      let x := fl32 ((((vals[v.1]?).getD [])[e.1]?).getD 0)
      dAdd a (dAdd (dMul (dDiv (d64 v.2.1) (dNat 2)) (dMul x x)) (dMul (d64 v.2.2) x))) a) (d64 e.2.cst)) (dNat 0))

/-- y of a solve by variable and by general row, as the schedule keeps it. -/
def PProb.duals (p : PProb) (y : List (List Nat)) : List (Nat × PKind × List Nat) :=
  ((List.range p.vars.length).zip p.vars).map fun e => (e.2.obj, e.2.kind, y.map fun r => (r[e.1]?).getD 0)

def PProb.rowDuals (p : PProb) (y : List (List Nat)) : List (Nat × Nat × List Nat) :=
  let keys := (p.steps.map (·.keys)).flatten.eraseDups
  keys.map fun k => (k.1, k.2, (p.steps.zip y).map fun e =>
    match e.1.keys.idxOf? k with
    | some i => (e.2[p.vars.length + i]?).getD 0
    | none => 0)

end Sys2Proof.Machine
end

