-- ==== Sys2Proof/Machine/Pacer.lean ====
section
/-! DEFINITION. Machine/Pacer.lean: the commands of the Pacer: plan starts, rounds at a participant and at an anchor,
closes, probes, envelopes, dispatch, series and opcodes (chapters 10 and 11). -/

namespace Sys2Proof.Machine

def State.modPlan (s : State) (f : PPlan → PPlan) : State :=
  { s with pacer := { s.pacer with cur := s.pacer.cur.map f } }

def State.coord? (s : State) (g : W64) : Option GPlan := s.pacer.coord.find? fun x => x.grp == g

def State.putCoord (s : State) (x : GPlan) : State :=
  { s with pacer := { s.pacer with coord := s.pacer.coord.map fun y => if y.grp = x.grp then x else y } }

/-! ### The grant (R131) -/

/-- Mode floor and ceiling of the Pacer lanes (Table 5.2). -/
def modeLanes (m : Nat) : Nat × Nat :=
  if m = modeSprint then (64, 64) else if m = modePace || m = modeIsland then (0, 32)
  else if m = modeMarathon then (8, 8) else (0, 0)

/-- The charge of a value in mW (Table 5.11). Quantities: 0 CLK_APP in steps of 25 MHz, 1 lanes, 2 E0, 3 E1. -/
def qCharge (q v : Nat) : Nat :=
  match q with
  | 0 => 370 * (v - 4)
  | 1 => 250 * v
  | _ => if v = 0 then 0 else if v = 1 then 500 else 1600

/-- The lowest and the highest value that a quantity has. -/
def qLow (q : Nat) : Nat := if q = 0 then 4 else 0
def qTop (q : Nat) : Nat := if q = 0 then 48 else if q = 1 then 64 else 2

/-- R127: the highest value whose charge, less the charge in effect, does not exceed what remains. -/
def carriedOf (q now rem : Nat) : Nat :=
  ((List.range (qTop q + 1)).filter fun v => qLow q ≤ v && qCharge q v ≤ qCharge q now + rem).foldl max (qLow q)

/-- The lanes granted at a plan start: the value of R126, rounded down to a multiple of 8. What is carried is formed from the headroom that
the increases of E0, E1 and CLK_APP have left, less the reservations (R124, R127). -/
def State.laneGrant (s : State) : Nat :=
  let carried := carriedOf 1 (s.get F.LEDGER_EFF_LANES) (s.ledger.laneRem - (s.reserved : Int)).toNat
  min (min (modeLanes s.mode).2 (s.get F.LEDGER_LANE_LIM_CEIL)) carried / 8 * 8

/-- The iteration cap: EPLAN over lanes × 0.25 W × iteration time, rounded down; none where EPLAN is 0 (R131). -/
def capOf (eplan lanes itimeNs : Nat) : Option Nat :=
  -- EPLAN in 0.1 J; 0.25 W × 1 ns = 0.25 nJ
  if eplan = 0 || lanes = 0 || itimeNs = 0 then none else some (eplan * 100000000 * 4 / (lanes * itimeNs))

/-- No plan is built or solved: no lanes are in use (R131). -/
def State.lanesIdle (s : State) : State := (s.put F.PACER_LANES_LANES 0).put F.LEDGER_EFF_LANES 0

/-- The plan has ended: no lanes, and in MARATHON the ledger gates PD_PACER (R558), once its crossings are empty (R15). -/
def State.pacerEnded (s : State) : State :=
  let s := s.lanesIdle
  if s.mode = modeMarathon && s.pdOn 2 && !(s.sys.gates.contains 2) then
    { s with sys := { s.sys with gates := s.sys.gates ++ [2] } }
  else s

/-- A word of PACER_FCFG to PACER_FITER as the latest plan start took it (11.13), and a field of one. -/
def State.fword (s : State) (r : Nat) : Nat := (s.pacer.fed[(r - Reg.PACER_FCFG) / 4]?).getD (s.rd r)
def State.fget (s : State) (f : Fld) : Nat := bitsOf (s.fword f.off) f.hi f.lo

/-- ρF and ρP of the plan. -/
def State.rhoF (s : State) : Fl := fl32 (s.fword Reg.PACER_RHOF)
def State.rhoP (s : State) : Fl := fl32 (s.fword Reg.PACER_RHOP)

/-- PD_PACER is powered and the service writes its SRAM back (R254, R558). -/
def State.pacerPower (s : State) : State :=
  let s := { s with sys := { s.sys with gates := s.sys.gates.filter (· != 2) } }
  if s.pdOn 2 then s else (s.setPd 2 true).pacerReload

/-! ### Values of a schedule, dispatch (R287, R288) -/

/-- A value of a variable in a schedule. -/
def PSched.val (p : PSched) (o : Nat) (k : PKind) (i : Nat) : Option Nat :=
  (p.vars.find? fun v => v.1 == o && v.2.1 == k).map fun v => (v.2.2[min i (v.2.2.length - 1)]?).getD 0

/-- The planned value of a Read element at step i (Table 10.1), as the element's type holds it. -/
def PSched.read (p : PSched) (o typ e i : Nat) : Option Nat :=
  if typ = tyPipe then (p.delays.find? fun d => d.1 == o).map (·.2)
  else if typ = tyPump then (if e = 8 then p.val o .flow i else p.val o .head i)
  else if typ = tyPlant then p.val o .output i
  else if typ = tyStore then
    match p.val o .charge i, p.val o .discharge i with
    | some c, some d => some (r32 (dSub (fl32 c) (fl32 d)))
    | _, _ => none
  else if typ = tySub then p.val o .transfer i
  else if typ = tyZone then (if e = 14 then p.val o .power i else p.val o .temp (i + 1))
  else none

/-- Write the values of step `i` of a schedule to the Read elements, in one instant (R287); the elements of a rejected
object go STALE (R251). -/
def State.dispatch (s : State) (p : PSched) (i : Nat) : State :=
  s.models.foldl (fun s x =>
    (readElems x.typ).foldl (fun s e =>
      if s.pacer.rejected.contains x.num then
        s.setElem x.num e fun y => if y.src = qCold then y else { y with src := qStale }
      else
        match p.read x.num x.typ e i with
        | some v => s.arrive x.num e (u64 v)
        | none => s) s) s

/-- Fill elements 1 to 16 of the module's PLAN object (Table 11.8). -/
def State.planObj (s : State) (vals : List W64) : State :=
  let o := s.get F.PACER_FITER_PLAN_OBJ
  if o = 0 || s.typOf o ≠ tyPlan then s else
  ((List.range 16).zip vals).foldl (fun s p => s.arrive o (p.1 + 1) p.2) s

/-- PACER_FSTAT of the latest plan. -/
def State.fstat (s : State) (qual cond frozen rounds no : Nat) : State :=
  let s := (s.put F.PACER_FSTAT_QUAL qual).put F.PACER_FSTAT_COND cond
  let s := (s.put F.PACER_FSTAT_FROZEN frozen).put F.PACER_FSTAT_ROUNDS (min rounds 255)
  s.put F.PACER_FSTAT_PSEQ (no % 256)

/-- B of the module by carrier and step, from values z (R263). -/
def PProb.inflows (p : PProb) (z : List (List Nat)) (n : Nat) : List Nat :=
  ((List.range 3).map fun c =>
    match p.bound.find? fun b => b.1 == c with
    | none => List.replicate n 0
    | some (_, o) =>
      match (p.vars.zip z).find? fun v => v.1.obj == o && v.1.kind == .inflow with
      | some v => v.2
      | none => List.replicate n 0).flatten

/-- Every carrier, and the carriers of the groups that the module coordinates. -/
def allCars : List Nat := [0, 1, 2]

/-- A vector over the carriers of a message, laid out over every carrier and n steps; 0 where the message has no value. -/
def spreadCars (cars : List Nat) (hn n : Nat) (v : List Nat) : List Nat :=
  (allCars.map fun c => (List.range n).map fun k =>
    match cars.idxOf? c with
    | some i => if k < hn then (v[i * hn + k]?).getD 0 else 0
    | none => 0).flatten

/-- The part of a vector over every carrier that a message with some carriers holds. -/
def pickCars (cars : List Nat) (n : Nat) (v : List Nat) : List Nat := (cars.map fun c => vecPart v c n).flatten

/-- B of a schedule by carrier and step: the inflows at the module's boundary nodes. -/
def State.schedB (s : State) (p : PSched) : List Nat :=
  ((List.range 3).map fun c =>
    match p.vars.find? fun v => v.2.1 == .inflow && s.ev v.1 1 == 4 + c with
    | some v => v.2.2
    | none => List.replicate p.n 0).flatten

/-- Table 11.8 for a plan. -/
def planVals (no qual cond start step0 n stepMin rounds frozen rp rd obj epoch : Nat) (e : List Nat) : List W64 :=
  [u64 no, u64 qual, u64 cond, tsSec start, tsSec step0, u64 n, u64 stepMin, u64 rounds, u64 frozen, u64 rp, u64 rd,
    u64 obj, u64 epoch, u64 ((e[0]?).getD 0), u64 ((e[n]?).getD 0), u64 ((e[2 * n]?).getD 0)]

/-- End the round contributions of the module's plan that have not ended (R273). -/
def State.roundItems (s : State) (no st : Nat) : State :=
  let s := { s with start := { s.start with mirror := s.start.mirror.map fun m =>
    if m.cls == 5 && m.owner == no % 2 ^ 32 && m.final.isNone then { m with final := some st } else m } }
  s

/-- The module's plan takes its values from a local solve: region P, registers, PLAN object and dispatch (R262, R279, R287). -/
def State.planDone (s : State) (pl : PPlan) (pr : PProb) (sv : PSolve) (qual cond rounds frozen rpF rdF : Nat) : State :=
  let sched : PSched := ⟨pl.no, pl.start, pl.step0, pl.n, pl.stepMin,
    (pr.vars.zip sv.z).map fun v => (v.1.obj, v.1.kind, v.2), pr.delays, pr.duals sv.ys, pr.rowDuals sv.ys⟩
  let s := { s with pacer := { s.pacer with
    plan := some sched, live := some (pl.no, pl.step0, pl.n, pl.stepMin), staleEv := false,
    wide := (pl.no, tsSec pl.step0, sv.obj, sv.rp, sv.rd), cur := some { pl with closed := true } } }
  let s := ((s.put F.PACER_STAT_STATE 4).put F.PACER_STAT_ERR 0).cond 5 0
  let s := ((s.fstat qual cond frozen rounds pl.no).sramEngine false).pacerReload
  let s := s.planObj (planVals pl.no qual cond pl.start pl.step0 pl.n pl.stepMin rounds frozen rpF rdF sv.obj pl.epoch
    (pr.inflows sv.z pl.n))
  let s := s.dispatch sched 0
  s.raise 0x0510 6 0 (natBE 2 pl.no ++ natBE 1 (qual * 32 + cond) ++ natBE 1 rounds ++ natBE 4 rpF ++ natBE 4 rdF)

/-- The flat nominal schedule (R248): every pipe at QNOM in its own direction with its delay states, every pump at its mid point. -/
def State.nominalSched (s : State) (pl : PPlan) : PSched :=
  let c : PCtx := ⟨s, pl.step0, pl.n, pl.stepMin, none, s.inFederation, dNat 0⟩
  let flat (x : Fl) : List Nat := List.replicate pl.n (r32 x)
  let pipes := s.models.filter fun x => x.typ == tyPipe
  ⟨pl.no, pl.start, pl.step0, pl.n, pl.stepMin,
    (s.models.map fun x =>
      if x.typ = tyPipe then
        let h := flat (dMul (c.heatPer x.num) (s.evF x.num 7))
        ((List.range (c.delay x.num)).map fun j => (x.num, PKind.delay j, h)) ++ [(x.num, .heat, h)]
      else if x.typ = tyPump then
        let (q, h) := c.pumpBar x.num 0
        [(x.num, .flow, flat q), (x.num, .head, flat h)]
      else []).flatten,
    pipes.map fun x => (x.num, c.delay x.num), [], []⟩

/-- FALLBACK at the module (R279): the previous plan shifted, or the flat nominal schedule flagged COLD, which dispatches
nothing (R288). Reasons of Table 11.11. -/
def State.fallbackPlan (s : State) (reason : Nat) : State :=
  match s.pacer.cur with
  | none => s
  | some pl =>
    if pl.closed then s else
    let s := { s with pacer := { s.pacer with cur := some { pl with closed := true } } }
    let s := s.roundItems pl.no stFailed
    let st := s.get F.PACER_STAT_STATE
    let s := (if st = 1 || st = 2 || st = 3 then s.put F.PACER_STAT_STATE 0 else s).pacerEnded
    let s := s.raise 0x0512 3 0 (natBE 8 pl.no ++ natBE 1 reason)
    let cond := if pl.island then 8 else 0
    let usable := s.pacer.plan.bind fun p => (shiftOf p.step0 p.n p.stepMin pl.step0 pl.stepMin).map fun k => (p, k)
    match usable with
    | some (p, k) =>
      let b := ((List.range 3).map fun c => shiftVals (vecPart (s.schedB p) c p.n) k pl.n).flatten
      let s := (s.fstat 4 cond 0 0 pl.no).planObj (planVals pl.no 4 cond pl.start pl.step0 pl.n pl.stepMin 0 0 0 0 0 pl.epoch b)
      s.dispatch p k
    | none =>
      let nom := s.nominalSched pl
      let s := s.modPlan fun p => { p with nominal := some nom }
      (s.fstat 3 cond 0 0 pl.no).planObj (planVals pl.no 3 cond pl.start pl.step0 pl.n pl.stepMin 0 0 0 0 0 pl.epoch [])

/-- The reason of a FALLBACK for want of a FINAL: 2 abandoned, 3 fault, else 1 (R279, Table 11.11). -/
def PPlan.noFinal (pl : PPlan) : Nat := if pl.abandoned then 2 else if pl.fault then 3 else 1

/-- The plan of the period that ends has had no FINAL (R279). -/
def State.periodEnd (s : State) : State := s.fallbackPlan ((s.pacer.cur.map PPlan.noFinal).getD 1)

/-! ### The local solve (R256, R260, R270) -/

/-- A numeric fault ends the plan in the engine (R260). -/
def State.planFault (s : State) (f : Flt) : State :=
  let s := s.modPlan fun pl => { pl with fault := true }
  let s := (((s.put F.PACER_STAT_STATE 5).put F.PACER_STAT_ERR 3).cond 5 1).pacerEnded
  s.raise 0x0503 2 0 (natBE 1 f.1 ++ natBE 2 f.2.1 ++ natBE 2 f.2.2)

/-- Iterations that a solve may still run within what the cap leaves (R131, R270). -/
def PPlan.budget (pl : PPlan) (want : Nat) : Nat := match pl.cap with | some c => min want (c - pl.iters) | none => want

/-- The plan is at its cap (R270). -/
def PPlan.atCap (pl : PPlan) : Bool := match pl.cap with | some c => pl.iters ≥ c | none => false

/-- Begin a local solve for a round with its targets; the solutions of the latest two rounds are kept (R270). -/
def State.startSolve (s : State) (round : Nat) (t : List Nat) : State :=
  (s.modPlan fun pl => { pl with
    solves := ⟨round, t, s.clk, false, [], [], [], [], false, 0, 0, 0⟩ :: (pl.solves.filter (·.done)).take 2 }).put F.PACER_STAT_STATE 3

/-- The latest finished solve. -/
def PPlan.latest (pl : PPlan) : Option PSolve := pl.solves.find? (·.done)

/-- The linear coupling cost of B by carrier and step: Δh·(ρF/2)·(B − t)² in rounds (R270), and in ISLAND the port's
Δh·(λP·B + (ρP/2)·(B − A)²) (R286). -/
def State.couplingLin (s : State) (pl : PPlan) (t : List Nat) (c k : Nat) : Fl :=
  let dh := Fl.ofRat fp64F pl.stepMin 60
  let at_ (i : Nat) : Fl := fl32 ((t[i]?).getD 0)
  let i := c * pl.n + k
  if pl.grp.isSome then (dMul dh (dMul s.rhoF (at_ i))).neg
  else if pl.island then dMul dh (dSub (at_ (3 * pl.n + i)) (dMul s.rhoP (at_ i)))
  else dNat 0

/-- The shape of a problem. -/
def PProb.nu (p : PProb) : Nat := p.vars.length - p.nx

/-- The instant from which the engine iterates for a solve: FACTOR comes first (R259). -/
def State.solveFrom (s : State) (pl : PPlan) (pr : PProb) (sv : PSolve) (lanes : Nat) : Nat :=
  max sv.since (s.clkOfTai pl.start + cycNs (factCycles pl.n pr.nx pr.nu pr.g lanes))

/-- Iterations that the engine has time for between two instants. -/
def PProb.fits (pr : PProb) (n lanes a b : Nat) : Nat := (b - a) * 3 / 5 / iterCycles n pr.nx pr.nu pr.g lanes

/-- The instant at which a share of the period has passed since the plan start. -/
def State.pctAt (s : State) (start period pct : Nat) : Nat := s.clkOfTai start + period * sec * pct / 100

/-- Run the solve at the head of the list to its end: at tolerance, at ITER_RND or the cap, or without rounds at the deadline. A
numeric fault ends the plan (R260). -/
def State.runSolve (s : State) (pl : PPlan) (pr : PProb) (sv : PSolve) : State :=
  let lanes := s.get F.PACER_LANES_LANES
  let from_ := s.solveFrom pl pr sv lanes
  let want :=
    if pl.grp.isSome then s.fget F.PACER_FITER_ITER_RND
    else if lanes = 0 then 0
    else pr.fits pl.n lanes from_ (s.pctAt pl.start pl.period (s.fget F.PACER_FCFG_DL_PCT))
  let lim := pl.budget want
  let warm := match pl.latest with | some v => (v.zs, v.ys) | none => (pr.warmZ, pr.warmY)
  match (pr.engine (d64 pr.cw) (s.couplingLin pl sv.t)).solve warm.1 warm.2 lim with
  | .error f => s.planFault f
  | .ok o =>
    let s := s.reach (from_ + (if lanes = 0 then 0 else cycNs (o.iters * iterCycles pl.n pr.nx pr.nu pr.g lanes)))
    let z := pr.values o.z
    let sv' : PSolve := { sv with
      done := true, z := z, ws := o.w, zs := o.z, ys := o.y, met := o.met, rp := o.rp, rd := o.rd, obj := pr.objective z }
    let iters := pl.iters + o.iters
    let s := (s.put F.PACER_ITER_ITER (min iters 0xFFFF)).sramEngine false
    s.modPlan fun pl =>
      let p := { pl with iters := iters, solves := (sv' :: pl.solves.drop 1).take 2 }
      { p with capped := p.capped || (p.atCap && !o.met) }

/-- What a participant answers in a round: B, rp, rd and flags. -/
structure PAns where
  b     : List Nat
  rp    : Nat
  rd    : Nat
  flags : Nat

/-- ABSENT with B⁰ and no local solve (R277). -/
def PPlan.absent (pl : PPlan) : PAns := ⟨pl.b0, 0, 0, 8⟩

/-- The answer from the latest finished solve. -/
def PPlan.answer (pl : PPlan) (pr : PProb) (v : PSolve) : PAns :=
  ⟨pr.inflows v.z pl.n, v.rp, v.rd, b2n v.met + 2 * b2n pl.capped + 4 * b2n pl.cold⟩

def PAns.body (a : PAns) : Bytes := vecBytes a.b ++ natBE 4 a.rp ++ natBE 4 a.rd ++ natBE 1 a.flags ++ natBE 3 0

/-- A reply begins as an item keyed by plan number and round, once (R273). -/
def State.roundItem (s : State) (no round : Nat) : State :=
  if s.start.mirror.any fun m => m.cls == 5 && m.owner == no % 2 ^ 32 && m.item == round && m.final.isNone then s
  else s.mirrorAdd 5 0 (no % 2 ^ 32) round

/-- The items of a plan's earlier rounds end DONE when the anchor sends the next ROUND (R273). -/
def State.roundBegins (s : State) (no round : Nat) : State :=
  { s with start := { s.start with mirror := s.start.mirror.map fun m =>
    if m.cls == 5 && m.owner == no % 2 ^ 32 && m.item < round && m.final.isNone then { m with final := some stDone } else m } }

/-- A round reaches the module: either it answers at once or its local solve begins (R270, R277). -/
def State.modRound (s : State) (pl : PPlan) (round : Nat) (t : List Nat) : State × Option PAns :=
  let s := s.roundBegins pl.no round
  if pl.prob.isNone || pl.fault || s.mode = modeBlocks then (s, some pl.absent) else
  match pl.prob, pl.latest with
  | some pr, some v =>
    if pl.atCap then
      let s := s.modPlan fun pl => { pl with capped := true }
      (s, some ({ pl with capped := true }.answer pr v))
    else (s.startSolve round t, none)
  | _, _ => (s.startSolve round t, none)

/-- The envelope answer of a child group that the module anchors, in a round of the parent (R284, R289); it is remembered
for the port (R285). -/
def State.envAnswer (s : State) (child : W64) (cars : List Nat) (n stepMin step0 round : Nat) (t : List Nat) : State × PAns :=
  let rhoF := s.rhoF
  let b := match s.pacer.own.find? fun x => x.grp == child with
    | none => List.replicate (cars.length * n) 0
    | some x =>
      let es0 := beAt x.bs 8 8 / 2 ^ 24
      let sh := (shiftOf es0 (beAt x.bs 4 2) (beAt x.bs 6 1) step0 stepMin).getD 0
      let en := beAt x.bs 4 2
      ((List.range cars.length).zip cars).map (fun p =>
        (List.range n).map fun k =>
          match envRec x.bs p.2 (min (k + sh) (en - 1)) with
          | some r => r32 (envSolve r (fl32 ((t[p.1 * n + k]?).getD 0)) rhoF)
          | none => 0) |>.flatten
  let rest := s.pacer.answers.filter fun a => !(a.1 == child && a.2.1 == round)
  let s := (s.roundBegins s.pacer.no round).roundItem s.pacer.no round
  ({ s with pacer := { s.pacer with answers := (child, round, b) :: rest } }, ⟨b, 0, 0, 1⟩)

/-! ### The anchor (R269 to R275) -/

/-- The header of the anchor's messages. -/
def GPlan.head (x : GPlan) (typ qual round : Nat) : PHead :=
  ⟨typ, x.cars, x.n, x.stepMin, qual, round, x.start, x.step0, x.epoch, x.period, 0,
    x.parts.foldl (fun a p => a + 2 ^ p.hop) (b2n x.port)⟩

/-- Freeze a participant in the open round; PACER_FROZEN reports it (R275). -/
def State.freeze (s : State) (g : W64) (hop : Nat) : State :=
  match s.coord? g with
  | none => s
  | some x =>
    let s := s.putCoord { x with
      parts := x.parts.map (fun p => if p.hop = hop && p.frozen.isNone then { p with frozen := some p.round } else p)
      cond := x.cond ||| 2 }
    s.raise 0x0511 4 0 (natBE 8 g.toNat ++ natBE 1 hop ++ natBE 1 x.round)

/-- A participant's reply enters the open round; a late, repeated or frozen one is discarded (R275), and one with ABSENT
freezes its participant. -/
def State.gReply (s : State) (g : W64) (hop round : Nat) (a : PAns) : State :=
  match s.coord? g with
  | none => s
  | some x =>
    match x.parts.find? fun p => p.hop == hop with
    | none => s
    | some p =>
      if x.closed || round ≠ x.round || p.frozen.isSome || p.next.isSome then s
      else if bit1 a.flags 3 = 1 then
        let s := s.putCoord { x with parts := x.parts.map fun p => if p.hop = hop && p.round = 0 then { p with b := a.b, bPrev := a.b } else p }
        s.freeze g hop
      else s.putCoord { x with parts := x.parts.map fun p => if p.hop = hop then { p with next := some (a.b, a.flags) } else p }

/-- Every unfrozen participant has replied (R272). -/
def GPlan.complete (x : GPlan) : Bool := x.parts.all fun p => p.next.isSome || p.frozen.isSome

/-- A completed round: the replies it has brought become the accepted ones (R272, R275). -/
def GPlan.commit (x : GPlan) : GPlan :=
  { x with
    cond := if x.parts.any (fun p => match p.next with | some a => bit1 a.2 1 == 1 | none => false) then x.cond ||| 4 else x.cond
    parts := x.parts.map fun p => match p.next with
      | some (b, fl) => { p with bPrev := p.b, b := b, flags := fl, round := x.round, next := none }
      | none => p }

/-- A completed round: R269 over all carriers and steps. -/
def GPlan.update (x : GPlan) (rhoF rhoP : Fl) : GPlan :=
  let len := x.cars.length * x.n
  let at_ (l : List Nat) (i : Nat) : Fl := d64 ((l[i]?).getD 0)
  let us := (List.range len).map fun i =>
    roundStep x.port rhoF rhoP (x.parts.map fun p => fl32 ((p.b[i]?).getD 0)) (at_ x.e i) (at_ x.u i) (at_ x.a i) (at_ x.lp i)
  let rp := us.foldl (fun a v => Fl.max a v.r.abs) (dNat 0)
  let rd :=
    if x.round = 1 then Fl.inf false else
    let m := ((x.parts.filter fun p => p.frozen.isNone).map fun p =>
      ((List.range len).zip us).foldl (fun a v =>
        let db := dSub (fl32 ((p.b[v.1]?).getD 0)) (fl32 ((p.bPrev[v.1]?).getD 0))
        Fl.max a (dSub db (dSub v.2.rbar (at_ x.rbar v.1))).abs) (dNat 0)).foldl Fl.max (dNat 0)
    dMul rhoF m
  { x with u := us.map fun v => b64 v.u, e := us.map fun v => b64 v.e, rbar := us.map fun v => b64 v.rbar,
           rp := b64 rp, rd := b64 rd, done := x.round }

/-- The first case of R272. -/
def State.gConverged (s : State) (x : GPlan) : Bool :=
  Fl.le (d64 x.rp) (fl32 (s.fword Reg.PACER_EPSFP)) && Fl.le (d64 x.rd) (fl32 (s.fword Reg.PACER_EPSFD)) &&
  x.parts.all fun p => p.frozen.isSome || bit1 p.flags 0 == 1

/-- The target of a participant in the round that opens (R269, R271). -/
def GPlan.target (x : GPlan) (p : GPart) : List Nat :=
  (List.range (x.cars.length * x.n)).map fun i =>
    let u := d64 ((x.u[i]?).getD 0)
    if x.round = 1 then r32 u
    else r32 (dSub (dSub (fl32 ((p.b[i]?).getD 0)) (d64 ((x.rbar[i]?).getD 0))) u)

/-- t = B⁰ − u in round 1 (R271). -/
def firstTarget (b0 u : List Nat) : List Nat :=
  ((List.range u.length).zip u).map fun p => r32 (dSub (fl32 ((b0[p.1]?).getD 0)) (fl32 p.2))

/-- Deliver the open round of a group to the module itself, as the member at its own hop. -/
def State.selfRound (s : State) (x : GPlan) (p : GPart) : State :=
  let t := x.target p
  if p.sub then
    let t := if x.round = 1 then firstTarget p.b t else t
    let (s, a) := s.envAnswer (addrMember x.grp p.hop) x.cars x.n x.stepMin x.step0 x.round t
    s.gReply x.grp p.hop x.round a
  else
    match s.pacer.cur with
    | none => s.gReply x.grp p.hop x.round ⟨p.b, 0, 0, 8⟩
    | some pl =>
      let t := if x.round = 1 then firstTarget pl.b0 t else t
      match s.modRound pl x.round t with
      | (s, some a) => (s.roundItem pl.no x.round).gReply x.grp p.hop x.round a
      | (s, none) => s

/-- Open a round: ROUND to every unfrozen participant. -/
def State.gOpen (s : State) (g : W64) (round : Nat) : State :=
  match s.coord? g with
  | none => s
  | some x =>
    let x := { x with round := round, roundAt := s.clk, parts := x.parts.map fun p => { p with next := none } }
    let s := s.putCoord x
    (x.parts.filter fun p => p.frozen.isNone).foldl (fun s p =>
      if p.hop = s.hopIn g then s.selfRound x p
      else match s.linkTo g p.hop with
        | some l => s.furunSend l.peer 7 1 (addrMember g p.hop) ((x.head 1 0 round).bytes ++ vecBytes (x.target p))
        | none => s) s

/-- The prices of the group balance, rounded once (R269, R289). -/
def GPlan.lam (x : GPlan) (rhoF : Fl) : List Nat := x.u.map fun u => r32 (dMul rhoF (d64 u))

def State.putFinal (s : State) (f : PFinal) : State :=
  { s with pacer := { s.pacer with finals := f :: s.pacer.finals.filter fun y => y.grp != f.grp } }

/-- E of the port of a group that the module coordinates, kept beside its FINAL (R271). -/
def State.keepE (s : State) (g : W64) (e : List Nat) : State :=
  let fs := s.pacer.finals.map fun f => if f.grp = g then { f with e := some e } else f
  { s with pacer := { s.pacer with finals := fs } }

/-- E⁰ of a child group that the module anchors: its accepted E in the parent, shifted, or 0 (R271). -/
def State.childE0 (s : State) (child : W64) (cars : List Nat) (n stepMin step0 : Nat) : List Nat :=
  ((s.pacer.ports.find? fun f => f.grp == child).bind fun f =>
    shiftVec f.b f.cars.length f.step0 f.n f.stepMin step0 n stepMin).getD (List.replicate (cars.length * n) 0)

/-- A FINAL reaches a child group that the module anchors: the port data of the child's next plans (R285). Its accepted E is that of the last
completed round, of the last accepted one where FINAL lists the group as frozen, and E⁰ where none was accepted. -/
def State.childFinal (s : State) (child : W64) (h : PHead) (lam : List Nat) (frozen : List (Nat × Nat)) : State :=
  let mine := frozen.find? fun f => f.1 == addrLast child
  let want := match mine with | some f => f.2 | none => h.round
  let a := ((s.pacer.answers.find? fun x => x.1 == child && x.2.1 == want).orElse fun _ =>
    if want = 0 then none else s.pacer.answers.find? fun x => x.1 == child).map (·.2.2)
  let f : PFinal := ⟨child, h.step0, h.n, h.stepMin, h.cars, lam, a.getD (s.childE0 child h.cars h.n h.stepMin h.step0), none⟩
  let s := s.roundItems s.pacer.no (if mine.isSome then stFailed else stDone)
  { s with pacer := { s.pacer with
    ports := f :: s.pacer.ports.filter (fun y => y.grp != child), answers := s.pacer.answers.filter fun x => x.1 != child } }

/-- The local solution that a FINAL closes on: of its round, or of the last round accepted where it lists the module as frozen; a round
answered without a solve has the latest one (R272). -/
def PPlan.closing (pl : PPlan) (round : Nat) : Option PSolve :=
  (pl.solves.find? fun v => v.done && v.round == round).orElse fun _ => pl.latest

/-- A FINAL reaches the module's own plan (R272, R279, R287). `frozen` lists hop and last accepted round. Its prices and the module's accepted
B are kept whatever becomes of the plan (R271, R276). -/
def State.modFinal (s : State) (g : W64) (h : PHead) (lam : List Nat) (rp rd cond : Nat) (frozen : List (Nat × Nat)) : State :=
  match s.pacer.cur with
  | none => s
  | some pl =>
    if pl.grp ≠ some g then s else
    let mine := frozen.find? fun f => f.1 == s.hopIn g
    let want := match mine with | some f => f.2 | none => h.round
    let sv := if want = 0 || h.qual = 4 then none else pl.closing want
    let b := match pl.prob, sv with
      | some pr, some v => pickCars h.cars pl.n (pr.inflows v.z pl.n)
      | _, _ => pickCars h.cars pl.n pl.b0
    let s := s.putFinal ⟨g, h.step0, h.n, h.stepMin, h.cars, lam, b, none⟩
    if pl.closed then s else
    let s := s.roundItems pl.no (if mine.isSome then stFailed else stDone)
    let cond := if pl.island then cond ||| 8 else cond
    if h.qual = 4 then s.fallbackPlan 1
    else if pl.fault then s.fallbackPlan 3
    else if (mine.map (·.2)) = some 0 then s.fallbackPlan 4
    else
      match pl.prob, sv with
      | some pr, some v => s.planDone pl pr v (if pl.cold then 3 else h.qual) cond h.round frozen.length rp rd
      | _, _ => s.fallbackPlan 4

/-- The FINAL that the anchor sends (Table 11.7). -/
def GPlan.finalBody (x : GPlan) (lam : List Nat) : Bytes :=
  let fz := x.parts.filterMap fun p => p.frozen.map fun r => (p.hop, r)
  vecBytes lam ++ natBE 4 (r32 (d64 x.rp)) ++ natBE 4 (r32 (d64 x.rd)) ++ natBE 1 x.cond ++ natBE 1 fz.length ++ natBE 2 0 ++
    (fz.map fun f => natBE 1 f.1 ++ natBE 2 f.2 ++ natBE 1 0).flatten

/-! ### Probes (R280) -/

/-- The probe indices sent, in order. -/
def probeJs : List Nat := [0, 1, 2, 3, 5, 6, 7, 8]

/-- What the module's probes give: its state, B for each carrier and price, and whether it was capped; nothing where the engine faults or the
answer comes after PR_PCT. -/
structure ProbeRun where
  s      : State
  b      : List Nat
  capped : Bool
  stop   : Bool

/-- One probe: carrier c at price j. The coupling term gives way to Δh·λ_j·B on carrier c and Δh·λ·B on the others (R280). -/
def ProbeRun.one (nI : Nat) (pl : PPlan) (pr : PProb) (v : PSolve) (lam final : List Nat) (pstep : Fl) (acc : ProbeRun) (c j : Nat) : ProbeRun :=
  if acc.stop then acc else
  let cur := (acc.s.pacer.cur).getD pl
  if cur.atCap then { acc with b := acc.b ++ vecPart final c pl.n, capped := true } else
  let dh := Fl.ofRat fp64F pl.stepMin 60
  let lin (c' k : Nat) : Fl :=
    let l := fl32 ((lam[c' * pl.n + k]?).getD 0)
    dMul dh (if c' = c then dAdd l (dMul (.ofInt ((j : Int) - 4)) pstep) else l)
  match (pr.engine (dNat 0) lin).solve v.zs v.ys (cur.budget nI) with
  | .error f => { acc with s := acc.s.planFault f, stop := true }
  | .ok o =>
    let s := acc.s.modPlan fun p => { p with iters := p.iters + o.iters }
    let cut := !o.met && o.iters < nI
    ⟨s, acc.b ++ vecPart (pr.inflows (pr.values o.z) pl.n) c pl.n, acc.capped || cut, false⟩

/-- The module solves its probes from the final plan and answers B for each carrier of the group and each price. All share one further
factorisation; a module that reaches its cap answers B* for every probe (R280). -/
def State.probeAnswer (s : State) (pl : PPlan) (pr : PProb) (v : PSolve) (cars : List Nat) (lam : List Nat) (pstep : Fl) : ProbeRun :=
  let final := pr.inflows v.z pl.n
  let lanes := s.get F.PACER_LANES_LANES
  let r := cars.foldl (fun a c => probeJs.foldl (fun a j =>
    ProbeRun.one (s.fget F.PACER_FPROBE_PROBE_ITER) pl pr v lam final pstep a c j) a) ⟨s, [], false, lanes == 0⟩
  let used := ((r.s.pacer.cur.map (·.iters)).getD 0) - ((s.pacer.cur.map (·.iters)).getD 0)
  let ready := s.clk + cycNs (factCycles pl.n pr.nx pr.nu pr.g lanes + used * iterCycles pl.n pr.nx pr.nu pr.g lanes)
  let star := (cars.map fun c => (probeJs.map fun _ => vecPart final c pl.n).flatten).flatten
  { r with
    s := if r.stop then r.s else
      (r.s.put F.PACER_ITER_ITER (min ((r.s.pacer.cur.map (·.iters)).getD 0) 0xFFFF)).sramEngine false
    b := if r.capped then star else r.b
    stop := r.stop || ready > s.pctAt pl.start pl.period (s.fget F.PACER_FPROBE_PR_PCT) }

/-- The responses of a child group's own envelope to the probe prices (R281). -/
def State.envProbe (s : State) (child : W64) (cars : List Nat) (n stepMin step0 : Nat) (lam : List Nat) (pstep : Fl) : List Nat :=
  match s.pacer.own.find? fun x => x.grp == child with
  | none => []
  | some x =>
    let sh := (shiftOf (beAt x.bs 8 8 / 2 ^ 24) (beAt x.bs 4 2) (beAt x.bs 6 1) step0 stepMin).getD 0
    let en := beAt x.bs 4 2
    (((List.range cars.length).zip cars).map fun c => (probeJs.map fun j => (List.range n).map fun k =>
      match envRec x.bs c.2 (min (k + sh) (en - 1)) with
      | some r => r32 (envAtPrice r (dAdd (fl32 ((lam[c.1 * n + k]?).getD 0)) (dMul (.ofInt ((j : Int) - 4)) pstep)))
      | none => 0).flatten).flatten

/-- Record a member's probe responses. -/
def State.gProbe (s : State) (g : W64) (hop : Nat) (v : List Nat) (capped : Bool) : State :=
  match s.coord? g with
  | none => s
  | some x => s.putCoord { x with
      parts := x.parts.map fun p => if p.hop = hop then { p with probe := some v } else p
      cond := if capped then x.cond ||| 16 else x.cond }

/-- The anchor closes the plan (R272, R278), sends FINAL and PROBE, and takes both itself. -/
def State.gClose (s : State) (g : W64) : State :=
  match s.coord? g with
  | none => s
  | some x =>
    if x.closed then s else
    let conv := x.done ≥ 1 && s.gConverged x
    let cold := x.parts.any fun p => p.frozen.isNone && bit1 p.flags 2 == 1
    let ownCold := (s.pacer.cur.map (·.cold)).getD false
    let frozen := x.parts.any fun p => p.frozen.isSome
    let q := if x.done = 0 then 4 else if cold || ownCold then 3 else if frozen then 2 else if !conv then 1 else 0
    let cond := x.cond ||| (b2n conv) ||| (if s.mode = modeIsland then 8 else 0)
    let x := { x with closed := true, qual := q, cond := cond }
    let lam := x.lam s.rhoF
    let s := s.putCoord x
    let h := x.head 3 q x.done
    let body := h.bytes ++ x.finalBody lam
    let fz := x.parts.filterMap fun p => p.frozen.map fun r => (p.hop, r)
    -- E of the port stands beside the anchor's own B; an anchor that is no direct member has no B of its own here
    let s := s.putFinal ⟨g, x.step0, x.n, x.stepMin, x.cars, lam, List.replicate lam.length 0, none⟩
    let s := x.parts.foldl (fun s p =>
      if p.hop = s.hopIn g then
        if p.sub then s.childFinal (addrMember g p.hop) h lam fz
        else s.modFinal g h lam (r32 (d64 x.rp)) (r32 (d64 x.rd)) cond fz
      else match s.linkTo g p.hop with
        | some l => s.furunSend l.peer 7 1 (addrMember g p.hop) body
        | none => s) s
    let s := s.keepE g (x.e.map fun e => r32 (d64 e))
    if s.fget F.PACER_FPROBE_PROBE_ITER = 0 then s.pacerEnded else
    let pstep := s.fword Reg.PACER_PSTEP
    let pb := (x.head 4 0 0).bytes ++ natBE 4 pstep ++ natBE 4 0
    let s := x.parts.foldl (fun s p =>
      if p.hop = s.hopIn g then s else
      match s.linkTo g p.hop with
        | some l => s.furunSend l.peer 7 1 (addrMember g p.hop) pb
        | none => s) s
    let s := x.parts.foldl (fun s p =>
      if p.hop ≠ s.hopIn g then s
      else if p.sub then s.gProbe g p.hop (s.envProbe (addrMember g p.hop) x.cars x.n x.stepMin x.step0 lam (fl32 pstep)) false
      else
        match s.pacer.cur with
        | some pl =>
          match pl.prob, pl.closing x.done with
          | some pr, some v =>
            if pl.fault || !s.pdOn 2 then s else
            let r := s.probeAnswer pl pr v x.cars (spreadCars x.cars x.n pl.n lam) (fl32 pstep)
            if r.stop then r.s else r.s.gProbe g p.hop r.b r.capped
          | _, _ => s
        | none => s) s
    s.pacerEnded

/-- Go on with the rounds of a group as far as its replies allow. -/
def State.gAdvance : Nat → W64 → State → State
  | 0, g, s => s.gClose g
  | n + 1, g, s =>
    match s.coord? g with
    | none => s
    | some x =>
      if x.closed || !x.complete then s else
      let x := x.commit.update s.rhoF s.rhoP
      let s := s.putCoord x
      if s.gConverged x || x.round ≥ s.fget F.PACER_FCFG_RND_MAX ||
          s.clk ≥ s.pctAt x.start x.period (s.fget F.PACER_FCFG_DL_PCT) then s.gClose g
      else State.gAdvance n g (s.gOpen g (x.round + 1))

/-- In MARATHON a plan whose PROBE has not come by PR_PCT has ended, and PD_PACER is gated (R558). -/
def State.probesMissed (s : State) : State :=
  match s.pacer.cur with
  | some pl =>
    if s.mode = modeMarathon && pl.closed && s.pdOn 2 && s.clk ≥ s.pctAt pl.start pl.period (s.fget F.PACER_FPROBE_PR_PCT) then s.pacerEnded
    else s
  | none => s

/-- Answer a round towards the group's anchor, which may be the module itself. -/
def State.replyTo (s : State) (pl : PPlan) (g : W64) (round : Nat) (a : PAns) : State :=
  let s := s.roundItem pl.no round
  if s.anchors g then (s.gReply g (s.hopIn g) round a).gAdvance 256 g
  else
    let h : PHead := ⟨2, pl.cars, pl.n, pl.stepMin, 0, round, pl.start, pl.step0, pl.epoch, pl.period, s.hopIn g, 0⟩
    match (s.fgroup? g).bind (·.anchor) with
    | some k =>
      match s.linkTo g k with
      | some l => s.furunSend l.peer 7 1 (addrMember g k) (h.bytes ++ { a with b := pickCars pl.cars pl.n a.b }.body)
      | none => s
    | none => s

/-! ### Plan start (R268) -/

/-- A member of a group counts as present in the data view: its relay station where an endpoint names one. What else a member sends as point
data comes over its Furun link, so without such an endpoint contact is the data view (R57, R58, log 295). -/
def State.inData (s : State) (g : W64) (hop : Nat) : Bool :=
  hop == s.hopIn g ||
  (match s.furun.ends.find? fun e => e.grp == g && e.hop == hop && e.kind == 2 with
   | some e =>
     match s.relay.stations.find? fun r => r.addr == e.port with
     | some r => r.st == 1
     | none => s.inContact g hop
   | none => s.inContact g hop)

/-- The member at a hop is a sub-group. -/
def State.isSub (s : State) (g : W64) (hop : Nat) : Bool :=
  let m := addrMember g hop
  m != s.own && ((s.fgroup? m).isSome || s.pacer.envs.any (fun e => e.grp == m) ||
    (match s.linkTo g hop with | some l => l.peer != m | none => false))

/-- The accepted envelope of a child, if it still reaches the new grid (R283). -/
def State.envUsable (s : State) (child : W64) (step0 n stepMin : Nat) : Bool :=
  match s.pacer.envs.find? fun e => e.grp == child with
  | none => false
  | some e =>
    beAt e.bs 4 2 == n && beAt e.bs 6 1 == stepMin &&
    (shiftOf (beAt e.bs 8 8 / 2 ^ 24) n stepMin step0 stepMin).isSome

/-- The participants of a group's plan (R274); a sub-group without a usable envelope is frozen at E = 0 (R283), and a
member whose link runs below version 4 at B = 0 (R431). -/
def State.gParts (s : State) (x : FGroup) (step0 n stepMin : Nat) : List GPart :=
  ((memberHops x.members).filter fun h => s.inData x.addr h).map fun h =>
    let sub := s.isSub x.addr h
    let old := match s.linkTo x.addr h with | some l => l.ver < 4 && h != s.hopIn x.addr | none => false
    let zero := List.replicate (3 * n) 0
    let frozen := (sub && !(s.envUsable (addrMember x.addr h) step0 n stepMin)) || old
    -- B⁰: the module's own, a child's accepted E, or what the participant had in the plan coordinated before (R271, R275)
    let before := ((s.coord? x.addr).bind fun y => (y.parts.find? fun p => p.hop == h).bind fun p =>
      shiftVec p.b y.cars.length y.step0 y.n y.stepMin step0 n stepMin).getD zero
    let b0 :=
      if frozen then zero
      else if h ≠ s.hopIn x.addr then before
      else if sub then s.childE0 (addrMember x.addr h) allCars n stepMin step0
      else (s.pacer.cur.map (·.b0)).getD zero
    ⟨h, sub, if frozen then some 0 else none, b0, b0, none, 0, 0, none⟩

/-- Fix a group's participants and parent data and open round 1 (R268, steps 2 and 3). -/
def State.gStart (s : State) (x : FGroup) (no start step0 n stepMin period : Nat) : State :=
  let len := 3 * n
  let port := addrDepth x.addr ≠ 0
  let fin := s.pacer.finals.find? fun f => f.grp == x.addr
  let shifted (get : PFinal → List Nat) : List Nat :=
    match fin with
    | some f => (shiftVec (get f) f.cars.length f.step0 f.n f.stepMin step0 n stepMin).getD (List.replicate len 0)
    | none => List.replicate len 0
  let u := (shifted (·.lam)).map fun l => b64 (dDiv (fl32 l) s.rhoF)
  let e := if port then (shifted fun f => f.e.getD (List.replicate (f.cars.length * f.n) 0)).map fun v => b64 (fl32 v) else List.replicate len 0
  let pd := s.pacer.ports.find? fun f => f.grp == x.addr
  let a := match pd with
    | some f => (shiftVecLast f.b f.cars.length f.step0 f.n f.stepMin step0 n stepMin).map fun v => b64 (fl32 v)
    | none => e
  let lp := match pd with
    | some f => (shiftVecLast f.lam f.cars.length f.step0 f.n f.stepMin step0 n stepMin).map fun v => b64 (fl32 v)
    | none => List.replicate len 0
  let parts := s.gParts x step0 n stepMin
  let g : GPlan := ⟨x.addr, x.epoch, no, start, step0, n, stepMin, period, allCars, parts, port, u, e,
    List.replicate len 0, a, lp, 1, s.clk, 0, 0, 0, false, 0, if parts.any (fun p => p.frozen.isSome) then 2 else 0⟩
  let s := { s with pacer := { s.pacer with coord := g :: s.pacer.coord.filter fun y => y.grp != x.addr } }
  let s := (parts.filter fun p => p.frozen.isSome).foldl (fun s p =>
    s.raise 0x0511 4 0 (natBE 8 x.addr.toNat ++ natBE 1 p.hop ++ natBE 1 1)) s
  (s.gOpen x.addr 1).gAdvance 256 x.addr

/-- A module that takes N, STEP_MIN and PERIOD from its own registers: the federation anchor, or one without a
federation (R266). -/
def State.ownGrid (s : State) : Bool := s.upGroup.isNone

/-- N, STEP_MIN and PERIOD for the next plan (R266). -/
def State.grid (s : State) : Nat × Nat × Nat :=
  let reg := (s.get F.PACER_CFG_STEPS, s.get F.PACER_CFG_STEP_MIN, s.get F.PACER_FCFG_PERIOD)
  if s.ownGrid then reg else s.pacer.hor.getD reg

/-- The first multiple of the period at or after a TAI second. -/
def nextMultiple (period t : Nat) : Nat := (t + period - 1) / period * period

/-- PLAN_START: at a multiple of PERIOD the module builds its problem, and as an anchor opens round 1 (R267, R268). -/
def execPlanStart (s : State) : Res :=
  let old := s.pacer.period
  let (n, stepMin, period) := s.grid
  let from_ := match s.pacer.startAt with
    | some t => max (t + old) (s.taiSec)
    | none => (s.sysNow.toNat + sec - 1) / sec
  let start := nextMultiple period from_
  let s : State := s.reach (s.clkOfTai start)
  -- a plan that no FINAL closed has reached its period end
  let s : State := s.periodEnd
  let s : State := if period ≠ old then s.raise 0x0516 5 0 (natBE 2 old ++ natBE 2 period) else s
  let no := s.pacer.no + 1
  let step0 := stepStart start stepMin
  let island := s.mode == modeIsland
  let inner := addrParent s.own
  let grp : Option W64 := if !s.inFederation || (island && !(s.anchors inner)) then none else some inner
  let epoch := ((grp.bind fun g => s.fgroup? g).map (·.epoch)).getD 0
  let prev := s.pacer.plan.bind fun p => (shiftOf p.step0 p.n p.stepMin step0 stepMin).map fun k => (p, k)
  let b0 := match prev with
    | some (p, k) => ((List.range 3).map fun c => shiftVals (vecPart (s.schedB p) c p.n) k n).flatten
    | none => List.replicate (3 * n) 0
  let s : State := s.aggregateAll
  let fed := (List.range 9).map fun i => s.rd (Reg.PACER_FCFG + 4 * i)
  let s : State := { s with pacer := { s.pacer with no := no, startAt := some start, period := period, answers := [], rejected := [], fed := fed } }
  let lanes := s.laneGrant
  let mk (prob : Option PProb) (cap : Option Nat) : PPlan :=
    ⟨no, start, step0, n, stepMin, period, grp, epoch, island, prev.isNone, prob, false, cap, 0, false, [], b0, false, false, allCars, none⟩
  let canBuild := s.mode ≠ modeBlocks && s.mode ≠ modeHoldup && lanes ≠ 0
  -- in MARATHON the ledger powers PD_PACER for a plan that is built (R253, R558)
  let s : State := if s.mode = modeMarathon && canBuild then s.pacerPower else s
  let s :=
    if !canBuild || !s.pdOn 2 then { s with pacer := { s.pacer with cur := some (mk none none) } }.pacerEnded
    else
      let dh := Fl.ofRat fp64F stepMin 60
      -- the coupling term is part of the factorisation (R268, R270, R286)
      let cw := if grp.isSome then dMul dh s.rhoF else if island then dMul dh s.rhoP else dNat 0
      let c : PCtx := ⟨s, step0, n, stepMin, prev, s.inFederation, cw⟩
      let b := c.build
      let s : State := b.out.foldl (fun s r => (s.raise 0x0501 3 0 (natBE 2 r.1 ++ natBE 1 r.2) r.1).cond 5 2) s
      let s : State := { s with pacer := { s.pacer with rejected := b.out.map (·.1) } }
      let s : State := b.out.foldl (fun s r =>
        (readElems (s.typOf r.1)).foldl (fun s e =>
          s.setElem r.1 e fun y => if y.src = qCold then y else { y with src := qStale }) s) s
      let s : State := if b.subs.isEmpty then s
        else s.raise 0x0504 4 0 (natBE 2 b.subs.length ++ natBE 2 (b.subs.headD 0))
      let s : State := b.prob.delays.foldl (fun s d =>
        match (s.pacer.plan.bind fun p => p.delays.find? fun x => x.1 == d.1) with
        | some x => if x.2 ≠ d.2 then s.raise 0x0505 6 0 (natBE 2 d.1 ++ natBE 1 x.2 ++ natBE 1 d.2) d.1 else s
        | none => s) s
      let g := b.prob.g
      let w := wstepOf b.nx b.nu g
      let err := if b.nx > 128 || b.nu > 64 || g > 64 then 1 else if n * w > 22020096 then 2 else 0
      let shape := putBits (putBits (putBits (putBits 0 31 24 n) 23 16 b.nx) 15 8 b.nu) 7 0 g
      if err ≠ 0 then
        let s : State := (s.put F.PACER_STAT_ERR err).put F.PACER_STAT_STATE 0
        let s : State := s.raise 0x0502 3 0 (natBE 1 n ++ natBE 2 b.nx ++ natBE 2 b.nu ++ natBE 2 g ++ natBE 4 w)
        { s with pacer := { s.pacer with cur := some (mk none none) } }.pacerEnded
      else
        let it := cycNs (iterCycles n b.nx b.nu g lanes)
        let ft := cycUs (factCycles n b.nx b.nu g lanes)
        let cap := capOf (s.get F.LEDGER_LANE_LIM_EPLAN) lanes it
        let s : State := ((s.wr Reg.PACER_SHAPE shape).wr Reg.PACER_WSTEP w).wr Reg.PACER_ITIME it
        let s : State := ((s.wr Reg.PACER_FTIME ft).put F.PACER_ITER_ITER 0).put F.PACER_ITER_CAP (min (cap.getD 0) 0xFFFF)
        let s : State := (s.put F.PACER_LANES_LANES lanes).put F.LEDGER_EFF_LANES lanes
        let s : State := ((s.put F.PACER_STAT_STATE 2).put F.PACER_STAT_ERR 0).sramEngine true
        let s : State := { s with pacer := { s.pacer with cur := some (mk (some b.prob) cap) } }
        match (b.prob.engine cw fun _ _ => dNat 0).factor with
        | .error f => s.planFault f
        | .ok _ => s
  -- without rounds the local solve begins at once, in ISLAND against the last port data (R286)
  let s : State := match grp with
    | some _ => s
    | none =>
      match s.pacer.cur with
      | some pl =>
        if pl.prob.isNone || pl.fault then s else
        let t := match s.pacer.finals.find? fun f => f.grp == inner with
          | some f => spreadCars f.cars n n (shiftVecLast f.b f.cars.length f.step0 f.n f.stepMin step0 n stepMin) ++
              spreadCars f.cars n n (shiftVecLast f.lam f.cars.length f.step0 f.n f.stepMin step0 n stepMin)
          | none => b0
        s.startSolve 0 (if island then t else [])
      | none => s
  .next (if s.mode = modeHoldup then s else s.anchored.foldl (fun s x => s.gStart x no start step0 n stepMin period) s)

/-! ### At a participant -/

/-- Close a plan that has no rounds on its local residuals (R286). -/
def State.soloClose (s : State) : State :=
  match s.pacer.cur with
  | none => s
  | some pl =>
    if pl.closed || pl.grp.isSome then s else
    match pl.prob, pl.latest with
    | some pr, some v =>
      if pl.fault then s.fallbackPlan 3 else
      let q := if pl.cold then 3 else if v.met then 0 else 1
      let cond := b2n v.met + 4 * b2n pl.capped + 8 * b2n pl.island
      (s.planDone pl pr v q cond 0 0 0 0).pacerEnded
    | _, _ => if pl.fault then s.fallbackPlan 3 else s

/-- LOCAL_SOLVE_DONE: the local iterations end, and the participant replies with B (R270). -/
def execLocalSolveDone (s : State) : Res :=
  match s.pacer.cur with
  | none => .next s
  | some pl =>
    match pl.prob, pl.solves with
    | some pr, sv :: _ =>
      if sv.done || pl.closed || pl.fault || !s.pdOn 2 || s.get F.PACER_LANES_LANES = 0 then .next s else
      let s := s.runSolve pl pr sv
      match s.pacer.cur with
      | none => .next s
      | some pl' =>
        match pl.grp with
        | none => .next s.soloClose
        | some g =>
          let a := if pl'.fault then pl'.absent else
            match pl'.latest with
            | some v => pl'.answer pr v
            | none => pl'.absent
          .next (s.replyTo pl' g sv.round a)
    | _, _ => .next s

/-- The group whose message reaches this unit: the parent of the unit that the destination names (R265). -/
def State.groupOf (s : State) (dst : W64) : Option W64 :=
  if dst == s.own || s.anchors dst then some (addrParent dst) else none

/-- The message comes from the group's anchor under the epoch held (R48, R276). -/
def State.fromAnchor (s : State) (g peer : W64) (epoch : Nat) : Bool :=
  match s.fgroup? g with
  | none => false
  | some x =>
    epoch == x.epoch && (match x.anchor with
      | some h => (match s.link? peer with | some l => l.speaksFor g h | none => false)
      | none => false)

/-- PACER_ROUND: a ROUND message from the anchor (R270, R276, R291). -/
def execPacerRound (p : FPiece) (s : State) : Res :=
  match s.furunPiece 7 p with
  | (s, none) => .next s
  | (s, some m) =>
    let h := pheadOf m
    match s.groupOf p.dst with
    | none => .next s
    | some g =>
      if h.typ ≠ 1 || !(s.fromAnchor g p.peer h.epoch) then .next s else
      let s := if s.upGroup = some g then { s with pacer := { s.pacer with hor := some (h.n, h.stepMin, h.period) } } else s
      -- the plan start must be the module's own (R276); in HOLDUP nothing is coordinated and the plan has ended (R261, R277)
      if s.pacer.startAt ≠ some h.start || s.mode = modeHoldup then .next s else
      let vec := bytesVec (m.drop 40) (h.cars.length * h.n)
      if p.dst ≠ s.own then
        -- the module answers for a group it anchors
        if s.pacer.answers.any fun a => a.1 == p.dst && h.round ≤ a.2.1 then .next s else
        let t := if h.round = 1 then firstTarget (s.childE0 p.dst h.cars h.n h.stepMin h.step0) vec else vec
        let (s, a) := s.envAnswer p.dst h.cars h.n h.stepMin h.step0 h.round t
        let rh : PHead := { h with typ := 2, hop := addrLast p.dst, parts := 0 }
        .next (s.furunSend p.peer 7 1 p.src (rh.bytes ++ a.body))
      else
        match s.pacer.cur with
        | none => .next s
        | some pl =>
          let next := match pl.solves.head? with | some v => v.round | none => 0
          if pl.closed || pl.start ≠ h.start || pl.epoch ≠ h.epoch || pl.grp ≠ some g || h.round ≤ next then .next s else
          let v3 := spreadCars h.cars h.n pl.n vec
          let t := if h.round = 1 then firstTarget pl.b0 v3 else v3
          let s := s.modPlan fun p => { p with cars := h.cars }
          let pl := { pl with cars := h.cars }
          match s.modRound pl h.round t with
          | (s, some a) => .next (s.replyTo pl g h.round a)
          | (s, none) => .next s

/-- PACER_FINAL: the FINAL of the plan reaches a participant (R279, R287). -/
def execPacerFinal (p : FPiece) (s : State) : Res :=
  match s.furunPiece 7 p with
  | (s, none) => .next s
  | (s, some m) =>
    let h := pheadOf m
    match s.groupOf p.dst with
    | none => .next s
    | some g =>
      if h.typ ≠ 3 || !(s.fromAnchor g p.peer h.epoch) then .next s else
      let s : State := if s.upGroup == some g then { s with pacer := { s.pacer with heard := some s.clk } } else s
      let len := h.cars.length * h.n
      let b := m.drop 40
      let lam := bytesVec b len
      let o := 4 * len
      let fz := (List.range (beAt b (o + 9) 1)).map fun i => (beAt b (o + 12 + 4 * i) 1, beAt b (o + 13 + 4 * i) 2)
      if s.pacer.startAt ≠ some h.start then .next s
      else if p.dst ≠ s.own then .next (s.childFinal p.dst h lam fz)
      else
        match s.pacer.cur with
        | none => .next s
        | some pl =>
          if pl.epoch ≠ h.epoch then .next s else
          let s := s.modFinal g h lam (beAt b o 4) (beAt b (o + 4) 4) (beAt b (o + 8) 1) fz
          .next (if s.fget F.PACER_FPROBE_PROBE_ITER = 0 then s.pacerEnded else s)

/-- PACER_PROBE: the module solves its price probes and replies (R280). -/
def execPacerProbe (p : FPiece) (s : State) : Res :=
  match s.furunPiece 7 p with
  | (s, none) => .next s
  | (s, some m) =>
    let h := pheadOf m
    match s.groupOf p.dst with
    | none => .next s
    | some g =>
      if h.typ ≠ 4 || !(s.fromAnchor g p.peer h.epoch) || s.pacer.startAt ≠ some h.start then .next s else
      let pstep := fl32 (beAt m 40 4)
      let fin := (s.pacer.finals.find? fun f => f.grp == g)
      let rh (hop : Nat) : PHead := { h with typ := 5, round := 0, hop := hop, parts := 0 }
      if p.dst ≠ s.own then
        let lam := ((s.pacer.ports.find? fun f => f.grp == p.dst).map (·.lam)).getD []
        let b := s.envProbe p.dst h.cars h.n h.stepMin h.step0 lam pstep
        .next (s.furunSend p.peer 7 1 p.src ((rh (addrLast p.dst)).bytes ++ vecBytes b ++ natBE 4 0))
      else
        match s.pacer.cur with
        | none => .next s
        | some pl =>
          match pl.prob, pl.latest, fin with
          | some pr, some v, some f =>
            if !pl.closed || pl.grp ≠ some g || pl.fault || !s.pdOn 2 then .next s else
            let r := s.probeAnswer pl pr v h.cars (spreadCars f.cars f.n pl.n f.lam) pstep
            if r.stop then .next r.s.pacerEnded else
            let s := r.s.furunSend p.peer 7 1 p.src
              ((rh (s.hopIn g)).bytes ++ vecBytes r.b ++ natBE 1 (b2n r.capped) ++ natBE 3 0)
            .next s.pacerEnded
          | _, _, _ => .next s

/-- FALLBACK: no FINAL has come by the period end (R279). -/
def execFallback (s : State) : Res :=
  match s.pacer.cur with
  | none => .next s
  | some pl =>
    if pl.closed then .next s else
    .next (s.reach (s.clkOfTai (pl.start + pl.period))).periodEnd

/-- DISPATCH_STALE: N steps after step 0 of the latest plan that was not FALLBACK (R288). -/
def execDispatchStale (s : State) : Res :=
  match s.pacer.live with
  | none => .next s
  | some (no, step0, n, stepMin) =>
    if s.pacer.staleEv then .next s else
    let s := s.reach (s.clkOfTai (step0 + n * stepMin * 60))
    let s := s.models.foldl (fun s x => (readElems x.typ).foldl (fun s e =>
      s.setElem x.num e fun y => if y.src = qGood then { y with src := qStale } else y) s) s
    let s := { s with pacer := { s.pacer with staleEv := true } }
    .next (s.raise 0x0515 3 0 (natBE 8 no))

/-! ### At an anchor -/

/-- The coordinated plan that a member's message belongs to, with the sender's hop. -/
def State.coordOf (s : State) (p : FPiece) (h : PHead) : Option GPlan :=
  s.pacer.coord.find? fun x =>
    x.start == h.start && x.epoch == h.epoch && s.anchors x.grp &&
    (match s.link? p.peer with | some l => l.speaksFor x.grp h.hop | none => false)

/-- PACER_REPLY: a REPLY reaches the anchor (R269, R275). -/
def execPacerReply (p : FPiece) (s : State) : Res :=
  match s.furunPiece 7 p with
  | (s, none) => .next s
  | (s, some m) =>
    let h := pheadOf m
    if h.typ ≠ 2 then .next s else
    match s.coordOf p h with
    | none => .next s
    | some x =>
      let len := x.cars.length * x.n
      let b := m.drop 40
      if b.length < 4 * len + 9 || h.n ≠ x.n || h.cars ≠ x.cars then .next s else
      let a : PAns := ⟨bytesVec b len, beAt b (4 * len) 4, beAt b (4 * len + 4) 4, beAt b (4 * len + 8) 1⟩
      .next ((s.gReply x.grp h.hop h.round a).gAdvance 256 x.grp)

/-- REPLY_TIMEOUT: a reply missing at RND1_TO or RND_TO freezes its participant (R275). -/
def execReplyTimeout (grp : W64) (s : State) : Res :=
  match s.coord? grp with
  | none => .next s
  | some x =>
    if x.closed then .next s else
    let lim := if x.round = 1 then s.fget F.PACER_FTMO_RND1_TO else s.fget F.PACER_FTMO_RND_TO
    let s := s.reach (x.roundAt + lim * msec)
    let late := x.parts.filter fun p => p.frozen.isNone && p.next.isNone
    .next ((late.foldl (fun s p => s.freeze grp p.hop) s).gAdvance 256 grp)

/-- ROUND_DEADLINE: at DL_PCT the anchor closes on the last completed round (R272), and a plan without rounds on its
latest iteration (R286). -/
def execRoundDeadline (grp : W64) (s : State) : Res :=
  let pct := s.fget F.PACER_FCFG_DL_PCT
  match s.coord? grp with
  | some x =>
    if x.closed then .next s else .next ((s.reach (s.pctAt x.start x.period pct)).gClose grp)
  | none =>
    match s.pacer.cur with
    | none => .next s
    | some pl =>
      if pl.closed || pl.grp.isSome then .next s else
      let s := s.reach (s.pctAt pl.start pl.period pct)
      match pl.prob, pl.solves with
      | some pr, sv :: _ =>
        if sv.done || !s.pdOn 2 then .next s.soloClose else
        -- the latest completed iteration stands
        .next (s.runSolve pl pr sv).soloClose
      | _, _ => .next s

/-- PROBE_REPLY: a member's probe responses reach the anchor (R280). -/
def execProbeReply (p : FPiece) (s : State) : Res :=
  match s.furunPiece 7 p with
  | (s, none) => .next s
  | (s, some m) =>
    let h := pheadOf m
    if h.typ ≠ 5 then .next s else
    match s.coordOf p h with
    | none => .next s
    | some x =>
      let len := x.cars.length * 8 * x.n
      let b := m.drop 40
      if !x.closed || b.length < 4 * len + 1 || s.clk > s.pctAt x.start x.period (s.fget F.PACER_FPROBE_PR_PCT) then .next s else
      .next (s.gProbe x.grp h.hop (bytesVec b len) (bit1 (beAt b (4 * len) 1) 0 == 1))

/-- The envelope of a closed plan (R281, R282). -/
def State.envOf (s : State) (x : GPlan) (cond : Nat) : Bytes :=
  let pstep := fl32 (s.fword Reg.PACER_PSTEP)
  let jj (j : Nat) : Option Nat := probeJs.idxOf? j
  let resp (p : GPart) (ci j k : Nat) : Fl :=
    let star := fl32 ((p.b[ci * x.n + k]?).getD 0)
    match jj j, p.probe, p.frozen with
    | some i, some v, none => fl32 ((v[(ci * 8 + i) * x.n + k]?).getD 0)
    | _, _, _ => star
  let recs := ((List.range x.cars.length).map fun ci => (List.range x.n).map fun k =>
    let es := (List.range 9).map fun j => x.parts.foldl (fun a p => dAdd a (resp p ci j k)) (dNat 0)
    let lam := dMul s.rhoF (d64 ((x.u[ci * x.n + k]?).getD 0))
    (envStep es lam pstep).bytes).flatten.flatten
  let b := natBE 1 2 ++ natBE 1 x.qual ++ natBE 1 (carsByte x.cars) ++ natBE 1 cond ++ natBE 2 x.n ++ natBE 1 x.stepMin ++
    natBE 1 0 ++ natBE 8 (x.step0 * 2 ^ 24) ++ natBE 8 (x.start * 2 ^ 24) ++ natBE 4 x.epoch ++ natBE 8 x.grp.toNat ++ natBE 4 0 ++ recs
  b ++ natBE 4 (crc32 b)

/-- A parent anchor checks an envelope and accepts it, or drops it with PACER_ENV_REJECT (R283). -/
def State.envTake (s : State) (parent child : W64) (b : Bytes) : State :=
  let (n, stepMin, _) := s.grid
  match envFault b n stepMin with
  | some k => s.raise 0x0513 3 0 (natBE 8 parent.toNat ++ natBE 1 (addrLast child) ++ natBE 1 k)
  | none => { s with pacer := { s.pacer with envs := ⟨child, b⟩ :: s.pacer.envs.filter fun e => e.grp != child } }

/-- PROBE_DEADLINE: at PR_PCT the anchor forms the envelope, sends it to the parent's anchor and updates OBJ 3 (R281). -/
def execProbeDeadline (grp : W64) (s : State) : Res :=
  match s.coord? grp with
  | none => .next s
  | some x =>
    if !x.closed then .next s else
    let s := s.reach (s.pctAt x.start x.period (s.fget F.PACER_FPROBE_PR_PCT))
    let short := s.fget F.PACER_FPROBE_PROBE_ITER ≠ 0 && x.parts.any fun p => p.frozen.isNone && p.probe.isNone
    let cond := x.cond ||| (if short then 16 else 0)
    let b := s.envOf x cond
    let s := s.putCoord { x with cond := cond }
    let frozen := (x.parts.filter fun p => p.frozen.isSome).length
    let vals := planVals x.no x.qual cond x.start x.step0 x.n x.stepMin x.done frozen (r32 (d64 x.rp)) (r32 (d64 x.rd)) 0 x.epoch
      (x.e.map fun e => r32 (d64 e))
    -- Changed moves where a value does (R551)
    let changed := ((s.pacer.obj3.find? fun e => e.1 == grp && e.2.1 == vals).map (·.2.2)).getD s.tsNow
    let s := { s with pacer := { s.pacer with
      own := ⟨grp, b⟩ :: s.pacer.own.filter (fun e => e.grp != grp)
      obj3 := (grp, vals, changed) :: s.pacer.obj3.filter fun e => e.1 != grp } }
    if addrDepth grp = 0 then .next s else
    let parent := addrParent grp
    if s.anchors parent then .next (s.envTake parent grp b)
    else
      match (s.fgroup? parent).bind (·.anchor) with
      | some k =>
        match s.linkTo parent k with
        | some l => .next (s.furunSend l.peer 7 1 (addrMember parent k)
            ({ x.head 6 0 0 with hop := addrLast grp }.bytes ++ b))
        | none => .next s
      | none => .next s

/-- PACER_ENVELOPE: a child's envelope reaches the parent's anchor (R283). -/
def execPacerEnvelope (p : FPiece) (s : State) : Res :=
  match s.furunPiece 7 p with
  | (s, none) => .next s
  | (s, some m) =>
    let h := pheadOf m
    let b := m.drop 40
    let child : W64 := BitVec.ofNat 64 (beAt b 28 8)
    let parent := addrParent child
    let speaks := match s.link? p.peer with | some l => l.speaksFor parent (addrLast child) | none => false
    if h.typ ≠ 6 || !(s.anchors parent) || h.hop ≠ addrLast child || !speaks then .next s
    else .next (s.envTake parent child b)

/-- The rounds of a group end with its anchor: at a new anchor, or at the old one's (R276). The module has a part in them as the coordinator,
by its own plan, or by what it answered for a group that it anchors. -/
def State.roundsAbandoned (s : State) (g : W64) (oldEpoch : Nat) : State :=
  let coord := (s.coord? g).bind fun x => if x.closed then none else some x.done
  let own := s.pacer.cur.bind fun pl =>
    if pl.grp = some g && !pl.closed then some ((pl.solves.head?.map (·.round)).getD 0) else none
  let child := ((s.pacer.answers.filter fun a => addrParent a.1 == g).map (·.2.1)).foldl
    (fun (a : Option Nat) r => some (max (a.getD 0) r)) none
  let s := { s with pacer := { s.pacer with
    coord := s.pacer.coord.filter fun x => x.grp != g || x.closed
    answers := s.pacer.answers.filter fun a => addrParent a.1 != g } }
  match (coord.orElse fun _ => own).orElse fun _ => child with
  | none => s
  | some run =>
    let s := if own.isSome then s.modPlan fun p => { p with abandoned := true } else s
    let s := if own.isSome || child.isSome then s.roundItems s.pacer.no stFailed else s
    s.raise 0x0514 4 0 (natBE 8 g.toNat ++ natBE 2 oldEpoch ++ natBE 2 run)

/-- HOLDUP entry: the module stops coordinating, and its contributions in progress end FAILED (R135, R277). -/
def State.coordStop (s : State) : State :=
  { s with pacer := { s.pacer with coord := s.pacer.coord.filter (·.closed), answers := [] } }.roundItems s.pacer.no stFailed

/-- A gate within a plan: the plan ends with ERR 4 and its contribution FAILED; one that has ended in FAULT stays as it ended (R261). -/
def State.pacerAbort (s : State) : State :=
  match s.pacer.cur with
  | none => s.lanesIdle
  | some pl =>
    if pl.closed || pl.fault then s.lanesIdle else
    let s := (s.roundItems pl.no stFailed).modPlan fun p => { p with prob := none, solves := [] }
    let s := if pl.prob.isSome then (s.put F.PACER_STAT_ERR 4).put F.PACER_STAT_STATE 0 else s
    s.lanesIdle

/-! ### Series and opcodes (R293, R294) -/

def tFedCfg : Nat := 0x0501
def tSeriesNo : Nat := 0x0502
def tSeriesData : Nat := 0x0503

/-- PD_PACER serves a request: it is on, or the mode allows it on (R17, R558). -/
def State.pacerUp (s : State) : Bool := s.pdOn 2 || s.mode == modeMarathon

/-- A register image of FED_CFG. -/
def fedImg (b : Bytes) (i : Nat) : Nat := beAt b (4 * i) 4

/-- The nine registers of FED_CFG, in offset order. -/
def fedRegs : List Nat := (List.range 9).map fun i => Reg.PACER_FCFG + 4 * i

def fpRange (v : Nat) (lo hi : Fl) : Bool := Fl.le lo (fl32 v) && Fl.le (fl32 v) hi

/-- The stated ranges of 11.13 for the nine images. -/
def fedOk (b : Bytes) : Bool :=
  let w := fedImg b
  let f (i hi lo : Nat) : Nat := bitsOf (w i) hi lo
  let q (x y : Nat) : Fl := Fl.ofRat fp64F x y
  5 ≤ f 0 31 20 && f 0 31 20 ≤ 3600 && 20 ≤ f 0 16 10 && f 0 16 10 ≤ 80 && 1 ≤ f 0 7 0 &&
  100 ≤ f 1 31 16 && f 1 31 16 ≤ 60000 && 10 ≤ f 1 15 0 && f 1 15 0 ≤ 10000 &&
  f 0 16 10 + 5 ≤ f 2 22 16 && f 2 22 16 ≤ 95 && f 2 13 0 ≤ 10000 &&
  fpRange (w 3) (q 1 10000) (dNat 10) && fpRange (w 4) (q 1 1000000) (dNat 10) && fpRange (w 5) (q 1 1000000) (dNat 10) &&
  fpRange (w 6) (q 1 1000) (dNat 1000) && fpRange (w 7) (q 1 1000000) (dNat 1) &&
  f 8 28 16 ≤ 4096 && 1 ≤ f 8 13 0 && f 8 13 0 ≤ 10000

def opPacerFedSet : OpDef where
  code := 0x0501
  schema := [{ typ := tFedCfg, lo := 36, hi := 36 }]
  form := fun _ q =>
    let b := tv q.tlvs tFedCfg
    imgFault q.tlvs tFedCfg ((List.range 9).map fun i => (Reg.PACER_FCFG + 4 * i, fedImg b i)) (fedOk b)
  perm := onlyOperator
  pre := fun s q =>
    let o := bitsOf (fedImg (tv q.tlvs tFedCfg) 8) 28 16
    match s.obj? o with
    | some x => if x.typ = tyPlan && x.count = 17 && x.tag = 0 then none else some (badAt q.tlvs tFedCfg 0x0008)
    | none => if o = 0 then none else some (badAt q.tlvs tFedCfg 0x0008)
  run := fun s q =>
    if !s.pacerUp then .done .failed [] s else
    let b := tv q.tlvs tFedCfg
    .done .ok [] (s.setImgs ((List.range 9).map fun i => (Reg.PACER_FCFG + 4 * i, fedImg b i)))

def execPacerFedSet (r : Req) (s : State) : Res := .next (batonRun opPacerFedSet r s)

/-- A tenant sees only series of its own tag (R293, R51). -/
def seriesPerm : Chk := fun s q =>
  if q.tag = 0 then none else
  match s.series? (tn q.tlvs tSeriesNo) with
  | some x => if x.tag = q.tag && q.tag ≠ 255 then none else some { status := .denied }
  | none => some { status := .denied }

/-- A model object names the series. -/
def State.seriesUsed (s : State) (n : Nat) : Bool :=
  s.models.any fun x => (seriesElems x.typ).any fun e => s.ev x.num e == n

/-- Form of SERIES_DATA (R293). -/
def seriesDataOk (b : Bytes) : Bool :=
  let n := beAt b 10 2
  let m := beAt b 8 2
  b.length == 16 + 4 * n && n ≤ 192 && (n == 0 || (1 ≤ m && m ≤ 1440)) &&
  (List.range n).all fun i => (fl32 (beAt b (16 + 4 * i) 4)).isFin

def opSeriesWrite : OpDef where
  code := 0x0502
  schema := [{ typ := tSeriesNo, lo := 1, hi := 1 }, { typ := tSeriesData, lo := 16, hi := 784 },
             { typ := 0x0007, lo := 1, hi := 1, minN := 0 }]
  form := allChk [rangeChk tSeriesNo fun v => 1 ≤ v && v ≤ 255,
    fun _ q => if seriesDataOk (tv q.tlvs tSeriesData) then none else some (badAt q.tlvs tSeriesData 0x0008)]
  perm := fun s q => (seriesPerm s q).or
    (if q.tag ≠ 0 && (tv? q.tlvs 0x0007).isSome then some { status := .denied } else none)
  run := fun s q =>
    let no := tn q.tlvs tSeriesNo
    let b := tv q.tlvs tSeriesData
    let n := beAt b 10 2
    if n = 0 && s.seriesUsed no then .refuse ⟨.busy, some (0xFFFF, 0x000A), []⟩ else
    let tag := ((tv? q.tlvs 0x0007).map beNat).getD (((s.series? no).map (·.tag)).getD 0)
    let x : Series := ⟨no, tag, beAt b 0 8, beAt b 8 2, (List.range n).map fun i => beAt b (16 + 4 * i) 4⟩
    let lo := s.pacer.series.filter fun y => y.no < no
    let hi := s.pacer.series.filter fun y => y.no > no
    let s' := { s with pacer := { s.pacer with series := if n = 0 then lo ++ hi else lo ++ [x] ++ hi } }
    .done .ok [] ((State.modelRefsSync s s').seriesSram no)

def execSeriesWrite (r : Req) (s : State) : Res := .next (batonRun opSeriesWrite r s)

def opSeriesRead : OpDef where
  code := 0x0503
  schema := [{ typ := tSeriesNo, lo := 1, hi := 1 }]
  form := rangeChk tSeriesNo fun v => 1 ≤ v && v ≤ 255
  perm := seriesPerm
  exist := fun s q => if (s.series? (tn q.tlvs tSeriesNo)).isNone then some { status := .noObject } else none
  run := fun s q =>
    match s.series? (tn q.tlvs tSeriesNo) with
    | some x => .done .ok (tlv tSeriesData (natBE 8 x.start ++ natBE 2 x.step ++ natBE 2 x.vals.length ++ natBE 4 0 ++
        vecBytes x.vals) ++ tlv 0x0007 (natBE 1 x.tag)) s
    | none => .refuse { status := .noObject }

def execSeriesRead (r : Req) (s : State) : Res := .next (batonRun opSeriesRead r s)

def opPlanValues : OpDef where
  code := 0x0504
  schema := [{ typ := 0x0001, lo := 8, hi := 8 }]
  form := addrForm 0x0001 false
  perm := fun s q =>
    if q.tag = 0 then none
    else if q.tag = 255 then some { status := .denied }
    else match s.obj? (addrObj (tAddr q.tlvs)) with
      | some x => if x.tag = q.tag then none else some { status := .denied }
      | none => some { status := .denied }
  exist := fun s q =>
    let a := tAddr q.tlvs
    if (s.elem? (addrObj a) (addrElem a)).isNone then some { status := .noObject } else none
  pre := fun s q =>
    let a := tAddr q.tlvs
    if (readElems (s.typOf (addrObj a))).contains (addrElem a) then none else some (badAt q.tlvs 0x0001 0x0008)
  run := fun s q =>
    if !s.pacerUp then .done .failed [] s else
    let a := tAddr q.tlvs
    let o := addrObj a
    let vals : List Nat := match s.pacer.plan with
      | none => []
      | some p => (List.range p.n).filterMap fun k => (p.read o (s.typOf o) (addrElem a) k).map fun v =>
          if s.typOf o = tyPipe then r32 (dNat v) else v
    .done .ok (tlv 0x0504 (natBE 8 ((s.pacer.plan.map (·.no)).getD 0) ++ natBE 2 vals.length ++ natBE 2 0 ++ vecBytes vals)) s

def execPlanValues (r : Req) (s : State) : Res := .next (batonRun opPlanValues r s)

def opEnvelopeRead : OpDef where
  code := 0x0505
  schema := [{ typ := 0x0001, lo := 8, hi := 8 }, { typ := 0x0005, lo := 4, hi := 4, minN := 0, since := 0x30 }]
  form := fun s q =>
    let a := tAddr q.tlvs
    if addrBad a then some (badAt q.tlvs 0x0001 0x0006)
    else if !(s.anchors (addrOf a 0 0)) || addrObj a ≠ 3 || addrElem a ≠ 0 then some (badAt q.tlvs 0x0001 0x0008) else none
  perm := onlyOperator
  exist := fun s q =>
    if (s.pacer.own.find? fun e => e.grp == addrOf (tAddr q.tlvs) 0 0).isNone && (tv? q.tlvs 0x0005).isNone
    then some { status := .noObject } else none
  pre := cursorChk 0x0505
  run := fun s q =>
    if !s.pacerUp then .done .failed [] s else
    if (tv? q.tlvs 0x0005).isSome then nextPage s q 0x0505 else
    match s.pacer.own.find? fun e => e.grp == addrOf (tAddr q.tlvs) 0 0 with
    | some e => pageRun s q 0x0505 1 [] ((chunks 1344 e.bs).map fun c => tlv 0x0505 c)
    | none => .refuse { status := .noObject }

def execEnvelopeRead (r : Req) (s : State) : Res := .next (batonRun opEnvelopeRead r s)

end Sys2Proof.Machine
end

