-- ==== Sys2Proof/Machine/FurunRole.lean ====
section
/-! DEFINITION. Machine/FurunRole.lean: contact, votes, anchors and hand-overs as operations on the state (R44 to R49, R431,
R432, R435 to R437). -/

namespace Sys2Proof.Machine

/-- The heartbeat interval of this module in ns. -/
def State.hbNs (s : State) : Nat := s.get F.FURUN_CFG_HB_MS * msec

/-- The module takes part in its innermost group, and in the parent of each group it anchors (R430). -/
def State.takesPart (s : State) (g : W64) : Bool :=
  (s.fgroup? g).isSome &&
    (g == addrParent s.own || s.anchored.any fun x => addrDepth x.addr > 0 && addrParent x.addr == g)

/-- The groups in which the module takes part. -/
def State.parts (s : State) : List FGroup := s.furun.groups.filter fun x => s.takesPart x.addr

/-- FURUN_STAT, and the instants from which contact with the anchor has been missing or regained (R117). -/
def State.roleStat (s : State) : State :=
  let s := s.put F.FURUN_STAT_LINKS (min 256 s.furun.links.length)
  let s := s.put F.FURUN_STAT_REPLICAS (min 0x7FFF s.furun.replicas.length)
  let s := s.put F.FURUN_STAT_ANCHORED (min 3 s.anchored.length)
  let s := s.put F.FURUN_STAT_GROUPS (min 4 s.parts.length)
  let ok := s.anchorContact
  { s with furun := { s.furun with
    noAnchor := if ok then none else some (s.furun.noAnchor.getD s.clk)
    regained := if ok then some (s.furun.regained.getD s.clk) else none } }

/-- `roleStat`, and the health of a trial that hangs on contact (R503). -/
def State.roleSync (s : State) : State := s.roleStat.healthSync

/-- The number of modules in a group, sub-groups included, as its anchor counts them (R432). -/
def State.modCountAt (s : State) : Nat → W64 → Nat
  | 0, _ => 0
  | n + 1, g =>
    match s.fgroup? g with
    | none => 0
    | some x =>
      (memberHops x.members).foldl (fun a h =>
        let m := addrMember g h
        a + (if m == s.own then 1
          else if h = s.hopIn g && s.anchors m then s.modCountAt n m
          else match s.linkTo g h with
            | some l => if l.last.isNone || l.refused then 0 else if l.peer == m then 1 else l.modules
            | none => 0)) 0

def State.modCount (s : State) (g : W64) : Nat := s.modCountAt 8 g

/-! ### Eligibility (R44) -/

/-- Conditions 3 to 6 of R44 for this module; as the incumbent of a group its role there does not count, nor does SUSPECT
(R58). -/
def State.eligBits (s : State) (g : W64) (incumbent : Bool) : Nat :=
  let contact := match s.fgroup? g with
    | some x => majority x (s.contactCount x)
    | none => false
  let mode := s.mode
  let anchors := (s.anchored.filter fun x => !(incumbent && x.addr == g)).length
  1 + b2n contact * 2 + b2n (mode ≠ modeBlocks && mode ≠ modeHoldup) * 4 +
    b2n (incumbent || !(s.furun.suspects.contains s.own)) * 8 + b2n (anchors < 3) * 16 +
    b2n (mode ≠ modeBlocks && mode ≠ modeHoldup) * 32

/-- The module itself can stand behind a candidate index of a group: its own hop, and the anchor role of the sub-group where that
hop names one (2.5.1). -/
def State.ownCand (s : State) (g : W64) : Bool :=
  addrUnder s.own g && (addrMember g (s.hopIn g) == s.own || s.anchors (addrMember g (s.hopIn g)))

def State.ownEligible (s : State) (g : W64) : Bool := s.ownCand g && s.eligBits g false == 63

/-- A peer is eligible in a group, as its latest heartbeat and this module's marks say. -/
def State.peerEligible (s : State) (x : FGroup) (l : FLink) : Bool :=
  l.ver ≥ 5 && l.elig ||| 2 == 63 && !(s.furun.suspects.contains l.peer) &&
    l.groups.any fun e => e.grp == x.addr && majority x e.contact

/-- The lowest eligible candidate index that the module can reach (R45). -/
def State.candidate (s : State) (x : FGroup) : Option Nat :=
  (memberHops x.members).find? fun h =>
    if h = s.hopIn x.addr then s.ownEligible x.addr
    else match s.linkTo x.addr h with
      | some l => l.contact && l.digests.contains (x.addr, s.groupDigest x.addr) && s.peerEligible x l
      | none => false

/-! ### Votes (R45, R46, R436) -/

/-- Send a message of a group role to every other member of the group on a link. -/
def State.toMembers (s : State) (x : FGroup) (typ : Nat) (body : Bytes) : State :=
  (memberHops x.members).foldl (fun s h =>
    if h = s.hopIn x.addr then s else
    match s.linkTo x.addr h with
    | some l => s.furunSend l.peer typ 2 l.peer body
    | none => s) s

/-- ANCHOR_TAKEN, with interrupt condition 1. -/
def State.takeRole (s : State) (g : W64) (epoch : Nat) (prev : Option Nat) : State :=
  let s := (((s.cond 11 1).replDrop g).aggStale g).raise 0x0B10 4 0 (natBE 8 g.toNat ++ natBE 3 epoch ++ natBE 1 (prev.getD 0))
  s.roleSync

/-- ANCHOR_GIVEN: 0 lost, 1 ineligible, 2 hand-over; a plan in progress is abandoned and what hangs on the role goes. -/
def State.leaveRole (s : State) (g : W64) (epoch reason : Nat) : State :=
  let s := ((s.roundsAbandoned g epoch).aggDrop g).cond 11 1
  s.raise 0x0B11 4 0 (natBE 8 g.toNat ++ natBE 3 epoch ++ natBE 1 reason)

/-- A new anchor and epoch are adopted (R436, R48); the events of a change of this module's own role follow. The role is the module's own
only as the unit behind its hop; with a sub-group's role it loses what it held above through it (R49). -/
def State.adopt (s : State) (g : W64) (epoch hop reason : Nat) : State :=
  match s.fgroup? g with
  | none => s
  | some x =>
    let was := s.anchored.map (·.addr)
    let s := s.roundsAbandoned g x.epoch
    let mine := hop = s.hopIn g && s.ownCand g
    let s := s.modGroup g fun y => { y with epoch := epoch, anchor := some hop, vote := none, noneAt := none, mine := mine }
    let now := s.anchored.map (·.addr)
    let gone := was.filter fun a => !(now.contains a)
    let s := gone.foldl (fun s a => s.modGroup a fun y => { y with mine := false }) s
    let s := gone.foldl (fun s a =>
      s.leaveRole a (if a = g then x.epoch else ((s.fgroup? a).map fun y => y.epoch).getD 0) (if a = g then reason else 0)) s
    let s := (now.filter fun a => !(was.contains a)).foldl (fun s a =>
      s.takeRole a (((s.fgroup? a).map fun y => y.epoch).getD 0) x.anchor) s
    s.roleSync

/-- The candidate that holds proposals from more than half of the configured members becomes anchor and says so (R436). -/
def State.decide (s : State) (g : W64) : State :=
  match s.fgroup? g with
  | none => s
  | some x =>
    match x.vote with
    | none => s
    | some v =>
      let me := s.hopIn g
      let mine := v.props.filter fun p => p.2 = me && bit1 x.members.toNat p.1 == 1
      if !(majority x mine.length) || !(s.ownEligible g) || v.epoch ≤ x.epoch then s else
      let bitmap := mine.foldl (fun a p => a + 2 ^ p.1) 0
      let s := s.adopt g v.epoch me 0
      s.toMembers x 4 (natBE 8 g.toNat ++ natBE 4 v.epoch ++ natBE 1 me ++ natBE 1 mine.length ++ natBE 2 0 ++ natBE 8 bitmap)

/-- The module proposes the lowest eligible candidate it can reach, in attempt `tries` (R45). -/
def State.propose (s : State) (g : W64) (tries : Nat) : State :=
  match s.fgroup? g with
  | none => s
  | some x =>
    let epoch := max (x.epoch + 1) ((x.vote.map (·.epoch)).getD 0)
    let others := ((x.vote.map (·.props)).getD []).filter fun p => p.1 ≠ s.hopIn g
    let cand := s.candidate x
    let props := match cand with
      | some h => (s.hopIn g, h) :: others
      | none => others
    let s := s.modGroup g fun y => { y with vote := some ⟨epoch, props, s.clk, tries⟩ }
    let s := match cand with
      | some h => s.toMembers x 3 (natBE 8 g.toNat ++ natBE 4 epoch ++ natBE 1 h ++ natBE 1 (s.hopIn g) ++ natBE 2 0)
      | none => s
    s.decide g

/-- The anchor of a group is lost: a vote begins, unless one that the module began runs (R45). -/
def State.anchorLost (s : State) (g : W64) : State :=
  match s.fgroup? g with
  | none => s
  | some x =>
    if !(s.takesPart g) then s else
    match x.vote with
    | some v => if v.tries ≥ 1 then s else s.propose g 1
    | none => s.propose g 1

/-- An anchor that has become ineligible gives up the role (R47); the group then votes. -/
def State.rolesCheck (s : State) : State :=
  let out := s.anchored.filter fun x => s.eligBits x.addr true ≠ 63
  let s := out.foldl (fun s x =>
    match s.fgroup? x.addr with
    | none => s
    | some y =>
      let s := s.modGroup x.addr fun z => { z with anchor := none, mine := false }
      s.leaveRole x.addr y.epoch 1) s
  let s := out.foldl (fun s x => s.anchorLost x.addr) s
  -- the new anchor of a sub-group finds that the parent's anchor stood behind its own hop and is lost (R49)
  let orphan := s.parts.filter fun x => x.anchor == some (s.hopIn x.addr) && !x.mine && x.vote.isNone
  (orphan.foldl (fun s x => (s.modGroup x.addr fun z => { z with anchor := none }).anchorLost x.addr) s).roleSync

/-! ### Contact (R435) and links -/

/-- The answer to a relayed request goes back over the link it came from (R90, R441). -/
def State.relayBack (s : State) (peer src : W64) (owner : BitVec 256) (tag cls ver item opcode status : Nat) (res : Bytes) : State :=
  let cls := carriedClass cls
  s.furunSend peer 6 cls src (natBE 32 owner.toNat ++ natBE 1 tag ++ natBE 3 0 ++
    replyPkt ver fReply tag cls item opcode status res)

/-- The results of a FAILED whose reason Table 3.5 gives: DETAIL, from version 3.1 onward (R66, R71). -/
def failDetail (ver reason : Nat) : Bytes := if ver ≥ 0x31 then tlv 0x000E (natBE 2 0xFFFF ++ natBE 2 reason) else []

/-- The path of a relayed item is lost before its final state came back: it ends FAILED with reason 0x000B, here where this module admitted
it, and by an answer to the neighbour it came from where this module passed it on (R90). -/
def State.relayFailed (s : State) (r : FRelayed) : State :=
  match r.back with
  | none => s.endItem r.owner r.item .failed (failDetail (((s.item? r.owner r.item).map s.itemVer).getD 0) 0x000B)
  | some back => s.relayBack back r.src r.owner r.tag r.cls r.ver r.item r.opcode Status.failed.code (failDetail r.ver 0x000B)

/-- Contact with a peer ends: its replicas read LOST, items relayed through it end FAILED, a group whose anchor it was votes
(R45, R90, R439). -/
def State.peerLost (s : State) (peer : W64) : State :=
  let led := s.furun.groups.filter fun x =>
    match x.anchor with
    | some h => h ≠ s.hopIn x.addr && (s.linkTo x.addr h).any fun l => l.peer == peer
    | none => false
  let s := s.modLink peer fun l => { l with contact := false, since := if l.contact then s.clk else l.since }
  let s : State := { s with furun := { s.furun with
    replicas := s.furun.replicas.map fun r => if r.holder = peer then { r with lost := true } else r } }
  let gone := s.furun.relayed.filter fun r => r.fwd = peer
  let s : State := { s with furun := { s.furun with relayed := s.furun.relayed.filter fun r => r.fwd != peer } }
  let s := gone.foldl State.relayFailed s
  let s := led.foldl (fun s x => s.anchorLost x.addr) s
  s.rolesCheck

/-- FURUN_LINK and interrupt condition 0. -/
def State.linkEv (s : State) (peer : W64) (up : Bool) (ver : Nat) : State :=
  (s.cond 11 0).raise 0x0B01 6 0 (natBE 8 peer.toNat ++ natBE 1 (b2n up) ++ natBE 1 ver)

/-- A link closes, and with it its DTLS session. -/
def State.linkDown (s : State) (peer : W64) : State :=
  let s : State := { s with keys := { s.keys with linkSlots := s.keys.linkSlots.filter fun l => l.peer != peer } }
  match s.link? peer with
  | none => s
  | some l =>
    let s := s.peerLost peer
    let s : State := { s with furun := { s.furun with links := s.furun.links.filter fun x => x.peer != peer } }
    (s.linkEv peer false l.ver).roleSync

/-- A peer is a configured member of a group in which the module takes part, or stands for a sub-group that is one (R430). -/
def State.isMember (s : State) (peer : W64) : Bool :=
  s.parts.any fun x => addrUnder peer x.addr && peer != s.own &&
    bit1 x.members.toNat (addrHop peer (addrDepth x.addr + 1)) == 1

/-- Links to peers that are no longer configured members close. -/
def State.linksPrune (s : State) : State :=
  (s.furun.links.filter fun l => !(s.isMember l.peer)).foldl (fun s l => s.linkDown l.peer) s

/-! ### Heartbeats (Table 16.7) -/

/-- The body of a heartbeat in a mode. -/
def State.hbBody (s : State) (mode : Nat) : Bytes :=
  let gs := s.parts.take 4
  let inner := addrParent s.own
  let outer := (s.anchored.foldl (fun (a : Option FGroup) x =>
    match a with
    | some y => if addrDepth x.addr < addrDepth y.addr then some x else some y
    | none => some x) none)
  let bits := s.eligBits inner false
  let bits := if mode = modeHoldup then bits &&& 27 else bits
  natBE 1 mode ++ natBE 1 bits ++ natBE 1 (min 3 s.anchored.length) ++ natBE 1 gs.length ++
    natBE 2 (match outer with | some x => s.modCount x.addr | none => 0) ++ natBE 2 0 ++
    (gs.map fun x => natBE 8 x.addr.toNat ++ natBE 4 x.epoch ++ natBE 1 (x.anchor.getD 0) ++
      natBE 1 (s.contactCount x) ++ natBE 2 0).flatten

/-- A heartbeat on every link but those of modules that were refused (R432, R435). -/
def State.heartbeats (s : State) (mode : Nat) : State :=
  let body := s.hbBody mode
  s.furun.links.foldl (fun s l => if l.refused then s else s.furunSend l.peer 2 2 l.peer body) s

/-- The group entries of a heartbeat. -/
def hbGroups (b : Bytes) : List FHbGroup :=
  (List.range (beAt b 3 1)).map fun k =>
    ⟨BitVec.ofNat 64 (beAt b (8 + 16 * k) 8), beAt b (16 + 16 * k) 4, beAt b (20 + 16 * k) 1, beAt b (21 + 16 * k) 1⟩

/-- A hand-over ends OK once members that report the new epoch make up more than half of the configured members (R437). -/
def State.handCheck (s : State) : State :=
  s.furun.hands.foldl (fun s h =>
    if !h.committed then s else
    match s.fgroup? h.grp with
    | none => s
    | some x =>
      let n := ((memberHops x.members).filter fun k =>
        (k == s.hopIn x.addr && s.inContact x.addr h.hop) || ((s.linkTo x.addr k).any fun l =>
          l.contact && l.groups.any fun e => e.grp == x.addr && e.epoch == x.epoch && e.anchor == h.hop)).length
      if x.anchor = some h.hop && majority x n then
        let s : State := { s with furun := { s.furun with hands := s.furun.hands.filter fun y => y.grp != h.grp } }
        s.endItem h.owner h.item .ok
      else s) s

/-- The federation anchor refuses a module that would raise the total above 4,096 (R29, R432). A sub-group that grows past the total is
reported: its members get their heartbeats from its own anchor (log 294). -/
def State.admitPeer (s : State) (peer : W64) (mods : Nat) : State :=
  match s.link? peer with
  | none => s
  | some l =>
    if !(s.anchors 0) then s else
    let total := s.modCount 0
    -- a module that anchors nothing reports 0 and is one
    let add := if l.last.isNone then max 1 mods else if l.refused then 0 else mods - l.modules
    if add = 0 || total + add ≤ 4096 then s else
    let s := if l.last.isNone then s.modLink peer fun l => { l with refused := true } else s
    s.raise 0x0B05 2 0 (natBE 8 peer.toNat ++ natBE 4 (total + add))

/-- A heartbeat arrives from a peer (R435, R436, R45, R47). -/
def State.heartbeatRx (s : State) (peer : W64) (b : Bytes) : State :=
  match s.link? peer with
  | none => s
  | some _ =>
    let mods := beAt b 4 2
    let s := s.admitPeer peer mods
    if ((s.link? peer).map fun l => l.refused).getD false then s else
    let es := hbGroups b
    let s := s.modLink peer fun l => { l with
      last := some s.clk, lastTs := s.tsNow, contact := true, since := if l.contact then l.since else s.clk, mode := beAt b 0 1, elig := beAt b 1 1,
      anchored := beAt b 2 1, modules := mods, groups := es }
    -- a newer epoch is adopted
    let s := es.foldl (fun s e =>
      match s.fgroup? e.grp with
      | none => s
      | some x =>
        let fresh := e.epoch > x.epoch || (e.epoch = x.epoch && x.epoch ≠ 0 && x.anchor.isNone)
        if e.anchor = 0 || !fresh then s
        -- a former anchor that returns joins as an ordinary member (R47)
        else if e.anchor = s.hopIn e.grp && s.ownCand e.grp then s.modGroup e.grp fun y => { y with epoch := e.epoch }
        else s.adopt e.grp e.epoch e.anchor 0) s
    -- the anchor itself: heard again, or no longer eligible
    let s := s.furun.groups.foldl (fun s x =>
      match x.anchor with
      | none => s
      | some h =>
        if h = s.hopIn x.addr || !((s.linkTo x.addr h).any fun l => l.peer == peer) then s else
        let sound := (beAt b 0 1 ≠ modeBlocks && beAt b 0 1 ≠ modeHoldup) &&
          es.any fun e => e.grp == x.addr && e.epoch == x.epoch && e.anchor == h
        if sound then s.modGroup x.addr fun y => { y with vote := none } else s.anchorLost x.addr) s
    let s := s.furun.groups.foldl (fun s x => s.decide x.addr) s
    (s.handCheck.rolesCheck).roleSync

end Sys2Proof.Machine
end

