-- ==== Sys2Proof/Machine/MetDsp.lean ====
section
/-! DEFINITION. Machine/MetDsp.lean: what the metrology DSP forms from the converter samples of a line cycle: the channels' processing
(R299 to R302) and the phase quantities (R305), in FP64. -/

namespace Sys2Proof.Machine

/-! ### Functions of the fundamental frequency -/

/-- 2π / 8,000,000,000 rad per sample and mHz, times `n` (R299: 8,000 samples a second). -/
def omegaOf (mhz : Nat) : Fl :=
  Fl.ofRat fp64F ((2 * 31415926535897932384626433832795028841971693993751 * mhz : Nat) : Int) (8000000 * 10 ^ 49)

/-- A finite number in units of 2^−200, toward zero. -/
def fix200 (x : Fl) : Int :=
  match x with
  | .fin s m e => let v : Int := ((if e + 200 ≥ 0 then m * pow2 (e + 200) else m / pow2 (-(e + 200)) : Nat) : Int); if s then -v else v
  | _ => 0

def ofFix200 (v : Int) : Fl := roundQ fp64F (v < 0) v.natAbs 1 (-200)

/-- cos and sin of a small angle, by their Taylor sums in fixed point. -/
def cosSin (x : Fl) : Fl × Fl :=
  let y := fix200 x
  let one : Int := 2 ^ 200
  let terms := (List.range 40).foldl (fun (a : Int × Int × Int) k =>
    -- a.1: the term x^k / k!
    let (t, c, s) := a
    let c := if k % 4 = 0 then c + t else if k % 4 = 2 then c - t else c
    let s := if k % 4 = 1 then s + t else if k % 4 = 3 then s - t else s
    (t * y / one / ((k : Int) + 1), c, s)) (one, 0, 0)
  (ofFix200 terms.2.1, ofFix200 terms.2.2)

/-- The angle of a small tangent, by its Taylor sum in fixed point. -/
def atanSmall (x : Fl) : Fl :=
  let y := fix200 x
  let one : Int := 2 ^ 200
  ofFix200 ((List.range 80).foldl (fun (a : Int × Int) k =>
    let t := a.1 / (2 * (k : Int) + 1)
    (a.1 * y / one * y / one, if k % 2 = 0 then a.2 + t else a.2 - t)) (y, 0)).2

/-- (1 − z⁻¹) / (1 − p·z⁻¹) at a frequency: gain, and phase lead in samples. It is the DC-removal filter without its factor p, and the leak of the
integrator against its core (R300, R301). -/
def poleAt (p : Fl) (mhz : Nat) : Fl × Fl :=
  let w := omegaOf mhz
  let (c, s) := cosSin w
  let one := dNat 1
  let a := dSub one c
  let d1 := dSub one (dMul p c)
  let d2 := dMul p s
  let den := dAdd (dMul d1 d1) (dMul d2 d2)
  let re := dDiv (dAdd (dMul a d1) (dMul s d2)) den
  let im := dDiv (dSub (dMul s d1) (dMul a d2)) den
  (dSqrt (dAdd (dMul re re) (dMul im im)), dDiv (atanSmall (dDiv im re)) w)

/-! ### One channel (R297, R300 to R302) -/

def MetChan.kind (c : MetChan) : Nat := bitsOf c.cfg 31 30

/-- The pole p = 1 − 2⁻ᴷ. -/
def MetChan.pole (c : MetChan) : Fl := let k := bitsOf c.cfg 20 16; .fin false (2 ^ k - 1) (-(k : Int))

/-- PHC as a signed number of 2⁻¹⁵ samples. -/
def MetChan.phc (c : MetChan) : Int := (BitVec.ofNat 16 c.cfg).toInt

/-- The sum of products of taps with a history, latest first. -/
def tapSum (taps : List W64) (hist : List Nat) : Fl :=
  (taps.zip hist).foldl (fun a e => dAdd a (dMul (fl64 e.1.toNat) (fl64 e.2))) (dNat 0)

/-- A sample as the input voltage: the converter's ±2²³ stand for ±0.5 V (R298). -/
def sampleV (code : BitVec 24) : Fl := .fin (code.toInt < 0) code.toInt.natAbs (-24)

/-- One sample through the chain of R300: DC removal, the coil's integrator with its leak, the scale; the latest values are kept for the
delay. The core of the integrator is the module's own (R301; Config.coilTaps). -/
def MetChan.sample (c : MetChan) (code : BitVec 24) : MetChan :=
  let x := sampleV code
  let h := dMul c.pole (dSub (dAdd (fl64 c.h) x) (fl64 c.x))
  let hs := bits64 h :: c.hs.take 63
  let s := if c.kind = 2 then dAdd (dMul c.pole (fl64 c.s)) (dDiv (tapSum Config.coilTaps hs) (dNat 8000)) else h
  let v := dMul (dMul (fl32 c.ks) (fl32 c.gain)) s
  { c with x := bits64 x, h := bits64 h, hs := hs, s := bits64 s, vs := bits64 v :: c.vs.take 63 }

/-- What the module divides out at the measured fundamental: gain, and phase lead in samples (R301). -/
def MetChan.correction (c : MetChan) (mhz : Nat) : Fl × Fl :=
  let (g, l) := poleAt c.pole mhz
  if c.kind = 2 then (dMul c.pole (dMul g g), dMul (dNat 2) l) else (dMul c.pole g, l)

/-- The value of a channel after a sample: delayed by PHC and by the lead that is divided out, by interpolation (R302; Config.delayTaps). -/
def MetChan.value (c : MetChan) (corr : Fl × Fl) : Fl :=
  let d := dAdd (Fl.ofRat fp64F c.phc (2 ^ 15)) corr.2
  dDiv (tapSum (Config.delayTaps (BitVec.ofNat 64 (bits64 d))) c.vs) corr.1

/-- The values of a channel over the samples of a cycle, with the channel after them. -/
def MetChan.run (c : MetChan) (corr : Fl × Fl) (codes : List (BitVec 24)) : MetChan × List Fl :=
  codes.foldl (fun a code => let c := a.1.sample code; (c, a.2 ++ [c.value corr])) (c, [])

/-- A sample at either limit of the converter range (R298). -/
def atLimit (code : BitVec 24) : Bool := code == 0x7FFFFF#24 || code == 0x800000#24

/-! ### Phase quantities (R295, R304, R305) -/

/-- The mean of products. -/
def meanOf (a b : List Fl) : Fl :=
  dDiv ((a.zip b).foldl (fun t e => dAdd t (dMul e.1 e.2)) (dNat 0)) (dNat a.length)

/-- Sums with the cosine and the sine of the fundamental over the samples of a cycle. -/
def fundamental (w : Fl × Fl) (v : List Fl) : Fl × Fl :=
  (v.foldl (fun (a : (Fl × Fl) × (Fl × Fl)) x =>
    let ((c, s), (p, q)) := a
    ((dSub (dMul c w.1) (dMul s w.2), dAdd (dMul s w.1) (dMul c w.2)), (dAdd p (dMul x c), dAdd q (dMul x s))))
    ((dNat 1, dNat 0), (dNat 0, dNat 0))).2

/-- What the DSP forms from a cycle: the channels after it, clipped samples by channel, Urms, Irms, P and Q of the 24 phases as FP32, and
whether no phase voltage exceeds 10 % of its full-scale RMS value (R304). -/
structure DspOut where
  chans : List MetChan
  clips : List Nat
  ph    : List (W32 × W32 × W32 × W32)
  low   : Bool

/-- The DSP over the samples of one line cycle, at a fundamental in mHz. -/
def dspCycle (chans : List MetChan) (smp : List (List (BitVec 24))) (mhz : Nat) : DspOut :=
  let col (n : Nat) : List (BitVec 24) := smp.map fun r => (r[n]?).getD 0
  let runs := ((List.range chans.length).zip chans).map fun e => e.2.run (e.2.correction mhz) (col e.1)
  let vals (n : Nat) : List Fl := ((runs[n]?).map (·.2)).getD []
  let us := (List.range 3).map fun p => ((vals p).zip (vals 3)).map fun e => dSub e.1 e.2
  let u (p : Nat) : List Fl := (us[p]?).getD []
  let w := cosSin (omegaOf mhz)
  let w32 (x : Fl) : W32 := BitVec.ofNat 32 (bits32 x)
  let n := smp.length
  { chans := runs.map (·.1)
    clips := (List.range 28).map fun k => ((col k).filter atLimit).length
    ph := (List.range 24).map fun k =>
      if n = 0 then (0, 0, 0, 0) else
      let up := u (k % 3)
      let i := vals (4 + k)
      let fu := fundamental w up
      let fi := fundamental w i
      -- U1·I1·sin(φu − φi) of the RMS phasors, positive when the current lags
      let q := dDiv (dMul (dNat 2) (dSub (dMul fu.1 fi.2) (dMul fu.2 fi.1))) (dMul (dNat n) (dNat n))
      (w32 (dSqrt (meanOf up up)), w32 (dSqrt (meanOf i i)), w32 (meanOf up i), w32 q)
    low := (List.range 3).all fun p =>
      -- full-scale RMS is 0.5·KV / √2
      let kv := fl32 (((chans[p]?).map (·.ks)).getD 0)
      n == 0 || !(Fl.lt (dMul kv kv) (dMul (dNat 800) (meanOf (u p) (u p)))) }

end Sys2Proof.Machine
end

