-- ==== Sys2Proof/Machine/Met.lean ====
section
/-! DEFINITION. Machine/Met.lean: metrology: line cycles, energy registers, demand, thermal meters, pulse outputs, saves and gap
records, and the MET opcodes (chapter 12). -/

namespace Sys2Proof.Machine

def State.modMet (s : State) (f : MetSt → MetSt) : State := { s with met := f s.met }
def State.cir (s : State) (c : Nat) : MetCir := (s.met.cirs[c]?).getD ⟨0, [], [], 0, 0, 0, false, 0, 0, 0⟩
def State.thm (s : State) (t : Nat) : MetThm := (s.met.thms[t]?).getD ⟨0, [], [], 0, 0, [], 0⟩
def State.po (s : State) (p : Nat) : MetPo := (s.met.pos[p]?).getD ⟨0, 0, 0, 0, 0, false⟩
def State.modCir (s : State) (c : Nat) (f : MetCir → MetCir) : State := s.modMet fun m => { m with cirs := modNth m.cirs c f }
def State.modThm (s : State) (t : Nat) (f : MetThm → MetThm) : State := s.modMet fun m => { m with thms := modNth m.thms t f }
def State.modPo (s : State) (p : Nat) (f : MetPo → MetPo) : State := s.modMet fun m => { m with pos := modNth m.pos p f }

def State.metLink (s : State) : Bool := s.get F.MET_STAT_LINK == 1

/-- The source of the MET quantities: LOST while the link is down, and while CLK_MET is stopped (R21). -/
def State.metSrc (s : State) : Nat := if s.metLink && !s.sys.stopped.contains 6 then qGood else qLost

/-- CLK_MET runs. -/
def State.metClk (s : State) : Bool := !(s.sys.stopped.contains 6)

/-- Values from the MET side reach an object while the isolation link is up; while it is down the object keeps what it has (R330). -/
def State.metFill (s : State) (o : Nat) (ts : W64) (src : Nat) (vals : List (Nat × W64)) : State :=
  if s.metLink then s.fillElems o ts src vals else s

/-- A channel takes another KIND or K (R303). -/
def chanAnew (old new : Nat) : Bool := bitsOf old 31 30 != bitsOf new 31 30 || bitsOf old 20 16 != bitsOf new 20 16

/-- The settings in the registers come into effect: at a start, and at a line cycle boundary (R329). A channel of another KIND or K is COLD
from then (R303). -/
def State.metLatch (s : State) : State :=
  let anew := (List.range 28).map fun n => chanAnew (((s.met.chans[n]?).map (·.cfg)).getD 0) (s.rd (Reg.MET_CHCFG n))
  s.modMet fun m => { m with
    cold := (anew.zip m.cold).map fun e => e.1 || e.2
    coldFrom := (anew.zip m.coldFrom).map fun e => if e.1 then (s.clk, 0) else e.2
    chans := ((List.range 28).zip m.chans).map fun e =>
      { e.2 with cfg := s.rd (Reg.MET_CHCFG e.1), ks := s.rd (Reg.MET_KS e.1), gain := s.rd (Reg.MET_GAIN e.1) }
    cirs := ((List.range 8).zip m.cirs).map fun e =>
      { e.2 with phEn := s.get (F.MET_CIRCFG_PH_EN e.1), rated := s.rd (Reg.MET_IN e.1) } }

/-- Tag of a circuit: that of its CIRCUIT object (R327). -/
def State.cirTag (s : State) (c : Nat) : Nat := s.get (F.MET_CIRCFG_TAG c)
def State.thmTag (s : State) (t : Nat) : Nat := s.get (F.MET_THCFG_TAG t)

/-- Tag of a pulse output: that of its source unit. -/
def State.poTag (s : State) (p : Nat) : Nat :=
  let u := s.get (F.MET_POCFG_UNIT p)
  if s.get (F.MET_POCFG_QTY p) ≤ 7 then s.cirTag u else s.thmTag u

/-- 96-bit arithmetic (R309). -/
def m96 : Nat := 2 ^ 96

/-- A 96-bit value as three words, most significant first. -/
def words96 (v : Nat) : List Nat := [v / 2 ^ 64 % 2 ^ 32, v / 2 ^ 32 % 2 ^ 32, v % 2 ^ 32]

/-! ### Exact amounts (R307, R308) -/

/-- An FP32 value as a whole number of 2^−149; a NaN or infinity counts 0. -/
def fx (w : Nat) : Int :=
  match fl32 w with
  | .fin s m e => let v : Int := (m * pow2 (e + 149) : Nat); if s then -v else v
  | _ => 0

/-- A whole number of 2^−k as FP32 bits. -/
def ofFx (z : Int) (k : Nat) : Nat := bits32 (.fin (z < 0) z.natAbs (-(k : Int)))

/-- Add an amount of `num` over `den` to register i, with the fraction carried from before (R308). -/
def accAdd (acc rem : List Nat) (i num den : Nat) : List Nat × List Nat :=
  let t := (rem[i]?).getD 0 + num
  (modNth acc i fun a => (a + t / den) % m96, setNth rem i (t % den))

/-- nWh of watts·ns: one LSB is 3600 W·ns; powers stand in 2^−298 W. -/
def cirDen : Nat := 3600 * 2 ^ 298

/-- The totals of a circuit in one cycle: P and Q in 2^−149, S in 2^−298, over its enabled phases above creep (R305, R306). -/
structure CirTot where
  p : Int
  q : Int
  s : Nat

/-- Phase values of a cycle: Urms, Irms, P and Q. -/
abbrev Phases := List (W32 × W32 × W32 × W32)
def phaseOf (x : Phases) (i : Nat) : W32 × W32 × W32 × W32 := (x[i]?).getD (0, 0, 0, 0)

/-- The start-up current: 0.0005·In for a transformer, 0.001·In for a shunt or coil (R312); the creep threshold is 0.8 of it. -/
def State.creep (s : State) (c ph : Nat) : Fl :=
  let kind := ((s.met.chans[4 + 3 * c + ph]?).map MetChan.kind).getD 0
  let k : Fl := if kind = 1 then Fl.ofRat fp64F 4 10000 else Fl.ofRat fp64F 8 10000
  Fl.mul fp64F k (fl32 (s.cir c).rated)

def State.cirTotals (s : State) (c : Nat) (x : Phases) : CirTot :=
  (List.range 3).foldl (fun a ph =>
    if bit1 (s.cir c).phEn ph = 0 then a else
    let (u, i, p, q) := phaseOf x (3 * c + ph)
    if Fl.lt (fl32 i.toNat) (s.creep c ph) then a else
    ⟨a.p + fx p.toNat, a.q + fx q.toNat, a.s + (fx u.toNat * fx i.toNat).natAbs⟩) ⟨0, 0, 0⟩

/-- A channel of the circuit is still COLD (R303): its currents and the voltages of its enabled phases. -/
def State.cirCold (s : State) (c : Nat) : Bool :=
  (List.range 3).any fun ph => bit1 (s.cir c).phEn ph == 1 &&
    ((s.met.cold[ph]?).getD false || (s.met.cold[4 + 3 * c + ph]?).getD false || (s.met.cold[3]?).getD false)

/-- MET_STATUS bits of a circuit (element 41). -/
def State.cirStatus (s : State) (c : Nat) (t : CirTot) (clip : Nat) : Nat :=
  let quad := if t.p ≥ 0 then (if t.q ≥ 0 then 0 else 3) else (if t.q ≥ 0 then 1 else 2)
  let used := (List.range 3).any fun ph => bit1 (s.cir c).phEn ph == 1 &&
    (bit1 clip ph == 1 || bit1 clip 3 == 1 || bit1 clip (4 + 3 * c + ph) == 1)
  quad + 4 * b2n used + 8 * s.get F.MET_STAT_NOV + 16 * b2n (s.cir c).part + 32 * b2n (s.cirCold c)

/-- One circuit at a line cycle end (R305 to R308). -/
def State.cirCycle (s : State) (c : Nat) (x : Phases) (mhz dur clip : Nat) (ts : W64) : State :=
  let en := (s.cir c).phEn
  let inst (v : Nat) : W64 := if en = 0 then 0 else u64 v
  let t := s.cirTotals c x
  let k := s.cir c
  let amt (z : Int) : Nat := z.natAbs * 2 ^ 149 * dur
  let (a, r) := if t.p ≥ 0 then accAdd k.acc k.rem 0 (amt t.p) cirDen else accAdd k.acc k.rem 1 (amt t.p) cirDen
  let qi := if t.p ≥ 0 then (if t.q ≥ 0 then 2 else 5) else (if t.q ≥ 0 then 3 else 4)
  let (a, r) := accAdd a r qi (amt t.q) cirDen
  let (a, r) := accAdd a r (if t.p ≥ 0 then 6 else 7) (t.s * dur) cirDen
  let sW := (t.s + 2 ^ 298 - 1) / 2 ^ 298
  let s := if en = 0 then s else s.modCir c fun y => { y with acc := a, rem := r, peak := max y.peak sW }
  let st := s.cirStatus c t clip
  let s := s.wr (Reg.MET_CIRSTAT c) st
  let k := s.cir c
  let on (ph v : Nat) : W64 := if bit1 en ph = 1 then u64 v else 0
  let ph (i : Nat) := phaseOf x (3 * c + i)
  let pf : Nat := if t.s = 0 then bits32 (.ofInt 1)
    else bits32 (Fl.ofRat fp64F (t.p * 2 ^ 149) t.s)
  let energies := ((List.range 8).map fun i => words96 ((k.acc[i]?).getD 0)).flatten
  let vals : List (Nat × W64) :=
    ((List.range 24).zip energies).map (fun p => (p.1 + 1, u64 p.2)) ++
    (List.range 3).map (fun i => (25 + i, on i (ph i).1.toNat)) ++
    (List.range 3).map (fun i => (28 + i, on i (ph i).2.1.toNat)) ++
    (List.range 3).map (fun i => (31 + i, on i (ph i).2.2.1.toNat)) ++
    [(34, inst (ofFx t.p 149)), (35, inst (ofFx t.q 149)), (36, inst (ofFx t.s 298)), (37, inst pf),
     (38, inst (bits32 (Fl.ofRat fp64F mhz 1000))), (39, u64 k.demand), (40, u64 k.demPk), (41, u64 st)]
  let src := if s.metSrc = qGood && en ≠ 0 && s.cirCold c then qCold else s.metSrc
  let s := s.metFill k.obj ts src vals
  if s.get F.MET_STAT_NOV = 1 && en ≠ 0 then s.setSrc k.obj 38 qLost else s

/-- The frequency lies in the range of R304. -/
def cycleInRange (x : LineCycle) : Bool := 45000 ≤ x.mhz.toNat && x.mhz.toNat ≤ 65000

/-- FNOM in Hz. -/
def State.fnomHz (s : State) : Nat := if s.get F.MET_CFG_FNOM = 1 then 60 else 50

/-- What the DSP forms from a line cycle, at the frequency measured, or at FNOM where that lies out of range. -/
def State.dsp (s : State) (x : LineCycle) : DspOut :=
  dspCycle s.met.chans x.smp (if cycleInRange x then x.mhz.toNat else 1000 * s.fnomHz)

/-- Some circuit has a phase enabled, so there is a reference voltage (R304). -/
def State.hasRef (s : State) : Bool := (List.range 8).any fun c => (s.cir c).phEn % 8 != 0

/-- The cycle has a valid reference voltage (R304). -/
def State.cycleOk (s : State) (x : LineCycle) : Bool := cycleInRange x && s.hasRef && !(s.dsp x).low

/-- What a cycle end latches for the snapshot groups (R332). -/
def State.metView (s : State) : State :=
  s.modMet fun m => { m with view := ⟨s.tsNow, m.cirs.map (·.acc), m.thms.map (fun t => (t.acc, t.faultS)), m.pos.map fun p => (p.emitted, p.weight)⟩ }

/-! ### Pulse outputs (R320 to R322) -/

/-- The accumulator that a pulse output follows. -/
def State.poAcc (s : State) (qty unit : Nat) : Nat :=
  if qty ≤ 7 then ((s.cir unit).acc[qty]?).getD 0 else ((s.thm unit).acc[qty - 8]?).getD 0

/-- BACKLOG of an output (R321). -/
def State.poBacklog (s : State) (p : Nat) : Nat :=
  let k := s.po p
  if s.get (F.MET_POCFG_EN p) = 0 || k.weight = 0 then 0 else
  let a := s.poAcc (s.get (F.MET_POCFG_QTY p)) (s.get (F.MET_POCFG_UNIT p))
  ((a + m96 - k.base % m96) % m96) / k.weight - k.emitted

/-- Bits of STATUS: held in BLOCKS, held by link down (Table 12.6). -/
def State.poHeld (s : State) : Nat := b2n (s.mode == modeBlocks) + 2 * b2n (!s.metLink)

/-- The PULSEOUT object shows the output. -/
def State.poImage (s : State) (p : Nat) : State :=
  let k := s.po p
  s.metFill k.obj s.tsNow s.metSrc
    [(1, u64 (s.get (F.MET_POCFG_QTY p))), (2, u64 (s.get (F.MET_POCFG_UNIT p))), (3, u64 k.weight),
     (4, u64 (s.get (F.MET_POCFG_WIDTH p))), (5, u64 k.emitted), (6, u64 (s.poBacklog p % 2 ^ 32)), (7, u64 s.poHeld)]

/-- MET_PO_BACKLOG when BACKLOG passes 1,000. -/
def State.poCheck (s : State) (p : Nat) : State :=
  let b := s.poBacklog p
  let s := if b > 1000 && !(s.po p).backlogged then
      (s.cond 6 7).raise 0x060A 4 (s.poTag p) (natBE 1 p ++ natBE 8 b) else s
  (s.modPo p fun y => { y with backlogged := b > 1000 }).poImage p

/-- The outputs whose quantity code meets `p` follow their accumulators. -/
def State.posCheck (s : State) (p : Nat → Bool) : State :=
  (List.range 8).foldl (fun s n => if s.get (F.MET_POCFG_EN n) = 1 && p (s.get (F.MET_POCFG_QTY n)) then s.poCheck n else s) s

/-! ### The line cycle -/

/-- LINE_CYCLE_END (R299 to R308): nothing is sampled while CLK_MET is stopped (R330). -/
def execLineCycleEnd (x : LineCycle) (s : State) : Res :=
  if !s.blkOn 6 || !s.met.on || !s.metClk then .next s else
  let d := s.dsp x
  let ok := s.cycleOk x
  let dur := if ok then x.dur.toNat else sec / s.fnomHz
  let s := s.reach ((if s.met.cycAt = 0 then s.clk else s.met.cycAt) + dur)
  let s := s.modMet fun m => { m with cycAt := s.clk, chans := d.chans, coldFrom := m.coldFrom.map fun e => (e.1, e.2 + 1) }
  let was := s.get F.MET_STAT_NOV
  let nov := b2n (!ok)
  let s := (s.put F.MET_STAT_NOV nov).wr Reg.MET_FREQ (if ok then x.mhz.toNat else 0)
  let s := if was ≠ nov then (s.cond 6 4).raise 0x0607 3 0 (natBE 1 nov ++ natBE 4 x.mhz.toNat) else s
  let count (n : Nat) : Nat := (d.clips[n]?).getD 0
  let clips := (List.range 28).filter fun n => count n != 0
  let clip := clips.foldl (fun a n => a + 2 ^ n) 0
  let s := s.modMet fun m => { m with clip := clip }
  let s := clips.foldl (fun s n =>
    let tag := if n < 4 then 0 else s.cirTag ((n - 4) / 3)
    (s.cond 6 5).raiseLim 0x0608 n sec 4 tag (fun k => natBE 1 n ++ natBE 4 k) 0 0 (count n)) s
  let ts := s.tsNow
  let s := (List.range 8).foldl (fun s c => s.cirCycle c d.ph x.mhz.toNat dur clip ts) s
  .next (s.posCheck fun q => q ≤ 7).metView.metLatch

/-- The time for which a coil channel is COLD: 5·τ, with τ = 2ᴷ / 8,000 s (R301, R303). -/
def MetChan.coldNs (c : MetChan) : Nat := 5 * 2 ^ bitsOf c.cfg 20 16 * 125000

/-- MET_COLD_END: a channel's quantities leave COLD: 5·τ after its start for a coil, after 8 line cycles for any other (R303). -/
def execMetColdEnd (n : Fin 28) (s : State) : Res :=
  match s.met.chans[n.val]?, s.met.coldFrom[n.val]? with
  | some c, some (at_, cycles) =>
    if !s.blkOn 6 || !s.met.on || !((s.met.cold[n.val]?).getD false) || (c.kind ≠ 2 && cycles < 8) then .next s else
    let s := if c.kind = 2 then s.reach (at_ + c.coldNs) else s
    .next (s.modMet fun m => { m with cold := setNth m.cold n.val false })
  | _, _ => .next s

/-! ### Demand (R315, R316) -/

/-- Close the demand window of every circuit. -/
def State.demandClose (s : State) (part : Bool) : State :=
  let dm := s.get F.MET_CFG_DEM_MIN
  let s := (List.range 8).foldl (fun s c =>
    let k := s.cir c
    let eai := (k.acc[0]?).getD 0
    let d := (eai + m96 - k.dem0 % m96) % m96
    -- nWh over the full window, in W
    let w := bits32 (Fl.ofRat fp64F (d * 3600 : Nat) (60 * max dm 1 * 1000000000))
    let pk := if part then k.demPk else if Fl.lt (fl32 k.demPk) (fl32 w) then w else k.demPk
    let s := s.modCir c fun y => { y with dem0 := eai, demand := w, part := part, demPk := pk }
    let st := putBits (s.rd (Reg.MET_CIRSTAT c)) 4 4 (b2n part)
    let s := s.wr (Reg.MET_CIRSTAT c) st
    s.metFill k.obj s.tsNow s.metSrc [(39, u64 w), (40, u64 pk), (41, u64 st)]) s
  s.cond 6 8

/-- DEMAND_WINDOW_END: a TAI second that is a multiple of 60·DEM_MIN (R315). -/
def execDemandWindowEnd (s : State) : Res :=
  if !s.blkOn 6 || !s.met.on then .next s else
  let w := 60 * max (s.get F.MET_CFG_DEM_MIN) 1
  let now := (s.sysNow / (sec : Int)).toNat
  let t := match s.met.demAt with
    | some a => max ((a / w + 1) * w) (now / w * w)
    | none => (now / w + 1) * w
  let s := s.reach ((t * sec : Nat) - s.sysOfs).toNat
  let s := s.demandClose (s.met.part || !s.metClk)
  .next (s.modMet fun m => { m with demAt := some t, part := !s.metClk })

/-- A step of the system time ends the window, which is partial, and so is the next (R316). -/
def State.demandStep (s : State) : State :=
  if !s.blkOn 6 || !s.met.on then s else
  let s := s.demandClose true
  s.modMet fun m => { m with part := true, demAt := none }

/-! ### Thermal meters (R317 to R319) -/

/-- A temperature of a meter: its UIO channel's value, LOST outside 0 to 180 °C or on a fault (R319). -/
def State.thmTemp (s : State) (ch : Nat) : Option Nat :=
  let st := s.rd (Reg.UIO_STAT ch)
  let v := s.rd (Reg.UIO_VAL ch)
  let ok := s.uioMode ch == 3 && bitsOf st 4 0 == 0 && bit1 st 31 == 0 &&
    Fl.le (.ofInt 0) (fl32 v) && Fl.le (fl32 v) (.ofInt 180)
  if ok then some v else none

def State.thmTemps (s : State) (t : Nat) : Option Nat × Option Nat :=
  (s.thmTemp (s.get (F.MET_THCFG_TF_UIO t)), s.thmTemp (s.get (F.MET_THCFG_TR_UIO t)))

/-- STATUS of a meter (element 16). -/
def State.thmStatus (s : State) (t : Nat) : Nat :=
  let (tf, tr) := s.thmTemps t
  let ch := s.get (F.MET_THCFG_FLOW_UIO t)
  b2n tf.isNone + 2 * b2n tr.isNone + 4 * b2n (s.uioMode ch != 6 || bitsOf (s.rd (Reg.UIO_STAT ch)) 4 0 != 0)

/-- Test the temperatures; MET_THM_FAULT comes at the start of a fault. -/
def State.thmCheck (s : State) (t : Nat) : State :=
  let st := s.thmStatus t
  let s := s.wr (Reg.MET_THSTAT t) st
  let s := if st % 4 ≠ 0 && (s.thm t).fault = 0 then
      (s.cond 6 6).raise 0x0609 3 (s.thmTag t) (natBE 1 t ++ natBE 4 st) else s
  s.modThm t fun y => { y with fault := st % 4 }

def thmRemDen : Nat := 2 ^ 447

/-- FLOW_PULSE: volume, and energy where both temperatures are good (R318, R319). -/
def execFlowPulse (t : Fin 4) (s : State) : Res :=
  let n := t.val
  if !s.blkOn 6 || !s.met.on || !s.metClk || s.get (F.MET_THCFG_EN n) = 0 then .next s else
  let s := s.thmCheck n
  let k := s.thm n
  let vp := s.rd (Reg.MET_VPULSE n)
  let volNum := (fx vp).natAbs * 1000000 * 2 ^ 298
  let (a, r) := accAdd k.acc k.rem 2 volNum thmRemDen
  let s := s.modThm n fun y => { y with acc := a, rem := r }
  let volUl := volNum / thmRemDen
  match s.thmTemps n with
  | (some tf, some tr) =>
    let h := Config.heatCoeff (BitVec.ofNat 32 tf) (BitVec.ofNat 32 tr) (s.get (F.MET_THPAR_PN n)) (s.get (F.MET_THCFG_LOC n))
    let dth := fx tf - fx tr
    -- Wh/(L·K) × K × L × 10^9 in 2^−447
    let e : Int := fx h.toNat * dth * fx vp * 1000000000
    let mode := s.get (F.MET_THCFG_MODE n)
    -- DT_MIN is in 0.01 K
    let dtMin : Int := (s.get (F.MET_THPAR_DT_MIN n) : Int) * 2 ^ 149
    let heat := (mode = 0 || mode = 2) && dth * 100 ≥ dtMin
    let cool := (mode = 1 || mode = 2) && -dth * 100 ≥ dtMin && Fl.le (fl32 tf) (fl32 (s.rd (Reg.MET_TCOOL n)))
    let i := if heat then 0 else 1
    let s := if heat || cool then
        let k := s.thm n
        let (a, r) := accAdd k.acc k.rem i e.natAbs thmRemDen
        s.modThm n fun y => { y with acc := a, rem := r }
      else s
    let de : Int := if heat || cool then e / (thmRemDen : Int) else 0
    .next ((s.modThm n fun y => { y with pulses := y.pulses ++ [(s.clk, volUl, de)] }).posCheck fun q => 8 ≤ q)
  | _ => .next ((s.modThm n fun y => { y with pulses := y.pulses ++ [(s.clk, volUl, 0)] }).posCheck fun q => 8 ≤ q)

/-- One meter at a second: FLOW and POWER over the last 10 s, FAULT_S, and its object (R319, Table 12.5). -/
def State.thmSecond (s : State) (t : Nat) : State :=
  if s.get (F.MET_THCFG_EN t) = 0 then s else
  let s := s.thmCheck t
  let s := s.modThm t fun y => { y with
    pulses := y.pulses.filter (fun p => p.1 + 10 * sec > s.clk)
    faultS := y.faultS + b2n (y.fault != 0) }
  let k := s.thm t
  let ul := k.pulses.foldl (fun a p => a + p.2.1) 0
  let ne : Int := k.pulses.foldl (fun a p => a + p.2.2) 0
  -- µL in 10 s to m³/h, nWh in 10 s to kW
  let flow := bits32 (Fl.ofRat fp64F (ul * 360 : Nat) 1000000000)
  let power := bits32 (Fl.ofRat fp64F (ne * 360) 1000000000000)
  let pw := ((ne.natAbs * 360 + 999999999) / 1000000000)
  let s := s.modThm t fun y => { y with peak := max y.peak pw }
  let (tf, tr) := s.thmTemps t
  let st := s.rd (Reg.MET_THSTAT t)
  let w (i : Nat) : List Nat := words96 ((k.acc[i]?).getD 0)
  let dt := match tf, tr with
    | some a, some b => bits32 (Fl.sub fp64F (fl32 a) (fl32 b))
    | _, _ => 0
  let src := s.metSrc
  let s := s.metFill k.obj s.tsNow src
    (((List.range 9).zip (w 0 ++ w 1 ++ w 2)).map (fun p => (p.1 + 1, u64 p.2)) ++
      [(10, u64 flow), (14, u64 power), (15, u64 (k.faultS % 2 ^ 32)), (16, u64 st)])
  let temp (s : State) (e : Nat) (v : Option Nat) : State :=
    match v with
    | some x => s.metFill k.obj s.tsNow src [(e, u64 x)]
    | none => if k.obj = 0 then s else s.setSrc k.obj e qLost
  let s := temp (temp s 11 tf) 12 tr
  temp s 13 (if tf.isSome && tr.isSome then some dt else none)

/-- THERMAL_UPDATE: each second (R319, R331). -/
def execThermalUpdate (s : State) : Res :=
  if !s.blkOn 6 || !s.met.on || !s.metClk then .next s else
  let s := s.reach ((s.clk / sec + 1) * sec)
  .next ((List.range 4).foldl (fun s t => s.thmSecond t) s)

/-! ### Pulse emission (R321, R322) -/

/-- PULSE_EMIT: an output emits one pulse while its BACKLOG is above 0 (R321, R322). -/
def execPulseEmit (p : Fin 8) (s : State) : Res :=
  let n := p.val
  if !s.blkOn 6 then .next s else
  let s := s.poCheck n
  if s.poBacklog n = 0 || s.poHeld ≠ 0 || s.mode = modeHoldup then .next s else
  let s := s.reach (s.po n).next
  let w := s.get (F.MET_POCFG_WIDTH n)
  let s := (s.modPo n fun y => { y with emitted := y.emitted + 1, next := s.clk + 2 * w * 100000 }).emit (.pulse n)
  .next (s.poImage n)

/-! ### Saves, mirror, gap records (R323 to R326) -/

/-- METROLOGY_SAVE: the latch at a multiple of SAVE_S and its write to the older copy; `ok` tells whether the MRAM took it. -/
def execMetrologySave (ok : Bool) (s : State) : Res :=
  if !s.blkOn 6 || !s.met.on || s.mode = modeHoldup then .next s else
  let iv := max (s.get F.MET_CFG_SAVE_S) 1
  let now := (s.sysNow / (sec : Int)).toNat
  let s := s.reach (((now / iv + 1) * iv * sec : Nat) - s.sysOfs).toNat
  let seq := (s.met.seq + 1) % 2 ^ 32
  if ok && s.metLink && s.metClk then
    let m := s.met
    let v : MetSave := ⟨seq, s.tsNow, m.cirs.map (·.acc), m.thms.map (·.acc), m.cirs.map (·.demPk), m.thms.map (·.faultS),
      m.pos.map fun p => (p.base, p.emitted)⟩
    -- the copy with the lower sequence number is the one that is written over
    let old (x : Option MetSave) : Nat := match x with | some y => y.seq + 1 | none => 0
    let saves := if old m.saves.1 ≤ old m.saves.2 then (some v, m.saves.2) else (m.saves.1, some v)
    let s := s.modMet fun m => { m with
      saves := saves, seq := seq, cirs := m.cirs.map (fun c => { c with peak := 0 }), thms := m.thms.map fun t => { t with peak := 0 } }
    let s := (s.put F.MET_STAT_SAVE_FAIL 0).put F.MET_STAT_SAVE_SEQ (seq % 256)
    .next (s.cond 6 2)
  else
    let s := (s.put F.MET_STAT_SAVE_FAIL 1).cond 6 3
    .next (s.raiseLim 0x0602 0 (60 * sec) 3 0 fun _ => natBE 4 seq ++ natBE 1 (if s.metLink && s.metClk then 1 else 2))

/-- The stop mirror as the MET side sends it over the isolation link (R325). -/
def State.stopMirror (s : State) : State :=
  if !s.met.on || !s.metLink || !s.metClk then s else
  s.modMet fun m => { m with mirror := some (m.cirs.map (·.peak), m.thms.map (·.peak), s.tsNow) }

/-- STOP_MIRROR: every 10 ms (R325). -/
def execStopMirror (s : State) : Res :=
  if !s.blkOn 6 || !s.met.on then .next s else
  let s := s.reach ((s.clk / (10 * msec) + 1) * (10 * msec))
  .next s.stopMirror

/-- Full scale of a circuit in W (R297). -/
def fullScale (kv : Nat) (ks kinds : List Nat) (phEn fnom : Nat) (kvs : List Nat) : Fl :=
  let twoPi : Fl := Fl.ofRat fp64F 6283185307179586 1000000000000000
  (List.range 3).foldl (fun a ph =>
    if bit1 phEn ph = 0 then a else
    let k := fl32 ((ks[ph]?).getD 0)
    let k' := if (kinds[ph]?).getD 0 = 2 then Fl.div fp64F k (Fl.mul fp64F twoPi (.ofInt fnom)) else k
    let v := fl32 ((kvs[ph]?).getD kv)
    Fl.add fp64F a (Fl.mul fp64F (Fl.mul fp64F (Fl.ofRat fp64F 125 1000) v) k')) (.ofInt 0)

/-- FS of a circuit as configured. -/
def State.cirFs (s : State) (c : Nat) : Fl :=
  let fnom : Nat := if s.get F.MET_CFG_FNOM = 1 then 60 else 50
  fullScale 0 ((List.range 3).map fun p => s.rd (Reg.MET_KS (4 + 3 * c + p)))
    ((List.range 3).map fun p => s.get (F.MET_CHCFG_KIND (4 + 3 * c + p))) (s.get (F.MET_CIRCFG_PH_EN c)) fnom
    ((List.range 3).map fun p => s.rd (Reg.MET_KS p))

/-- MET_FS follows the configuration. -/
def State.fsRegs (s : State) : State :=
  (List.range 8).foldl (fun s c =>
    match (s.cirFs c) with
    | .fin false m e => s.wr (Reg.MET_FS c) ((Fl.toIntRne (.fin false m e)).getD 0).toNat
    | _ => s.wr (Reg.MET_FS c) 0) s

/-- FS of every circuit is at most 10^9 W (R297). -/
def State.fsOk (s : State) : Bool :=
  (List.range 8).all fun c => Fl.le (s.cirFs c) (.ofInt 1000000000)

/-- A power over a time as an energy bound in whole LSB, rounded up (R326): W × ns / 3600. -/
def boundOf (peak ns : Nat) : Nat := (peak * ns + 3599) / 3600

/-- The copy that a start restores: the higher sequence number (R324). -/
def MetSt.best (m : MetSt) : Option MetSave :=
  match m.saves with
  | (some a, some b) => if b.seq > a.seq then some b else some a
  | (some a, none) => some a
  | (none, x) => x

/-- Step 8 of Table 6.1: PD_MET resumes accumulation from the latest valid save, and the gap record is written (R324,
R326). -/
def State.metStart (s : State) : State :=
  let lost := s.met.mirror.isNone
  let s := (s.put F.MET_STAT_LINK 1).fsRegs
  let s := s.modMet fun m => { m with
    on := true, cold := List.replicate 28 true, part := true, demAt := none, cycAt := 0, downAt := none, clip := 0
    chans := List.replicate 28 ⟨0, 0, 0, 0, 0, [], 0, []⟩
    coldFrom := List.replicate 28 (s.clk, 0)
    cirs := m.cirs.map (fun c => { c with rem := List.replicate 8 0, peak := 0 })
    thms := m.thms.map fun t => { t with rem := [0, 0, 0], peak := 0, pulses := [], fault := 0 } }
  let s := s.metLatch
  match s.met.best with
  | none =>
    let s := s.modMet fun m => { m with
      cirs := m.cirs.map (fun c => { c with acc := List.replicate 8 0, dem0 := 0, demPk := 0 })
      thms := m.thms.map (fun t => { t with acc := [0, 0, 0], faultS := 0 })
      pos := m.pos.map fun p => { p with base := 0, emitted := 0 } }
    s.metView.raise 0x0603 1 0 (natBE 4 0 ++ natBE 4 0)
  | some v =>
    let saveNs := nsOfTs v.ts
    let (pc, pt, outTs) := match s.met.mirror with
      | some x => x
      | none => ([], [], v.ts)
    let saveS := max (s.get F.MET_CFG_SAVE_S) 1
    let tNs : Nat := if lost then saveS * sec else
      let d := (nsOfTs outTs - saveNs).toNat
      if d > saveS * sec then d else saveS * sec
    let fsW (c : Nat) : Nat := s.rd (Reg.MET_FS c)
    -- 4,186.8 J/(L·K) × VPULSE × 10,000 pulses/s × 100 K
    let fsT (t : Nat) : Nat := ((fx (s.rd (Reg.MET_VPULSE t))).natAbs * 4186800000 + 2 ^ 149 - 1) / 2 ^ 149
    let cs := (List.range 8).filter fun c => s.get (F.MET_CIRCFG_PH_EN c) != 0
    let ts := (List.range 4).filter fun t => s.get (F.MET_THCFG_EN t) == 1
    let entries : List GapEntry :=
      (cs.map fun c =>
        let pk := if lost then fsW c else (pc[c]?).getD 0
        ⟨0, c, s.cirTag c, pk, boundOf pk tNs, (v.cirs[c]?).getD []⟩) ++
      (ts.map fun t =>
        let pk := if lost then fsT t else (pt[t]?).getD 0
        ⟨1, t, s.thmTag t, pk, boundOf pk tNs, (v.thms[t]?).getD []⟩)
    let flags := if lost then 3 else 0
    let g : GapRec := ⟨flags, v.seq, v.ts, outTs, s.tsNow, entries⟩
    let s := s.modMet fun m => { m with
      seq := v.seq, gaps := (g :: m.gaps).take 16
      cirs := ((List.range 8).zip m.cirs).map (fun p => { p.2 with
        acc := (v.cirs[p.1]?).getD p.2.acc, dem0 := (((v.cirs[p.1]?).getD p.2.acc)[0]?).getD 0, demPk := (v.pks[p.1]?).getD 0 })
      thms := ((List.range 4).zip m.thms).map (fun p => { p.2 with
        acc := (v.thms[p.1]?).getD p.2.acc, faultS := (v.faults[p.1]?).getD 0 })
      pos := ((List.range 8).zip m.pos).map fun p => { p.2 with
        base := ((v.pos[p.1]?).getD (0, 0)).1, emitted := ((v.pos[p.1]?).getD (0, 0)).2 } }
    let s := (s.put F.MET_STAT_SAVE_SEQ (v.seq % 256)).metView
    s.raise 0x0601 3 0 (natBE 1 0 ++ natBE 2 entries.length ++ natBE 1 flags)

/-- PD_MET is gated: accumulation stops; the pulse outputs release (R322, R325). -/
def State.metStop (s : State) : State := s.modMet fun m => { m with on := false }

/-! ### The isolation link (R330) -/

/-- Every MET quantity of the assigned objects goes LOST, or is reachable again. -/
def State.metLost (s : State) (lost : Bool) : State :=
  let objs := (s.met.cirs.map (·.obj)) ++ (s.met.thms.map (·.obj)) ++ (s.met.pos.map (·.obj))
  (objs.filter (· != 0)).foldl (fun s o =>
    (List.range (((s.obj? o).map (·.elems.length)).getD 0)).foldl (fun s i =>
      if lost then s.setSrc o (i + 1) qLost else s.unLost o (i + 1)) s) s

/-- MET_LINK_DOWN: 4 consecutive frames are missing (R330). -/
def execMetLinkDown (s : State) : Res :=
  if !s.blkOn 6 || !s.metLink then .next s else
  let s := ((s.put F.MET_STAT_LINK 0).cond 6 0).modMet fun m => { m with downAt := some s.clk }
  .next ((s.metLost true).raise 0x0605 2 0 (natBE 2 4))

/-- MET_LINK_UP (R330). -/
def execMetLinkUp (s : State) : Res :=
  if !s.blkOn 6 || s.metLink || !s.met.on then .next s else
  let ms := (s.clk - s.met.downAt.getD s.clk) / msec
  let s := ((s.put F.MET_STAT_LINK 1).cond 6 1).modMet fun m => { m with downAt := none }
  .next ((s.metLost false).raise 0x0606 5 0 (natBE 4 ms))

/-! ### Opcodes (R333) -/

def tMetGlobal : Nat := 0x0601
def tMetChannel : Nat := 0x0602
def tChCal : Nat := 0x0603
def tMetUnit : Nat := 0x0604
def tCirCfg : Nat := 0x0605
def tThmCfg : Nat := 0x0606
def tPoCfg : Nat := 0x0607
def tGapGen : Nat := 0x0608

/-- Kind and index of UNIT. -/
def unitOf (q : Q) : Nat × Nat := (beAt (tv q.tlvs tMetUnit) 0 1, beAt (tv q.tlvs tMetUnit) 1 1)

def unitChk (kinds : List Nat) : Chk := fun _ q =>
  let (k, i) := unitOf q
  if kinds.contains k && i < (if k = 1 then 4 else 8) then none else some (badAt q.tlvs tMetUnit 0x0008)

/-- A change under R329: the count rises, and MET_CAL_CHANGED is raised. -/
def State.calChanged (s : State) (opcode unit : Nat) : State :=
  let n := (s.rd Reg.MET_CALCNT + 1) % 2 ^ 32
  (s.wr Reg.MET_CALCNT n).raise 0x0604 4 0 (natBE 2 opcode ++ natBE 1 unit ++ natBE 4 n)

def opMetSetup : OpDef where
  code := 0x0601
  blk := 6
  charge := 1
  schema := [{ typ := tMetGlobal, lo := 4, hi := 4 }]
  form := fun _ q =>
    let v := tn q.tlvs tMetGlobal
    imgFault q.tlvs tMetGlobal [(Reg.MET_CFG, v)]
      (1 ≤ bitsOf v 21 16 && bitsOf v 21 16 ≤ 60 && [1, 2, 3, 4, 5, 6, 10, 12, 15, 20, 30, 60].contains (bitsOf v 13 8))
  perm := onlyOperator
  pre := fun s q => if (s.wr Reg.MET_CFG (tn q.tlvs tMetGlobal)).fsOk then none else some (badAt q.tlvs tMetGlobal 0x0008)
  run := fun s q =>
    let old := s.get F.MET_CFG_DEM_MIN
    let s := s.setImgs [(Reg.MET_CFG, tn q.tlvs tMetGlobal)]
    let s := if s.get F.MET_CFG_DEM_MIN ≠ old then s.modMet fun m => { m with part := true, demAt := none } else s
    .done .ok [] s.fsRegs

/-- CH_CAL of a channel. -/
def calImgs (n : Nat) (b : Bytes) : List (Nat × Nat) :=
  [(Reg.MET_CHCFG n, beAt b 0 4), (Reg.MET_KS n, beAt b 4 4), (Reg.MET_GAIN n, beAt b 8 4)]

/-- KIND of a channel's use: coil and transformer on currents only (R297), K 10 to 20, GAIN 0.9 to 1.1. -/
def calOk (n : Nat) (b : Bytes) : Bool :=
  let cfg := beAt b 0 4
  let kind := bitsOf cfg 31 30
  let k := bitsOf cfg 20 16
  kind ≤ 2 && (kind == 0 || n ≥ 4) && 10 ≤ k && k ≤ 20 && (fl32 (beAt b 4 4)).isFin &&
  Fl.le (Fl.ofRat fp64F 9 10) (fl32 (beAt b 8 4)) && Fl.le (fl32 (beAt b 8 4)) (Fl.ofRat fp64F 11 10)

def opMetCal : OpDef where
  code := 0x0602
  blk := 6
  charge := 5
  schema := [{ typ := tMetChannel, lo := 1, hi := 1 }, { typ := tChCal, lo := 12, hi := 12 }]
  form := allChk [rangeChk tMetChannel fun v => v ≤ 27, fun _ q =>
    let b := tv q.tlvs tChCal
    imgFault q.tlvs tChCal (calImgs (tn q.tlvs tMetChannel) b) (calOk (tn q.tlvs tMetChannel) b)]
  perm := onlyOperator
  pre := fun s q =>
    let s' := (calImgs (tn q.tlvs tMetChannel) (tv q.tlvs tChCal)).foldl (fun s p => s.wr p.1 p.2) s
    if s'.fsOk then none else some (badAt q.tlvs tChCal 0x0008)
  run := fun s q =>
    let n := tn q.tlvs tMetChannel
    let s := s.setImgs (calImgs n (tv q.tlvs tChCal))
    .done .ok [] (s.fsRegs.calChanged 0x0602 n)

/-- The object of a metering unit, 0 for none. -/
def State.unitObj (s : State) (u : Nat × Nat) : Nat :=
  if u.1 = 0 then (s.cir u.2).obj else if u.1 = 1 then (s.thm u.2).obj else (s.po u.2).obj

/-- LOCKED where another identity holds the object of the unit (R79). -/
def unitLock : Chk := lockChk fun s q => [s.unitObj (unitOf q)]

def opMetCirCfg : OpDef where
  code := 0x0603
  blk := 6
  lock := unitLock
  charge := 5
  schema := [{ typ := tMetUnit, lo := 2, hi := 2 }, { typ := tCirCfg, lo := 8, hi := 8 }]
  form := allChk [unitChk [0], fun _ q =>
    let b := tv q.tlvs tCirCfg
    if beAt b 1 3 ≠ 0 then some (badAt q.tlvs tCirCfg 0x0005)
    else if beAt b 0 1 > 7 || !(fl32 (beAt b 4 4)).isFin then some (badAt q.tlvs tCirCfg 0x0008) else none]
  perm := onlyOperator
  pre := fun s q =>
    let c := (unitOf q).2
    if (s.put (F.MET_CIRCFG_PH_EN c) (beAt (tv q.tlvs tCirCfg) 0 1)).fsOk then none else some (badAt q.tlvs tCirCfg 0x0008)
  run := fun s q =>
    let c := (unitOf q).2
    let b := tv q.tlvs tCirCfg
    let s := (s.put (F.MET_CIRCFG_PH_EN c) (beAt b 0 1)).store (Reg.MET_CIRCFG c)
    let s := s.setImgs [(Reg.MET_IN c, beAt b 4 4)]
    .done .ok [] (s.fsRegs.calChanged 0x0603 c)

/-- Retag a thermal meter and the pulse outputs whose source it is, with their objects; the registers follow. -/
def State.thmRetag (s : State) (t tag : Nat) : State := s.put (F.MET_THCFG_TAG t) tag

/-- The tag that a thermal meter takes: its circuit's, or its object's while it stands alone (R327). -/
def State.thmImplied (s : State) (cir obj : Nat) : Nat :=
  if cir < 8 then s.cirTag cir else s.tagOf obj

/-- A pulse output that is configured on a circuit (`k` 0) or thermal meter (`k` 1) holds an object of another tag than `tag`. -/
def State.poDiffers (s : State) (k u tag : Nat) : Bool :=
  (List.range 8).any fun p => s.get (F.MET_POCFG_EN p) == 1 && (Nat.ble 8 (s.get (F.MET_POCFG_QTY p)) == (k == 1)) &&
    s.get (F.MET_POCFG_UNIT p) == u && (s.po p).obj != 0 && s.tagOf (s.po p).obj != tag

/-- A thermal meter of a circuit, or a pulse output of either, holds an object of another tag than `tag` (R327). -/
def State.cirDiffers (s : State) (c tag : Nat) : Bool :=
  s.poDiffers 0 c tag || (List.range 4).any fun t => s.get (F.MET_THCFG_CIR t) == c &&
    (((s.thm t).obj != 0 && s.tagOf (s.thm t).obj != tag) || s.poDiffers 1 t tag)

def opMetAssign : OpDef where
  code := 0x0604
  blk := 6
  charge := 1
  schema := [{ typ := tMetUnit, lo := 2, hi := 2 }, { typ := 0x0001, lo := 8, hi := 8 }]
  form := allChk [unitChk [0, 1, 2], addrForm 0x0001 true]
  lock := lockChk fun s q => [addrObj (tAddr q.tlvs), s.unitObj (unitOf q)]
  perm := onlyOperator
  exist := fun s q =>
    let o := addrObj (tAddr q.tlvs)
    if o ≠ 0 && (s.obj? o).isNone then some { status := .noObject } else none
  pre := fun s q =>
    let o := addrObj (tAddr q.tlvs)
    let (k, _) := unitOf q
    match s.obj? o with
    | none => none
    | some x =>
      let ok := if k = 0 then x.typ == tyCircuit && x.count == 42 else if k = 1 then x.typ == tyThermal && x.count == 17
        else x.typ == tyPulseOut && x.count == 8
      if ok then none else some (badAt q.tlvs 0x0001 0x0008)
  run := fun s q =>
    let o := addrObj (tAddr q.tlvs)
    let (k, i) := unitOf q
    let held := s.unitObj (k, i)
    let used := (s.met.cirs.any fun x => x.obj == o) || (s.met.thms.any fun x => x.obj == o) || (s.met.pos.any fun x => x.obj == o)
    if o ≠ 0 && (held ≠ 0 || used) then .refuse { status := .busy } else
    let tag := s.tagOf o
    let denied : Bool :=
      if k = 0 then s.cirDiffers i tag
      else if k = 1 then
        (o != 0 && tag != s.thmImplied (s.get (F.MET_THCFG_CIR i)) o) || s.poDiffers 1 i (s.thmImplied (s.get (F.MET_THCFG_CIR i)) o)
      else o != 0 && s.get (F.MET_POCFG_EN i) == 1 && tag != s.poTag i
    if denied then .refuse { status := .denied } else
    let asg := b2n (o != 0)
    if k = 0 then
      let s := (s.modCir i fun y => { y with obj := o }).put (F.MET_CIRCFG_ASSIGNED i) asg
      let s := (s.put (F.MET_CIRCFG_TAG i) tag).store (Reg.MET_CIRCFG i)
      -- meters of the circuit take its tag
      let s := (List.range 4).foldl (fun s t => if s.get (F.MET_THCFG_CIR t) = i then s.thmRetag t tag else s) s
      .done .ok [] s
    else if k = 1 then
      let s := (s.modThm i fun y => { y with obj := o }).put (F.MET_THCFG_ASSIGNED i) asg
      let s := s.thmRetag i (s.thmImplied (s.get (F.MET_THCFG_CIR i)) o)
      .done .ok [] (s.store (Reg.MET_THCFG i))
    else
      .done .ok [] ((s.modPo i fun y => { y with obj := o }).poImage i)

/-- THM_CFG: the images, ASSIGNED and TAG ignored. -/
def thmOk (b : Bytes) : Bool :=
  let cfg := beAt b 0 4
  let par := beAt b 4 4
  let v := fl32 (beAt b 8 4)
  (bitsOf cfg 27 24 ≤ 7 || bitsOf cfg 27 24 == 15) && bitsOf cfg 11 10 ≤ 2 &&
  1 ≤ bitsOf par 31 24 && bitsOf par 31 24 ≤ 40 && 5 ≤ bitsOf par 8 0 && bitsOf par 8 0 ≤ 300 &&
  Fl.le (Fl.ofRat fp64F 1 10000) v && Fl.le v (.ofInt 10000) && (fl32 (beAt b 12 4)).isFin

def opMetThmCfg : OpDef where
  code := 0x0605
  blk := 6
  lock := unitLock
  charge := 5
  schema := [{ typ := tMetUnit, lo := 2, hi := 2 }, { typ := tThmCfg, lo := 16, hi := 16 }]
  form := allChk [unitChk [1], fun _ q =>
    let b := tv q.tlvs tThmCfg
    imgFault q.tlvs tThmCfg [(Reg.MET_THCFG 0, beAt b 0 4), (Reg.MET_THPAR 0, beAt b 4 4)] (thmOk b)]
  perm := onlyOperator
  pre := fun s q =>
    let t := (unitOf q).2
    let cfg := beAt (tv q.tlvs tThmCfg) 0 4
    let chs := [bitsOf cfg 23 20, bitsOf cfg 19 16, bitsOf cfg 15 12]
    if bit1 cfg 8 = 0 then none else
    let modes := chs.map fun c => s.uioMode c
    let shared := (List.range 4).any fun u => u != t && s.get (F.MET_THCFG_EN u) == 1 &&
      (chs.contains (s.get (F.MET_THCFG_FLOW_UIO u)) || chs.contains (s.get (F.MET_THCFG_TF_UIO u)) ||
        chs.contains (s.get (F.MET_THCFG_TR_UIO u)))
    if modes ≠ [6, 3, 3] || shared || chs.eraseDups.length ≠ 3 then some (badAt q.tlvs tThmCfg 0x0008) else
    -- each binding obeys R54: channel object to meter
    let tag := s.thmImplied (bitsOf cfg 27 24) (s.thm t).obj
    if chs.all fun c => bindOk (s.tagOf (s.uioCh c).obj) tag then none else some { status := .denied }
  run := fun s q =>
    let t := (unitOf q).2
    let b := tv q.tlvs tThmCfg
    let cir := bitsOf (beAt b 0 4) 27 24
    let o := (s.thm t).obj
    let tag := s.thmImplied cir o
    -- neither the THERMAL object nor a PULSEOUT object tied to the meter may come to carry another tag than its own
    if (o ≠ 0 && s.tagOf o ≠ tag) || s.poDiffers 1 t tag then .refuse { status := .denied } else
    let img := putBits (putBits (beAt b 0 4) 31 31 (b2n (o != 0))) 7 0 tag
    let s := s.setImgs [(Reg.MET_THCFG t, img), (Reg.MET_THPAR t, beAt b 4 4), (Reg.MET_VPULSE t, beAt b 8 4), (Reg.MET_TCOOL t, beAt b 12 4)]
    .done .ok [] (s.calChanged 0x0605 t)

/-- PO_CFG of a pulse output (R320). -/
def poOk (b : Bytes) : Bool :=
  let qty := beAt b 0 1
  let u := beAt b 1 1
  let w := beAt b 2 2
  let wt := beAt b 8 8
  qty ≤ 10 && u < (if qty ≤ 7 then 8 else 4) && 5 ≤ w && w ≤ 5000 && 1000000 ≤ wt && wt ≤ 10 ^ 15

def opMetPoCfg : OpDef where
  code := 0x0606
  blk := 6
  lock := unitLock
  charge := 1
  schema := [{ typ := tMetUnit, lo := 2, hi := 2 }, { typ := tPoCfg, lo := 16, hi := 16 }]
  form := allChk [unitChk [2], fun _ q =>
    let b := tv q.tlvs tPoCfg
    if beAt b 4 4 ≠ 0 then some (badAt q.tlvs tPoCfg 0x0005)
    else if poOk b then none else some (badAt q.tlvs tPoCfg 0x0008)]
  perm := onlyOperator
  pre := fun s q =>
    let b := tv q.tlvs tPoCfg
    if beAt b 0 1 > 7 then none else
    -- FS / weight in pulses per second against 1 / (2·WIDTH): FS·10^9/(3600·wt) ≤ 10^4/(2·w)
    let lhs := Fl.mul wideF (s.cirFs (beAt b 1 1)) (.ofInt (10 ^ 9 * 2 * beAt b 2 2 : Nat))
    let rhs : Fl := .ofInt (10000 * 3600 * beAt b 8 8 : Nat)
    if Fl.le lhs rhs then none else some (badAt q.tlvs tPoCfg 0x0008)
  run := fun s q =>
    let p := (unitOf q).2
    let b := tv q.tlvs tPoCfg
    let qty := beAt b 0 1
    let u := beAt b 1 1
    let tag := if qty ≤ 7 then s.cirTag u else s.thmTag u
    let o := (s.po p).obj
    if o ≠ 0 && s.tagOf o ≠ tag then .refuse { status := .denied } else
    let img := 2 ^ 31 + qty * 2 ^ 24 + u * 2 ^ 20 + beAt b 2 2
    let s := s.setImgs [(Reg.MET_POCFG p, img)]
    let s := s.modPo p fun y => { y with base := s.poAcc qty u, emitted := 0, weight := beAt b 8 8, backlogged := false }
    .done .ok [] (s.poImage p)

def opMetDemandReset : OpDef where
  code := 0x0607
  blk := 6
  lock := unitLock
  charge := 1
  schema := [{ typ := tMetUnit, lo := 2, hi := 2 }]
  form := unitChk [0]
  perm := onlyOperator
  run := fun s q =>
    let c := (unitOf q).2
    let k := s.cir c
    let s := s.raise 0x060B 5 (s.cirTag c) (natBE 1 c ++ natBE 4 k.demPk)
    let s := s.modCir c fun y => { y with demPk := 0 }
    .done .ok [] (s.metFill k.obj s.tsNow s.metSrc [(40, 0)])

/-- A gap record entry as 120 bytes (Table 12.8). -/
def GapEntry.bytes (e : GapEntry) : Bytes :=
  natBE 1 e.kind ++ natBE 1 e.idx ++ natBE 1 e.tag ++ natBE 1 0 ++ natBE 4 (min e.peak 0xFFFFFFFF) ++ natBE 12 e.bound ++
    padTo 96 (e.vals.map fun v => natBE 12 v).flatten ++ natBE 4 0

/-- A gap record header (Table 12.7) over the entries a session sees. -/
def GapRec.head (g : GapRec) (n : Nat) : Bytes :=
  natBE 1 1 ++ natBE 1 g.flags ++ natBE 2 n ++ natBE 4 g.seq ++ natBE 8 g.saved.toNat ++ natBE 8 g.from_.toNat ++ natBE 8 g.to_.toNat

def opMetGapRead : OpDef where
  code := 0x0608
  schema := [{ typ := tGapGen, lo := 1, hi := 1, minN := 0 },
    { typ := 0x0005, lo := 4, hi := 4, minN := 0, since := 0x30 }]
  form := rangeChk tGapGen fun v => v ≤ 15
  exist := fun s q =>
    if (tv? q.tlvs 0x0005).isNone && (s.met.gaps[tn q.tlvs tGapGen]?).isNone then some { status := .noObject } else none
  pre := cursorChk 0x0608
  run := fun s q =>
    if (tv? q.tlvs 0x0005).isSome then nextPage s q 0x0608 else
    match s.met.gaps[tn q.tlvs tGapGen]? with
    | none => .refuse { status := .noObject }
    | some g =>
      let es := g.entries.filter fun e => q.tag == 0 || e.tag == q.tag
      pageRun s q 0x0608 10 (tlv 0x0609 (g.head es.length)) (es.map fun e => tlv 0x060A e.bytes)

def opMetCalRead : OpDef where
  code := 0x0609
  blk := 6
  schema := [{ typ := tMetChannel, lo := 1, hi := 1 }]
  form := rangeChk tMetChannel fun v => v ≤ 27
  perm := onlyOperator
  run := fun s q =>
    let n := tn q.tlvs tMetChannel
    .done .ok (tlv tChCal (natBE 4 (s.rd (Reg.MET_CHCFG n)) ++ natBE 4 (s.rd (Reg.MET_KS n)) ++ natBE 4 (s.rd (Reg.MET_GAIN n)))) s

def execMetSetup (r : Req) (s : State) : Res := .next (batonRun opMetSetup r s)
def execMetCal (r : Req) (s : State) : Res := .next (batonRun opMetCal r s)
def execMetCirCfg (r : Req) (s : State) : Res := .next (batonRun opMetCirCfg r s)
def execMetAssign (r : Req) (s : State) : Res := .next (batonRun opMetAssign r s)
def execMetThmCfg (r : Req) (s : State) : Res := .next (batonRun opMetThmCfg r s)
def execMetPoCfg (r : Req) (s : State) : Res := .next (batonRun opMetPoCfg r s)
def execMetDemandReset (r : Req) (s : State) : Res := .next (batonRun opMetDemandReset r s)
def execMetGapRead (r : Req) (s : State) : Res := .next (batonRun opMetGapRead r s)
def execMetCalRead (r : Req) (s : State) : Res := .next (batonRun opMetCalRead r s)

/-- The words of a MET snapshot group (Table 12.10), as of the latest cycle end and without the capture time; none where the group is not
defined (R332). -/
def State.metSnap (s : State) (g : Nat) : Option (List Nat) :=
  if !s.metLink then none else
  let v := s.met.view
  let lsw (v : Nat) : List Nat := (words96 v).reverse
  if g ≤ 7 then some ((((v.cirs[g]?).getD []).map lsw).flatten ++ List.replicate 8 0)
  else if g ≤ 11 then
    let k := (v.thms[g - 8]?).getD ([], 0)
    some ((k.1.map lsw).flatten ++ [k.2 % 2 ^ 32] ++ List.replicate 22 0)
  else if g = 12 then
    some ((v.pos.map fun p => [p.1 % 2 ^ 32, p.1 / 2 ^ 32 % 2 ^ 32, p.2 % 2 ^ 32, p.2 / 2 ^ 32 % 2 ^ 32]).flatten)
  else none

end Sys2Proof.Machine
end

