-- ==== Sys2Proof/Machine/Retag.lean ====
section
/-! DEFINITION. Machine/Retag.lean: an object changes its tag (R56, R327, R439). -/

namespace Sys2Proof.Machine

/-- Every element of an object goes LOST. -/
def State.objLost (s : State) (o : Nat) : State :=
  match s.obj? o with
  | none => s
  | some x => (List.range x.elems.length).foldl (fun s k => s.setSrc o (k + 1) qLost) s

/-- WITHDRAW of the replica of an object under a tag, towards the anchor of the innermost group (R56, Table 16.4). -/
def State.sendWithdraw (s : State) (o tag : Nat) : State :=
  let g := addrParent s.own
  if s.anchors g then s else
  match (s.fgroup? g).bind fun x => x.anchor.bind fun h => s.linkTo g h with
  | some l => s.furunSend l.peer 9 2 l.peer (natBE 8 (s.addrHere o 0).toNat ++ natBE 1 tag ++ natBE 3 0)
  | none => s

/-- Destinations of bindings that a retag of object o no longer permits go LOST (R54, R56). -/
def State.bindsLost (s : State) (o : Nat) : State :=
  let s := (s.lap.decl.binds.filter fun p => (p.1 == o || p.2 == o) && !bindOk (s.tagOf p.1) (s.tagOf p.2)).foldl
    (fun s p => s.objLost p.2) s
  let s := (s.relay.binds.filter fun b => b.station == 0 && !s.slotReadOk (s.ringOwner (entOfs (s.relayEnt b.entry))) b).foldl
    (fun s b => if b.obj = o then s.setSrc b.obj b.elem qLost else s) s
  let s := (List.range 4).foldl (fun s c =>
    ((s.canCh c).sigs.filter fun g => g.obj == o && s.canObjOn c g.m 2 && !s.sigRxOk c g).foldl
      (fun s g => s.setSrc g.obj g.elem qLost) s) s
  (List.range 256).foldl (fun s n =>
    let l := s.loopSt n
    (l.binds.filter fun b => b.role ≥ 3 && b.obj != 0 && (b.obj == o || l.obj == o) && !bindOk (s.loopTag n) (s.tagOf b.obj)).foldl
      (fun s b => s.setSrc b.obj b.elem qLost) s) s

/-- Destinations of loops to which a retag lets their binding deliver again are reachable again (R39, R56). -/
def State.bindsBack (s0 s : State) (o : Nat) : State :=
  (List.range 256).foldl (fun s n =>
    let l := s.loopSt n
    (l.binds.filter fun b => b.role ≥ 3 && b.obj != 0 && (b.obj == o || l.obj == o) && !bindOk (s0.loopTag n) (s0.tagOf b.obj) &&
        bindOk (s.loopTag n) (s.tagOf b.obj) && !((s.uioOfObj b.obj).isSome && s.get F.UIO_GSTAT_NOFLD == 1) &&
        !s.destLost b.obj b.elem).foldl
      (fun s b => s.unLost b.obj b.elem) s) s

/-- The objects tied to a thermal meter's: its own, and those of the pulse outputs whose source it is (R327). -/
def State.thmTied (s : State) (t : Nat) : List Nat :=
  (s.thm t).obj :: ((List.range 8).filter fun p => s.get (F.MET_POCFG_EN p) == 1 && s.get (F.MET_POCFG_QTY p) > 7 && s.get (F.MET_POCFG_UNIT p) == t).map fun p => (s.po p).obj

/-- The objects tied to the object `o` of a circuit or of a meter that stands alone, which take its tag at the same instant (R327). -/
def State.tiedTo (s : State) (o : Nat) : List Nat :=
  let cirs := (List.range 8).flatMap fun c =>
    if (s.cir c).obj ≠ o then [] else
    ((List.range 4).filter fun t => s.get (F.MET_THCFG_CIR t) == c).flatMap s.thmTied ++
      ((List.range 8).filter fun p => s.get (F.MET_POCFG_EN p) == 1 && s.get (F.MET_POCFG_QTY p) ≤ 7 && s.get (F.MET_POCFG_UNIT p) == c).map fun p => (s.po p).obj
  let thms := ((List.range 4).filter fun t => (s.thm t).obj == o && s.get (F.MET_THCFG_CIR t) ≥ 8).flatMap s.thmTied
  (cirs ++ thms).filter fun x => x != 0 && x != o

/-- The tags of metrology units follow their objects (R327). -/
def State.metTags (s : State) (o tag : Nat) : State :=
  let s := (List.range 8).foldl (fun s c =>
    if (s.cir c).obj ≠ o then s else
    let s := (s.put (F.MET_CIRCFG_TAG c) tag).store (Reg.MET_CIRCFG c)
    (List.range 4).foldl (fun s t => if s.get (F.MET_THCFG_CIR t) = c then s.thmRetag t tag else s) s) s
  (List.range 4).foldl (fun s t =>
    if (s.thm t).obj = o && s.get (F.MET_THCFG_CIR t) ≥ 8 then s.thmRetag t tag else s) s

/-- One object takes another tag: its replica under the old tag is withdrawn and RETAG is raised (R56). -/
def State.retagOne (s : State) (o tag : Nat) : State :=
  let old := s.tagOf o
  if old = tag then s else
  let s := if s.replicated o then s.sendWithdraw o old else s
  let s0 := s
  let s := s.modObj o fun x => { x with tag := tag }
  let s := State.modelRefsSync s0 (State.bindsBack s0 (s.bindsLost o) o)
  s.raise 0x0B30 5 0 (natBE 8 (s.addrHere o 0).toNat ++ natBE 1 old ++ natBE 1 tag) o

/-- An object takes another tag at one point in time, and with it what is tied to it (R56, R327). -/
def State.retag (s : State) (o tag : Nat) : State :=
  if s.tagOf o = tag then s else
  let tied := s.tiedTo o
  tied.foldl (fun s x => s.retagOne x tag) ((s.metTags o tag).retagOne o tag)

end Sys2Proof.Machine
end

