-- ==== Sys2Proof/Machine/SafeOps.lean ====
section
/-! DEFINITION. Machine/SafeOps.lean: the logic of one safety channel and what the two channels share: the parameter block, pairs,
functions, outputs and lock-outs (chapter 13). Nothing here reads or writes any state but the channel's own (R114, R20). -/

namespace Sys2Proof.Machine

/-! ### Parameter block (Table 13.8) -/

def prmTpPer (b : Bytes) : Nat := beAt b 32 2 * msec
def prmType (b : Bytes) (p : Nat) : Nat := beAt b (36 + 8 * p) 1
/-- TP of input i, 255 for none. -/
def prmTp (b : Bytes) (i : Nat) : Nat := beAt b (37 + 8 * (i / 2) + i % 2) 1
def prmF (b : Bytes) (p : Nat) : Nat := beAt b (39 + 8 * p) 2 * 100 * usec
def prmDisc (b : Bytes) (p : Nat) : Nat := beAt b (41 + 8 * p) 2 * 10 * msec
def prmStartup (b : Bytes) (p : Nat) : Bool := bit1 (beAt b (43 + 8 * p) 1) 0 == 1
def prmKind (b : Bytes) (f : Nat) : Nat := beAt b (100 + 8 * f) 1
def prmMask (b : Bytes) (f : Nat) : Nat := beAt b (101 + 8 * f) 1
def prmOp (b : Bytes) (f : Nat) : Nat := beAt b (102 + 8 * f) 1
def prmOssd (b : Bytes) (f : Nat) : Nat := beAt b (103 + 8 * f) 1
def prmCat (b : Bytes) (f : Nat) : Nat := beAt b (104 + 8 * f) 1
def prmDelay (b : Bytes) (f : Nat) : Nat := beAt b (105 + 8 * f) 2 * 10 * msec
def prmManual (b : Bytes) (f : Nat) : Bool := beAt b (107 + 8 * f) 1 == 1
def prmOen (b : Bytes) (o : Nat) : Bool := beAt b (164 + 8 * o) 1 == 1
def prmOpEn (b : Bytes) (o : Nat) : Bool := beAt b (165 + 8 * o) 1 == 1
def prmOpPer (b : Bytes) (o : Nat) : Nat := beAt b (166 + 8 * o) 2 * msec
def prmEdm (b : Bytes) (o : Nat) : Nat := beAt b (168 + 8 * o) 1
def prmEdmT (b : Bytes) (o : Nat) : Nat := beAt b (170 + 8 * o) 2 * msec

/-- The pairs of a function. -/
def prmPairs (b : Bytes) (f : Nat) : List Nat := (List.range 8).filter fun p => bit1 (prmMask b f) p == 1

/-- The limits of a function's kind: pair types, categories, restart modes (Table 13.4). -/
def kindLimits : Nat → Option (List Nat × List Nat × List Nat)
  | 1 => some ([1, 2], [0, 1], [1])
  | 2 => some ([1, 2, 3], [0, 1], [0, 1])
  | 3 => some ([3], [0, 1], [0, 1])
  | 4 => some ([1, 2, 3], [0], [0])
  | 5 => some ([1, 2, 3], [0], [1])
  | _ => none

/-- The check value of a block: CRC-32 over bytes 0 to 2,043 (R354). -/
def blockCrc (b : Bytes) : Nat := crc32 (b.take 2044)

/-- The check value that a block carries. -/
def blockChk (b : Bytes) : Nat := beAt b 2044 4

/-- The tests of R354 on a pair's fields, with the offset of each. -/
def pairTests (b : Bytes) (p : Nat) : List (Nat × Bool) :=
  let o := 36 + 8 * p
  let t := prmType b p
  let t1 := prmTp b (2 * p)
  let t2 := prmTp b (2 * p + 1)
  let f := beAt b (o + 3) 2
  let d := beAt b (o + 5) 2
  [(o, t ≤ 3), (o + 1, if t = 1 || t = 2 then t1 ≤ 3 else t1 == 255),
   (o + 2, if t = 1 then t2 ≤ 3 && t2 != t1 else t2 == 255),
   (o + 3, t == 0 || (5 ≤ f && f ≤ 200)), (o + 5, t == 0 || (1 ≤ d && d ≤ 300)), (o + 7, beAt b (o + 7) 1 ≤ 1)]

/-- The pairs that enabled OSSD pairs name for EDM. -/
def edmPairs (b : Bytes) : List Nat := ((List.range 4).filter fun o => prmOen b o).map fun o => prmEdm b o

/-- The tests of R342 and R354 on a function's fields. -/
def fnTests (b : Bytes) (f : Nat) : List (Nat × Bool) :=
  let o := 100 + 8 * f
  let ps := prmPairs b f
  let common : List (Nat × Bool) := [(o + 2, prmOp b f ≤ 1), (o + 3, prmOssd b f ≤ 3), (o + 5, beAt b (o + 5) 2 ≤ 3000)]
  let unused : List (Nat × Bool) := [(o + 4, prmCat b f ≤ 1), (o + 7, beAt b (o + 7) 1 ≤ 1)]
  if prmKind b f = 0 then common ++ unused else
  match kindLimits (prmKind b f) with
  | none => [(o, false)]
  | some (ts, cs, rs) =>
    common ++ [(o + 1, !ps.isEmpty && ps.all fun p => ts.contains (prmType b p) && !((edmPairs b).contains p)),
      (o + 4, cs.contains (prmCat b f)), (o + 7, rs.contains (beAt b (o + 7) 1))]

/-- The tests of R349 and R354 on an OSSD pair's fields. -/
def ossdTests (b : Bytes) (q : Nat) : List (Nat × Bool) :=
  let o := 164 + 8 * q
  let per := beAt b (o + 2) 2
  let t := beAt b (o + 6) 2
  let e := prmEdm b q
  let always : List (Nat × Bool) := [(o, beAt b o 1 ≤ 1), (o + 1, beAt b (o + 1) 1 ≤ 1), (o + 5, beAt b (o + 5) 1 == 0)]
  always ++ (if prmOen b q then [(o + 2, 10 ≤ per && per ≤ 500), (o + 4, e == 255 || (e ≤ 7 && prmType b e != 0)),
    (o + 6, e == 255 || (50 ≤ t && t ≤ 1000))] else [])

/-- The first failing byte offset of a block, none where it is valid (R354, R356). -/
def blockFault (b : Bytes) : Option Nat :=
  let zero (lo hi : Nat) : List (Nat × Bool) :=
    match ((List.range (hi + 1 - lo)).zip (slice b lo (hi + 1 - lo))).find? fun x => x.2 != 0 with
    | some x => [(lo + x.1, false)]
    | none => []
  let ascii : List (Nat × Bool) := ((List.range 16).map fun i => (16 + i, beAt b (16 + i) 1 ≤ 127))
  let tests : List (Nat × Bool) := [(0, beAt b 0 1 == 1)] ++ zero 1 3 ++ ascii ++ [(32, 10 ≤ beAt b 32 2 && beAt b 32 2 ≤ 100)] ++ zero 34 35 ++
    ((List.range 8).map (pairTests b)).flatten ++ ((List.range 8).map (fnTests b)).flatten ++
    ((List.range 4).map (ossdTests b)).flatten ++ zero 196 2043 ++ [(2044, blockCrc b == blockChk b)]
  (tests.filter fun t => !t.2).foldl (fun a t => some (match a with | none => t.1 | some x => min x t.1)) none

/-! ### Lock-outs (Table 13.7) -/

/-- A cause that acts on the whole channel. -/
def globalCause (c : Nat) : Bool := c ≥ 0x20

/-- The channel is in a global lock-out. -/
def SafeCh.locked (c : SafeCh) : Bool := c.locks.any fun l => globalCause l.cause

/-- A pair lock-out is held on a pair, directly or through a test pulse output that it uses. -/
def SafeCh.pairLocked (c : SafeCh) (p : Nat) : Bool :=
  c.locks.any fun l =>
    ((l.cause == 0x01 || l.cause == 0x02) && l.unit == p) ||
    (l.cause == 0x03 && (prmTp c.prm (2 * p) == l.unit || prmTp c.prm (2 * p + 1) == l.unit))

/-- An OSSD pair is under a lock-out. -/
def SafeCh.ossdLocked (c : SafeCh) (o : Nat) : Bool :=
  c.locked || c.locks.any fun l => 0x10 ≤ l.cause && l.cause < 0x20 && l.unit == o

/-- A function is under a lock-out (R351). -/
def SafeCh.fnLocked (c : SafeCh) (f : Nat) : Bool :=
  c.ossdLocked (prmOssd c.prm f) || (prmPairs c.prm f).any fun p => c.pairLocked p

def SafeCh.pair (c : SafeCh) (p : Nat) : SafePair := c.pairs[p]?.getD ⟨0, true, none, none, 1⟩
def SafeCh.fn (c : SafeCh) (f : Nat) : Nat := ((c.fns[f]?).getD (0, 0)).1
def SafeCh.delayAt (c : SafeCh) (f : Nat) : Nat := ((c.fns[f]?).getD (0, 0)).2
def SafeCh.closed (c : SafeCh) (o : Nat) : Bool := (c.sw[o]?).getD false
def SafeCh.level (c : SafeCh) (i : Nat) : Bool := (c.filt[i]?).getD false
def SafeCh.rawOf (c : SafeCh) (i : Nat) : Bool × Nat := (c.raw[i]?).getD (false, 0)
def SafeCh.pulseFault (c : SafeCh) (i : Nat) : Bool := (c.pf[i]?).getD false

/-! ### Functions and outputs (R341 to R345, R349) -/

/-- A pair as the functions see it: ACTIVE only while no pair lock-out is held (R343). -/
def SafeCh.active (c : SafeCh) (p : Nat) : Bool := (c.pair p).st == 2 && !c.pairLocked p

/-- A function's demand is absent (R343). -/
def SafeCh.free (c : SafeCh) (f : Nat) : Bool :=
  if prmOp c.prm f = 0 then (prmPairs c.prm f).all c.active else (prmPairs c.prm f).any c.active

/-- Every STARTUP pair of a function has passed its guard test (R341). -/
def SafeCh.tested (c : SafeCh) (f : Nat) : Bool :=
  (prmPairs c.prm f).all fun p => !prmStartup c.prm p || (c.pair p).test == 0

/-- OFF, and on as the restart mode says while the demand is absent (Table 13.5). -/
def SafeCh.restart (c : SafeCh) (f : Nat) : Nat × Nat :=
  if c.free f then (if prmManual c.prm f then (4, 0) else (1, 0)) else (3, 0)

/-- The next state of a function (Table 13.5). -/
def SafeCh.nextFn (c : SafeCh) (now f : Nat) : Nat × Nat :=
  let st := c.fn f
  if prmKind c.prm f = 0 then (0, 0)
  else if c.skey then (7, 0)
  else if c.fnLocked f then (6, 0)
  else match st with
    | 1 =>
      if c.free f then (1, 0)
      else if prmCat c.prm f = 1 && prmDelay c.prm f > 0 then (2, now) else c.restart f
    | 2 => (2, c.delayAt f)
    | 3 => c.restart f
    | 4 => (4, 0)
    | 5 => if c.tested f then c.restart f else (5, 0)
    | 6 => (6, 0)
    | _ => if c.tested f then c.restart f else (5, 0)

/-- The functions that name an OSSD pair. -/
def SafeCh.namers (c : SafeCh) (o : Nat) : List Nat :=
  (List.range 8).filter fun f => prmKind c.prm f != 0 && prmOssd c.prm f == o

/-- An OSSD pair is to be on (R344). -/
def SafeCh.wants (c : SafeCh) (reconf : Bool) (o : Nat) : Bool :=
  c.phase == 2 && !c.skey && !reconf && prmOen c.prm o && !c.ossdLocked o && !(c.namers o).isEmpty &&
  (c.namers o).all fun f => c.fn f == 1 || c.fn f == 2

/-- Close or open the switches of one OSSD pair, and await the answer of its EDM pair (R349). -/
def SafeCh.switchOne (c : SafeCh) (now : Nat) (reconf : Bool) (o : Nat) : SafeCh :=
  let e := prmEdm c.prm o
  let edmOn := (c.pair e).st == 2
  let want := c.wants reconf o && (c.closed o || e == 255 || edmOn)
  if want = c.closed o then c else
  let c := { c with sw := setNth c.sw o want }
  if e = 255 || c.phase ≠ 2 then c else
  { c with edm := setNth c.edm o (if edmOn == !want then none else some (now + prmEdmT c.prm o, !want)) }

/-- Evaluate functions and outputs after a change (R343, R344). -/
def SafeCh.eval (c : SafeCh) (now : Nat) (reconf : Bool) : SafeCh :=
  let c := if c.phase = 2 then { c with fns := (List.range 8).map fun f => c.nextFn now f } else c
  (List.range 4).foldl (fun c o => c.switchOne now reconf o) c

/-- A fault puts its scope into lock-out (R351). -/
def SafeCh.lockOut (c : SafeCh) (now : Nat) (reconf : Bool) (cause unit : Nat) : SafeCh :=
  if c.phase = 0 then c else
  let held := c.locks.any fun l => l.cause == cause && l.unit == unit
  let again (l : SafeLock) : SafeLock := if l.cause == cause && l.unit == unit then { l with passed := false } else l
  let c : SafeCh := if held then { c with locks := c.locks.map again }
    else { c with locks := c.locks ++ [⟨cause, unit, false⟩], recheckAt := if c.locked then c.recheckAt else now }
  c.eval now reconf

/-! ### Pairs (R337 to R339) -/

/-- Both inputs of a pair at their active levels, from its type. -/
def SafeCh.sides (c : SafeCh) (p : Nat) : Bool × Bool :=
  (c.level (2 * p), if prmType c.prm p = 2 then !c.level (2 * p + 1) else c.level (2 * p + 1))

/-- Evaluate one pair from the filtered inputs (R339, R341, R353), with the EDM answers that wait for it (R349). -/
def SafeCh.evalPair (c : SafeCh) (now p : Nat) : SafeCh :=
  if prmType c.prm p = 0 then { c with pairs := setNth c.pairs p ⟨0, true, none, none, 0⟩ } else
  let x := c.pair p
  let (a1, a2) := c.sides p
  let armed := x.armed || (!a1 && !a2)
  let act := a1 && a2 && (x.st == 2 || armed)
  let st := if act then 2 else 1
  let ok := a1 == a2 && !c.pulseFault (2 * p) && !c.pulseFault (2 * p + 1)
  let test := if x.test == 1 && st == 1 then 2 else if x.test == 2 && st == 2 then 0 else x.test
  let y : SafePair := { x with
    st := st
    armed := if act then false else armed
    diff := if a1 == a2 then none else some (x.diff.getD now)
    okAt := if ok then some (x.okAt.getD now) else none
    test := test }
  let edm := (List.range 4).map fun o =>
    match (c.edm[o]?).getD none with
    | some (t, want) => if prmEdm c.prm o == p && want == (st == 2) then none else some (t, want)
    | none => none
  { c with pairs := setNth c.pairs p y, edm := edm }

/-- Evaluate every pair, then functions and outputs. -/
def SafeCh.evalAll (c : SafeCh) (now : Nat) (reconf : Bool) : SafeCh :=
  ((List.range 8).foldl (fun c p => c.evalPair now p) c).eval now reconf

/-! ### Start (Table 13.3) -/

/-- Step 6: inputs filtered from their levels, pairs without a history, every guard test open (R341). -/
def SafeCh.step6 (c : SafeCh) (now due : Nat) : SafeCh :=
  let c := { c with
    phase := 1
    due := due
    prm := c.stored.getD []
    raw := c.raw.map (fun (r : Bool × Nat) => (r.1, now))
    filt := c.raw.map (fun (r : Bool × Nat) => r.1)
    pf := List.replicate 16 false
    ownHigh := List.replicate 16 false
    pairs := List.replicate 8 ⟨0, true, none, none, 1⟩
    sw := List.replicate 4 false
    edm := List.replicate 4 none
    heard := now
    selfAt := now }
  let c := c.evalAll now true
  { c with fns := (List.range 8).map fun f => (if prmKind c.prm f = 0 then 0 else if c.tested f then 3 else 5, 0) }

/-- Step 7: functions evaluated; OSSDs may switch on (R340). -/
def SafeCh.step7 (c : SafeCh) (now : Nat) (reconf : Bool) : SafeCh :=
  if c.phase = 1 && c.due ≤ now then { c with phase := 2 }.eval now reconf else c

/-! ### The pair of channels -/

def SafeSt.get (x : SafeSt) (b : Bool) : SafeCh := if b then x.b else x.a

def SafeSt.mod (x : SafeSt) (b : Bool) (f : SafeCh → SafeCh) : SafeSt :=
  if b then { x with b := f x.b } else { x with a := f x.a }

def SafeSt.both (x : SafeSt) (f : SafeCh → SafeCh) : SafeSt := { x with a := f x.a, b := f x.b }

/-- Step 7 of every channel for which it has fallen due; the test periods of the OSSD pairs start with it (R346). -/
def SafeSt.settle (x : SafeSt) (now : Nat) : SafeSt :=
  let starts := (x.a.phase = 1 && x.a.due ≤ now) || (x.b.phase = 1 && x.b.due ≤ now)
  let x := x.both fun c => c.step7 now x.reconf
  if starts then { x with opAt := [now, now, now, now] } else x

/-- Lock out in the channels that are up. -/
def SafeSt.lockBoth (x : SafeSt) (now cause unit : Nat) : SafeSt :=
  x.both fun c => c.lockOut now x.reconf cause unit

/-- An OSSD pair's lines carry voltage: both channels' switches are closed (R335). -/
def SafeSt.on (x : SafeSt) (o : Nat) : Bool := x.a.closed o && x.b.closed o

/-- What the channels disagree on now: kind (0 pair, 1 function, 2 output, 3 SKEY) and unit (Table 13.7). -/
def SafeSt.disagree (x : SafeSt) : List (Nat × Nat) :=
  ((List.range 8).filter fun p => (x.a.pair p).st != (x.b.pair p).st).map (fun p => (0, p)) ++
  ((List.range 8).filter fun f => x.a.fn f != x.b.fn f).map (fun f => (1, f)) ++
  ((List.range 4).filter fun o => x.a.closed o != x.b.closed o).map (fun o => (2, o)) ++
  (if x.a.skey != x.b.skey then [(3, 0)] else [])

/-- How long a disagreement may last. -/
def SafeSt.diffLimit (x : SafeSt) (k u : Nat) : Nat :=
  if k = 0 then prmDisc x.a.prm u + 2 * msec else if k = 3 then 100 * msec else 2 * msec

/-- Table 13.3 steps 4 and 5: what the stored blocks make of a start: the channels hold valid, equal blocks, or none. -/
def SafeSt.blocksOk (x : SafeSt) (copyA copyB : Bool) : Bool :=
  match x.a.stored, x.b.stored with
  | none, none => true
  | some p, some q => copyA && copyB && (blockFault p).isNone && (blockFault q).isNone && blockChk p == blockChk q
  | _, _ => false

/-! ### Causes gone (R353) -/

/-- A lock-out's cause is gone in a channel; `ossd` tells for each OSSD pair whether its lines stayed low and carried no current
when each switch was closed alone. -/
def SafeCh.gone (c : SafeCh) (now ossd : Nat) (l : SafeLock) : Bool :=
  let okFor (p : Nat) : Bool :=
    match (c.pair p).okAt with
    | some t => t + 2 * prmTpPer c.prm ≤ now
    | none => false
  if l.cause = 0x01 || l.cause = 0x02 then okFor l.unit
  else if l.cause = 0x03 then
    (List.range 8).all fun p => !(prmTp c.prm (2 * p) == l.unit || prmTp c.prm (2 * p + 1) == l.unit) || okFor p
  else if l.cause < 0x20 then !c.closed l.unit && bit1 ossd l.unit == 1
  else l.passed

/-- Two lock-outs with the same scope (Table 13.7). -/
def sameScope (l m : SafeLock) : Bool :=
  let cls (c : Nat) : Nat := if c < 3 then 0 else if c = 3 then 1 else if c < 0x20 then 2 else 3
  cls l.cause == cls m.cause && (globalCause l.cause || l.unit == m.unit)

/-- A lock-out may be cleared: every cause of its scope is gone in both channels (R352). -/
def SafeSt.clearable (x : SafeSt) (now ossd : Nat) (l : SafeLock) : Bool :=
  (x.a.locks.all fun m => !sameScope l m || x.a.gone now ossd m) &&
  (x.b.locks.all fun m => !sameScope l m || x.b.gone now ossd m)

/-- A valid SRST edge (R352). -/
def SafeSt.srstEdge (x : SafeSt) (now ossd : Nat) : SafeSt :=
  let gone := (x.a.locks ++ x.b.locks).filter fun l => x.clearable now ossd l
  if !gone.isEmpty then
    x.both fun c =>
      let c := { c with locks := c.locks.filter fun l => !(gone.any fun g => sameScope g l) }
      -- LOCKED functions that are free again go to OFF, or to WAIT_TEST while their guard test is open (R341)
      let freed (f : Nat) : Nat × Nat :=
        if c.fn f = 6 && !c.fnLocked f then (if c.tested f then (3, 0) else (5, 0)) else (c.fn f, c.delayAt f)
      let c := { c with fns := (List.range 8).map freed }
      c.eval now x.reconf
  else if !x.a.locks.isEmpty || !x.b.locks.isEmpty then
    let causes := ((x.a.locks ++ x.b.locks).map fun l => BitVec.ofNat 8 l.cause).eraseDups
    x.both fun c => { c with ignored := some causes }
  else
    x.both fun c =>
      let reset (f : Nat) : Nat × Nat := if c.fn f = 4 && c.free f then (1, 0) else (c.fn f, c.delayAt f)
      let c := { c with fns := (List.range 8).map reset }
      c.eval now x.reconf

/-! ### What a channel shows (13.9) -/

/-- CHSTATE of SAFE_CHx. -/
def SafeCh.chState (c : SafeCh) : Nat :=
  if c.phase ≠ 2 then 0 else if c.skey then 2 else if c.locked then 4 else if c.stored.isNone then 3 else 1

/-- The milliseconds left of a function's category 1 delay. -/
def SafeCh.remain (c : SafeCh) (now f : Nat) : Nat :=
  if c.fn f = 2 then (c.delayAt f + prmDelay c.prm f - now + (msec - 1)) / msec else 0

/-- The frame that a channel sends (Tables 13.9 and 13.10). -/
def SafeSt.frame (x : SafeSt) (now : Nat) (ch : Bool) : SafeFrame :=
  let c := x.get ch
  let (cause, unit) := match c.locks.getLast? with
    | some l => (l.cause, l.unit)
    | none => (0, 0)
  let pairs := (List.range 8).foldl (fun a p =>
    let st := (c.pair p).st
    a + (if st ≠ 0 && c.pairLocked p then 3 else st) * 2 ^ (4 * p)) 0
  let func := (List.range 8).foldl (fun a f => a + c.fn f * 2 ^ (4 * f)) 0
  let ossd := (List.range 4).foldl (fun a o =>
    a + (b2n (c.ossdLocked o) * 128 + b2n (x.on o) * 96 + b2n (c.closed o) * 16 +
      b2n (prmOen c.prm o && prmEdm c.prm o < 8 && (c.pair (prmEdm c.prm o)).st == 2) * 8) * 2 ^ (8 * o)) 0
  { chw := c.chState * 2 ^ 24 + b2n c.skey * 2 ^ 23 + b2n c.srst * 2 ^ 22 + x.stg * 2 ^ 20 + cause * 256 + unit
    pairs := pairs
    func := func
    ossd := ossd
    chk := ((c.stored.map blockChk)).getD 0
    stg := if x.stg ≥ 2 then (if ch then x.chkB else x.chkA) else 0
    seq := c.seq
    remain := (List.range 8).map fun f => c.remain now f
    ossdOf := (List.range 8).map fun f => prmOssd c.prm f
    rev := ((c.stored.map fun b => beAt b 4 4)).getD 0
    ignored := c.ignored }

end Sys2Proof.Machine
end

