-- ==== Sys2Proof/Machine/SafeChan.lean ====
section
/-! DEFINITION. Machine/SafeChan.lean: the safety channel's own commands: start, inputs, test pulses, functions, outputs, exchange,
lock-outs, SRST and SKEY (13.1 to 13.8). They change the channel's state and the clock only. -/

namespace Sys2Proof.Machine

/-- The outcome of a command that the spec always lets run. -/
abbrev SafeRes := Host.Outcome State Fault Refusal

/-- A command of the channel at the instant t or now, whichever is later: step 7 of a start that has fallen due, then `f`. -/
def State.safeStep (s : State) (t : Nat) (f : SafeSt → Nat → SafeSt) : State :=
  let s := s.reach t
  { s with safe := f (s.safe.settle s.clk) s.clk }

/-- The time that step 6 of Table 13.3 may take, and step 7 after it. -/
def safeStep6 : Nat := 1800 * msec
def safeStep7 : Nat := 200 * msec

/-- Step 6: test pulses start, and both channels take up their inputs (R337, R340). -/
def SafeSt.begin (x : SafeSt) (now : Nat) : SafeSt :=
  let per := prmTpPer (x.a.stored.getD [])
  { x with
    tpNext := (List.range 4).map fun n => now + n * per / 4
    opAt := [now, now, now, now]
    lastTest := none
    diffs := []
    xAt := now }

/-- SAFETY_START (R340): the J4 supply rises and each channel that has been off runs steps 1 to 6 of Table 13.3. -/
def execSafetyStart (selfA selfB copyA copyB : Bool) (s : State) : SafeRes :=
  .next <| s.safeStep (s.clk + safeStep6) fun x now =>
    if x.a.phase ≠ 0 && x.b.phase ≠ 0 then x else
    let freshA := x.a.phase == 0
    let freshB := x.b.phase == 0
    let ok := x.blocksOk copyA copyB
    let start (c : SafeCh) (self : Bool) : SafeCh :=
      if c.phase ≠ 0 then c else
      let c := { c.step6 now (now + safeStep7) with srstAt := none, seq := 0, ignored := none }
      if self then c else c.lockOut now true 0x23 255
    let x := { x.begin now with a := start x.a selfA, b := start x.b selfB }
    let x := if freshA then { x with staged := List.replicate 2048 0, stg := 0, misses := 0, chkA := 0 } else x
    let x := if freshB then { x with echoB := [], chkB := 0 } else x
    if ok then x else x.lockBoth now 0x24 255

/-- SAFETY_INPUT_EDGE (R338): the level at an input, or at SRST as input 16, as each channel's own stage reads it. -/
def execSafetyInputEdge (input : Fin 17) (a b : Bool) (s : State) : SafeRes :=
  .next <| s.safeStep 0 fun x now =>
    let edge (c : SafeCh) (v : Bool) : SafeCh :=
      if input.val = 16 then
        (if v && !c.srst then { c with srst := true, srstAt := if c.phase = 0 then none else some now }
         else { c with srst := v, srstAt := if v then c.srstAt else none })
      else if (c.rawOf input.val).1 = v then c
      else { c with raw := setNth c.raw input.val (v, now) }
    { x with a := edge x.a a, b := edge x.b b }

/-- FILTER_ELAPSED (R338, R339): a level has held for F and counts. -/
def execFilterElapsed (ch : Bool) (input : Fin 16) (s : State) : SafeRes :=
  let c := s.safe.get ch
  let r := c.rawOf input.val
  if c.phase = 0 || r.1 = c.level input.val then .next (s.safeStep 0 fun x _ => x) else
  .next <| s.safeStep (r.2 + prmF c.prm (input.val / 2)) fun x now =>
    x.mod ch fun c =>
      let c := { c with filt := setNth c.filt input.val (c.rawOf input.val).1 }
      (c.evalPair now (input.val / 2)).eval now x.reconf

/-- DISCREPANCY (R339): the inputs of a pair have differed for longer than DISC. -/
def execDiscrepancy (p : Fin 8) (s : State) : SafeRes :=
  let due (c : SafeCh) : Option Nat := if c.phase = 0 then none else (c.pair p.val).diff.map fun t => t + prmDisc c.prm p.val
  let x := s.safe
  match due x.a, due x.b with
  | none, none => .next (s.safeStep 0 fun x _ => x)
  | some t, none | none, some t =>
    .next <| s.safeStep t fun x now => x.both fun c => if (due c).isSome then c.lockOut now x.reconf 0x01 p.val else c
  | some t, some u =>
    .next <| s.safeStep (min t u) fun x now => x.both fun c =>
      if (due c).any (fun d => decide (d ≤ now)) then c.lockOut now x.reconf 0x01 p.val else c

/-- TEST_PULSE (R337): TPn drops; `inA` and `inB` are the levels that the two channels read in its window, and `tpOk` tells
whether the output itself dropped and returned. -/
def execTestPulse (tp : Fin 4) (inA inB : BitVec 16) (tpOk : Bool) (s : State) : SafeRes :=
  if s.safe.a.phase = 0 || s.safe.a.stored.isNone then .next (s.safeStep 0 fun x _ => x) else
  .next <| s.safeStep ((s.safe.tpNext[tp.val]?).getD 0) fun x now =>
    let per := prmTpPer x.a.prm
    let look (c : SafeCh) (w : Nat) : SafeCh :=
      if c.phase = 0 then c else
      let used (i : Nat) : Bool := prmType c.prm (i / 2) != 0 && prmTp c.prm i ≤ 3
      let own (i : Nat) : Bool := prmTp c.prm i == tp.val
      let high (i : Nat) : Bool := bit1 w i == 1
      let wasHigh (i : Nat) : Bool := (c.ownHigh[i]?).getD false
      let short (i : Nat) : Bool := used i && (if own i then high i else c.level i && !high i && wasHigh i)
      let pf := (List.range 16).map fun i =>
        if !used i then false else if own i then high i || !tpOk else c.pulseFault i || short i
      let oh := (List.range 16).map fun i => if used i && own i then high i else wasHigh i
      let c := { c with pf := pf, ownHigh := oh }
      let c := (List.range 8).foldl (fun c p => c.evalPair now p) c
      let c := (List.range 8).foldl (fun c p =>
        if short (2 * p) || short (2 * p + 1) then c.lockOut now x.reconf 0x02 p else c) c
      if tpOk then c.eval now x.reconf else c.lockOut now x.reconf 0x03 tp.val
    { x with
      a := look x.a inA.toNat
      b := look x.b inB.toNat
      tpNext := setNth x.tpNext tp.val (now + per) }

/-- The instant at which test j of OSSD pair o falls due (R346): a test that meets another pair's waits for it. -/
def SafeSt.testDue (x : SafeSt) (now o j : Nat) : Nat :=
  let per := prmOpPer x.a.prm o
  let base := (x.opAt[o]?).getD 0
  let base := base + (now - base) / max per 1 * per
  let t := base + (4 * j + o) * per / 16
  let t := if t < now then t + per else t
  match x.lastTest with
  | some (q, e) => if q < o && t < e + 50 * usec then e + 50 * usec else t
  | none => t

/-- OSSD_TEST (R346, R347): one switch of a pair is opened; `lines` holds the readback of line 2·o for OSoA and 2·o + 1 for
OSoB meanwhile. A pair without off-pulses is checked where it is off, after a transition (R348). -/
def execOssdTest (o j : Fin 4) (lines : Byte) (s : State) : SafeRes :=
  let x := s.safe
  let high (l : Nat) : Bool := bit1 lines.toNat l == 1
  let tested := 2 * o.val + j.val / 2
  if x.on o.val && prmOpEn x.a.prm o.val then
    .next <| s.safeStep (x.testDue s.clk o.val j.val) fun x now =>
      let x := { x with lastTest := some (o.val, now + 200 * usec) }
      let crossed := (List.range 8).filter fun l => l != tested && x.on (l / 2) && !high l
      let x := if high tested then x.lockBoth now 0x10 o.val else x
      if crossed.isEmpty then x else
      (o.val :: crossed.map fun l => l / 2).eraseDups.foldl (fun x q => x.lockBoth now 0x12 q) x
  else
    .next <| s.safeStep 0 fun x now =>
      if !x.on o.val && prmOen x.a.prm o.val && !prmOpEn x.a.prm o.val && high tested
      then x.lockBoth now 0x10 o.val else x

/-- OSSD_OVERCURRENT (R347): for 1 ms a line of the pair has been low with both its switches closed, or above 0.7 A. -/
def execOssdOvercurrent (o : Fin 4) (s : State) : SafeRes :=
  .next <| s.safeStep 0 fun x now => if x.on o.val then x.lockBoth now 0x11 o.val else x

/-- The delay of a function ends in a channel: OFF, then its restart mode (R345). -/
def SafeCh.delayEnd (c : SafeCh) (now : Nat) (reconf : Bool) (f : Nat) : SafeCh :=
  if c.fn f ≠ 2 then c else ({ c with fns := setNth c.fns f (c.restart f) }).eval now reconf

/-- STOP_DELAY_END (R345): channel A's delay ends, and channel B follows its report. -/
def execStopDelayEnd (f : Fin 8) (s : State) : SafeRes :=
  let a := s.safe.a
  if a.fn f.val ≠ 2 then .next (s.safeStep 0 fun x _ => x) else
  .next <| s.safeStep (a.delayAt f.val + prmDelay a.prm f.val) fun x now => x.both fun c => c.delayEnd now x.reconf f.val

/-- CHANNEL_B_DELAY_END (R345): channel B's own timer ends before A's report, `over` thousandths of DELAY after DELAY. -/
def execChannelBDelayEnd (f : Fin 8) (late : Fin 251) (s : State) : SafeRes :=
  let b := s.safe.b
  if b.fn f.val ≠ 2 then .next (s.safeStep 0 fun x _ => x) else
  .next <| s.safeStep (b.delayAt f.val + prmDelay b.prm f.val * (1000 + late.val) / 1000) fun x now =>
    x.mod true fun c => c.delayEnd now x.reconf f.val

/-- CROSS_EXCHANGE (R336, R351): the channels exchange their states and compare them; `bClk` is CLK_SAFEB as channel A finds
it and `aIvl` A's frame interval as B measures it, in thousandths of nominal. -/
def execCrossExchange (bClk aIvl : BitVec 16) (s : State) : SafeRes :=
  if s.safe.a.phase = 0 || s.safe.b.phase = 0 then .next (s.safeStep 0 fun x _ => x) else
  .next <| s.safeStep (s.safe.xAt + 250 * usec) fun x now =>
    let x := { (x.both fun c => { c with heard := now }) with xAt := now }
    -- each takes over the global causes that the other holds
    let take (c d : SafeCh) : SafeCh :=
      (d.locks.filter fun l => globalCause l.cause && !(c.locks.any fun m => m.cause == l.cause)).foldl
        (fun c l => c.lockOut now x.reconf l.cause 255) c
    let x := { x with a := take x.a x.b, b := take x.b x.a }
    let x := if bClk.toNat < 850 || bClk.toNat > 1150 then x.mod false fun c => c.lockOut now x.reconf 0x22 255 else x
    let x := if aIvl.toNat < 750 || aIvl.toNat > 1250 then x.mod true fun c => c.lockOut now x.reconf 0x22 255 else x
    let items := if x.a.phase = 2 && x.b.phase = 2 then x.disagree else x.disagree.filter fun d => d.1 == 3
    let since (d : Nat × Nat) : Nat := match x.diffs.find? (fun (e : Nat × Nat × Nat) => e.1 == d.1 && e.2.1 == d.2) with
      | some e => e.2.2
      | none => now
    let x := { x with diffs := items.map (fun (d : Nat × Nat) => (d.1, d.2, since d)) }
    let late := x.diffs.filter fun (d : Nat × Nat × Nat) => d.2.2 + x.diffLimit d.1 d.2.1 < now
    let x := if late.any fun d => d.1 != 3 then x.lockBoth now 0x20 255 else x
    if late.any fun d => d.1 == 3 then x.lockBoth now 0x25 255 else x

/-- CROSS_FRAME_TIMEOUT (R351): channel `ch` has had no frame from the other for 1 ms. -/
def execCrossFrameTimeout (ch : Bool) (s : State) : SafeRes :=
  let c := s.safe.get ch
  if c.phase = 0 then .next (s.safeStep 0 fun x _ => x) else
  .next <| s.safeStep (c.heard + msec) fun x now => x.mod ch fun c => c.lockOut now x.reconf 0x21 255

/-- EDM_TIMEOUT (R349): the EDM pair of an OSSD pair has not followed within EDM_T. -/
def execEdmTimeout (o : Fin 4) (s : State) : SafeRes :=
  let due (c : SafeCh) : Option Nat := ((c.edm[o.val]?).getD none).map fun e => e.1
  let lock (c : SafeCh) (now : Nat) (reconf : Bool) : SafeCh :=
    if (due c).any (fun d => decide (d ≤ now)) then
      { c with edm := setNth c.edm o.val none }.lockOut now reconf 0x13 o.val
    else c
  let t := match due s.safe.a, due s.safe.b with
    | some t, some u => min t u
    | some t, none => t
    | none, some u => u
    | none, none => 0
  .next <| s.safeStep t fun x now => x.both fun c => lock c now x.reconf

/-- SELF_TEST (R351): the cyclic self-test of a channel, every 60 s. -/
def execSelfTest (ch ok : Bool) (s : State) : SafeRes :=
  let c := s.safe.get ch
  if c.phase = 0 then .next (s.safeStep 0 fun x _ => x) else
  .next <| s.safeStep (c.selfAt + 60 * sec) fun x now =>
    x.mod ch fun c =>
      let c := { c with selfAt := now }
      if ok then c else c.lockOut now x.reconf 0x23 255

/-- SAFETY_SUPPLY_FAULT (R351, Table 21.5): a channel's supply leaves its range; where it is `gone`, the channel stops with it. -/
def execSafetySupplyFault (ch gone : Bool) (s : State) : SafeRes :=
  .next <| s.safeStep 0 fun x now =>
    let x := x.mod ch fun c => c.lockOut now x.reconf 0x26 255
    if !gone then x else
    x.mod ch fun c => { c with
      phase := 0
      sw := List.replicate 4 false
      fns := List.replicate 8 (0, 0)
      edm := List.replicate 4 none
      pairs := List.replicate 8 ⟨0, true, none, none, 1⟩
      prm := [] }

/-- LOCKOUT_RECHECK (R353): a channel in global lock-out repeats the checks that found its faults; the results of those that the
state does not decide come with the command. -/
def execLockoutRecheck (ch clkOk selfOk supplyOk : Bool) (s : State) : SafeRes :=
  let c := s.safe.get ch
  if c.phase = 0 || !c.locked then .next (s.safeStep 0 fun x _ => x) else
  .next <| s.safeStep (c.recheckAt + 10 * sec) fun x now =>
    let pass (cause : Nat) : Bool :=
      match cause with
      | 0x20 => (x.disagree.filter fun d => d.1 != 3).isEmpty
      | 0x21 => (x.get (!ch)).phase != 0
      | 0x22 => clkOk
      | 0x23 => selfOk
      | 0x24 => x.blocksOk true true
      | 0x25 => x.a.skey == x.b.skey
      | _ => supplyOk
    let again (l : SafeLock) : SafeLock := if globalCause l.cause then { l with passed := pass l.cause } else l
    x.mod ch fun c => { c with
      locks := c.locks.map again
      recheckAt := now }

/-- SRST_PULSE (R352): the trailing edge of SRST, after the time that each channel has measured in ms. `ossd` holds for each OSSD
pair whether its lines passed the test of R353. -/
def execSrstPulse (msA msB : BitVec 16) (ossd : BitVec 4) (s : State) : SafeRes :=
  let x := s.safe
  let t := match x.a.srstAt with
    | some t => t + msA.toNat * msec
    | none => 0
  .next <| s.safeStep t fun x now =>
    let okLen (v : BitVec 16) : Bool := 100 ≤ v.toNat && v.toNat ≤ 3000
    let valid (c : SafeCh) (v : BitVec 16) : Bool := c.phase == 2 && !c.skey && c.srst && c.srstAt.isSome && okLen v
    let ok := valid x.a msA && valid x.b msB
    let x := x.both fun c => { c with srst := false, srstAt := none }
    if ok then x.srstEdge now ossd.toNat else x

/-- SKEY_ACTIVE (R355): the channels that read the key turned enter CONFIG; every OSSD goes off at once. -/
def execSkeyActive (a b : Bool) (s : State) : SafeRes :=
  .next <| s.safeStep 0 fun x now =>
    let turn (c : SafeCh) (v : Bool) : SafeCh :=
      if v && !c.skey then ({ c with skey := true }).eval now x.reconf else c
    let x := if a && !x.a.skey then
        { x with staged := List.replicate 2048 0, stg := 0, echoB := [], chkA := 0, chkB := 0, misses := 0 }
      else x
    { x with a := turn x.a a, b := turn x.b b }

/-- SKEY_RELEASE (R358): a CONFIRMED block, which both channels have stored, takes effect, any other is discarded, and the
channels resume from step 6 of Table 13.3. -/
def execSkeyRelease (a b : Bool) (s : State) : SafeRes :=
  .next <| s.safeStep 0 fun x now =>
    let off (c : SafeCh) (v : Bool) : SafeCh :=
      if v && c.skey then
        let c := { c with skey := false }
        if c.phase = 0 then c else c.step6 now (now + safeStep7)
      else c
    if !((a && x.a.skey) || (b && x.b.skey)) then x else
    let x := x.begin now
    let x := if a && x.a.skey then
        { x with staged := List.replicate 2048 0, stg := 0, echoB := [], chkA := 0, chkB := 0, misses := 0 }
      else x
    { x with a := off x.a a, b := off x.b b }

end Sys2Proof.Machine
end

