-- ==== Sys2Proof/Machine/SafeSys.lean ====
section
/-! DEFINITION. Machine/SafeSys.lean: the non-safety side of the safety channel: the mirror, the SAFETYVIEW objects, and the SAFE
opcodes, whose transfers over XC13 are all that reaches channel A (13.8, 13.9, 13.12). -/

namespace Sys2Proof.Machine

/-! ### SAFETYVIEW objects (Table 13.9) -/

def State.safeFrame (s : State) (b : Bool) : Option SafeFrame := (s.mirror.frames[b2n b]?).getD none

/-- A channel is present: its frames arrive on time. -/
def State.safePresent (s : State) (b : Bool) : Bool := bit1 (s.rd Reg.SAFE_PRES) (b2n b) == 1

def State.viewTag (s : State) (f : Nat) : Nat :=
  match s.mirror.views.find? fun v => v.unit == f with
  | some v => s.tagOf v.obj
  | none => 0

/-- LOCK of a frame: LOCK_CAUSE and LOCK_UNIT. -/
def SafeFrame.lockWord (f : SafeFrame) : Nat := bitsOf f.chw 15 0

/-- Elements of a view that come from a channel: while it is absent they keep what its latest frame gave, LOST (R359). -/
def State.viewElems (s : State) (o : Nat) (lost : Bool) (vals : List (Nat × W64)) : State :=
  if lost then vals.foldl (fun s p => if o = 0 then s else s.setSrc o p.1 qLost) s else s.fillElems o s.tsNow qGood vals

/-- Fill one SAFETYVIEW object from the latest frames. -/
def State.fillView (s : State) (v : SafeView) : State :=
  let ts := s.tsNow
  let u := v.unit
  let la := !s.safePresent false
  let lb := !s.safePresent true
  let dem := if u = 255 then s.mirror.demands.foldl (· + ·) 0 else (s.mirror.demands[u]?).getD 0
  let s := s.fillElems v.obj ts qGood [(1, u64 u), (7, u64 (dem % 2 ^ 32))]
  let s := match s.safeFrame false with
    | none => s
    | some f =>
      let o := (f.ossdOf[u]?).getD 0
      s.viewElems v.obj la
        [(2, u64 (if u = 255 then bitsOf f.chw 31 24 else bitsOf f.func (4 * u + 3) (4 * u))),
         (4, u64 (if u = 255 then f.ossd else bitsOf f.ossd (8 * o + 7) (8 * o))),
         (5, u64 f.pairs), (8, u64 f.chk),
         (9, u64 (if u = 255 then f.remain.foldl max 0 else (f.remain[u]?).getD 0))]
  let s := match s.safeFrame true with
    | none => s
    | some f => s.viewElems v.obj lb [(3, u64 (if u = 255 then bitsOf f.chw 31 24 else bitsOf f.func (4 * u + 3) (4 * u)))]
  let lockOf (b : Bool) : Nat := ((s.safeFrame b).map SafeFrame.lockWord).getD 0
  if (s.safeFrame false).isNone && (s.safeFrame true).isNone then s
  else s.viewElems v.obj (la || lb) [(6, u64 (max (lockOf false) (lockOf true)))]

def State.fillViews (s : State) : State := s.mirror.views.foldl (fun s v => s.fillView v) s

/-! ### Frames (13.9, Table 13.15) -/

def State.setMirror (s : State) (f : SafeMirrorSt → SafeMirrorSt) : State := { s with mirror := f s.mirror }

/-- Presence of a channel in SAFE_PRES, SYS_PD_STAT and SYS_CLK_STAT. -/
def State.setPresent (s : State) (b on : Bool) : State :=
  let k := b2n b
  let v := b2n on
  let s := s.wr Reg.SAFE_PRES (putBits (s.rd Reg.SAFE_PRES) k k v)
  let s := s.setPd (7 + k) on
  s.put F.SYS_CLK_STAT_OK (putBits (s.get F.SYS_CLK_STAT_OK) (7 + k) (7 + k) v)

/-- Function states that differ between two frames: SAFE_FUNC_STATE, and DEMANDS from channel A's frames. -/
def State.funcEvents (s : State) (b : Bool) (old new : Nat) : State :=
  (List.range 8).foldl (fun s f =>
    let x := bitsOf old (4 * f + 3) (4 * f)
    let y := bitsOf new (4 * f + 3) (4 * f)
    if x = y then s else
    let s := (s.cond 7 4).raise 0x0701 6 (s.viewTag f) (natBE 1 f ++ natBE 1 x ++ natBE 1 y ++ natBE 1 (b2n b))
    if !b && x = 1 then s.setMirror fun m => { m with demands := modNth m.demands f fun n => (n + 1) % 2 ^ 32 } else s) s

/-- Lock-outs as the frames show them: a frame shows the latest one held. -/
def State.lockEvents (s : State) (b : Bool) (new : Nat) : State :=
  let cause := new / 256
  let unit := new % 256
  let other := match s.safeFrame (!b) with
    | some f => if s.safePresent (!b) then f.lockWord else 0
    | none => 0
  let clear (s : State) (k : Nat × Nat) : State := (s.cond 7 3).raise 0x0703 4 0 (natBE 1 k.1 ++ natBE 1 k.2)
  let known := s.mirror.known
  if cause ≠ 0 && !(known.contains (cause, unit)) then
    ((s.setMirror fun m => { m with known := m.known ++ [(cause, unit)] }).cond 7 2).raise 0x0702 1 0
      (natBE 1 cause ++ natBE 1 unit ++ natBE 1 (b2n b))
  else
    let shown (k : Nat × Nat) : Bool := other / 256 == k.1 && other % 256 == k.2
    -- every lock-out entered after the one now shown is over; all of them where no channel shows one
    let newer := (known.dropWhile fun k => !(k == (cause, unit))).drop 1
    let gone := if cause = 0 then (if other / 256 = 0 then known else []) else newer.filter fun k => !shown k
    let s := s.setMirror fun m => { m with known := m.known.filter fun k => !(gone.contains k) }
    gone.foldl clear s

/-- CONFIG entered or left, BLOCK reached, SRST ignored (Table 13.11). -/
def State.configEvents (s : State) (f : SafeFrame) : State :=
  let shows (b : Bool) : Bool := s.safePresent b && ((s.safeFrame b).map fun x => bitsOf x.chw 31 24 == 2).getD false
  let cfg := shows false || shows true
  let blk := bitsOf f.chw 21 20
  let s := if cfg = s.mirror.config then s else
    ((s.setMirror fun m => { m with config := cfg }).cond 7 (if cfg then 5 else 6)).raise 0x0704 3 0
      (natBE 1 (if cfg then 0 else 1) ++ natBE 1 blk)
  let s := if blk = s.mirror.block then s else
    let s := s.setMirror fun m => { m with block := blk }
    if blk = 2 then s.cond 7 7
    else if blk = 3 then (s.cond 7 8).raise 0x0705 2 0 (natBE 4 f.chk ++ natBE 4 f.rev)
    else s
  match f.ignored with
  | some cs => (s.cond 7 9).raise 0x0708 5 0 cs
  | none => s

/-- A frame of a channel reaches SYS. -/
def State.frameIn (s : State) (b : Bool) (f : SafeFrame) : State :=
  let k := b2n b
  let last := (s.mirror.at_[k]?).getD 0
  let s := if s.safePresent b then s else
    ((s.setPresent b true).cond 7 1).raise 0x0707 4 0 (natBE 1 k ++ natBE 4 ((s.clk - last) / msec))
  let old := ((s.safeFrame b).map (·.func)).getD 0
  let s := s.setMirror fun m => { m with
    frames := setNth m.frames k (some f)
    at_ := setNth m.at_ k s.clk }
  ((((s.funcEvents b old f.func).lockEvents b f.lockWord).configEvents f)).fillViews

/-- MIRROR_FRAME (R359): a channel's frame of the millisecond goes over its one-way link to SYS. -/
def execMirrorFrame (ch : Bool) (s : State) : Res :=
  if (s.safe.get ch).phase = 0 then .next (s.safeStep 0 fun x _ => x) else
  let s := s.safeStep ((s.mirror.at_[b2n ch]?).getD 0 + msec) fun x _ => x.mod ch fun c => { c with seq := (c.seq + 1) % 2 ^ 32 }
  let f := s.safe.frame s.clk ch
  -- both channels note an ignored edge; it is reported once
  let s := if f.ignored.isSome then s.safeStep 0 fun x _ => x.both fun c => { c with ignored := none } else s
  .next (if s.pdOn 0 then s.frameIn ch f else s)

/-- The mirror marks a channel absent (R21, R359, R556). -/
def State.safeAbsent (s : State) (ch : Bool) : State :=
  let k := b2n ch
  let s := s.setPresent ch false
  let s := s.put F.SYS_CLK_STAT_LOST (putBits (s.get F.SYS_CLK_STAT_LOST) (7 + k) (7 + k) 1)
  ((s.cond 7 0).raise 0x0706 1 0 (natBE 1 k ++ natBE 1 3)).fillViews

/-- SAFE_CHANNEL_ABSENT (R359): three frames in a row of a channel are missing. -/
def execSafeChannelAbsent (ch : Bool) (s : State) : Res :=
  if !s.safePresent ch then .next s else
  .next ((s.reach ((s.mirror.at_[b2n ch]?).getD 0 + 3 * msec)).safeAbsent ch)

/-- The sixteen words of snapshot group 0 of SAFE (Table 13.10). -/
def State.safeSnap (s : State) : List Nat :=
  let w (g : SafeFrame → Nat) : List Nat := [false, true].map fun b => ((s.safeFrame b).map g).getD 0
  let ts := s.tsNow.toNat
  w (·.chw) ++ w (·.pairs) ++ w (·.func) ++ w (·.ossd) ++ w (·.chk) ++ w (·.stg) ++ w (·.seq) ++ [ts % 2 ^ 32, ts / 2 ^ 32]

/-! ### Opcodes (R362) -/

def tParamOffset : Nat := 0x0702
def tParamPiece : Nat := 0x0703
def tCheckValue : Nat := 0x0706
def tChannelSel : Nat := 0x0707
def tUnitSel : Nat := 0x0708

/-- LOCKED while either channel is outside CONFIG (R362). -/
def safeLocked : Chk := fun s _ =>
  if s.safe.a.chState = 2 && s.safe.b.chState = 2 then none else some { status := .locked }

def opSafeStatus : OpDef where
  code := 0x0701
  blk := 7
  perm := operatorOrService
  run := fun s _ => .done .ok (tlv 0x0701 (s.safeSnap.map (natBE 4)).flatten) s

/-- A piece enters channel A's staged block, which is STAGED again (R357). -/
def SafeSt.stagePiece (x : SafeSt) (off : Nat) (piece : Bytes) : SafeSt :=
  { x with
    staged := padTo 2048 (x.staged.take off ++ piece ++ x.staged.drop (off + piece.length))
    stg := 1
    chkA := 0
    chkB := 0 }

def opSafeParamWrite : OpDef where
  code := 0x0702
  blk := 7
  charge := 1
  schema := [{ typ := tParamOffset, lo := 2, hi := 2 }, { typ := tParamPiece, lo := 1, hi := 1024 }]
  form := fun _ q =>
    if tn q.tlvs tParamOffset > 2047 then some (badAt q.tlvs tParamOffset 0x0008)
    else if tn q.tlvs tParamOffset + (tv q.tlvs tParamPiece).length > 2048 then some (badAt q.tlvs tParamPiece 0x0008) else none
  perm := onlyOperator
  lock := safeLocked
  run := fun s q => .done .ok [] { s with safe := s.safe.stagePiece (tn q.tlvs tParamOffset) (tv q.tlvs tParamPiece) }

/-- Both channels validate the staged block and compute its check value, B from the copy that A passes over XC12 (R356). -/
def SafeSt.check (x : SafeSt) : SafeSt × Option Nat :=
  match blockFault x.staged with
  | some o => (x, some o)
  | none =>
    ({ x with
      stg := 2
      echoB := x.staged
      chkA := blockCrc x.staged
      chkB := blockCrc x.staged }, none)

def opSafeParamCheck : OpDef where
  code := 0x0703
  blk := 7
  charge := 2
  perm := onlyOperator
  lock := safeLocked
  run := fun s q =>
    match s.safe.check with
    | (_, some o) => .done .failed (if q.ver ≥ 0x31 then tlv 0x000E (natBE 2 o ++ natBE 2 0x0008) else []) s
    | (x, none) => .done .ok (tlv 0x0704 (natBE 4 x.chkA) ++ tlv 0x0705 (natBE 4 x.chkB)) { s with safe := x }

/-- A channel's echo of the block (R356). -/
def SafeSt.echo (x : SafeSt) (b : Bool) : Bytes := if b then x.echoB else x.staged

def opSafeParamRead : OpDef where
  code := 0x0704
  blk := 7
  schema := [{ typ := tChannelSel, lo := 1, hi := 1 }, { typ := tParamOffset, lo := 2, hi := 2 }]
  form := allChk [rangeChk tChannelSel fun v => v ≤ 1, rangeChk tParamOffset fun v => v ≤ 2047]
  perm := onlyOperator
  run := fun s q =>
    let bs := slice (s.safe.echo (tn q.tlvs tChannelSel == 1)) (tn q.tlvs tParamOffset) 1024
    if bs.isEmpty then .done .failed [] s else .done .ok (tlv tParamPiece bs) s

/-- SAFE_CONFIRM in the channels (R357, R358). -/
def SafeSt.confirm (x : SafeSt) (now v : Nat) : SafeSt × Bool :=
  let stored (c : SafeCh) : Option Nat := c.stored.map blockChk
  if x.stg = 2 then
    if v = x.chkA && v = x.chkB then
      ({ (x.both fun c => { c with stored := some x.staged }) with
        stg := 3
        misses := 0 }, true)
    else if x.misses ≥ 2 then
      ({ x with
        staged := List.replicate 2048 0
        echoB := []
        stg := 0
        chkA := 0
        chkB := 0
        misses := 0 }, false)
    else ({ x with misses := x.misses + 1 }, false)
  else if x.stg ≠ 1 && x.reconf && stored x.a == some v && stored x.b == some v then
    -- the stored value once more, after new channel A firmware
    let x := { x with reconf := false }
    (x.both fun c => c.eval now false, true)
  else (x, false)

def opSafeConfirm : OpDef where
  code := 0x0705
  blk := 7
  charge := 2
  schema := [{ typ := tCheckValue, lo := 4, hi := 4 }]
  perm := onlyOperator
  lock := safeLocked
  run := fun s q =>
    let (x, ok) := s.safe.confirm s.clk (tn q.tlvs tCheckValue)
    .done (if ok then .ok else .failed) [] { s with safe := x }

/-- The SAFETYVIEW object of Table 13.9, nothing received yet. -/
def viewObj (num tag : Nat) (ts : W64) : Obj := ⟨num, tySafetyView, tag, List.replicate 9 (Elem.cold vUint32), ts⟩

/-- Objects stay in ascending order. -/
def insertObj (x : Obj) : List Obj → List Obj
  | [] => [x]
  | y :: ys => if x.num < y.num then x :: y :: ys else y :: insertObj x ys

def State.addObj (s : State) (x : Obj) : State := { s with estate := { s.estate with objs := insertObj x s.estate.objs } }

def State.dropObj (s : State) (n : Nat) : State :=
  { s with estate := { s.estate with objs := s.estate.objs.filter fun x => x.num != n } }

def opSafeViewCfg : OpDef where
  code := 0x0706
  blk := 7
  schema := [{ typ := tUnitSel, lo := 1, hi := 1 }, { typ := 0x0001, lo := 8, hi := 8 }, { typ := 0x0007, lo := 1, hi := 1 }]
  form := allChk [rangeChk tUnitSel (fun v => v ≤ 7 || v == 255), addrForm 0x0001 true, fun _ q =>
    if addrObj (tAddr q.tlvs) = 0 then some (badAt q.tlvs 0x0001 0x0008)
    else if tn q.tlvs tUnitSel = 255 && tn q.tlvs 0x0007 ≠ 0 then some (badAt q.tlvs 0x0007 0x0008) else none]
  perm := onlyOperator
  lock := lockChk fun s q =>
    [addrObj (tAddr q.tlvs), ((s.mirror.views.find? fun v => v.unit == tn q.tlvs tUnitSel).map (·.obj)).getD 0]
  run := fun s q =>
    let u := tn q.tlvs tUnitSel
    let n := addrObj (tAddr q.tlvs)
    let tag := tn q.tlvs 0x0007
    let old := s.mirror.views.find? fun v => v.unit == u
    let here := old.any fun v => v.obj == n
    if here then
      let s := (s.retag n tag).setMirror fun m => { m with views := m.views.map fun v => if v.unit = u then { v with tag := tag } else v }
      .done .ok [] s
    else if (s.obj? n).isSome then
      .done .failed (if q.ver ≥ 0x31 then tlv 0x000E (natBE 2 0xFFFF ++ natBE 2 0x0009) else []) s
    else
      let s := match old with
        | some v => s.dropObj v.obj
        | none => s
      let s := s.addObj (viewObj n tag s.tsNow)
      let v : SafeView := ⟨u, n, tag⟩
      let s := s.setMirror fun m => { m with views := (m.views.filter fun w => w.unit != u) ++ [v] }
      .done .ok [] (s.fillView v)

def execSafeStatus (r : Req) (s : State) : Res := .next (batonRun opSafeStatus r s)
def execSafeParamWrite (r : Req) (s : State) : Res := .next (batonRun opSafeParamWrite r s)
def execSafeParamCheck (r : Req) (s : State) : Res := .next (batonRun opSafeParamCheck r s)
def execSafeParamRead (r : Req) (s : State) : Res := .next (batonRun opSafeParamRead r s)
def execSafeConfirm (r : Req) (s : State) : Res := .next (batonRun opSafeConfirm r s)
def execSafeViewCfg (r : Req) (s : State) : Res := .next (batonRun opSafeViewCfg r s)

end Sys2Proof.Machine
end

