-- ==== Sys2Proof/Machine/Estate.lean ====
section
/-! DEFINITION. Machine/Estate.lean: the generic object opcodes, their relaying through Furun, locks and cursors (chapter 2;
3.8, 3.12). -/

namespace Sys2Proof.Machine

/-! ### Declared types (R553) -/

def planTypes : List Nat :=
  [vInt64, vUint32, vUint32, vInt64, vInt64, vUint32, vUint32, vUint32, vUint32, vFp32, vFp32, vFp64, vUint32, vFp32, vFp32, vFp32]

/-- Declared value types of the elements from 1 on, by object type: Tables 8.4, 10.1, 11.8, 12.3, 12.5, 12.6, 13.9, 14.12, 17.3
and 21.11 to 21.14. -/
def layout (t : Nat) : List Nat :=
  let u := vUint32
  let f := vFp32
  let i := vInt64
  if t = tyAI then [f, i, u, u, u]
  else if t = tyAO then [f, u, u]
  else if t = tyBI then [vBool, u, u, u]
  else if t = tyBO then [vBool, u, u]
  else if t = tyMSV then List.replicate 255 u
  else if t = tyLoop then [vQ15, vQ15, vQ15, vQ15, vQ15, u, vQ15, u, u]
  else if t = tyCircuit then circuitTypes
  else if t = tyThermal then thermalTypes
  else if t = tyPulseOut then [u, u, i, u, i, u, u]
  else if t = tySafetyView then List.replicate 9 u
  else if t = tyZone then [u, u, f, f, f, u, u, u, u, u, f, f, i, f, f]
  else if t = tySub then [u, u, f, f, u, i, f]
  else if t = tyPlant then [u, u, u, f, f, f, f, f, u, u, f, i, f]
  else if t = tyStore then [u, u, f, f, f, f, f, f, f, f, f, i, f]
  else if t = tyPump then [u, u, f, f, f, f, u, f, f]
  else if t = tyPipe then [u, u, f, f, f, f, f, f, u, u]
  else if t = tyNode then [u, f, f, f, f, u, u, f, i]
  else if t = tyPlan then planTypes
  else if t = tySchedule then [f, f] ++ List.replicate 8 i
  else if t = tyStation then [u, u, u, u, u, i, u]
  else []

/-- A new object: every element COLD; an element beyond the layout of its type has no declared type until its first write. -/
def newObj (n t tag count : Nat) : Obj :=
  ⟨n, t, tag, (List.range (count - 1)).map fun k => Elem.cold (((layout t)[k]?).getD 0), 0⟩

/-! ### Elements that no write reaches (R77) -/

/-- The element is filled by its layout, or it is the destination of a binding. -/
def State.moduleFills (s : State) (x : Obj) (e : Nat) : Bool :=
  s.unitFills x.num e || s.destTaken x.num e

/-! ### Bindings of an object (R78, R244) -/

/-- The object is the source or destination of a binding, or is assigned to a unit. -/
def State.objBound (s : State) (o : Nat) : Bool :=
  (List.range 256).any (fun n => (s.loopSt n).obj == o || (s.loopSt n).binds.any fun b => b.obj == o) ||
  s.relay.binds.any (fun b => b.obj == o) || s.relay.stations.any (fun x => x.obj == o) ||
  (List.range 4).any (fun c => (s.canCh c).sigs.any (fun g => g.obj == o) || (s.canCh c).stations.any fun x => x.obj == o) ||
  s.lap.decl.tasks.any (fun t => t.inputs.any (fun p => p.obj == o) || t.outputs.any fun p => p.obj == o) ||
  s.lap.decl.binds.any (fun p => p.1 == o || p.2 == o) ||
  (s.uioOfObj o).isSome ||
  s.met.cirs.any (fun c => c.obj == o) || s.met.thms.any (fun t => t.obj == o) || s.met.pos.any (fun p => p.obj == o) ||
  s.get F.PACER_FITER_PLAN_OBJ == o ||
  s.models.any fun x =>
    (s.typOf o == tyNode && (nodeElems x.typ).any fun e => s.ev x.num e == o) ||
    (srcElem x.typ ≠ 0 && s.ev x.num (srcElem x.typ) ≠ 0 && addrObj (BitVec.ofNat 64 (s.ev x.num (srcElem x.typ))) == o)

/-! ### Views of what a request may see (R50 to R53) -/

/-- The objects a session may see, ascending. -/
def State.visibleObjs (s : State) (tag : Nat) : List Obj := s.estate.objs.filter fun x => tag == 0 || x.tag == tag

/-- An address is served here as a group's: the module anchors it and it is not the module's own path. -/
def State.servedGroup (s : State) (a : W64) : Option W64 :=
  let g := addrOf a 0 0
  if addrPath a ≠ addrPath s.own && s.anchors g then some g else none

/-- The type and elements of an aggregate object (R42). -/
def State.aggViews (s : State) (g : W64) (o : Nat) : Option (Nat × List EView × W64) :=
  if o = 3 then
    match s.pacer.obj3.find? fun e => e.1 == g with
    | some (_, vals, changed) =>
      let ts := (vals[3]?).getD 0
      some (tyPlan, ((List.range 16).zip planTypes).map (fun p => ⟨p.2, (vals[p.1]?).getD 0, ts, qGood, qGood⟩), changed)
    | none => some (tyPlan, planTypes.map fun t => ⟨t, 0, 0, qStale, qStale⟩, 0)
  else if o = 1 || o = 2 || o = 4 then
    let t := if o = 1 then tyCircuit else if o = 2 then tyThermal else tyMSV
    let types := if o = 4 then List.replicate 8 vUint32 else layout t
    match s.furun.aggs.find? fun a => a.grp == g && a.obj == o with
    | some a => some (t, a.elems.map (fun e => ⟨e.vtype, e.value, e.ts, e.src, e.src⟩), a.changed)
    | none => some (t, types.map fun y => ⟨y, 0, 0, qStale, qStale⟩, 0)
  else none

/-- Type, header and elements of the object at an address served here. -/
def State.served (s : State) (a : W64) : Option (Bytes × List EView) :=
  let o := addrObj a
  match s.servedGroup a with
  | some g =>
    (s.aggViews g o).map fun (t, vs, ch) =>
      (headerBytes t 0 (vs.length + 1) (qWorst (vs.map EView.rep)) (1 + s.suspectFlag g) ch, vs)
  | none => (s.obj? o).map fun x => (s.header x, s.objViews x)

/-- The visibility test of R52 for an address served here. -/
def visible : Chk := fun s q =>
  let a := tAddr q.tlvs
  if q.tag = 0 || addrObj a = 0 then none else
  match s.servedGroup a with
  | some _ => some { status := .denied }
  | none =>
    match s.obj? (addrObj a) with
    | some x => if x.tag = q.tag then none else some { status := .denied }
    | none => some { status := .denied }

/-- The addressed object and element exist (R51). -/
def exists_ : Chk := fun s q =>
  let a := tAddr q.tlvs
  if addrObj a = 0 then none else
  match s.served a with
  | none => some { status := .noObject }
  | some (_, vs) => if addrElem a > vs.length then some { status := .noObject } else none

/-! ### Relaying (R90) -/

/-- The module serves an address itself. -/
def State.serves (s : State) (a : W64) : Bool := addrPath a == addrPath s.own || (s.servedGroup a).isSome

/-- The link over which a unit is reached, with a neighbour in contact. -/
def State.pathTo (s : State) (dst : W64) : Option FLink :=
  match s.route dst with
  | some l => if l.contact then some l else none
  | none => none

/-- The group of an address has no anchor as this module knows it (R46). -/
def State.noAnchorAt (s : State) (a : W64) : Bool :=
  match s.fgroup? (addrOf a 0 0) with
  | some x => x.anchor.isNone
  | none => false

/-- A Baton packet as it was received. -/
def reqPkt (q : Q) (opcode : Nat) : Bytes :=
  natBE 1 q.ver ++ natBE 1 q.r.flags.toNat ++ natBE 1 q.tag ++ natBE 1 q.r.cls.toNat ++ natBE 4 q.r.item.toNat ++
    natBE 2 opcode ++ natBE 2 q.r.params.length ++ q.r.params

/-- A generic object request that names another unit: the relay admits it and forwards it (R90, R91). -/
def relayObj (opcode : Nat) (s : State) (q : Q) : Option State :=
  let a := tAddr q.tlvs
  if s.serves a || (opcode == 0x0109 && s.furun.suspects.contains (addrOf a 0 0)) then none else
  let item := q.r.item.toNat
  let failed (s : State) : State :=
    let s := s.journalAdd q.owner item opcode q.tag
    ((s.cacheAdd q.owner item Status.failed.code opcode q.tag).journalEnd q.owner item Status.failed.code).answer q opcode 0 Status.failed.code []
  -- step 1 of HOLDUP closes admission to all but reads (R136)
  if s.mode = modeHoldup && !(isHoldRead opcode && s.holdReads) then
    some (s.refuseQ q opcode true { status := .wrongMode })
  else if s.mode = modeHoldup && s.bankUj < s.setAside + 200 then some (s.refuseQ q opcode true { status := .noBudget })
  else if s.noAnchorAt a then
    -- the tenant check comes before (R46)
    if q.tag ≠ 0 && addrObj a ≠ 0 then some (s.refuseQ q opcode true { status := .denied }) else some (failed s)
  else
    match s.pathTo (addrOf a 0 0) with
    | none => some (failed s)
    | some l =>
      let s := s.journalAdd q.owner item opcode q.tag
      let cls := carriedClass q.r.cls.toNat
      let i : Item := ⟨q.owner, item, q.sess.getD 64, opcode, q.tag, cls, true, .relayed, l.peer.toNat, a.toNat, [], false⟩
      -- in HOLDUP its charge is set aside until it ends, within 1 ms (R136)
      let hold := s.ledger.hold.items ++ if s.mode = modeHoldup then
        [⟨.baton q.owner (BitVec.ofNat 32 item), 200, s.clk + msec, true⟩] else []
      let s : State := { s with
        ledger := { s.ledger with hold := { s.ledger.hold with items := hold } }
        baton := { s.baton with items := s.baton.items ++ [i] }
        furun := { s.furun with relayed := s.furun.relayed ++ [⟨q.owner, item, none, l.peer, s.own, q.tag, cls, q.ver, opcode⟩] } }
      let body := natBE 32 q.owner.toNat ++ natBE 1 q.tag ++ natBE 3 0 ++ reqPkt q opcode
      let s := s.furunSend l.peer 6 cls (addrOf a 0 0) body
      some (s.answer q opcode 0 Status.pending.code [])

/-- A request of a generic object opcode. -/
def objRun (d : OpDef) (r : Req) (s : State) : State := batonCore d true (relayObj d.code) r s

/-! ### Common parts of the opcodes -/

def sAddr : TlvSpec := { typ := 0x0001, lo := 8, hi := 8 }

/-- A malformed address (R33), or one whose ELEM or OBJ is not what the opcode takes. -/
def objAddr (elem0 obj0 objNot0 : Bool) : Chk := fun _ q =>
  let a := tAddr q.tlvs
  if addrBad a then some (badAt q.tlvs 0x0001 0x0006)
  else if (elem0 && addrElem a ≠ 0) || (obj0 && addrObj a ≠ 0) || (objNot0 && addrObj a = 0) then some (badAt q.tlvs 0x0001 0x0008)
  else none

/-- DENIED under a group's path: to create or delete there (R78). -/
def notGroup : Chk := fun s q => if (s.servedGroup (tAddr q.tlvs)).isSome then some { status := .denied } else none

/-- DENIED on a group's aggregates, which the module alone fills; OBJ 5 to 4,096 under a group path names no object (R42). -/
def notAggregate : Chk := fun s q =>
  if (s.servedGroup (tAddr q.tlvs)).isSome && addrObj (tAddr q.tlvs) ≤ 4 then some { status := .denied } else none

/-- The object of this module that the request names. -/
def qObj (s : State) (q : Q) : Option Obj :=
  if (s.servedGroup (tAddr q.tlvs)).isSome then none else s.obj? (addrObj (tAddr q.tlvs))

def objLock : Chk := lockChk fun s q => if (s.servedGroup (tAddr q.tlvs)).isSome then [] else [addrObj (tAddr q.tlvs)]

/-- The results of a request that ends FAILED with a reason (R78). -/
def failReason (q : Q) (reason : Nat) : Bytes := failDetail q.ver reason

/-! ### Reading (R75, R76) -/

def elemTlv (e : Nat) (v : EView) : Bytes := tlv 0x0002 (natBE 2 e ++ v.bytes)

/-- The pages of a whole object: its header, and its elements 52 to a page. -/
def wholeRun (s : State) (q : Q) (h : Bytes) (vs : List EView) : Run :=
  pageRun s q 0x0101 (readPage 0x0003 vs.length) (tlv 0x0003 h) (((List.range vs.length).zip vs).map fun p => elemTlv (p.1 + 1) p.2)

/-- The pages of a unit: COUNT and OBJ_ENTRY; 172 entries fit a page, and one less beside COUNT and CURSOR. -/
def unitRun (s : State) (q : Q) (es : List (Nat × Nat × Nat)) : Run :=
  pageRun s q 0x0101 (readPage 0x0008 es.length) (tlv 0x0008 (natBE 2 es.length))
    (es.map fun (n, t, g) => tlv 0x000F (natBE 2 n ++ natBE 1 t ++ natBE 1 g))

def opObjRead : OpDef where
  code := 0x0101
  schema := [sAddr]
  form := objAddr false false false
  perm := visible
  exist := exists_
  run := fun s q =>
    let a := tAddr q.tlvs
    if addrObj a = 0 then
      match s.servedGroup a with
      | some _ => unitRun s q (if q.tag = 0 then [(1, tyCircuit, 0), (2, tyThermal, 0), (3, tyPlan, 0), (4, tyMSV, 0)] else [])
      | none => unitRun s q ((s.visibleObjs q.tag).map fun x => (x.num, x.typ, x.tag))
    else
      match s.served a with
      | none => .refuse { status := .noObject }
      | some (h, vs) =>
        if addrElem a = 0 then wholeRun s q h vs else
        match vs[addrElem a - 1]? with
        | some v => .done .ok (elemTlv (addrElem a) v) s
        | none => .refuse { status := .noObject }

def opObjReadNext : OpDef where
  code := 0x0102
  since := 0x30
  schema := [{ typ := 0x0005, lo := 4, hi := 4, since := 0x30 }]
  pre := cursorChk 0x0101
  run := fun s q => nextPage s q 0x0101

/-! ### Writing (R77, R560, R192, R242, R243, R263) -/

/-- An element write as requested: index, value type, timestamp, value, offset of its TLV. -/
structure EWrite where
  e   : Nat
  vt  : Nat
  ts  : W64
  v   : W64
  off : Nat
  deriving DecidableEq, Repr

def eWrites (q : Q) : List EWrite :=
  (q.tlvs.filter fun t => t.typ == 0x0002).map fun t =>
    ⟨beAt t.val 0 2, beAt t.val 2 1, u64 (beAt t.val 6 8), u64 (beAt t.val 14 8), t.off⟩

/-- The faults of ELEMENT TLVs that they show by themselves. -/
def eWritesForm : Nat → List EWrite → Option Refuse
  | _, [] => none
  | last, w :: ws =>
    let bad (r : Nat) : Option Refuse := some (badTlv w.off r)
    if w.e = 0 || w.e > 255 then bad 0x0008
    else if w.e ≤ last then bad 0x0004
    else if !(valueOk w.vt w.v) then bad 0x0008
    else eWritesForm w.e ws

def eReserved (q : Q) : Option Refuse :=
  (q.tlvs.filter fun t => t.typ == 0x0002).findSome? fun t =>
    if beAt t.val 4 2 ≠ 0 then some (badTlv t.off 0x0005) else none

/-- DENIED of a model write: who may write (R242), and the bindings that the written values make (R54, R243, R293). -/
def State.modelDenied (s : State) (tag : Nat) (x : Obj) (w : EWrite) : Bool :=
  let t := x.typ
  let v := w.v.toNat
  (tag ≠ 0 && !(t == tyZone && x.tag == tag && tag ≠ 255 && 8 ≤ w.e && w.e ≤ 12)) ||
  ((nodeElems t).contains w.e && v ≠ 0 && (s.obj? v).isSome && !(bindOk (s.tagOf v) x.tag)) ||
  ((seriesElems t).contains w.e && (match s.series? v with | some y => !(bindOk y.tag x.tag) | none => false)) ||
  (srcElem t == w.e && v ≠ 0 && s.isOwn w.v && (s.obj? (addrObj w.v)).isSome && !(bindOk (s.tagOf (addrObj w.v)) x.tag))

/-- A second boundary node of a carrier (R263). -/
def State.secondBoundary (s : State) (x : Obj) (w : EWrite) : Bool :=
  x.typ == tyNode && w.e == 1 && 4 ≤ w.v.toNat && w.v.toNat ≤ 6 &&
    s.models.any fun y => y.typ == tyNode && y.num ≠ x.num && s.ev y.num 1 == w.v.toNat

/-- 0 < QNOM ≤ QMAX of a pipe after the writes, once both are written (Table 10.1). -/
def State.flowsOk (s : State) (x : Obj) (ws : List EWrite) : Bool :=
  let val (e : Nat) : Option Fl :=
    match ws.reverse.find? fun w => w.e == e with
    | some w => some (fl32 w.v.toNat)
    | none => (x.elem? e).bind fun y => if y.src = qCold then none else some (s.evF x.num e)
  match val 6, val 7 with
  | some qmax, some qnom => Fl.le qnom qmax
  | _, _ => true

def writePerm : Chk := fun s q =>
  match qObj s q with
  | none => none
  | some x =>
    if (eWrites q).any fun w =>
      (w.e ≤ x.elems.length && s.moduleFills x w.e) || x.typ == tySafetyView ||
        (isModelType x.typ && s.modelDenied q.tag x w) then some { status := .denied } else none

/-- Existence, declared type, and the ranges that depend on the object. -/
def writeExist : Chk := fun s q =>
  match qObj s q with
  | none => some { status := .noObject }
  | some x =>
    (eWrites q).findSome? (fun w => if w.e > x.elems.length then some { status := .noObject } else none) |>.or
    ((eWrites q).findSome? fun w =>
      let bad (r : Nat) : Option Refuse := some (badTlv w.off r)
      let vt := ((x.elem? w.e).map (·.vtype)).getD 0
      if vt ≠ 0 && vt ≠ w.vt then bad 0x0007
      else if isModelType x.typ && !(modelRange x.typ w.e w.v.toNat) then bad 0x0008
      else if isModelType x.typ && srcElem x.typ == w.e && !(x.typ == tyNode && w.v == 0) &&
        !(s.isOwn w.v && (s.elem? (addrObj w.v) (addrElem w.v)).isSome) then bad 0x0008
      else if x.typ == tyPipe && (w.e == 6 || w.e == 7) && !(s.flowsOk x (eWrites q)) then bad 0x0008
      else if s.secondBoundary x w then bad 0x0008
      else none)

/-- One element takes a written value: what the module does not fill keeps it over every reset (R552). -/
def State.writeElem (s : State) (o : Nat) (w : EWrite) : State :=
  let ts := if w.ts = 0 then s.tsNow else w.ts
  let s := s.setElem o w.e fun x =>
    { x with vtype := if x.vtype = 0 then w.vt else x.vtype, value := w.v, ts := ts, src := qGood, inh := none, kept := true }
  (s.deliverWrite o w.e).loopTake o w.e

def opObjWrite : OpDef where
  code := 0x0103
  schema := [sAddr, { typ := 0x0002, lo := 22, hi := 22, maxN := 32 },
             { typ := 0x0004, lo := 8, hi := 8, minN := 0, since := 0x30 }]
  form := allChk [objAddr true false true, fun _ q => (eReserved q).or (eWritesForm 0 (eWrites q))]
  perm := allChk [visible, notAggregate, writePerm]
  mode := fun s q =>
    match qObj s q with
    | some x => if (x.typ = tyAO || x.typ = tyBO) && s.mode = modeBlocks then some { status := .wrongMode } else none
    | none => none
  lock := objLock
  exist := writeExist
  pre := fun s q =>
    match tv? q.tlvs 0x0004, qObj s q with
    | some b, some x => if x.changed.toNat = beNat b then none else some { status := .stale }
    | _, _ => none
  run := fun s q =>
    match qObj s q with
    | none => .refuse { status := .noObject }
    | some x =>
      match (if x.typ = tyLoop then (eWrites q).findSome? fun w => s.loopVet x.num w.e w.v else none) with
      | some f => .refuse f
      | none => .done .ok [] ((eWrites q).foldl (fun s w => s.writeElem x.num w) s)

/-! ### Creating, deleting, retagging (R78, R56) -/

def opObjCreate : OpDef where
  code := 0x0104
  schema := [sAddr, { typ := 0x0006, lo := 1, hi := 1 }, { typ := 0x0007, lo := 1, hi := 1 }, { typ := 0x0008, lo := 2, hi := 2 }]
  form := allChk [objAddr true false true, rangeChk 0x0006 (fun t => 1 ≤ t && t ≤ 0x14), fun _ q =>
    let n := tn q.tlvs 0x0008
    let t := tn q.tlvs 0x0006
    -- a model object has the count of Table 10.1
    let ok := if isModelType t then n = modelCount t else (if t = tyMSV then 2 else 1) ≤ n && n ≤ 256
    if ok then none else some (badAt q.tlvs 0x0008 0x0008)]
  perm := allChk [onlyOperator, notGroup, fun _ q =>
    if tn q.tlvs 0x0006 = tySafetyView then some { status := .denied } else none]
  run := fun s q =>
    let n := addrObj (tAddr q.tlvs)
    if (s.obj? n).isSome then .done .failed (failReason q 0x0009) s
    else .done .ok [] (s.addObj (newObj n (tn q.tlvs 0x0006) (tn q.tlvs 0x0007) (tn q.tlvs 0x0008)))

def opObjDelete : OpDef where
  code := 0x0105
  schema := [sAddr]
  form := objAddr true false true
  perm := allChk [onlyOperator, notGroup, fun s q =>
    match qObj s q with
    | some x => if x.typ = tySafetyView then some { status := .denied } else none
    | none => none]
  lock := objLock
  exist := exists_
  run := fun s q =>
    let n := addrObj (tAddr q.tlvs)
    if s.objBound n then .refuse busyBound else
    let s := if s.replicated n then s.sendWithdraw n (s.tagOf n) else s
    let s := s.dropObj n
    -- its forces go with it (log 269)
    let s := { s with estate := { s.estate with forces := s.estate.forces.filter fun f => f.obj != n } }
    let s := s.put F.LAP_STAT_FORCES s.estate.forces.length
    .done .ok [] { s with
      baton := { s.baton with locks := s.baton.locks.filter fun l => l.obj != n }
      furun := { s.furun with marks := s.furun.marks.filter fun m => m != n } }

/-- The THERMAL object of a meter whose CIR names a circuit, or a PULSEOUT object (R327). -/
def State.tagTied (s : State) (x : Obj) : Bool :=
  x.typ == tyPulseOut || (List.range 4).any fun t => (s.thm t).obj == x.num && s.get (F.MET_THCFG_CIR t) < 8

def opObjSetTag : OpDef where
  code := 0x0106
  schema := [sAddr, { typ := 0x0007, lo := 1, hi := 1 }]
  form := objAddr true false true
  perm := allChk [onlyOperator, notAggregate]
  lock := objLock
  exist := fun s q => (exists_ s q).or <|
    -- the channel's view carries tag 0 (R359)
    if s.mirror.views.any (fun v => v.obj == addrObj (tAddr q.tlvs) && v.unit == 255) && tn q.tlvs 0x0007 ≠ 0
    then some (badAt q.tlvs 0x0007 0x0008) else none
  run := fun s q =>
    match qObj s q with
    | none => .refuse { status := .noObject }
    | some x =>
      let tag := tn q.tlvs 0x0007
      if x.tag = tag then .done .ok [] s
      else if s.tagTied x then .refuse busyBound
      else
        let s := s.retag x.num tag
        .done .ok [] { s with mirror := { s.mirror with
          views := s.mirror.views.map fun v => if v.obj = x.num then { v with tag := tag } else v } }

/-! ### Locks (R79) -/

def opObjLock : OpDef where
  code := 0x0107
  since := 0x31
  schema := [sAddr, { typ := 0x0010, lo := 2, hi := 2 }]
  form := allChk [objAddr true false true, rangeChk 0x0010 fun v => 1 ≤ v && v ≤ 600]
  perm := allChk [visible, notAggregate]
  lock := objLock
  exist := exists_
  run := fun s q =>
    let n := addrObj (tAddr q.tlvs)
    let l : Lock := ⟨n, q.owner, s.clk + tn q.tlvs 0x0010 * sec⟩
    .done .ok [] { s with baton := { s.baton with locks := (s.baton.locks.filter fun x => x.obj != n) ++ [l] } }

def opObjUnlock : OpDef where
  code := 0x0108
  since := 0x31
  schema := [sAddr]
  form := objAddr true false true
  perm := allChk [visible, notAggregate]
  lock := fun s q => if q.tag = 0 then none else objLock s q
  exist := exists_
  run := fun s q =>
    let n := addrObj (tAddr q.tlvs)
    .done .ok [] { s with baton := { s.baton with locks := s.baton.locks.filter fun x => x.obj != n } }

/-- LOCK_EXPIRY: LOCK_TIME of an object's lock has run out (R79). -/
def execLockExpiry (obj : BitVec 13) (s : State) : Res :=
  match s.baton.locks.find? fun l => l.obj == obj.toNat with
  | none => .next s
  | some l =>
    let s := s.reach l.till
    .next { s with baton := { s.baton with locks := s.baton.locks.filter fun x => x.obj != obj.toNat } }

/-- CURSOR_RELEASE: 10 s after the last page a cursor's snapshot is released (R76). -/
def execCursorRelease (sess : Fin 64) (cursor : W32) (s : State) : Res :=
  match (s.session? sess.val).bind fun x => x.cursors.find? fun c => c.handle == cursor.toNat with
  | none => .next s
  | some c =>
    let s := s.reach (c.last + 10 * sec)
    .next (s.modSession sess.val fun y => { y with cursors := y.cursors.filter fun k => k.handle != cursor.toNat })

/-- ELEMENT_STALE: the age of a value passes its freshness limit (R40, R551). -/
def execElementStale (obj : BitVec 13) (elem : Byte) (s : State) : Res :=
  match s.elem? obj.toNat elem.toNat with
  | none => .next s
  | some x =>
    if x.fresh = 0 || x.src ≠ qGood then .next s else
    let due := nsOfTs x.ts + (x.fresh * msec : Nat) + 1 - s.sysOfs
    let s := s.reach due.toNat
    .next (s.modObj obj.toNat fun ob =>
      { ob with elems := setNth ob.elems (elem.toNat - 1) { x with src := qStale }, changed := s.tsNow })

/-! ### SUSPECT (R58) -/

/-- VIEW_AGREED's effect: the mark of a unit clears. -/
def State.clearSuspect (s : State) (unit : W64) : State :=
  if !(s.furun.suspects.contains unit) then s else
  { s with furun := { s.furun with suspects := s.furun.suspects.filter fun u => u != unit } }

def opUnitClearSuspect : OpDef where
  code := 0x0109
  since := 0x31
  schema := [sAddr]
  form := objAddr true true false
  perm := onlyOperator
  run := fun s q => .done .ok [] (s.clearSuspect (addrOf (tAddr q.tlvs) 0 0))

def execObjRead (r : Req) (s : State) : Res := .next (objRun opObjRead r s)
def execObjReadNext (r : Req) (s : State) : Res := .next (batonRun opObjReadNext r s)
def execObjWrite (r : Req) (s : State) : Res := .next (objRun opObjWrite r s)
def execObjCreate (r : Req) (s : State) : Res := .next (objRun opObjCreate r s)
def execObjDelete (r : Req) (s : State) : Res := .next (objRun opObjDelete r s)
def execObjSetTag (r : Req) (s : State) : Res := .next (objRun opObjSetTag r s)
def execObjLock (r : Req) (s : State) : Res := .next (objRun opObjLock r s)
def execObjUnlock (r : Req) (s : State) : Res := .next (objRun opObjUnlock r s)
def execUnitClearSuspect (r : Req) (s : State) : Res := .next (objRun opUnitClearSuspect r s)

/-! ### Furun BATON messages (R441) -/

/-- The opcode of a relayed request. -/
def relayedOp (code : Nat) : Option OpDef :=
  if code = 0x0101 then some opObjRead else if code = 0x0103 then some opObjWrite else if code = 0x0104 then some opObjCreate
  else if code = 0x0105 then some opObjDelete else if code = 0x0106 then some opObjSetTag else if code = 0x0107 then some opObjLock
  else if code = 0x0108 then some opObjUnlock else if code = 0x0109 then some opUnitClearSuspect else none

/-- The holder runs steps 8 to 14 on a relayed request. -/
def State.relayServe (s : State) (p : FPiece) (owner : BitVec 256) (tag : Nat) (pkt : Bytes) : State :=
  let cls := beAt pkt 3 1
  let ver := beAt pkt 0 1
  let item := beAt pkt 4 4
  let code := beAt pkt 8 2
  let r : Req := ⟨0, BitVec.ofNat 8 ver, 0, BitVec.ofNat 8 tag, BitVec.ofNat 8 cls, BitVec.ofNat 32 item,
    BitVec.ofNat 16 (beAt pkt 10 2), pkt.drop 12⟩
  match relayedOp code, framing r with
  | some d, .ok ts =>
    let q : Q := ⟨r, tag, owner, ver, none, 4, ts⟩
    let s' := match d.later s q with
      | some f => s.refuseQ q d.code true f
      | none => d.accept s q
    match s'.out with
    | .relayReply _ _ op st res :: rest =>
      ({ s' with out := rest }).relayBack p.peer p.src owner tag cls ver item op st res
    | _ => s'
  | _, _ => s

/-- BATON: a relayed request or its reply arrives on a link (R90, R91, R441). -/
def execBaton (p : FPiece) (s : State) : Res :=
  match s.furunPiece 6 p with
  | (s, none) => .next s
  | (s, some b) =>
    let owner : BitVec 256 := BitVec.ofNat 256 (beAt b 0 32)
    let tag := beAt b 32 1
    let pkt := b.drop 36
    let item := beAt pkt 4 4
    if bit1 (beAt pkt 1 1) 0 = 1 then
      match s.furun.relayed.find? fun x => x.owner == owner && x.item == item && x.fwd == p.peer with
      | none => .next s
      | some x =>
        let s : State := { s with furun := { s.furun with relayed := s.furun.relayed.filter fun y => !(y.owner == owner && y.item == item) } }
        match x.back with
        | some back => .next (s.furunPass back 6 p.cls.toNat p.src p.dst b)
        | none =>
          let code := beAt pkt 10 2
          let st := [Status.ok, .pending, .failed, .abortedReset, .abortedCancel, .denied, .locked, .badVersion, .badOpcode,
            .badParam, .noObject, .busy, .noBudget, .wrongMode, .stale, .unknownItem].find? fun st => st.code == code
          match s.item? owner item with
          | none => .next s
          | some i =>
            let (res, more, s) := s.relayedPage i (pkt.drop 14)
            .next (s.endItem owner item (st.getD .failed) res more)
    else if s.serves p.dst then
      if beAt pkt 8 2 = 4 then .next s -- a generic request has ended by the time its CANCEL arrives (R87)
      else .next (s.relayServe p owner tag pkt)
    else
      match (if s.noAnchorAt p.dst then none else s.pathTo p.dst) with
      | some l =>
        -- a CANCEL is no item: nothing waits for its answer
        let r : FRelayed := ⟨owner, item, some p.peer, l.peer, p.src, tag, beAt pkt 3 1, beAt pkt 0 1, beAt pkt 8 2⟩
        let s : State := { s with furun := { s.furun with relayed := s.furun.relayed ++ if beAt pkt 8 2 = 4 then [] else [r] } }
        .next (s.furunPass l.peer 6 p.cls.toNat p.src p.dst b)
      | none => if beAt pkt 8 2 = 4 then .next s else .next (s.relayBack p.peer p.src owner tag (beAt pkt 3 1) (beAt pkt 0 1) item (beAt pkt 8 2) Status.failed.code [])

end Sys2Proof.Machine
end

