-- ==== Sys2Proof/Machine/Eth.lean ====
section
/-! DEFINITION. Machine/Eth.lean: the Ethernet ports: links, the receive filter, LLDP, EEE and Stride (chapter 16,
16.1 to 16.5 and 16.11). -/

namespace Sys2Proof.Machine

/-- PD_NET is on: the ETH block works. -/
def State.ethOn (s : State) : Bool := s.blkOn 10

/-- Port floor and ceiling of R126: Table 5.2, LEDGER_PORT_LIM and what the supply carries. T0 and T1 always run at 10 Mbit/s, code 3. -/
def State.portRange (s : State) (p : Nat) : Nat × Nat :=
  if p ≥ 2 then (3, 3) else
  -- in HOLDUP the rate is held (Table 5.2)
  if s.mode = modeHoldup then (let r := s.get (if p = 0 then F.LEDGER_EFF_E0 else F.LEDGER_EFF_E1); (r, r)) else
  let (pf, pc) := if p = 0 then (s.get F.LEDGER_PORT_LIM_E0_FLOOR, s.get F.LEDGER_PORT_LIM_E0_CEIL)
    else (s.get F.LEDGER_PORT_LIM_E1_FLOOR, s.get F.LEDGER_PORT_LIM_E1_CEIL)
  let mf := if s.mode = modeSprint then 2 else 0
  let cap := if p = 0 then s.ledger.caps.1 else s.ledger.caps.2
  let ceil := min 2 pc
  (min (min (max mf pf) ceil) cap, min ceil cap)

/-- The rates that a port allows, as a set of codes. -/
def State.portRates (s : State) (p : Nat) : List Nat :=
  let (f, c) := s.portRange p
  (List.range 4).filter fun r => f ≤ r && r ≤ c

/-- Mbit/s of a rate code. -/
def rateMbit (r : Nat) : Nat := if r = 0 then 100 else if r = 1 then 1000 else if r = 2 then 2500 else 10

/-- LEDGER_EFF shows the rate of E0 and E1. -/
def State.effRate (s : State) (p r : Nat) : State :=
  if p = 0 then s.put F.LEDGER_EFF_E0 r else if p = 1 then s.put F.LEDGER_EFF_E1 r else s

/-- For 2 s after a Stride or link change a port does not update the servo (R452). -/
def State.servoHold (s : State) (p : Nat) : State := s.modPort p fun x => { x with servoAt := s.clk + 2 * sec }

/-- ETH_LINK event and interrupt condition 0. -/
def State.linkEvent (s : State) (p : Nat) (up : Bool) (rate reason : Nat) : State :=
  ((s.servoHold p).cond 10 0).raise 0x0A01 5 0 (natBE 1 p ++ natBE 1 (b2n up) ++ natBE 1 rate ++ natBE 1 reason)

/-- LYSRIX changes (R425). -/
def State.setLysrix (s : State) (p : Nat) (v : Bool) : State :=
  if s.get (F.ETH_PSTAT_LYSRIX p) = b2n v then s else (s.put (F.ETH_PSTAT_LYSRIX p) (b2n v)).cond 10 3

/-- Forget what belongs to a link that has gone down; a Stride change in progress ends. -/
def State.linkClear (s : State) (p : Nat) : State :=
  let s := (s.put (F.ETH_PSTAT_LINK p) 0).put (F.ETH_PSTAT_LPI p) 0
  let s := s.setLysrix p false
  let s := if s.get (F.ETH_PSTAT_STRIDE p) = 3 then s else s.put (F.ETH_PSTAT_STRIDE p) 0
  s.modPort p fun x => { x with
    partner := 0, eee := 0, tlv := none, tlvSent := false, req := none, target := none, markTx := false, markRx := false }

/-- ETH_LINK: a port links up at a common rate, or goes down (R416, R418). -/
def execEthLink (p : Fin 4) (up : Bool) (rates : BitVec 4) (half : Bool) (eee : BitVec 4) (s : State) : Res :=
  let n := p.val
  if !s.ethOn then .next s else
  let was := s.get (F.ETH_PSTAT_LINK n) = 1
  let rate := s.get (F.ETH_PSTAT_RATE n)
  if !up then
    if was then .next ((s.linkClear n).linkEvent n false rate 0) else .next s
  else if s.get (F.ETH_PCFG_EN n) = 0 then .next s
  else if half then .next ((s.linkClear n).linkEvent n false rate 2)
  else
    let common := (s.portRates n).filter fun r => bit1 rates.toNat r == 1
    match common.getLast? with
    | none => .next ((s.linkClear n).linkEvent n false rate 1)
    | some r =>
      let s := s.linkClear n
      let s := (s.put (F.ETH_PSTAT_LINK n) 1).put (F.ETH_PSTAT_RATE n) r
      let s := (s.effRate n r).modPort n fun x => { x with partner := rates.toNat, eee := eee.toNat, failAt := none, idleAt := s.clk }
      let s := if was && rate ≠ r then s.cond 10 1 else s
      .next ((s.linkEvent n true r 0).egressFlow n)

/-- The addresses that reach PTP and LLDP (R420). -/
def lldpMac : Nat := 0x0180C200000E
def bcastMac : Nat := 0xFFFFFFFFFFFF

/-- ETH_FRAME_RECEIVED: the filter accepts and counts a frame, or discards and counts it (R416, R420, R24). -/
def execEthFrameReceived (p : Fin 4) (f : EthFrame) (s : State) : Res :=
  let n := p.val
  if !s.ethOn || s.get (F.ETH_PCFG_EN n) = 0 || f.pause then .next s else
  let top := if f.vlan then 1522 else 1518
  if f.bad || f.len.toNat > top then .next (s.modPort n fun x => { x with rxErr := (x.rxErr + 1) % 2 ^ 32 }) else
  let x := s.port n
  let hit := x.flt.any (fun e => e.2 && e.1 == f.dst.toNat) ||
    (f.dst.toNat == bcastMac && s.get (F.ETH_PCFG_BCAST n) == 1) ||
    (f.dst.toNat == lldpMac && (s.get (F.ETH_PCFG_LLDP_EN n) == 1 || s.get (F.ETH_PCFG_PTP_EN n) == 1))
  if !hit then .next (s.modPort n fun x => { x with rxFilt := (x.rxFilt + 1) % 2 ^ 32 }) else
  .next (s.modPort n fun x => { x with
    rxf := (x.rxf + 1) % 2 ^ 64, c0recl := if f.c0 then (x.c0recl + 1) % 2 ^ 32 else x.c0recl })

/-- LLDP_RECEIVED: the PSE's allocation, or the partner's Stride TLV (R121, R419, R425). -/
def execLldpReceived (p : Fin 4) (alloc : Option Byte) (stride : Option (BitVec 4)) (s : State) : Res :=
  let n := p.val
  if !s.ethOn || s.get (F.ETH_PCFG_LLDP_EN n) = 0 || s.get (F.ETH_PSTAT_LINK n) = 0 then .next s else
  let s := match alloc with
    | some a =>
      if n = 0 then
        let new := s.get F.LEDGER_SRC_VIN = 0 && (!s.ledger.lldp || s.get F.LEDGER_SRC_PSE_ALLOC ≠ a.toNat)
        { s.put F.LEDGER_SRC_PSE_ALLOC a.toNat with ledger := { s.ledger with lldp := true, moved := s.ledger.moved || new } }
      else s
    | none => s
  match stride with
  | some r =>
    if n ≥ 2 then .next s else
    let s := s.modPort n fun x => { x with tlv := some r.toNat, tlvAt := s.clk }
    .next (if (s.port n).tlvSent then s.setLysrix n true else s)
  | none => .next s

/-- LLDP_SEND: every 30 s the power request on E0 and the Stride TLV on E0 and E1 (R419, R425). -/
def execLldpSend (s : State) : Res :=
  if !s.ethOn then .next s else
  let s := s.reach ((s.clk / (30 * sec) + 1) * (30 * sec))
  .next ((List.range 4).foldl (fun s n =>
    if s.get (F.ETH_PCFG_LLDP_EN n) = 0 || s.get (F.ETH_PSTAT_LINK n) = 0 then s else
    let strideOn := n < 2 && s.get (F.ETH_PCFG_STRIDE_EN n) = 1
    let rates := (s.portRates n).foldl (fun a r => a + 2 ^ r) 0
    -- requested power in units of 0.1 W; Stride version 1 and rates
    let body := (if n = 0 then natBE 2 713 else []) ++ (if strideOn then natBE 1 1 ++ natBE 1 rates else [])
    let s := (s.ethSend n 2 (.eth n 0x88CC body)).modPort n fun x => { x with tlvSent := x.tlvSent || strideOn }
    if strideOn && ((s.port n).tlv).isSome then s.setLysrix n true else s) s)

/-- LYSRIX_TIMEOUT: the partner's Stride TLV has been absent for 120 s (R425). -/
def execLysrixTimeout (p : Fin 4) (s : State) : Res :=
  let n := p.val
  if s.get (F.ETH_PSTAT_LYSRIX n) = 0 then .next s else
  let s := s.reach ((s.port n).tlvAt + 120 * sec)
  .next ((s.modPort n fun x => { x with tlv := none }).setLysrix n false)

/-- LPI_ENTRY: the egress queues have been empty for 100 µs (R115, R424). -/
def execLpiEntry (p : Fin 4) (s : State) : Res :=
  let n := p.val
  let x := s.port n
  if n < 2 && s.ethOn && s.get (F.ETH_PSTAT_LINK n) = 1 && s.get F.LEDGER_PORT_LIM_LPI_EN = 1 && s.mode ≠ modeSprint &&
      bit1 x.eee (s.get (F.ETH_PSTAT_RATE n)) = 1 && x.egress.isEmpty && x.target.isNone && s.get (F.ETH_PSTAT_C0LOCK n) = 0 then
    .next ((s.reach (x.idleAt + 100 * usec)).put (F.ETH_PSTAT_LPI n) 1)
  else .next s

/-! ### Stride (R425 to R428) -/

/-- A Stride control frame (R427). -/
def strideFrame (sub rate seq : Nat) : Bytes := natBE 1 sub ++ natBE 1 rate ++ natBE 1 seq

def State.strideTx (s : State) (n sub rate seq : Nat) : State :=
  s.wireOut n 0 (.eth n 0x88B5 (strideFrame sub rate seq))

/-- Both ends have agreed on a rate: the MARK goes out as the last frame at the old one. -/
def State.strideMark (s : State) (n rate : Nat) : State :=
  let s := (s.strideTx n 4 rate 0).put (F.ETH_PSTAT_STRIDE n) 2
  s.modPort n fun x => { x with req := none, target := some rate, markTx := true, markRx := false, markAt := s.clk }

/-- The rate that the offered load calls for (R426), or that the ledger demands (R126, R423). -/
def State.strideWant (s : State) (n load : Nat) (deep : Bool) : Option (Nat × Bool) :=
  let (f, c) := s.portRange n
  let r := s.get (F.ETH_PSTAT_RATE n)
  if r < f then some (f, true) else if r > c then some (c, true)
  else if s.get (F.ETH_PSTAT_C0LOCK n) = 1 then none
  else if load * 100 > rateMbit r * 70 || deep then
    let up := ((List.range 3).filter fun q => q > r && q ≤ c)
    ((up.find? fun q => load * 2 < rateMbit q).orElse fun _ => up.getLast?).map fun q => (q, false)
  else if r > f && load * 4 < rateMbit (r - 1) then some (r - 1, false)
  else none

/-- STRIDE_TRIGGER: offered load held past its threshold, or a demand of the ledger, proposes a rate (R426, R427). -/
def execStrideTrigger (p : Fin 4) (load : W32) (deep : Bool) (s : State) : Res :=
  let n := p.val
  let x := s.port n
  let s := s.strideUnbar n
  if n ≥ 2 || !s.ethOn || s.get (F.ETH_PCFG_STRIDE_EN n) = 0 || s.get (F.ETH_PSTAT_LYSRIX n) = 0 ||
      s.get (F.ETH_PSTAT_LINK n) = 0 || s.get (F.ETH_PSTAT_STRIDE n) ≠ 0 || s.clk < x.barTill then .next s else
  match s.strideWant n load.toNat deep with
  | none => .next s
  | some (rate, led) =>
    let q := (x.seq + 1) % 256
    let s := (s.strideTx n 1 rate q).put (F.ETH_PSTAT_STRIDE n) 1
    .next (s.modPort n fun x => { x with req := some (rate, q), seq := q, reqAt := s.clk, byLedger := led })

/-- STRIDE_REQ: a received request is answered with ACK, or with NAK for a rate outside the range, between a MARK and the lock, and while
Stride is barred; of two that cross, the one of the end with the lower MAC address proceeds (R427, R428). -/
def execStrideReq (p : Fin 4) (rate : BitVec 2) (seq : Byte) (lower : Bool) (s : State) : Res :=
  let n := p.val
  let x := s.port n
  let s := s.strideUnbar n
  if n ≥ 2 || !s.ethOn || s.get (F.ETH_PCFG_STRIDE_EN n) = 0 || s.get (F.ETH_PSTAT_LYSRIX n) = 0 ||
      s.get (F.ETH_PSTAT_LINK n) = 0 then .next s else
  if x.target.isSome || s.get (F.ETH_PSTAT_STRIDE n) = 3 then .next (s.strideTx n 3 rate.toNat seq.toNat) else
  if x.req.isSome && !lower then .next s else
  if !((s.portRates n).contains rate.toNat) then
    .next (((s.strideTx n 3 rate.toNat seq.toNat).put (F.ETH_PSTAT_STRIDE n) 0).modPort n fun x => { x with req := none })
  else
  let s := (s.strideTx n 2 rate.toNat seq.toNat).modPort n fun x => { x with byLedger := false }
  .next (s.strideMark n rate.toNat)

/-- STRIDE_ACK: the end sends its MARK (R427). -/
def execStrideAck (p : Fin 4) (seq : Byte) (s : State) : Res :=
  let n := p.val
  match (s.port n).req with
  | some (rate, q) => if q = seq.toNat then .next (s.strideMark n rate) else .next s
  | none => .next s

/-- STRIDE_NAK: the rate stays (R427). -/
def execStrideNak (p : Fin 4) (seq : Byte) (s : State) : Res :=
  let n := p.val
  match (s.port n).req with
  | some (_, q) =>
    if q = seq.toNat then .next ((s.put (F.ETH_PSTAT_STRIDE n) 0).modPort n fun x => { x with req := none }) else .next s
  | none => .next s

/-- STRIDE_MARK: the partner has sent its last frame at the old rate (R427). -/
def execStrideMark (p : Fin 4) (s : State) : Res :=
  let n := p.val
  if (s.port n).target.isNone then .next s else
  .next (s.modPort n fun x => { x with markRx := true, markAt := s.clk })

/-- STRIDE_ANSWER_TIMEOUT: no answer within 1 ms (Table 16.3). -/
def execStrideAnswerTimeout (p : Fin 4) (s : State) : Res :=
  let n := p.val
  if (s.port n).req.isNone then .next s else
  let s := s.reach ((s.port n).reqAt + msec)
  .next ((s.put (F.ETH_PSTAT_STRIDE n) 0).modPort n fun x => { x with req := none, barTill := s.clk + sec })

/-- STRIDE_LOCK: both PHYs have locked at the new rate (R427). -/
def execStrideLock (p : Fin 4) (s : State) : Res :=
  let n := p.val
  let x := s.port n
  match x.target with
  | none => .next s
  | some r =>
    if !(x.markTx && x.markRx) then .next s else
    let old := s.get (F.ETH_PSTAT_RATE n)
    let s := ((s.put (F.ETH_PSTAT_RATE n) r).put (F.ETH_PSTAT_STRIDE n) 0).effRate n r
    let s := s.modPort n fun x => { x with target := none, markTx := false, markRx := false, strides := (x.strides + 1) % 2 ^ 32 }
    let s := ((s.servoHold n).cond 10 1).raise 0x0A02 6 0 (natBE 1 n ++ natBE 1 old ++ natBE 1 r ++ natBE 1 (b2n x.byLedger))
    .next (s.egressFlow n)

/-- ETH_STRIDE_FAIL: no lock within 2 ms of the later MARK: the link drops and Stride is barred for 60 s (R428). -/
def execEthStrideFail (p : Fin 4) (s : State) : Res :=
  let n := p.val
  let x := s.port n
  match x.target with
  | none => .next s
  | some r =>
    if !(x.markTx && x.markRx) then .next s else
    let s := s.reach (x.markAt + 2 * msec)
    let s := s.linkClear n
    let s := (s.put (F.ETH_PSTAT_STRIDE n) 3).modPort n fun x => { x with barTill := s.clk + 60 * sec, failAt := some s.clk }
    let s := (s.cond 10 2).raise 0x0A03 3 0 (natBE 1 n ++ natBE 1 r ++ natBE 4 0)
    .next (s.linkEvent n false r 0)

/-- TX_DROP_TIMEOUT: the link has been down for more than 1 s after a failed change: the queued C1 to C3 frames are discarded, and `n`
that the port's own time protocol had queued (R428). -/
def execTxDropTimeout (p : Fin 4) (n : W32) (s : State) : Res :=
  match (s.port p.val).failAt with
  | none => .next s
  | some t =>
    if s.get (F.ETH_PSTAT_LINK p.val) = 1 then .next s else
    .next ((s.reach (t + sec)).modPort p.val fun x => { x with
      txDrop := (x.txDrop + (x.egress.filter fun y => y.cls != 0).length + n.toNat) % 2 ^ 32
      egress := x.egress.filter fun y => y.cls == 0
      failAt := none })

/-! ### Filter entries -/

/-- Commit entry e of a port's filter (R420). -/
def State.setFilter (s : State) (p e mac : Nat) (valid : Bool) : State :=
  let s := s.wr (Reg.ETH_FLTLO p e) (mac % 2 ^ 32)
  let s := (s.put (F.ETH_FLTHI_VALID p e) (b2n valid)).put (F.ETH_FLTHI_MACHI p e) (mac / 2 ^ 32)
  s.modPort p fun x => { x with flt := setNth x.flt e (mac, valid) }

/-- Entries 0 and 1 as loaded at start: the port's own address and its solicited-node multicast address (R420). -/
def State.filterStart (s : State) (p : Nat) : State :=
  let mac := (Config.macAddr p).toNat
  (s.setFilter p 0 mac true).setFilter p 1 (0x3333FF000000 + mac % 2 ^ 24) true

/-- ETH_FLTHI_WRITE: the write of the high word commits the entry; entries 0 and 1 are RO (R102, R420). -/
def execEthFlthiWrite (p : Fin 4) (e : Fin 16) (val : W32) (s : State) : Res :=
  if e.val < 2 || !s.ethOn then .next s else
  let lo := s.rd (Reg.ETH_FLTLO p.val e.val)
  .next (s.setFilter p.val e.val (bitsOf val.toNat 15 0 * 2 ^ 32 + lo) (bit1 val.toNat 31 == 1))

/-! ### ETH opcodes (R445) -/

def tPort : Nat := 0x0A01
def tPortSetup : Nat := 0x0A02
def tFilterEntry : Nat := 0x0A03
def tIpSetup : Nat := 0x0A04
def tNetSetup : Nat := 0x0A05

/-- A configuration that takes effect 10 ms after its reply (R445). -/
def State.pendCfg (s : State) (q : Q) (opcode : Nat) : State :=
  { s with furun := { s.furun with
    pend := s.furun.pend ++ [⟨s.clk + 10 * msec, opcode, q.tlvs.map fun t => (t.typ, t.val)⟩] } }

def portChk : Chk := rangeChk tPort fun v => v ≤ 3

def opEthPortCfg : OpDef where
  code := 0x0A01
  blk := 10
  schema := [{ typ := tPort, lo := 1, hi := 1 }, { typ := tPortSetup, lo := 8, hi := 8 }]
  form := allChk [portChk, fun _ q =>
    let b := tv q.tlvs tPortSetup
    let cfg := beAt b 0 4
    let w := beAt b 4 4
    let w1 := bitsOf w 7 0
    let w2 := bitsOf w 15 8
    let w3 := bitsOf w 23 16
    imgFault q.tlvs tPortSetup [(Reg.ETH_PCFG 0, cfg), (Reg.ETH_WGT 0, w)]
      (1 ≤ bitsOf cfg 11 0 && bitsOf cfg 11 0 ≤ 4094 && w1 ≠ 0 && w2 ≠ 0 && w3 ≠ 0 && w1 + w2 + w3 == 100)]
  perm := onlyOperator
  run := fun s q =>
    let carrier := (q.sess.bind s.session?).map (·.port)
    if bit1 (beAt (tv q.tlvs tPortSetup) 0 4) 31 = 0 && carrier = some (tn q.tlvs tPort) then .refuse { status := .busy }
    else .done .ok [] (s.pendCfg q 0x0A01)

def opEthFilterSet : OpDef where
  code := 0x0A02
  blk := 10
  schema := [{ typ := tPort, lo := 1, hi := 1 }, { typ := tFilterEntry, lo := 8, hi := 8, maxN := 14 }]
  form := allChk [portChk, fun _ q =>
    if (tvs q.tlvs tFilterEntry).all fun b => 2 ≤ beAt b 0 1 && beAt b 0 1 ≤ 15 && beAt b 1 1 ≤ 1 then none
    else some (badAt q.tlvs tFilterEntry 0x0008)]
  perm := onlyOperator
  run := fun s q => .done .ok [] (s.pendCfg q 0x0A02)

def opEthIpCfg : OpDef where
  code := 0x0A03
  blk := 10
  schema := [{ typ := tPort, lo := 1, hi := 1 }, { typ := tIpSetup, lo := 24, hi := 24 }]
  form := allChk [portChk, fun _ q =>
    let b := tv q.tlvs tIpSetup
    if beAt b 22 2 ≠ 0 then some (badAt q.tlvs tIpSetup 0x0005)
    else if beAt b 16 1 > 128 || beAt b 21 1 > 32 then some (badAt q.tlvs tIpSetup 0x0008) else none]
  perm := onlyOperator
  run := fun s q => .done .ok [] (s.pendCfg q 0x0A03)

def opEthNetCfg : OpDef where
  code := 0x0A04
  blk := 10
  schema := [{ typ := tNetSetup, lo := 4, hi := 4 }]
  form := rangeChk tNetSetup fun v =>
    1024 ≤ bitsOf v 31 16 && 1024 ≤ bitsOf v 15 0 && bitsOf v 31 16 != bitsOf v 15 0
  perm := onlyOperator
  run := fun s q => .done .ok [] (s.pendCfg q 0x0A04)

/-- The words of Table 16.8 for a port, in offset order. -/
def EthPort.words (x : EthPort) : List Nat :=
  [x.txf % 2 ^ 32, x.txf / 2 ^ 32, x.rxf % 2 ^ 32, x.rxf / 2 ^ 32, x.rxFilt, x.rxErr, x.txDrop, x.c0recl, x.strides]

def opEthStatus : OpDef where
  code := 0x0A05
  blk := 10
  schema := [{ typ := tPort, lo := 1, hi := 1 }]
  form := portChk
  perm := operatorOrService
  run := fun s q =>
    let p := tn q.tlvs tPort
    .done .ok (tlv 0x0A06 (natBE 4 ((s.strideUnbar p).rd (Reg.ETH_PSTAT p)) ++ (((s.port p).words).map fun w => natBE 4 w).flatten)) s

def execEthPortCfg (r : Req) (s : State) : Res := .next (batonRun opEthPortCfg r s)
def execEthFilterSet (r : Req) (s : State) : Res := .next (batonRun opEthFilterSet r s)
def execEthIpCfg (r : Req) (s : State) : Res := .next (batonRun opEthIpCfg r s)
def execEthNetCfg (r : Req) (s : State) : Res := .next (batonRun opEthNetCfg r s)
def execEthStatus (r : Req) (s : State) : Res := .next (batonRun opEthStatus r s)

/-- The value of a held configuration's TLV. -/
def FPend.val (x : FPend) (t : Nat) : Bytes := ((x.tlvs.find? fun p => p.1 == t).map (·.2)).getD []

/-- A port that is no longer enabled loses its link. -/
def State.portOff (s : State) (p : Nat) : State :=
  if s.get (F.ETH_PCFG_EN p) = 0 && s.get (F.ETH_PSTAT_LINK p) = 1 then
    (s.linkClear p).linkEvent p false (s.get (F.ETH_PSTAT_RATE p)) 0
  else s

/-- A held ETH configuration takes effect (R445). -/
def State.ethApply (s : State) (x : FPend) : State :=
  let p := beNat (x.val tPort)
  if x.opcode = 0x0A01 then
    let b := x.val tPortSetup
    (s.setImgs [(Reg.ETH_PCFG p, beAt b 0 4), (Reg.ETH_WGT p, beAt b 4 4)]).portOff p
  else if x.opcode = 0x0A02 then
    (x.tlvs.filter fun t => t.1 == tFilterEntry).foldl (fun s t =>
      let e := beAt t.2 0 1
      let s := s.setFilter p e (beAt t.2 2 6) (beAt t.2 1 1 == 1)
      (s.store (Reg.ETH_FLTLO p e)).store (Reg.ETH_FLTHI p e)) s
  else if x.opcode = 0x0A03 then
    let b := x.val tIpSetup
    s.modPort p fun y => { y with ip6 := beAt b 0 16, pre6 := beAt b 16 1, ip4 := beAt b 17 4, pre4 := beAt b 21 1 }
  else if x.opcode = 0x0A04 then s.setImgs [(Reg.ETH_NET, beNat (x.val tNetSetup))]
  else s

end Sys2Proof.Machine
end

