-- ==== Sys2Proof/Machine/Furun.lean ====
section
/-! DEFINITION. Machine/Furun.lean: the commands of Furun: links, heartbeats, votes, hand-overs, replicas, the mirror publication
and the FURUN opcodes (chapter 16, 16.6 to 16.13; 2.5, 2.7). -/

namespace Sys2Proof.Machine

/-! ### Links and heartbeats (R431, R435) -/

/-- The body of the module's HELLO: versions 3 to 5, HB_MS, hardware type, and the groups it shares with the peer. -/
def State.helloBody (s : State) (peer : W64) : Bytes :=
  let gs := s.parts.filter fun x => addrUnder peer x.addr
  natBE 1 3 ++ natBE 1 5 ++ natBE 2 (s.get F.FURUN_CFG_HB_MS) ++ natBE 2 0x0960 ++ natBE 2 0 ++
    (gs.map fun x => natBE 8 x.addr.toNat ++ natBE 8 (s.groupDigest x.addr)).flatten

/-- FURUN_CFG_MISMATCH: the peer and the group or HB_MS (R431). -/
def State.cfgMismatch (s : State) (peer : W64) (what : Nat) : State :=
  (s.cond 11 2).raise 0x0B03 3 0 (natBE 8 peer.toNat ++ natBE 4 what)

/-- The hello of a link that opens: emitted as a piece of version 5, the module's highest, because no version is agreed yet. -/
def State.helloSend (s : State) (peer : W64) : State :=
  let ps := pieceBytes 5 1 2 s.own peer (s.helloBody peer)
  let s : State := { s with furun := { s.furun with sent := (s.furun.sent + 1) % 2 ^ 32 } }
  s.furunOut (s.endOf peer) peer 2 ps

/-- FURUN_HELLO: a peer's HELLO opens the link at the highest common version (R430, R431). -/
def execFurunHello (p : FPiece) (s : State) : Res :=
  let lo := beAt p.body 0 1
  let hi := beAt p.body 1 1
  if !(s.keys.linkSlots.any fun l => l.peer == p.peer) || p.len.toNat ≠ p.body.length then .next s else
  if ((s.link? p.peer).map fun l => !(seqOk l.seen p.seq.toNat)).getD false then .next s else
  if !(s.isMember p.peer) then .next (s.linkDown p.peer) else
  if (s.link? p.peer).isNone && s.furun.links.length ≥ 256 then
    .next ((s.linkDown p.peer).raise 0x0B04 3 0 (natBE 8 p.peer.toNat)) else
  let v := min 5 hi
  if v < max 3 lo then
    .next ((s.linkDown p.peer).raise 0x0B02 4 0 (natBE 8 p.peer.toNat ++ natBE 1 lo ++ natBE 1 hi)) else
  let hb := beAt p.body 2 2
  let n := (p.body.length - 8) / 16
  let ds := (List.range n).map fun k => ((BitVec.ofNat 64 (beAt p.body (8 + 16 * k) 8) : W64), beAt p.body (16 + 16 * k) 8)
  let old := s.link? p.peer
  let l : FLink := match old with
    | some l => { l with ver := v, hbMs := hb, digests := ds, seen := seqKeep l.seen p.seq.toNat, range := (lo, hi) }
    | none => ⟨p.peer, v, hb, ds, none, 0, false, 0, 0, 0, 0, [], [p.seq.toNat], [], false, false, s.clk, (lo, hi)⟩
  let s : State := { s with furun := { s.furun with
    links := s.furun.links.filter (fun x => x.peer != p.peer) ++ [l]
    recv := (s.furun.recv + 1) % 2 ^ 32 } }
  let s := if old.isNone then s.linkEv p.peer true v else s
  let s := (ds.filter fun d => s.takesPart d.1 && d.2 ≠ s.groupDigest d.1).foldl
    (fun s d => s.cfgMismatch p.peer (d.1.toNat / 2 ^ 32)) s
  let s := if hb ≠ s.get F.FURUN_CFG_HB_MS then s.cfgMismatch p.peer hb else s
  .next s.roleSync

/-- HEARTBEAT_SEND: every HB_MS a heartbeat on each link (R435). -/
def execHeartbeatSend (s : State) : Res :=
  let s := s.reach (s.furun.hbAt + s.hbNs)
  let s : State := { s with furun := { s.furun with hbAt := s.clk } }
  .next (s.heartbeats s.mode)

/-- HEARTBEAT: a heartbeat arrives (R435). -/
def execHeartbeat (p : FPiece) (s : State) : Res :=
  match s.furunPiece 2 p with
  | (s, none) => .next s
  | (s, some b) => .next (s.heartbeatRx p.peer b)

/-- CONTACT_LOST: three heartbeat intervals without a heartbeat, of a peer's or, for a group that has no anchor yet, of an anchor's
since start (R45, R435). -/
def execContactLost (unit : W64) (s : State) : Res :=
  match s.link? unit with
  | some l =>
    match l.last with
    | some t => if l.contact then .next ((s.reach (t + 3 * l.hbMs * msec)).peerLost unit) else .next s
    | none => .next s
  | none =>
    match s.fgroup? unit with
    | some x =>
      if x.anchor.isNone && x.noneAt.isNone && x.vote.isNone then
        .next ((s.reach (s.startClk + 3 * s.hbNs)).anchorLost unit)
      else .next s
    | none => .next s

/-- REASM_TIMEOUT: messages whose pieces are not all present within 1 s of the first are discarded (R434). -/
def execReasmTimeout (peer : W64) (s : State) : Res :=
  match s.link? peer with
  | none => .next s
  | some l =>
    match l.parts.map (·.since) with
    | [] => .next s
    | t :: ts =>
      let s := s.reach (ts.foldl min t + sec)
      let keep := l.parts.filter fun x => x.since + sec > s.clk
      let s := s.modLink peer fun l => { l with parts := keep }
      .next { s with furun := { s.furun with reasmDrop := (s.furun.reasmDrop + (l.parts.length - keep.length)) % 2 ^ 32 } }

/-! ### Votes and anchors (R436, R46) -/

/-- VOTE: a proposal arrives; older epochs are discarded (R48). -/
def execVote (p : FPiece) (s : State) : Res :=
  match s.furunPiece 3 p with
  | (s, none) => .next s
  | (s, some b) =>
    let g : W64 := BitVec.ofNat 64 (beAt b 0 8)
    let epoch := beAt b 8 4
    let hop := beAt b 12 1
    let from_ := beAt b 13 1
    match s.fgroup? g with
    | none => .next s
    | some x =>
      if !(s.takesPart g) || epoch ≤ x.epoch || bit1 x.members.toNat from_ = 0 then .next s else
      let v : FVote := x.vote.getD ⟨epoch, [], s.clk, 0⟩
      if epoch < v.epoch then .next s else
      let v : FVote := if epoch > v.epoch then { v with epoch := epoch, props := [] } else v
      let v : FVote := { v with props := (from_, hop) :: v.props.filter fun q => q.1 ≠ from_ }
      .next ((s.modGroup g fun y => { y with vote := some v }).decide g)

/-- ANCHOR: an announcement with a higher epoch is adopted (R436). -/
def execAnchor (p : FPiece) (s : State) : Res :=
  match s.furunPiece 4 p with
  | (s, none) => .next s
  | (s, some b) =>
    let g : W64 := BitVec.ofNat 64 (beAt b 0 8)
    let epoch := beAt b 8 4
    match s.fgroup? g with
    | none => .next s
    | some x => if epoch > x.epoch && beAt b 12 1 ≠ 0 then .next (s.adopt g epoch (beAt b 12 1) 0) else .next s

/-- VOTE_TIMEOUT: a vote not decided within 2 heartbeat intervals is repeated; after 3 the group has no anchor (R46). -/
def execVoteTimeout (grp : W64) (s : State) : Res :=
  match s.fgroup? grp with
  | none => .next s
  | some x =>
    match x.vote with
    | none => .next s
    | some v =>
      let s := s.reach (v.since + 2 * s.hbNs)
      if v.tries = 0 then .next (s.modGroup grp fun y => { y with vote := none })
      else if v.tries < 3 then .next (s.propose grp (v.tries + 1))
      else
        let s := s.modGroup grp fun y => { y with vote := none, anchor := none, noneAt := some (y.noneAt.getD s.clk) }
        let s := if x.noneAt.isNone then s.raise 0x0B12 2 0 (natBE 8 grp.toNat ++ natBE 1 v.tries) else s
        .next s.roleSync

/-- ISLAND_REVOTE: a group without an anchor holds a new vote every island timeout (R46). -/
def execIslandRevote (grp : W64) (s : State) : Res :=
  match s.fgroup? grp with
  | none => .next s
  | some x =>
    match x.noneAt with
    | none => .next s
    | some t =>
      if x.vote.isSome then .next s else
      let s := s.reach (t + s.get F.LEDGER_MODE_CFG_ISL_TO * sec)
      .next ((s.modGroup grp fun y => { y with noneAt := some s.clk }).anchorLost grp)

/-! ### Hand-over (R437) -/

/-- A HANDOVER message. -/
def handBody (g : W64) (epoch hop phase : Nat) : Bytes :=
  natBE 8 g.toNat ++ natBE 4 epoch ++ natBE 1 hop ++ natBE 1 phase ++ natBE 2 0

/-- HANDOVER: offer, accept or commit (R437, R48). -/
def execHandover (p : FPiece) (s : State) : Res :=
  match s.furunPiece 5 p with
  | (s, none) => .next s
  | (s, some b) =>
    let g : W64 := BitVec.ofNat 64 (beAt b 0 8)
    let epoch := beAt b 8 4
    let hop := beAt b 12 1
    let phase := beAt b 13 1
    match s.fgroup? g with
    | none => .next s
    | some x =>
      if phase = 0 then
        if epoch ≥ x.epoch && hop = s.hopIn g && s.ownEligible g then
          .next (s.furunSend p.peer 5 2 p.src (handBody g epoch hop 1))
        else .next s
      else if phase = 1 then
        match s.furun.hands.find? fun h => h.grp == g && h.hop == hop && !h.committed with
        | none => .next s
        | some h =>
          if epoch ≠ x.epoch || !(s.anchors g) || !((s.linkTo g hop).any fun l => l.peer == p.peer) then .next s else
          let s := s.toMembers x 5 (handBody g (x.epoch + 1) hop 2)
          let s : State := { s with
            furun := { s.furun with hands := s.furun.hands.map fun y => if y.grp = g then { y with committed := true, since := s.clk } else y }
            baton := { s.baton with items := s.baton.items.map fun i =>
              if i.owner = h.owner && i.item = h.item then { i with ponr := true } else i } }
          .next (s.adopt g (x.epoch + 1) hop 2).handCheck
      else if phase = 2 && epoch > x.epoch then .next (s.adopt g epoch hop 2)
      else .next s

/-- HANDOVER_TIMEOUT: no accept, or no majority on the new epoch, within 2·HB_MS (R437). -/
def execHandoverTimeout (grp : W64) (s : State) : Res :=
  match s.furun.hands.find? fun h => h.grp == grp with
  | none => .next s
  | some h =>
    let s := s.reach (h.since + 2 * s.hbNs)
    let s : State := { s with furun := { s.furun with hands := s.furun.hands.filter fun y => y.grp != grp } }
    .next (s.endItem h.owner h.item .failed)

/-! ### The two views (R58) -/

/-- The data view of a unit, and the instant since which it stands: its relay station where an endpoint names one. Of a unit that has none
the module holds no other record of its data path. -/
def State.dataView? (s : State) (u : W64) : Option (Bool × Nat) :=
  (s.furun.ends.find? fun e => addrMember e.grp e.hop == u && e.kind == 2).bind fun e =>
    (s.relay.stations.find? fun x => x.addr == e.port).map fun x => (x.st == 1, x.since)

/-- The Furun view of a unit, and the instant since which it stands. -/
def State.furunView (s : State) (u : W64) : Bool × Nat :=
  match s.link? u with
  | some l => (l.contact, l.since)
  | none => (false, s.startClk)

/-- 3 heartbeat intervals of a unit. -/
def State.hb3 (s : State) (u : W64) : Nat := 3 * (((s.link? u).map (·.hbMs)).getD (s.get F.FURUN_CFG_HB_MS)) * msec

/-- SPLIT_VIEW: the views of a unit have disagreed for more than 3 heartbeat intervals (R58). In case 1 the Furun view is present and the data
view absent, in case 2 the reverse; cases 3 and 4 compare what the views say of a unit that both show. -/
def execSplitView (unit : W64) (case : Fin 5) (s : State) : Res :=
  let u := addrOf unit 0 0
  let (furun, t1) := s.furunView u
  let data := s.dataView? u
  let shows (d : Bool) : Bool := (data.map (·.1)).getD d == d
  if case.val = 0 || s.furun.suspects.contains u || (case.val = 1 && !(furun && shows false)) || (case.val = 2 && !(!furun && shows true)) ||
      (case.val ≥ 3 && !furun) then .next s else
  let t2 := (data.map (·.2)).getD 0
  let s := if case.val ≤ 2 then s.reach (max t1 t2 + s.hb3 u + 1) else s
  let s : State := { s with furun := { s.furun with suspects := s.furun.suspects ++ [u] } }
  .next (s.raise 0x0B20 3 0 (natBE 8 u.toNat ++ natBE 1 case.val))

/-- VIEW_AGREED: the views have agreed for 3 heartbeat intervals (R58). -/
def execViewAgreed (unit : W64) (s : State) : Res :=
  let u := addrOf unit 0 0
  let (furun, t1) := s.furunView u
  let data := s.dataView? u
  if !(s.furun.suspects.contains u) || (data.map (·.1)).getD furun != furun then .next s else
  let s := s.reach (max t1 ((data.map (·.2)).getD 0) + s.hb3 u)
  .next ((s.clearSuspect u).raise 0x0B21 5 0 (natBE 8 u.toNat))

/-! ### Replicas (R438, R439) -/

/-- One replica towards the anchor on link l; a sealed one needs version 5. -/
def State.replicaOut (s : State) (l : FLink) (g obj : W64) (tag typ : Nat) (data : Bytes) : State :=
  if tag = 0 then
    let seq := s.furun.replSeq
    let s : State := { s with furun := { s.furun with replSeq := seq + 1 } }
    s.furunSend l.peer 8 1 l.peer (natBE 8 obj.toNat ++ natBE 1 tag ++ natBE 3 0 ++ natBE 4 seq ++ data)
  else if l.ver < 5 then
    if ((s.link? l.peer).map (·.verEv)).getD true then s else
    (s.modLink l.peer fun x => { x with verEv := true }).raise 0x0B02 4 0 (natBE 8 l.peer.toNat ++ natBE 1 l.range.1 ++ natBE 1 l.range.2)
  else
    match s.sealReplica g obj tag typ data with
    | (s, some (seq, b)) => s.furunSend l.peer 8 1 l.peer (natBE 8 obj.toNat ++ natBE 1 tag ++ natBE 3 0 ++ natBE 4 seq ++ b)
    | (s, none) => s

/-- The link to the anchor of a group. -/
def State.anchorLink (s : State) (g : W64) : Option FLink := (s.fgroup? g).bind fun x => x.anchor.bind fun h => s.linkTo g h

/-- REPLICA_SEND: every REPL_S each replicated object goes to the anchor of the innermost group, and the aggregates of a group that
the module anchors to the anchor of its parent (R438). -/
def execReplicaSend (s : State) : Res :=
  let s := s.reach (s.furun.replAt + s.get F.FURUN_CFG_REPL_S * sec)
  let s : State := { s with furun := { s.furun with replAt := s.clk } }
  let inner := addrParent s.own
  let s := if s.anchors inner then s else
    match s.anchorLink inner with
    | none => s
    | some l => (s.estate.objs.filter fun x => s.replicated x.num).foldl
        (fun s x => s.replicaOut l inner (s.addrHere x.num 0) x.tag x.typ (s.objRecord x)) s
  .next ((s.anchored.filter fun x => addrDepth x.addr > 0 && !(s.anchors (addrParent x.addr))).foldl (fun s x =>
    match s.anchorLink (addrParent x.addr) with
    | none => s
    | some l => [1, 2].foldl (fun s o =>
        match s.served (addrOf x.addr o 0) with
        | some (h, vs) => s.replicaOut l (addrParent x.addr) (addrOf x.addr o 0) 0 (if o = 1 then tyCircuit else tyThermal)
            (h ++ (vs.map EView.bytes).flatten)
        | none => s) s) s)

/-- REPLICA: the anchor of the holder's group stores a replica (R439). -/
def execReplica (p : FPiece) (s : State) : Res :=
  match s.furunPiece 8 p with
  | (s, none) => .next s
  | (s, some b) =>
    let obj : W64 := BitVec.ofNat 64 (beAt b 0 8)
    let unit := addrOf obj 0 0
    let g := addrParent unit
    -- one under a tenant's tag travels on version 5 only (Table 16.4)
    let speaks := ((s.link? p.peer).map fun l => l.speaksFor g (addrLast unit) && (l.ver ≥ 5 || beAt b 8 1 == 0)).getD false
    if !(s.anchors g) || !speaks || addrObj obj = 0 then .next s else
    let r : FReplica := ⟨obj, beAt b 8 1, beAt b 12 4, b.drop 16, p.peer, false⟩
    let lo := s.furun.replicas.filter fun x => x.obj.toNat < obj.toNat
    let hi := s.furun.replicas.filter fun x => x.obj.toNat > obj.toNat
    let held := s.furun.replicas.any fun x => x.obj == obj
    if !held && s.furun.replicas.length ≥ 16384 then
      .next (s.raise 0x0B06 3 0 (natBE 8 p.peer.toNat ++ natBE 4 (obj.toNat % 2 ^ 32)))
    else
      let s : State := { s with furun := { s.furun with replicas := lo ++ [r] ++ hi } }
      -- without the group's root the anchor cannot open it (R484)
      let s := if r.tag ≠ 0 && (s.groupRoot g).isNone then s.noRootEvent g true else s
      .next s.roleSync

/-- WITHDRAW: a replica under a tag is deleted (R439). -/
def execWithdraw (p : FPiece) (s : State) : Res :=
  match s.furunPiece 9 p with
  | (s, none) => .next s
  | (s, some b) =>
    let obj : W64 := BitVec.ofNat 64 (beAt b 0 8)
    let tag := beAt b 8 1
    let s : State := { s with furun := { s.furun with
      replicas := s.furun.replicas.filter fun x => !(x.obj == obj && x.tag == tag && x.holder == p.peer) } }
    .next s.roleSync

/-! ### The mirror publication (R442) -/

/-- MIRROR_PUBLISH: the mirror goes to every subscriber through its own endpoint, from one capture: at once where either frame has changed
since the last time, else 10 ms after it. -/
def execMirrorPublish (s : State) : Res :=
  if s.furun.pubs.all Option.isNone then .next s else
  let s := if s.mirror.frames = s.mirror.pubSeen then s.reach (s.mirror.pubAt + 10 * msec) else s
  let body := ((s.safeSnap).map fun w => natBE 4 w).flatten
  let s : State := { s with mirror := { s.mirror with pubAt := s.clk, pubSeen := s.mirror.frames } }
  .next (s.furun.pubs.foldl (fun s e =>
    match e with
    | some e => let m := addrMember e.grp e.hop
      s.furunVia (some e) m 11 0 s.own m body
    | none => s) s)

/-- MIRROR: a capture of another module's mirror arrives; it is no safety signal. -/
def execMirror (p : FPiece) (s : State) : Res :=
  match s.furunPiece 11 p with
  | (s, none) => .next s
  | (s, some b) => .next { s with furun := { s.furun with mirrorRx := some (p.src, b) } }

/-! ### Opcodes (R445) -/

def tFurunSetup : Nat := 0x0B01
def tGroupSetup : Nat := 0x0B02
def tEndpoint : Nat := 0x0B03
def tHop : Nat := 0x0B04
def tReplOn : Nat := 0x0B06
def tPubIndex : Nat := 0x0B07

/-- The address of a group or unit in a TLV value. -/
def unitForm (q : Q) (t : Nat) (a : W64) : Option Refuse :=
  if addrBad a then some (badAt q.tlvs t 0x0006)
  else if addrObj a ≠ 0 || addrElem a ≠ 0 then some (badAt q.tlvs t 0x0008) else none

def groupForm : Chk := fun _ q => unitForm q 0x0001 (tAddr q.tlvs)

/-- A group that is not configured does not exist for this module. -/
def groupExists : Chk := fun s q => if (s.fgroup? (tAddr q.tlvs)).isSome then none else some { status := .noObject }

def opFurunCfg : OpDef where
  code := 0x0B01
  blk := 11
  schema := [{ typ := tFurunSetup, lo := 12, hi := 12 }]
  form := fun _ q =>
    let b := tv q.tlvs tFurunSetup
    let a : W64 := BitVec.ofNat 64 (beAt b 0 8)
    let w := beAt b 8 4
    (unitForm q tFurunSetup a).or <|
      if a = 0 || !(100 ≤ bitsOf w 31 16 && bitsOf w 31 16 ≤ 10000 && 1 ≤ bitsOf w 15 0 && bitsOf w 15 0 ≤ 600)
      then some (badAt q.tlvs tFurunSetup 0x0008) else none
  perm := onlyOperator
  mode := fun s q =>
    if (beAt (tv q.tlvs tFurunSetup) 0 8) ≠ s.own.toNat && s.mode ≠ modeBlocks then some { status := .wrongMode } else none
  run := fun s q => .done .ok [] (s.pendCfg q 0x0B01)

def opFurunGroupCfg : OpDef where
  code := 0x0B02
  blk := 11
  schema := [{ typ := tGroupSetup, lo := 16, hi := 16 }]
  form := fun _ q =>
    let b := tv q.tlvs tGroupSetup
    -- groups nest up to 6 deep (R29): a seventh hop names a module
    (unitForm q tGroupSetup (BitVec.ofNat 64 (beAt b 0 8))).or <|
      if addrDepth (BitVec.ofNat 64 (beAt b 0 8)) > 6 then some (badAt q.tlvs tGroupSetup 0x0008)
      else if bit1 (beAt b 8 8) 0 = 1 then some (badAt q.tlvs tGroupSetup 0x0008) else none
  perm := onlyOperator
  run := fun s q => .done .ok [] (s.pendCfg q 0x0B02)

/-- An ENDPOINT as it travels (Table 16.13). -/
def endOfBytes (g : W64) (b : Bytes) : FEndpoint := ⟨g, beAt b 0 1, beAt b 1 1, beAt b 2 1, beAt b 4 2, beAt b 8 16⟩

def endpointFault (off : Nat) (b : Bytes) : Option Refuse :=
  let e := endOfBytes 0 b
  if beAt b 3 1 ≠ 0 || beAt b 6 2 ≠ 0 then some (badTlv off 0x0005)
  else if e.hop = 0 || e.hop > 63 || e.kind > 2 || (e.kind ≤ 1 && e.port > 3) || (e.kind = 2 && (e.port = 0 || e.port = 255))
  then some (badTlv off 0x0008) else none

def endpointForm : Chk := fun _ q =>
  (q.tlvs.filter fun t => t.typ == tEndpoint).findSome? fun t => endpointFault t.off t.val

def opFurunEndpointSet : OpDef where
  code := 0x0B03
  blk := 11
  schema := [sAddr, { typ := tEndpoint, lo := 24, hi := 24, maxN := 48 }]
  form := allChk [groupForm, endpointForm]
  perm := onlyOperator
  exist := groupExists
  run := fun s q => .done .ok [] (s.pendCfg q 0x0B03)

def opFurunHandover : OpDef where
  code := 0x0B04
  blk := 11
  schema := [sAddr, { typ := tHop, lo := 1, hi := 1 }]
  form := allChk [groupForm, rangeChk tHop fun v => 1 ≤ v && v ≤ 63]
  perm := onlyOperator
  exist := fun s q => (groupExists s q).or <|
    match s.fgroup? (tAddr q.tlvs) with
    | some x => if bit1 x.members.toNat (tn q.tlvs tHop) = 1 then none else some { status := .noObject }
    | none => none
  run := fun s q =>
    let g := tAddr q.tlvs
    let hop := tn q.tlvs tHop
    match s.fgroup? g with
    | none => .refuse { status := .noObject }
    | some x =>
      if s.furun.hands.any fun h => h.grp == g then .refuse { status := .busy } else
      if !(s.anchors g) then .done .failed [] s else
      if x.anchor = some hop then .done .ok [] s else
      let s : State := { s with furun := { s.furun with hands := s.furun.hands ++ [⟨g, q.owner, q.r.item.toNat, hop, false, s.clk⟩] } }
      let s := match s.linkTo g hop with
        | some l => s.furunSend l.peer 5 2 l.peer (handBody g x.epoch hop 0)
        | none => s
      .pend .handover g.toNat hop false s

/-- The state of a member: not yet contacted, contact, lost, SUSPECT (Table 16.13). -/
def State.memberTlv (s : State) (x : FGroup) (hop : Nat) : Bytes :=
  let l := s.linkTo x.addr hop
  let peer := (l.map (·.peer)).getD (addrMember x.addr hop)
  let own := hop = s.hopIn x.addr
  let st := if s.furun.suspects.contains peer then 3
    else if own then 1
    else match l with
      | some l => if l.contact then 1 else if l.last.isSome then 2 else 0
      | none => 0
  let epoch := if own then x.epoch else
    ((l.bind fun l => l.groups.find? fun e => e.grp == x.addr).map (·.epoch)).getD 0
  let elig := if own then s.eligBits x.addr (s.anchors x.addr) else (l.map (·.elig)).getD 0
  tlv 0x0B05 (natBE 1 hop ++ natBE 1 st ++ natBE 1 (if own then 5 else (l.map (·.ver)).getD 0) ++ natBE 1 elig ++
    natBE 4 epoch ++ natBE 8 ((l.map (·.lastTs.toNat)).getD 0))

def opFurunMembers : OpDef where
  code := 0x0B05
  blk := 11
  schema := [sAddr]
  form := groupForm
  perm := operatorOrService
  exist := groupExists
  run := fun s q =>
    match s.fgroup? (tAddr q.tlvs) with
    | none => .refuse { status := .noObject }
    | some x => .done .ok ((memberHops x.members).map fun h => s.memberTlv x h).flatten s

def opFurunReplCfg : OpDef where
  code := 0x0B06
  blk := 11
  schema := [sAddr, { typ := tReplOn, lo := 1, hi := 1 }]
  form := allChk [addrForm 0x0001 true, rangeChk tReplOn (fun v => v ≤ 1), fun _ q =>
    if addrObj (tAddr q.tlvs) = 0 then some (badAt q.tlvs 0x0001 0x0008) else none]
  perm := onlyOperator
  lock := lockChk fun _ q => [addrObj (tAddr q.tlvs)]
  exist := fun s q => if (s.obj? (addrObj (tAddr q.tlvs))).isSome then none else some { status := .noObject }
  run := fun s q =>
    let n := addrObj (tAddr q.tlvs)
    -- a module marks at most 512 objects (R438)
    if tn q.tlvs tReplOn = 1 && !(s.furun.marks.contains n) && s.furun.marks.length ≥ 512 then .refuse { status := .busy }
    else .done .ok [] (s.pendCfg q 0x0B06)

def opFurunPubCfg : OpDef where
  code := 0x0B08
  blk := 11
  schema := [{ typ := tPubIndex, lo := 1, hi := 1 }, { typ := tEndpoint, lo := 24, hi := 24 }]
  form := allChk [rangeChk tPubIndex (fun v => v ≤ 3), fun s q =>
    if beNat (tv q.tlvs tEndpoint) = 0 then none else endpointForm s q]
  perm := onlyOperator
  run := fun s q => .done .ok [] (s.pendCfg q 0x0B08)

/-- Replicas of the object of an address that the session may read (R440): tenants and service those under their tag. -/
def State.replicasFor (s : State) (tag : Nat) (a : W64) : Option FReplica :=
  s.furun.replicas.find? fun r => r.obj == addrOf a (addrObj a) 0 && (tag == 0 || r.tag == tag)

/-- The record of a replica for a session of a tag (R483): every element reads LOST when the holder is. -/
def State.replicaView (s : State) (tag : Nat) (r : FReplica) : Option (Bytes × List EView) :=
  let b := if r.tag = 0 then some r.data else s.openReplica (addrParent r.holder) r.holder r.obj r.tag r.seq (some tag) r.data
  b.map fun b =>
    let vs := (recordViews b).map fun v => if r.lost then { v with src := qLost, rep := if v.rep = qForced then qForced else qLost } else v
    let h := b.take 16
    (h.take 4 ++ natBE 1 (qWorst (vs.map EView.rep)) ++ h.drop 5, vs)

/-- What a session of a tag reads of the replica of an address. -/
def State.replicaRead (s : State) (tag : Nat) (a : W64) : Option (Bytes × List EView) :=
  (s.replicasFor tag a).bind fun r => s.replicaView tag r

def opFurunReplicaRead : OpDef where
  code := 0x0B07
  blk := 11
  schema := [sAddr]
  form := fun _ q =>
    let a := tAddr q.tlvs
    if addrBad a then some (badAt q.tlvs 0x0001 0x0006)
    else if addrObj a = 0 then some (badAt q.tlvs 0x0001 0x0008) else none
  -- one not held, or not to be opened: DENIED for tenants and service, FAILED for the operator (R484)
  perm := fun s q => if q.tag = 0 || (s.replicaRead q.tag (tAddr q.tlvs)).isSome then none else some { status := .denied }
  exist := fun s q =>
    match s.replicaRead q.tag (tAddr q.tlvs) with
    | none => none
    | some (_, vs) => if addrElem (tAddr q.tlvs) > vs.length then some { status := .noObject } else none
  run := fun s q =>
    let a := tAddr q.tlvs
    match s.replicaRead q.tag a with
    | none => .done .failed [] s
    | some (h, vs) =>
      if addrElem a = 0 then
        pageRun s q 0x0101 52 (tlv 0x0003 h) (((List.range vs.length).zip vs).map fun p => elemTlv (p.1 + 1) p.2)
      else match vs[addrElem a - 1]? with
        | some v => .done .ok (elemTlv (addrElem a) v) s
        | none => .refuse { status := .noObject }

def execFurunCfg (r : Req) (s : State) : Res := .next (batonRun opFurunCfg r s)
def execFurunGroupCfg (r : Req) (s : State) : Res := .next (batonRun opFurunGroupCfg r s)
def execFurunEndpointSet (r : Req) (s : State) : Res := .next (batonRun opFurunEndpointSet r s)
def execFurunHandover (r : Req) (s : State) : Res := .next (batonRun opFurunHandover r s)
def execFurunMembers (r : Req) (s : State) : Res := .next (batonRun opFurunMembers r s)
def execFurunReplCfg (r : Req) (s : State) : Res := .next (batonRun opFurunReplCfg r s)
def execFurunReplicaRead (r : Req) (s : State) : Res := .next (batonRun opFurunReplicaRead r s)
def execFurunPubCfg (r : Req) (s : State) : Res := .next (batonRun opFurunPubCfg r s)

/-- C0LOCK of every port: it carries a mirror publication (R423). -/
def State.c0locks (s : State) : State :=
  (List.range 4).foldl (fun s p =>
    let on := s.furun.pubs.any fun e => match e with | some e => e.kind ≤ 1 && e.port == p | none => false
    let s := s.put (F.ETH_PSTAT_C0LOCK p) (b2n on)
    if on then s.put (F.ETH_PSTAT_LPI p) 0 else s) s

/-- A held FURUN configuration takes effect (R445). -/
def State.furunApply (s : State) (x : FPend) : State :=
  if x.opcode = 0x0B01 then
    let b := x.val tFurunSetup
    let s := s.setImgs [(Reg.FURUN_CFG, beAt b 8 4)]
    let s : State := { s with estate := { s.estate with addr := BitVec.ofNat 64 (beAt b 0 8) } }
    s.linksPrune.roleSync
  else if x.opcode = 0x0B02 then
    let b := x.val tGroupSetup
    let g : W64 := BitVec.ofNat 64 (beAt b 0 8)
    let m : W64 := BitVec.ofNat 64 (beAt b 8 8)
    let s : State :=
      if m = 0 then
        let s := s.aggDrop g
        { s with furun := { s.furun with
          groups := s.furun.groups.filter (fun y => y.addr != g), ends := s.furun.ends.filter fun e => e.grp != g } }
      else if (s.fgroup? g).isSome then s.modGroup g fun y => { y with members := m }
      else { s with furun := { s.furun with groups := s.furun.groups ++ [⟨g, m, 0, none, none, none, false⟩] } }
    (s.linksPrune.rolesCheck).roleSync
  else if x.opcode = 0x0B03 then
    let g : W64 := BitVec.ofNat 64 (beNat (x.val 0x0001))
    let es := (x.tlvs.filter fun t => t.1 == tEndpoint).map fun t => endOfBytes g t.2
    let keep := s.furun.ends.filter fun e => !(e.grp == g && es.any fun y => y.hop == e.hop)
    { s with furun := { s.furun with ends := keep ++ es } }
  else if x.opcode = 0x0B06 then
    let n := addrObj (BitVec.ofNat 64 (beNat (x.val 0x0001)))
    if beNat (x.val tReplOn) = 1 then
      if s.furun.marks.contains n then s else { s with furun := { s.furun with marks := s.furun.marks ++ [n] } }
    else if s.furun.marks.contains n then
      let s : State := { s with furun := { s.furun with marks := s.furun.marks.filter fun m => m != n } }
      if s.replicated n then s else s.sendWithdraw n (s.tagOf n)
    else s
  else if x.opcode = 0x0B08 then
    let b := x.val tEndpoint
    let e := if beNat b = 0 then none else some (endOfBytes (addrParent s.own) b)
    let s : State := { s with furun := { s.furun with pubs := setNth s.furun.pubs (beNat (x.val tPubIndex)) e } }
    s.c0locks
  else s

/-- CONFIG_APPLY: the oldest held ETH or FURUN configuration takes effect 10 ms after its reply (R445). -/
def execConfigApply (s : State) : Res :=
  match s.furun.pend with
  | [] => .next s
  | x :: rest =>
    let s := s.reach x.due
    let s : State := { s with furun := { s.furun with pend := rest } }
    .next ((s.ethApply x).furunApply x)

end Sys2Proof.Machine
end

