-- ==== Sys2Proof/Machine/Power.lean ====
section
/-! DEFINITION. Machine/Power.lean: power domains and clocks: what a gate does to the work that a domain holds
(R14 to R17, R557), and SYS_CLK_STAT (R21, R556). -/

namespace Sys2Proof.Machine

/-! ### Clocks (Table 1.4) -/

/-- Clock k runs within tolerance: OK of SYS_CLK_STAT (R556). The safety clocks show in the stored word, which the mirror keeps. -/
def State.clkOk (s : State) (k : Nat) : Bool :=
  let run := !(s.sys.stopped.contains k)
  match k with
  | 0 => run && s.pdOn 1
  | 1 => run && s.pdOn 0
  | 2 => run && (s.pdOn 3 || s.pdOn 5)
  | 3 => run && s.pdOn 4
  | 4 => run && s.pdOn 5 && s.relayRole != 0 && (s.get F.RELAY_STAT_LINK0 == 1 || s.get F.RELAY_STAT_LINK1 == 1)
  | 5 => run && s.pdOn 5
  | 6 => run && s.pdOn 6
  | 9 => run && s.pdOn 9
  | _ => bit1 (s.get F.SYS_CLK_STAT_OK) k == 1

/-- A power domain that uses clock k is on (R556). -/
def State.clkUsed (s : State) (k : Nat) : Bool :=
  match k with
  | 0 => s.pdOn 1
  | 1 => s.pdOn 0
  | 2 => s.pdOn 3 || s.pdOn 5
  | 3 => s.pdOn 4
  | 4 => s.pdOn 5 && s.relayRole != 0
  | 5 => s.pdOn 5
  | 6 => s.pdOn 6
  | 9 => s.pdOn 9
  | _ => true

/-! ### Snapshot state of a block (R557) -/

/-- SNAP_CTL, SNAP_STAT and the RS registers of a source hold their reset values. -/
def State.snapReset (s : State) (src : Nat) : State :=
  let s := match srcBase src with
    | some b => (s.rstReg (b + 0x10)).rstReg (b + 0x14)
    | none => s
  (regTable.filter fun d => d.blk == srcBlk src && d.fields.any fun f => f.acc == .rs).foldl (fun s d =>
    (List.range d.n1).foldl (fun s i =>
      (List.range d.n2).foldl (fun s j => s.rstReg (d.base + d.st1 * i + d.st2 * j)) s) s) s

/-- The interrupt sources whose registers stand in a domain. -/
def domainSrcs (d : Nat) : List Nat := (List.range 22).filter fun n => n ≥ 1 && blkDomain (srcBlk n) == d

/-! ### Gates -/

/-- Each item that addressed a domain ends FAILED (R15, R17): Baton items by their opcode's block. -/
def State.domainItems (s : State) (d : Nat) : State :=
  (s.baton.items.filter fun i => 3 ≤ i.opcode / 256 && blkDomain (i.opcode / 256) == d).foldl
    (fun s i => s.endItem i.owner i.item .failed) s

/-- A domain is switched off: nothing of what its crossings held is delivered later, a capture in progress is abandoned, and its
snapshot registers read their reset values when it is powered again (R15, R557). -/
def State.cutDomain (s : State) (d : Nat) : State :=
  let s0 := s
  let s := s.domainItems d
  let s : State := { s with sys := { s.sys with
    gates := s.sys.gates.filter (· != d)
    snaps := s.sys.snaps.filter fun j => blkDomain (srcBlk j.src) != d } }
  let s := (domainSrcs d).foldl (fun s n => s.snapReset n) s
  -- the Pacer SRAM loses its contents (R254)
  let s := if d = 2 then s.sramLost else s
  State.uioOutAll s0 (s.setPd d false)

/-- A gate of Table 5.6 or of a reset: it does not wait (R15). -/
def State.hardGate (s : State) (d : Nat) : State :=
  if !s.pdOn d then s else
  let s := match d with
    | 2 => s.pacerAbort.dmaSramCut
    | 4 => s.closeAll 3
    | 5 =>
      let s := s.relayEndAll (fun _ => true) stFailed
      (List.range 4).foldl (fun s c => (s.canDropAll c).1) s
    | 6 => s.metStop
    | _ => s
  s.cutDomain d

/-- A DMA descriptor that runs addresses Pacer SRAM. -/
def State.dmaNames (s : State) (d : Nat) : Bool :=
  d == 2 && s.dma.any fun x =>
    match x.desc with
    | some y => inSram y.src.toNat || inSram y.dst.toNat || inSram x.addr.toNat
    | none => false

/-- The crossings of a domain are empty: no plan is built or solved in the engine (R261), no capture is in progress (R557), and no DMA
descriptor addresses the domain (R15). -/
def State.drained (s : State) (d : Nat) : Bool :=
  !(d == 2 && 1 ≤ s.get F.PACER_STAT_STATE && s.get F.PACER_STAT_STATE ≤ 3) &&
  !(s.sys.snaps.any fun j => blkDomain (srcBlk j.src) == d) && !s.dmaNames d

/-- DOMAIN_GATE: a gate that the ledger has asked for acts once the domain is drained (R15). -/
def State.domainGate (s : State) (d : Nat) : State :=
  if !(s.sys.gates.contains d) || !s.pdOn d || !s.drained d then s else s.cutDomain d

def execDomainGate (d : Fin 11) (s : State) : Res := .next (s.domainGate d.val)

/-- CLOCK_LOST: a clock stops or leaves its tolerance while a domain that uses it is on (R21, R556); CLK_RELAY has one to lose only
while a receiver is locked, and a safety channel while its frames arrive. -/
def State.clockLost (s : State) (k : Nat) : State :=
  if !s.clkUsed k || ((k = 4 || k = 7 || k = 8) && !s.clkOk k) then s else
  let s := s.put F.SYS_CLK_STAT_LOST (putBits (s.get F.SYS_CLK_STAT_LOST) k k 1)
  let halt (s : State) : State :=
    { s with sys := { s.sys with stopped := if s.sys.stopped.contains k then s.sys.stopped else s.sys.stopped ++ [k] } }
  match k with
  | 4 => ((s.put F.RELAY_STAT_LINK0 0).put F.RELAY_STAT_LINK1 0).relayLost
  | 6 => ((halt s).modMet fun m => { m with part := true }).metLost true
  | 7 => s.safeAbsent false
  | 8 => s.safeAbsent true
  | _ => halt s

def execClockLost (k : Fin 10) (s : State) : Res := .next (s.clockLost k.val)

end Sys2Proof.Machine
end

