-- ==== Sys2Proof/Machine/Rtc.lean ====
section
/-! DEFINITION. Machine/Rtc.lean: the real-time clock, its discipline, alarms, leap seconds, local time and schedules (chapter 17). -/

namespace Sys2Proof.Machine

def State.setRtc (s : State) (f : RtcSt → RtcSt) : State := { s with rtc := f s.rtc }

/-! ### Calendar -/

/-- Year, month and day of a day counted from 1970-01-01. -/
def civilOf (day : Nat) : Nat × Nat × Nat :=
  let z := day + 719468
  let era := z / 146097
  let doe := z % 146097
  let yoe := (doe - doe / 1460 + doe / 36524 - doe / 146096) / 365
  let doy := doe - (365 * yoe + yoe / 4 - yoe / 100)
  let mp := (5 * doy + 2) / 153
  let d := doy - (153 * mp + 2) / 5 + 1
  let m := if mp < 10 then mp + 3 else mp - 9
  (yoe + era * 400 + b2n (decide (m ≤ 2)), m, d)

/-- The day counted from 1970-01-01 of a date from then on. -/
def dayOf (y m d : Nat) : Nat :=
  let y' := if m ≤ 2 then y - 1 else y
  let era := y' / 400
  let yoe := y' % 400
  let doy := (153 * (if m > 2 then m - 3 else m + 9) + 2) / 5 + d - 1
  era * 146097 + yoe * 365 + yoe / 4 - yoe / 100 + doy - 719468

def leapYear (y : Nat) : Bool := y % 4 == 0 && (y % 100 != 0 || y % 400 == 0)

def monthDays (y m : Nat) : Nat :=
  if m = 2 then (if leapYear y then 29 else 28) else if m = 4 || m = 6 || m = 9 || m = 11 then 30 else 31

/-- 1 Monday to 7 Sunday; 1970-01-01 was a Thursday. -/
def weekday (day : Nat) : Nat := (day + 3) % 7 + 1

/-! ### Live values -/

/-- RTC_OFS: TAI − UTC in s. -/
def State.rtcOfs (s : State) : Int := sgn 16 (s.rd Reg.RTC_OFS)

/-- The day at whose end a leap second falls, with insertion or deletion (R461). -/
def State.leapPend (s : State) : Option (Nat × Bool) :=
  if s.get F.RTC_LEAP_PEND = 1 then some (s.get F.RTC_LEAP_DAYNUM, s.get F.RTC_LEAP_DIR == 1) else none

/-- UTC as seconds from 1970-01-01, and whether the present second is an inserted one, which shows as 23:59:60. -/
def State.utcNow (s : State) : Nat × Bool :=
  let u := ((s.rtc.tai : Int) - s.rtcOfs).toNat
  match s.leapPend with
  | some (d, false) => if u = (d + 1) * 86400 then (u - 1, true) else (u, false)
  | _ => (u, false)

/-- DATE and TIME words of the present second. -/
def State.calWords (s : State) : Nat × Nat :=
  let (u, ins) := s.utcNow
  let day := u / 86400
  let t := u % 86400
  let (y, m, d) := civilOf day
  let sec := if ins then 60 else t % 60
  (y * 2 ^ 16 + m * 256 + d, weekday day * 2 ^ 24 + t / 3600 * 2 ^ 16 + t / 60 % 60 * 256 + sec)

/-- The five live registers, written together (17.4). -/
def State.rtcLive (s : State) : State :=
  let (d, t) := s.calWords
  (((s.wr Reg.RTC_TAI_LO (s.rtc.tai % 2 ^ 32)).wr Reg.RTC_TAI_HI (s.rtc.tai / 2 ^ 32 % 256)).wr Reg.RTC_DATE d).wr Reg.RTC_TIME t

/-- The length of an RTC second in ns: TRIM adds prescaler counts per 2^21 counts (17.9). -/
def State.rtcSecNs (s : State) : Nat := (((sec * 2 ^ 21 : Nat) : Int) / (2 ^ 21 + sgn 11 (s.get F.RTC_TRIM_TRIM))).toNat

/-- The prescaler. -/
def State.rtcSub (s : State) : Nat := min 32767 ((s.clk - s.rtc.secAt) * 32768 / s.rtcSecNs)

/-- The words of the split capture (Table 17.5). -/
def State.rtcSnap (s : State) : List Nat :=
  let (d, t) := s.calWords
  [s.rtc.tai % 2 ^ 32, s.rtc.tai / 2 ^ 32 % 256, s.rtcSub, d, t, s.rd Reg.RTC_OFS, s.tsNow.toNat % 2 ^ 32, s.tsNow.toNat / 2 ^ 32]

/-- The RTC's time in ns. -/
def State.rtcNs (s : State) : Int := ((s.rtc.tai * sec : Nat) : Int) + ((s.clk - s.rtc.secAt : Nat) : Int)

/-! ### Schedules (R463) -/

/-- Minutes of local time since 1970-01-01; an inserted second belongs to the minute before it. -/
def State.localMin (s : State) : Int := ((s.utcNow.1 / 60 : Nat) : Int) + sgn 16 (s.rd Reg.RTC_LOCAL)

/-- Minutes since a schedule point last passed, within the last 7 days. -/
def pointAge (now : Int) (v : W64) : Option Nat :=
  let mask := bitsOf v.toNat 63 57
  let at_ := bitsOf v.toNat 56 46
  let ages := (List.range 7).filterMap fun k =>
    if bit1 mask k = 0 then none else
    -- minute of the week counted from Monday 00:00; 1970-01-01 was a Thursday
    let w := (now + 3 * 1440) % 10080
    some (((w - ((k * 1440 + at_ : Nat) : Int)) % 10080).toNat)
  ages.foldl (fun a x => some (match a with | none => x | some y => min x y)) none

/-- One SCHEDULE object sets OUT; among points that passed in the same minute the spec names none, so a free value chooses. -/
def State.schedOne (s : State) (o : Nat) : State :=
  let val (k : Nat) : W64 := ((s.elem? o k).map (·.value)).getD 0
  let dflt := val 2
  if s.get F.RTC_STAT_VALID = 0 then
    s.setElem o 1 fun e => { e with
      value := dflt
      ts := s.tsNow
      src := qStale }
  else
    let ages := (List.range 8).filterMap fun k => (pointAge s.localMin (val (k + 3))).map fun a => (a, val (k + 3))
    match ages.foldl (fun b p => some (match b with | none => p.1 | some x => min x p.1)) (none : Option Nat) with
    | none => s.arrive o 1 dflt
    | some m =>
      let cs := (ages.filter fun p => p.1 == m).map (·.2)
      if cs.length ≤ 1 then s.arrive o 1 (u64 ((cs.headD 0).toNat % 2 ^ 32))
      else
        let (v, s) := s.free
        s.arrive o 1 (u64 ((cs[v.toNat % cs.length]?.getD 0).toNat % 2 ^ 32))

/-- Every SCHEDULE object sets OUT. -/
def State.schedules (s : State) : State :=
  let s := (s.estate.objs.filter fun x => x.typ == tySchedule).foldl (fun s x => s.schedOne x.num) s
  s.setRtc fun r => { r with schedMin := some s.localMin }

/-- SCHEDULE_MINUTE (R463): at a local minute boundary every SCHEDULE object sets OUT. -/
def execScheduleMinute (s : State) : Res :=
  .next (if s.rtc.schedMin == some s.localMin then s else s.schedules)

/-! ### Alarms (R458 to R460) -/

def State.alarmAt (s : State) (a : Nat) : Nat × Bool := (s.rtc.alarms[a]?).getD (0, false)
def State.alarmLate (s : State) (a : Nat) (v : Bool) : State :=
  s.setRtc fun r => { r with alarms := modNth r.alarms a fun x => (x.1, v) }

/-- An alarm fires. -/
def State.fireAlarm (s : State) (a : Nat) (skipped : Bool) : State :=
  let s := (s.put (F.RTC_ALMHI_FIRED a) 1).put (F.RTC_ALMHI_SKIPPED a) (b2n skipped)
  let s := if s.get (F.RTC_ALMHI_REARM a) = 0 then s.put (F.RTC_ALMHI_ARM a) 0 else s
  let s := (s.alarmLate a false).cond 12 0
  if s.pdOn 1 then s.raise 0x0C04 5 0 (natBE 1 a ++ natBE 5 s.rtc.tai ++ natBE 1 (b2n skipped))
  else s.setRtc fun r => { r with unreported := r.unreported ++ [(a, s.rtc.tai, skipped)] }

/-- The alarms that fire when the counter has counted into its value (R458, R459). -/
def State.alarmsTick (s : State) : State :=
  (List.range 4).foldl (fun s a =>
    let (v, late) := s.alarmAt a
    if s.get (F.RTC_ALMHI_ARM a) = 0 then s
    else if late then s.fireAlarm a true
    else if v = s.rtc.tai then s.fireAlarm a false else s) s

/-- The alarms that fire at a step of the counter from `old` (R459). -/
def State.alarmsStep (s : State) (old : Nat) : State :=
  (List.range 4).foldl (fun s a =>
    let (v, late) := s.alarmAt a
    if s.get (F.RTC_ALMHI_ARM a) = 0 || late || v ≤ old || v > s.rtc.tai then s
    else s.fireAlarm a (v != s.rtc.tai)) s

/-- A write of an alarm's high word commits it with its low word (R458, R459). -/
def State.alarmSet (s : State) (a hi : Nat) : State :=
  let v := bitsOf hi 7 0 * 2 ^ 32 + s.rd (Reg.RTC_ALMLO a)
  let w := s.rd (Reg.RTC_ALMHI a)
  let fired := bit1 w 29 * (1 - bit1 hi 29)
  let skip := bit1 w 28 * (1 - bit1 hi 28)
  let s := s.wr (Reg.RTC_ALMHI a) (bitsOf hi 31 30 * 2 ^ 30 + fired * 2 ^ 29 + skip * 2 ^ 28 + bitsOf hi 7 0)
  s.setRtc fun r => { r with alarms := setNth r.alarms a (v, bit1 hi 31 == 1 && v ≤ r.tai) }

def execAlarmCommit (a : Fin 4) (hi : W32) (s : State) : Res := .next (s.alarmSet a.val hi.toNat)

/-! ### Steps (R451, R456, R459) -/

/-- A clock step: the counter takes `tai` with its prescaler at zero and, where `sys` is given, the system time takes that value in
ns. Demand windows, CAN cells, alarms and schedules follow (R316, R409, R459, R463). -/
def State.clockStep (s : State) (tai : Nat) (sys : Option Int) (cause : Nat) : State :=
  let old := s.rtc.tai
  let s := s.setRtc fun r => { r with
    tai := tai % 2 ^ 40
    secAt := s.clk
    lost := false }
  let s := s.put F.RTC_STAT_VALID 1
  let d := match sys with
    | some t => t - s.sysNow
    | none => 0
  let s := { s with sysOfs := s.sysOfs + d }
  let s := (s.cond 12 1).raise 0x0C01 4 0 (natBE 5 old ++ natBE 5 s.rtc.tai ++ natBE 1 cause)
  let s := if d = 0 then s else (s.canStep d).demandStep
  ((s.alarmsStep old).rtcLive).schedules

/-- SYNC takes a state of Table 17.1. -/
def State.setSync (s : State) (v : Nat) : State :=
  let old := s.get F.RTC_STAT_SYNC
  if old = v then s else
  ((s.put F.RTC_STAT_SYNC v).cond 12 2).raise 0x0C02 5 0 (natBE 1 old ++ natBE 1 v ++ natBE 8 s.rtc.gm.toNat)

/-! ### The staging set (R456, R457) -/

/-- The staged calendar names a valid UTC time; second 60 only on the day of a pending insertion. -/
def State.stagedOk (s : State) : Bool :=
  let y := s.get F.RTC_STG_DATE_YEAR
  let m := s.get F.RTC_STG_DATE_MONTH
  let d := s.get F.RTC_STG_DATE_DAY
  let h := s.get F.RTC_STG_TIME_HOUR
  let mi := s.get F.RTC_STG_TIME_MIN
  let sc := s.get F.RTC_STG_TIME_SEC
  1970 ≤ y && y ≤ 2150 && 1 ≤ m && m ≤ 12 && 1 ≤ d && d ≤ monthDays y m && h ≤ 23 && mi ≤ 59 &&
  (sc ≤ 59 || (sc == 60 && h == 23 && mi == 59 && s.leapPend == some (dayOf y m d, false)))

/-- The TAI second of the staging set. -/
def State.stagedTai (s : State) : Nat :=
  if s.get F.RTC_COMMIT_FORM = 0 then s.rd Reg.RTC_STG_TAI_LO + bitsOf (s.rd Reg.RTC_STG_TAI_HI) 7 0 * 2 ^ 32 else
  let day := dayOf (s.get F.RTC_STG_DATE_YEAR) (s.get F.RTC_STG_DATE_MONTH) (s.get F.RTC_STG_DATE_DAY)
  let u := day * 86400 + s.get F.RTC_STG_TIME_HOUR * 3600 + s.get F.RTC_STG_TIME_MIN * 60 + s.get F.RTC_STG_TIME_SEC
  ((u : Int) + sgn 16 (s.rd Reg.RTC_STG_OFS)).toNat

/-- A write of RTC_COMMIT: in LOCKED, GO is discarded with STGERR (R457). -/
def State.rtcGo (s : State) (w : Nat) : State :=
  let s := s.put F.RTC_COMMIT_FORM (bit1 w 0)
  if bit1 w 31 = 0 then s
  else if s.get F.RTC_STAT_SYNC = 1 then s.put F.RTC_STAT_STGERR 1
  else s.put F.RTC_COMMIT_GO 1

/-- The CLK_RTC edge after GO. -/
def State.rtcEdge (s : State) : State :=
  if s.get F.RTC_COMMIT_GO = 0 then s else
  let s := s.put F.RTC_COMMIT_GO 0
  if s.get F.RTC_COMMIT_FORM = 1 && !s.stagedOk then
    (s.put F.RTC_STAT_STGERR 1).endWaiting .rtcSet (fun _ => true) .failed
  else
    let tai := s.stagedTai % 2 ^ 40
    let s := s.wr Reg.RTC_OFS (s.rd Reg.RTC_STG_OFS % 2 ^ 16)
    let sys : Option Int := if s.get F.RTC_STAT_SYNC = 1 then none else some ((tai * sec : Nat) : Int)
    (s.clockStep tai sys 0).endWaiting .rtcSet (fun _ => true) .ok

/-- RTC_COMMIT: software writes the register (`some`), or the edge comes for a GO set before; either way the edge loads the
staging set (R456). -/
def execRtcCommit (w : Option W32) (s : State) : Res :=
  .next (match w with
    | some v => (s.rtcGo v.toNat).rtcEdge
    | none => s.rtcEdge)

/-! ### Each second (R458, R461) -/

/-- The leap second event once applied. -/
def State.leapDone (s : State) (deletion : Bool) : State :=
  let ofs := s.rtcOfs + (if deletion then -1 else 1)
  let s := s.wr Reg.RTC_OFS (BitVec.ofInt 16 ofs).toNat
  let s := (s.put F.RTC_LEAP_PEND 0).cond 12 3
  (s.raise 0x0C05 4 0 (natBE 1 (b2n deletion) ++ natBE 2 (s.rd Reg.RTC_OFS))).schedules

/-- A pending leap that takes effect in the second that has begun. -/
def State.leapTick (s : State) : State :=
  let u := (s.rtc.tai : Int) - s.rtcOfs
  match s.leapPend with
  | some (d, false) => if u = ((d + 1) * 86400 + 1 : Nat) then s.leapDone false else s
  | some (d, true) => if u = ((d + 1) * 86400 - 1 : Nat) then s.leapDone true else s
  | none => s

/-- RTC_SECOND: the counter counts; live registers, alarms and a pending leap follow. -/
def execRtcSecond (s : State) : Res :=
  let t := s.rtc.secAt + s.rtcSecNs
  let s := (s.reach t).setRtc fun r => { r with
    tai := (r.tai + 1) % 2 ^ 40
    secAt := t }
  .next ((s.leapTick.rtcLive).alarmsTick)

/-- The RTC keeps to a time of the system without a step (R451): a second that the system time has reached begins, and one that the RTC
has begun early waits for it. -/
def State.rtcAlign (s : State) (t : Nat) : State :=
  let n := t / sec
  if n > s.rtc.tai then
    ((s.setRtc fun r => { r with
      tai := n % 2 ^ 40
      secAt := s.clk - t % sec }).leapTick.rtcLive).alarmsTick
  else if n = s.rtc.tai then s.setRtc fun r => { r with secAt := s.clk - t % sec }
  else s.setRtc fun r => { r with secAt := s.clk + (r.tai * sec - t) }

/-! ### Discipline (R450 to R452, R461) -/

/-- The ports whose messages reach the servo: the first PTP_EN port of an ordinary clock, every one of a boundary clock. -/
def State.ptpPort (s : State) (p : Nat) : Bool :=
  let on (k : Nat) : Bool := s.get (F.ETH_PCFG_EN k) == 1 && s.get (F.ETH_PCFG_PTP_EN k) == 1
  let role := s.get F.RTC_PTP_ROLE
  s.ethOn && on p && (role == 2 || (role == 1 && !((List.range p).any on)))

/-- The rate is steered by at most 200 ppm. -/
def slewMax (dt : Nat) : Int := ((dt / 5000 : Nat) : Int)

/-- PTP_SYNC: a Sync with the offset to the master in ns, as the servo finds it (R450, R451), on the port of the best master. -/
def execPtpSync (p : Fin 4) (ofs : W64) (s : State) : Res :=
  let o := sgn 64 ofs.toNat
  if !s.ptpPort p.val || s.rtc.best.any (fun b => b.2 != p.val) || s.get F.RTC_STAT_SYNC = 3 || s.clk < (s.port p.val).servoAt then .next s else
  let dt := s.clk - s.rtc.syncAt
  let good := if o.natAbs < 1000 then min 10 (s.rtc.good + 1) else 0
  let s := s.setRtc fun r => { r with
    good := good
    syncAt := s.clk }
  let s : State :=
    if o.natAbs > s.get F.RTC_STEP_STEP_US * 1000 then
      let t := s.sysNow + o
      s.clockStep (t / (sec : Int)).toNat (some t) 1
    else { s with sysOfs := s.sysOfs + clampI (-(slewMax dt)) (slewMax dt) o }
  let s : State := if good ≥ 10 && s.get F.RTC_STAT_SYNC ≠ 1 then (s.put F.RTC_STAT_VALID 1).setSync 1 else s
  if s.get F.RTC_STAT_SYNC ≠ 1 then .next s else
  -- in LOCKED the RTC follows: a step beyond 1 s, else by its trim, whose value the spec leaves to the module
  let diff := s.sysNow - s.rtcNs
  if diff.natAbs > sec then .next (s.clockStep (s.sysNow / (sec : Int)).toNat none 1)
  else if diff.natAbs ≤ 100 * usec then .next s
  else
    let (v, s) := s.free
    let trim := (BitVec.ofInt 11 (((v.toNat % 2047 : Nat) : Int) - 1023)).toNat
    .next ((s.put F.RTC_TRIM_TRIM trim).rtcAlign s.sysNow.toNat)

/-- SYNC_HOLDOVER: no Sync for 3 announce intervals while LOCKED (Table 17.1). -/
def execSyncHoldover (s : State) : Res :=
  if s.get F.RTC_STAT_SYNC ≠ 1 then .next s else
  let s := s.reach (s.rtc.syncAt + 3 * s.rtc.annIv)
  .next ((s.setRtc fun r => { r with good := 0 }).setSync 2)

/-- SERVO_HOLD_END: 2 s after a Stride or link change the port updates the servo again (R452). -/
def execServoHoldEnd (p : Fin 4) (s : State) : Res :=
  let s := s.reach (s.port p.val).servoAt
  .next (s.modPort p.val fun x => { x with servoAt := 0 })

/-- The rank of a clock in the best master clock algorithm: the lower is the better. -/
def clockRank (prio1 cls : Nat) (qual : BitVec 24) (prio2 : Nat) (ident : W64) : Nat :=
  (((prio1 * 256 + cls) * 2 ^ 24 + qual.toNat) * 256 + prio2) * 2 ^ 64 + ident.toNat

/-- An Announce of a master worse than the best one, of which one has come within 3 announce intervals. -/
def State.worseMaster (s : State) (rank : Nat) : Bool :=
  s.rtc.best.any (fun b => b.1 < rank) && s.clk < s.rtc.bestAt + 3 * s.rtc.annIv

/-- PTP_ANNOUNCE: the best master clock algorithm runs; the UTC offset and leap flags are taken in LOCKED (R450, R452, R461). -/
def execPtpAnnounce (p : Fin 4) (a : Announce) (s : State) : Res :=
  if !s.ptpPort p.val || a.dom.toNat ≠ s.get F.RTC_PTP_DOMAIN then .next s else
  let theirs := clockRank a.prio1.toNat a.cls.toNat a.qual a.prio2.toNat a.ident
  let ours := clockRank (s.get F.RTC_PTP_PRIO1) 248 Config.clockQuality (s.get F.RTC_PTP_PRIO2) Config.clockIdent
  if s.get F.RTC_PTP_GM_CAP = 1 && ours < theirs then
    .next (if s.worseMaster theirs then s else
      (s.setRtc fun r => { r with
        gm := Config.clockIdent
        best := none }).setSync 3)
  else if s.worseMaster theirs then .next s
  else
    let s := s.setRtc fun r => { r with
      gm := a.ident
      best := some (theirs, p.val)
      bestAt := s.clk
      annIv := max 1 a.ivMs.toNat * msec
      utcValid := a.utcOk }
    let s := if s.get F.RTC_STAT_SYNC = 3 then s.setSync 0 else s
    if s.get F.RTC_STAT_SYNC ≠ 1 || !a.utcOk then .next s else
    let moved := s.rd Reg.RTC_OFS ≠ a.utc.toNat
    let s := s.wr Reg.RTC_OFS a.utc.toNat
    let day := s.utcNow.1 / 86400 % 2 ^ 16
    let s :=
      if a.leap61 || a.leap59 then s.wr Reg.RTC_LEAP (2 ^ 31 + b2n (!a.leap61) * 2 ^ 30 + 2 ^ 29 + day)
      else if s.get F.RTC_LEAP_SRC = 1 then s.put F.RTC_LEAP_PEND 0 else s
    .next (if moved then s.rtcLive.schedules else s)

/-- PD_RTC runs on VBAK, by the voltages of the internal 3.3 V rail and of VBAK in mV (R448). -/
def vbakFeeds (was : Bool) (rail vbak : Nat) : Bool :=
  if was then !(rail > 2750 && rail > vbak + 50) else rail + 50 < vbak || rail < 2600

/-- VBAK_CHANGEOVER: PD_RTC changes over to VBAK, or back to the rail; with both below 1.6 V its content is lost (R448, R449, R535). -/
def execVbakChangeover (rail mv : BitVec 16) (s : State) : Res :=
  let was := s.get F.RTC_STAT_ON_VBAK = 1
  let vbak := vbakFeeds was rail.toNat mv.toNat
  let s := (s.put F.RTC_STAT_ON_VBAK (b2n vbak)).put F.RTC_STAT_VBAK_LOW (b2n (vbak && mv.toNat < 2000))
  let s := if rail.toNat < 1600 && mv.toNat < 1600 then s.setRtc fun r => { r with lost := true } else s
  if was = vbak then .next s else
  let s := s.cond 12 (if vbak then 4 else 5)
  .next (if s.pdOn 0 then s.raise 0x0C07 4 0 (natBE 1 (b2n (!vbak)) ++ natBE 2 mv.toNat) else s)

/-- ZONE_CHANGE: the local time changes of the list that have come take effect at their instants (R462). -/
def execZoneChange (s : State) : Res :=
  match s.rtc.zones with
  | [] => .next s
  | z :: zs =>
    let first := zs.foldl (fun a b => if b.1.toNat < a.1.toNat then b else a) z
    let s := s.reach (nsOfTs first.1 - s.sysOfs).toNat
    let s := s.setRtc fun r => { r with zones := r.zones.filter fun x => x != first }
    let s := s.wr Reg.RTC_LOCAL (BitVec.ofInt 16 first.2).toNat
    .next ((s.raise 0x0C06 6 0 (natBE 2 (s.rd Reg.RTC_LOCAL))).schedules)

/-! ### Opcodes (R464) -/

def tTimeSet : Nat := 0x0C01
def tAlarm : Nat := 0x0C03
def tLeap : Nat := 0x0C04
def tZone : Nat := 0x0C05
def tPtp : Nat := 0x0C06

/-- The staged images of a TIME_SET, by register. -/
def timeImgs (b : Bytes) : List (Nat × Nat) :=
  [(Reg.RTC_STG_TAI_LO, beAt b 4 4), (Reg.RTC_STG_TAI_HI, beAt b 8 4), (Reg.RTC_STG_DATE, beAt b 12 4),
   (Reg.RTC_STG_TIME, beAt b 16 4), (Reg.RTC_STG_OFS, beAt b 20 4)]

def opRtcSet : OpDef where
  code := 0x0C01
  blk := 12
  schema := [{ typ := tTimeSet, lo := 24, hi := 24 }]
  form := fun _ q =>
    let b := tv q.tlvs tTimeSet
    if beAt b 1 3 ≠ 0 then some (badAt q.tlvs tTimeSet 0x0005)
    else imgFault q.tlvs tTimeSet (timeImgs b) (beAt b 0 1 ≤ 1)
  perm := onlyOperator
  exist := fun s _ => if s.get F.RTC_STAT_SYNC = 1 || s.get F.RTC_COMMIT_GO = 1 then some { status := .busy } else none
  run := fun s q =>
    let b := tv q.tlvs tTimeSet
    let s := (timeImgs b).foldl (fun s p => s.wr p.1 p.2) s
    .pend .rtcSet 0 0 false (s.rtcGo (2 ^ 31 + beAt b 0 1))

def opRtcRead : OpDef where
  code := 0x0C02
  blk := 12
  perm := operatorOrService
  run := fun s _ => .done .ok (tlv 0x0C02 ((s.rd Reg.RTC_STAT :: s.rtcSnap).map (natBE 4)).flatten) s

def opRtcAlarmSet : OpDef where
  code := 0x0C03
  blk := 12
  schema := [{ typ := tAlarm, lo := 9, hi := 9 }]
  form := fun _ q =>
    let b := tv q.tlvs tAlarm
    imgFault q.tlvs tAlarm [(Reg.RTC_ALMHI 0, beAt b 5 4)] (beAt b 0 1 ≤ 3)
  perm := onlyOperator
  run := fun s q =>
    let b := tv q.tlvs tAlarm
    let a := beAt b 0 1
    .done .ok [] ((s.wr (Reg.RTC_ALMLO a) (beAt b 1 4)).alarmSet a (beAt b 5 4))

def opRtcLeapSet : OpDef where
  code := 0x0C04
  blk := 12
  schema := [{ typ := tLeap, lo := 4, hi := 4 }]
  form := fun _ q => imgFault q.tlvs tLeap [(Reg.RTC_LEAP, beAt (tv q.tlvs tLeap) 0 4)] true
  perm := onlyOperator
  exist := fun s _ => if s.get F.RTC_STAT_SYNC = 1 && s.rtc.utcValid then some { status := .busy } else none
  run := fun s q =>
    let w := beAt (tv q.tlvs tLeap) 0 4
    .done .ok [] ((s.wr Reg.RTC_LEAP (putBits w 29 29 0)).rtcLive)

/-- A local time change: its instant and offset. -/
def zoneOf (b : Bytes) : W64 × Int := (BitVec.ofNat 64 (beAt b 0 8), sgn 16 (beAt b 8 2))

def opRtcZoneSet : OpDef where
  code := 0x0C05
  blk := 12
  schema := [{ typ := tZone, lo := 10, hi := 10, maxN := 32 }]
  form := fun _ q =>
    if (tvs q.tlvs tZone).all fun b => -900 ≤ (zoneOf b).2 && (zoneOf b).2 ≤ 900 then none
    else some (badAt q.tlvs tZone 0x0008)
  perm := onlyOperator
  run := fun s q => .done .ok [] (s.setRtc fun r => { r with zones := (tvs q.tlvs tZone).map zoneOf })

/-- A change of the PTP role raises an event of the block (R26): TIME_SYNC, with SYNC as it stands (log 277). -/
def State.ptpRole (s : State) (old : Nat) : State :=
  if s.get F.RTC_PTP_ROLE = old then s else
  let y := s.get F.RTC_STAT_SYNC
  s.raise 0x0C02 5 0 (natBE 1 y ++ natBE 1 y ++ natBE 8 s.rtc.gm.toNat)

def opRtcPtpCfg : OpDef where
  code := 0x0C06
  blk := 12
  schema := [{ typ := tPtp, lo := 12, hi := 12 }]
  form := fun _ q =>
    let b := tv q.tlvs tPtp
    let step := beAt b 4 4
    imgFault q.tlvs tPtp [(Reg.RTC_PTP, beAt b 0 4), (Reg.RTC_STEP, step), (Reg.RTC_TRIM, beAt b 8 4)]
      (bitsOf (beAt b 0 4) 1 0 != 3 && 10 ≤ step && step ≤ 1000000 && beAt b 8 4 != 0x400)
  perm := onlyOperator
  run := fun s q =>
    let b := tv q.tlvs tPtp
    .done .ok [] ((s.setImgs [(Reg.RTC_PTP, beAt b 0 4), (Reg.RTC_STEP, beAt b 4 4), (Reg.RTC_TRIM, beAt b 8 4)]).ptpRole
      (s.get F.RTC_PTP_ROLE))

def execRtcSet (r : Req) (s : State) : Res := .next (batonRun opRtcSet r s)
def execRtcRead (r : Req) (s : State) : Res := .next (batonRun opRtcRead r s)
def execRtcAlarmSet (r : Req) (s : State) : Res := .next (batonRun opRtcAlarmSet r s)
def execRtcLeapSet (r : Req) (s : State) : Res := .next (batonRun opRtcLeapSet r s)
def execRtcZoneSet (r : Req) (s : State) : Res := .next (batonRun opRtcZoneSet r s)
def execRtcPtpCfg (r : Req) (s : State) : Res := .next (batonRun opRtcPtpCfg r s)

end Sys2Proof.Machine
end

