-- ==== Sys2Proof/Machine/Ledger.lean ====
section
/-! DEFINITION. Machine/Ledger.lean: operating modes, the energy ledger and its opcodes, supply loss and the steps of Table 5.6
(chapter 5). -/

namespace Sys2Proof.Machine

def State.setLedger (s : State) (f : LedgerSt → LedgerSt) : State := { s with ledger := f s.ledger }

/-! ### Modes (5.1, 5.2) -/

/-- SPRINT, PACE and MARATHON: the modes that a command chooses. -/
def isRunMode (m : Nat) : Bool := m == modeSprint || m == modePace || m == modeMarathon

/-- Lap tasks with a configured period below a minimum (R116). -/
def State.shortTasks (s : State) (us : Nat) : List Nat := (List.range 8).filter fun n => s.get (F.LAP_TPER_PERIOD n) < us

/-- Fast loops with a configured period below a minimum; that of a relay-triggered loop is the relay period times DIV + 1 (R116, R206). -/
def State.shortLoops (s : State) (us : Nat) : List Nat :=
  (List.range 16).filter fun n => s.loopCfgNs n < us * usec

/-- R116 forbids a commanded change to a mode. -/
def State.tooShort (s : State) (m : Nat) : Bool :=
  !((s.shortTasks (modeMins m).1).isEmpty && (s.shortLoops (modeMins m).2).isEmpty)

/-- A bit mask of numbers. -/
def maskOf (ns : List Nat) : Nat := ns.foldl (fun a n => a + 2 ^ n) 0

/-- R116 on an automatic change: shorter periods are stretched for as long as the mode lasts, and MODE_STRETCH lists them. -/
def State.stretchTo (s : State) (m : Nat) (auto : Bool) : State :=
  let mins := if auto then modeMins m else (0, 0)
  let ts := s.shortTasks mins.1
  let ls := s.shortLoops mins.2
  if ts.isEmpty && ls.isEmpty then s else
  s.raise 0x0202 4 0 (natBE 1 (maskOf ts) ++ natBE 2 (maskOf ls) ++ natBE 4 mins.1 ++ natBE 4 mins.2)

/-- EEE low-power idle ends on E0 and E1 where the mode or LPI_EN does not allow it (R115, R126). -/
def State.lpiCheck (s : State) : State :=
  if s.mode ≠ modeSprint && s.get F.LEDGER_PORT_LIM_LPI_EN = 1 then s else (s.put (F.ETH_PSTAT_LPI 0) 0).put (F.ETH_PSTAT_LPI 1) 0

/-- PD_PACER under a mode (R558): on in SPRINT, PACE and ISLAND; gated between plans in MARATHON, and in BLOCKS, where the gate
waits under R15. -/
def State.pacerMode (s : State) (m : Nat) : State :=
  if m = modeSprint || m = modePace || m = modeIsland then s.pacerPower
  else if s.pdOn 2 && !(s.sys.gates.contains 2) && m ≠ modeHoldup then { s with sys := { s.sys with gates := s.sys.gates ++ [2] } }
  else s

/-- The mode changes (R117, Table 5.3): CAUSE 1 command, 2 AUTO_RUN, 3 anchor lost, 4 anchor regained, 5 supply loss. -/
def State.toMode (s : State) (new cause : Nat) : State :=
  let old := s.mode
  -- the drivers have their objects' values before they leave START; on the way to HOLDUP they keep START
  let s := if old ≠ modeBlocks then s else if new = modeHoldup then s.uioAllStart else s.uioAllFromObj
  let s0 := s
  let s := (s.put F.LEDGER_MODE_CUR new).put F.LEDGER_MODE_CAUSE cause
  let s := State.uioOutAll s0 (if isRunMode new then s.put F.LEDGER_MODE_BASE new else s)
  let s := (s.cond 2 0).raise 0x0201 5 0 (natBE 1 old ++ natBE 1 new ++ natBE 1 cause)
  let s := s.stretchTo new (cause = 2 || cause = 3 || cause = 4)
  let s := if new = modeBlocks then s.uioAllStart.lapBlocksEntry
    else if old = modeBlocks && new ≠ modeHoldup then s.lapRunEntry else s
  (s.pacerMode new).lpiCheck.rolesCheck

/-! ### Ranges, carried values and shedding (R126 to R131). Quantities: 0 CLK_APP, 1 lanes, 2 E0, 3 E1. -/

/-- Floor and ceiling of a quantity by mode (Table 5.2). -/
def modeRange (m q : Nat) : Nat × Nat :=
  match q with
  | 0 => if m = modeSprint then (48, 48) else if m = modeMarathon then (4, 16) else if m = modeHoldup then (4, 8) else (4, 48)
  | 1 => modeLanes m
  | _ => if m = modeSprint then (2, 2) else (0, 2)

/-- Policy floor and ceiling of a quantity (5.4). -/
def State.policyRange (s : State) (q : Nat) : Nat × Nat :=
  match q with
  | 0 => (s.get F.LEDGER_APP_LIM_FLOOR, s.get F.LEDGER_APP_LIM_CEIL)
  | 1 => (s.get F.LEDGER_LANE_LIM_FLOOR, s.get F.LEDGER_LANE_LIM_CEIL)
  | 2 => (s.get F.LEDGER_PORT_LIM_E0_FLOOR, s.get F.LEDGER_PORT_LIM_E0_CEIL)
  | _ => (s.get F.LEDGER_PORT_LIM_E1_FLOOR, s.get F.LEDGER_PORT_LIM_E1_CEIL)

/-- The range of R126. -/
def State.range (s : State) (q : Nat) : Nat × Nat :=
  let (mf, mc) := modeRange s.mode q
  let (pf, pc) := s.policyRange q
  let ceil := min mc pc
  (min (max mf pf) ceil, ceil)

/-- The value in effect. -/
def State.qNow (s : State) (q : Nat) : Nat :=
  match q with
  | 0 => max 4 (s.get F.LEDGER_EFF_APP)
  | 1 => s.get F.LEDGER_EFF_LANES
  | 2 => if s.get (F.ETH_PSTAT_LINK 0) = 1 then s.get F.LEDGER_EFF_E0 else 0
  | _ => if s.get (F.ETH_PSTAT_LINK 1) = 1 then s.get F.LEDGER_EFF_E1 else 0

/-- The quantity takes the power of its value: a port does only with a link (log 85). -/
def State.qTakes (s : State) (q : Nat) : Bool :=
  if q = 2 then s.get (F.ETH_PSTAT_LINK 0) == 1 else if q = 3 then s.get (F.ETH_PSTAT_LINK 1) == 1 else true

/-- The partner of E0 or E1 is no Lysrix module: it sets the rate, and no floor of the port is enforceable (R130). -/
def State.foreignPort (s : State) (q : Nat) : Bool :=
  (q == 2 && s.get (F.ETH_PSTAT_LINK 0) == 1 && s.get (F.ETH_PSTAT_LYSRIX 0) == 0) ||
  (q == 3 && s.get (F.ETH_PSTAT_LINK 1) == 1 && s.get (F.ETH_PSTAT_LYSRIX 1) == 0)

/-- Lower a value by its steps (lanes in clusters of 8) until a deficit is met or `lo` is reached: the value and what is still missing. -/
def shedTo (q lo : Nat) : Nat → Nat → Nat → Nat × Nat
  | 0, v, miss => (v, miss)
  | f + 1, v, miss =>
    let d := if q = 1 then 8 else 1
    if miss = 0 || v < lo + d then (v, miss)
    else shedTo q lo f (v - d) (miss - (qCharge q v - qCharge q (v - d)))

/-- R129: the values after shedding, in the order lanes, CLK_APP, E0, E1, down to the given bounds. -/
def shedAll (lo : Nat → Nat) (vs : List Nat) (miss : Nat) : List Nat × Nat :=
  [1, 0, 2, 3].foldl (fun a q =>
    let (v, m) := shedTo q (lo q) 64 (a.1.getD q 0) a.2
    (setNth a.1 q v, m)) (vs, miss)

/-- A floor of a quantity is not carried, or is carried again (R128). -/
def State.floorCheck (s : State) (q : Nat) (bad : Option (Nat × Nat)) : State :=
  let was := s.ledger.unmet.getD q false
  match bad with
  | some (floor, held) =>
    let s := s.setLedger fun l => { l with unmet := setNth l.unmet q true, carriedFor := setNth l.carriedFor q 0 }
    if was then s else
    (s.cond 2 1).raise 0x0203 3 0 (natBE 1 q ++ natBE 1 floor ++ natBE 1 held ++ natBE 4 (wrapN 32 s.ledger.headroom))
  | none =>
    if !was then s else
    let n := s.ledger.carriedFor.getD q 0 + 1
    if n < 10 then s.setLedger fun l => { l with carriedFor := setNth l.carriedFor q n }
    else
      let s := s.setLedger fun l => { l with unmet := setNth l.unmet q false, carriedFor := setNth l.carriedFor q 0 }
      (s.cond 2 2).raise 0x0204 5 0 (natBE 1 q)

/-- FLOOR_UNMET for the floors above the values held, but for a port whose partner sets its rate (R128, R130). -/
def State.floorsCheck (s : State) (held : List Nat) : State :=
  (List.range 4).foldl (fun s q =>
    let f := (s.range q).1
    let v := held.getD q 0
    s.floorCheck q (if v < f && !s.foreignPort q then some (f, v) else none)) s

/-- The value that a quantity takes at a tick under its range and what is carried (R126). `app` is the choice of hardware adaptation for
CLK_APP; a port rises at the tick to its floor only, as Stride raises it further on its own demand, and lanes are added at a plan start. -/
def State.qPick (s : State) (q app c : Nat) : Nat :=
  let (f, ceil) := s.range q
  if q = 0 then max (min f c) (min (min ceil c) app)
  else if q = 1 then s.qNow 1 else max (s.qNow q) (min f c)

/-- The values of a tick with headroom (R126, R127), in the order E0, E1, CLK_APP, lanes: the bounds that are carried, by quantity, and what
the increases of the first three leave of the headroom, without the reservations. -/
def State.carried (s : State) (app : Nat) : List Nat × Int :=
  [2, 3, 0, 1].foldl (fun (a : List Nat × Int) q =>
    let now := s.qNow q
    let c := carriedOf q now (a.2 - (s.reserved : Int)).toNat
    (setNth a.1 q c, if s.qTakes q then a.2 - ((qCharge q (s.qPick q app c) - qCharge q now : Nat) : Int) else a.2))
    ([0, 0, 0, 0], s.ledger.headroom)

/-- The ledger sets CLK_APP, the lanes in use and the port rates that it carries, and tests the floors (R126 to R129). `app` is the
choice of hardware adaptation for CLK_APP. In HOLDUP it tests no floor and sheds nothing. -/
def State.adapt (s : State) (app : Nat) : State :=
  let inRange (q v : Nat) : Nat := max (s.range q).1 (min (s.range q).2 v)
  if s.mode = modeHoldup then s.put F.LEDGER_EFF_APP (inRange 0 app) else
  let lanes (s : State) (n : Nat) : State :=
    if n < s.get F.LEDGER_EFF_LANES then (s.put F.LEDGER_EFF_LANES n).put F.PACER_LANES_LANES n else s
  if s.ledger.headroom < 0 then
    let now := (List.range 4).map fun q => s.qNow q
    let vs := ((List.range 4).zip now).map fun p => min p.2 (s.range p.1).2
    let freed := ((List.range 4).map fun q => qCharge q (now.getD q 0) - qCharge q (vs.getD q 0)).foldl (· + ·) 0
    let miss := (-s.ledger.headroom).toNat - freed
    let (vs, miss) := shedAll (fun q => (s.range q).1) vs miss
    let (vs, _) := shedAll qLow vs miss
    let s := lanes (s.put F.LEDGER_EFF_APP (vs.getD 0 4)) (vs.getD 1 0)
    let s := s.setLedger fun l => { l with
      caps := (vs.getD 2 0, vs.getD 3 0)
      laneRem := l.headroom }
    s.floorsCheck vs
  else
    let (cs, rem) := s.carried app
    let s := s.put F.LEDGER_EFF_APP (s.qPick 0 app (cs.getD 0 4))
    let s := s.setLedger fun l => { l with
      caps := (cs.getD 2 2, cs.getD 3 2)
      laneRem := rem }
    let s := lanes s (min (s.range 1).2 (cs.getD 1 0) / 8 * 8)
    s.floorsCheck cs

/-! ### Allocation (R121) -/

/-- A floor or any other limit of the ledger's registers holds a value in its range (5.5, R139). -/
def ledgerRange (off v : Nat) : Bool :=
  if off = Reg.LEDGER_MODE_CFG then 5 ≤ bitsOf v 31 16 && bitsOf v 31 16 ≤ 3600 && 1 ≤ bitsOf v 2 0 && bitsOf v 2 0 ≤ 3
  else if off = Reg.LEDGER_BUDGET then 5000 ≤ v && v ≤ 100000
  else if off = Reg.LEDGER_EXT then v ≤ 60000
  else if off = Reg.LEDGER_HOLD_MIN then 100 ≤ bitsOf v 15 0
  else if off = Reg.LEDGER_APP_LIM then
    4 ≤ bitsOf v 21 16 && bitsOf v 21 16 ≤ 48 && 4 ≤ bitsOf v 5 0 && bitsOf v 5 0 ≤ bitsOf v 21 16
  else if off = Reg.LEDGER_LANE_LIM then
    bitsOf v 14 8 ≤ 64 && bitsOf v 14 8 % 8 == 0 && bitsOf v 6 0 ≤ bitsOf v 14 8 && bitsOf v 6 0 % 8 == 0
  else if off = Reg.LEDGER_PORT_LIM then
    bitsOf v 13 12 ≤ 2 && bitsOf v 9 8 ≤ bitsOf v 13 12 && bitsOf v 5 4 ≤ 2 && bitsOf v 1 0 ≤ bitsOf v 5 4
  else true

/-- The source that supplies the module, coded 1 VIN, 2 PoE, 0 none; VIN takes precedence. -/
def State.source (s : State) : Nat :=
  if s.get F.LEDGER_SRC_VIN = 1 then 1 else if s.get F.LEDGER_SRC_POE = 1 then 2 else 0

/-- The allocation of the present sources. -/
def State.allocNow (s : State) : Nat :=
  match s.source with
  | 1 => s.get F.LEDGER_BUDGET_MW
  | 2 => (if s.ledger.lldp then s.get F.LEDGER_SRC_PSE_ALLOC * 500 else 71300) - s.get F.LEDGER_EXT_MW
  | _ => 0

/-- The ledger takes over the allocation at a tick; a change of source or of LLDP allocation since the latest tick has raised the
mark `moved`. -/
def State.allocate (s : State) : State :=
  if s.mode = modeHoldup then s.wr Reg.LEDGER_ALLOC 0 else
  let old := s.rd Reg.LEDGER_ALLOC
  let new := s.allocNow
  let moved := s.ledger.moved
  let first := !s.ledger.measured
  let s := (s.wr Reg.LEDGER_ALLOC new).setLedger fun l => { l with measured := l.measured || s.source != 0, moved := false }
  if moved && !first then (s.cond 2 3).raise 0x0205 5 0 (natBE 1 s.source ++ natBE 4 old ++ natBE 4 new) else s

/-- A source at `mv` is present from the moment it rises above its start threshold until it falls below its loss threshold (R532). -/
def sourceUp (was : Bool) (start loss mv : Nat) : Bool := if was then loss ≤ mv else start < mv

/-- VIN at `mv` (Table 21.5). -/
def State.vinUp (s : State) (mv : Nat) : Bool := sourceUp (s.get F.LEDGER_SRC_VIN == 1) 17500 16500 mv

/-- PoE at `mv` and with the class that the PSE assigned; a class below 8 counts as absent (R419, Table 21.5). -/
def State.poeUp (s : State) (mv cls : Nat) : Bool := cls == 8 && sourceUp (s.get F.LEDGER_SRC_POE == 1) 37000 30000 mv

/-- The sources stand at these voltages (R121, R532). -/
def State.setSources (s : State) (vin poe cls : Nat) : State :=
  let on := s.poeUp poe cls
  let s := ((s.put F.LEDGER_SRC_VIN (b2n (s.vinUp vin))).put F.LEDGER_SRC_POE (b2n on)).put F.LEDGER_SRC_CLASS (if 30000 ≤ poe then cls else 0)
  if on then s else (s.put F.LEDGER_SRC_PSE_ALLOC 0).setLedger fun l => { l with lldp := false }

/-- SOURCE_CHANGE: one source rises or falls while the other stays. In HOLDUP a source that returns acts only at the next start (R137). -/
def execSourceChange (vin poe : BitVec 16) (cls : BitVec 4) (s : State) : Res :=
  .next <| if s.start.phase = .cold || !(s.vinUp vin.toNat || s.poeUp poe.toNat cls.toNat) then s else
  let old := s.source
  let s := s.setSources vin.toNat poe.toNat cls.toNat
  if s.source ≠ old && s.mode ≠ modeHoldup then s.setLedger fun l => { l with moved := true } else s

/-! ### Items that wait, when they end before their time -/

/-- What an item waits for is withdrawn: it ends FAILED or ABORTED_CANCEL before its point of no return. -/
def State.withdrawItem (s : State) (i : Item) : State :=
  match i.wait with
  | .progSwitch => s.swCancel
  | .rtcSet => s.put F.RTC_COMMIT_GO 0
  | .updFetch => { s with upd := { s.upd with fetch := none } }
  | .handover => { s with furun := { s.furun with hands := s.furun.hands.filter fun h => !(h.owner == i.owner && h.item == i.item) } }
  | .relayed => { s with furun := { s.furun with relayed := s.furun.relayed.filter fun r => !(r.owner == i.owner && r.item == i.item && r.back.isNone) } }
  | _ => s

/-- An item ends FAILED and what it waits for is withdrawn. -/
def State.failItem (s : State) (i : Item) : State := (s.withdrawItem i).endItem i.owner i.item .failed

/-! ### LEDGER_TICK (R120 to R129, R139) -/

/-- The images of LIMIT_SET and LEDGER_CFG by TLV type. -/
def ledgerRegOf (t : Nat) : Option Nat :=
  match t with
  | 0x0203 => some Reg.LEDGER_APP_LIM
  | 0x0204 => some Reg.LEDGER_LANE_LIM
  | 0x0205 => some Reg.LEDGER_PORT_LIM
  | 0x0206 => some Reg.LEDGER_BUDGET
  | 0x0207 => some Reg.LEDGER_EXT
  | 0x0208 => some Reg.LEDGER_HOLD_MIN
  | 0x0209 => some Reg.LEDGER_MODE_CFG
  | _ => none

def ledgerImgs (ts : List Tlv) : List (Nat × Nat) :=
  ts.filterMap fun t => (ledgerRegOf t.typ).map fun r => (r, beNat t.val)

/-- LIMIT_SET and LEDGER_CFG items take effect, all TLVs of one at one tick. -/
def State.limitsTick (s : State) : State :=
  (s.baton.items.filter fun i => i.wait == .limits).foldl (fun s i =>
    match parseTlvs (i.data.length + 1) 12 i.data with
    | .ok ts => (s.setImgs (ledgerImgs ts)).endItem i.owner i.item .ok
    | .error _ => s.endItem i.owner i.item .failed) s

/-- A change out of BLOCKS waits for the bank (R125). -/
def State.bankHolds (s : State) (m : Nat) : Bool :=
  s.mode = modeBlocks && m ≠ modeBlocks && s.get F.LEDGER_BANK_MJ < s.get F.LEDGER_HOLD_MIN_MJ

/-- One MODE_SET at a tick (R119, R120). -/
def State.modeItem (s : State) (i : Item) : State :=
  if s.bankHolds i.a then
    { s with baton := { s.baton with items := s.baton.items.map fun (x : Item) =>
        if x.owner = i.owner && x.item = i.item then { x with wait := .modeHeld, ponr := false } else x } }
  else if i.a = s.mode then s.endItem i.owner i.item .ok
  else if s.mode = modeIsland && isRunMode i.a then (s.put F.LEDGER_MODE_BASE i.a).endItem i.owner i.item .ok
  else if isRunMode i.a && s.tooShort i.a then s.endItem i.owner i.item .failed
  else (s.toMode i.a 1).endItem i.owner i.item .ok

/-- MODE_SET items in admission order, then AUTO_RUN. -/
def State.modesTick (s : State) : State :=
  if s.mode = modeHoldup then s else
  let s := (s.baton.items.filter fun i => i.wait == .modeSet || i.wait == .modeHeld).foldl (fun s i => s.modeItem i) s
  if !s.ledger.auto then s
  else if s.mode ≠ modeBlocks then s.setLedger fun l => { l with auto := false }
  else if s.bankHolds modePace then s
  else (s.setLedger fun l => { l with auto := false }).toMode (s.get F.LEDGER_MODE_CFG_RUN_MODE) 2

/-- BANK_LOW, once for each fall in a run mode (R125). -/
def State.bankTick (s : State) : State :=
  let low := s.get F.LEDGER_BANK_MJ < s.get F.LEDGER_HOLD_MIN_MJ
  let run := isRunMode s.mode || s.mode = modeIsland
  let new := low && run && !s.ledger.bankLow
  let s := s.setLedger fun l => { l with bankLow := low && (run || l.bankLow) }
  if new then (s.cond 2 4).raise 0x0208 3 0 (natBE 4 (s.get F.LEDGER_BANK_MJ) ++ natBE 2 (s.get F.LEDGER_HOLD_MIN_MJ)) else s

/-- The headroom of R123: the allocation less the draw and 5 % of the allocation, rounded down to 1 mW. -/
def headroomOf (alloc draw : Nat) : Int := (((alloc : Int) - draw) * 100 - (alloc * 5 : Nat)) / 100

def State.ledgerTick (s : State) (m : Monitor) : State :=
  if s.start.phase = .cold then s else
  let s := s.reach s.ledger.nextTick
  let s := s.setLedger fun l =>
    { l with
      nextTick := (s.clk / msec + 1) * msec
      ein := (l.ein + (l.einFrac + m.draw.toNat) / 1000) % 2 ^ 64
      einFrac := (l.einFrac + m.draw.toNat) % 1000
      resv := l.resv.filter fun r => r.till > s.clk }
  let s := (s.wr Reg.LEDGER_DRAW m.draw.toNat).wr Reg.LEDGER_BANK m.bank.toNat
  let s := s.limitsTick.allocate
  let s := s.setLedger fun l => { l with headroom := headroomOf (s.rd Reg.LEDGER_ALLOC) m.draw.toNat }
  let s := (s.modesTick.adapt m.app.toNat).lpiCheck.bankTick.probesMissed
  s.put F.LEDGER_EFF_FLOOR_UNMET (b2n (s.ledger.unmet.any id))

def execLedgerTick (m : Monitor) (s : State) : Res := .next (s.ledgerTick m)

/-! ### ISLAND (R117 to R119) -/

/-- ISLAND_ENTRY: no contact with the anchor for ISL_TO seconds. -/
def State.islandEntry (s : State) : State :=
  match s.furun.noAnchor with
  | none => s
  | some t =>
    if !(isRunMode s.mode) || s.upGroup.isNone || s.start.phase ≠ .running then s else
    (s.reach (t + s.get F.LEDGER_MODE_CFG_ISL_TO * sec)).toMode modeIsland 3

def execIslandEntry (s : State) : Res := .next s.islandEntry

/-- ISLAND_EXIT: contact regained for 3 heartbeat intervals, and the anchor's current envelope, which its FINAL brings, received since
(log 89). -/
def State.islandExit (s : State) : State :=
  match s.furun.regained with
  | none => s
  | some t =>
    if s.mode ≠ modeIsland || !(s.pacer.heard.any fun a => t ≤ a) then s else
    (s.reach (t + 3 * s.hbNs)).toMode (s.get F.LEDGER_MODE_BASE) 4

def execIslandExit (s : State) : Res := .next s.islandExit

/-! ### Opcodes (5.7) -/

def tMode : Nat := 0x0201

def opModeSet : OpDef where
  code := 0x0201
  blk := 2
  schema := [{ typ := tMode, lo := 1, hi := 1 }]
  form := rangeChk tMode fun m => m ≤ 3
  perm := onlyOperator
  pre := fun s q =>
    let m := tn q.tlvs tMode
    if isRunMode m && m ≠ s.mode && s.mode ≠ modeIsland && s.tooShort m then some { status := .busy } else none
  run := fun s q =>
    let m := tn q.tlvs tMode
    if s.bankHolds m then .pend .modeHeld m 0 false s else .pend .modeSet m 0 true s

def execModeSet (r : Req) (s : State) : Res := .next (batonRun opModeSet r s)

def opModeGet : OpDef where
  code := 0x0202
  blk := 2
  perm := operatorOrService
  run := fun s _ =>
    .done .ok (tlv 0x0202 (natBE 1 s.mode ++ natBE 1 (s.get F.LEDGER_MODE_BASE) ++ natBE 1 (s.get F.LEDGER_MODE_CAUSE))) s

def execModeGet (r : Req) (s : State) : Res := .next (batonRun opModeGet r s)

/-- The tests of LIMIT_SET and LEDGER_CFG: at least one TLV, and each image without reserved bits and in range (R139). -/
def ledgerForm : Chk := fun _ q =>
  if q.tlvs.isEmpty then some (badP 0x0004) else
  q.tlvs.findSome? fun t =>
    match ledgerRegOf t.typ with
    | some r => imgFault q.tlvs t.typ [(r, beNat t.val)] (ledgerRange r (beNat t.val))
    | none => none

def opLimitSet : OpDef where
  code := 0x0203
  blk := 2
  schema := [0x0203, 0x0204, 0x0205].map fun t => { typ := t, lo := 4, hi := 4, minN := 0 }
  form := ledgerForm
  perm := onlyOperator
  run := fun s _ => .pend .limits 0 0 true s

def execLimitSet (r : Req) (s : State) : Res := .next (batonRun opLimitSet r s)

def opLedgerCfg : OpDef where
  code := 0x0204
  blk := 2
  schema := [⟨0x0206, 4, 4, 0, 1, 0x20⟩, ⟨0x0207, 4, 4, 0, 1, 0x20⟩, ⟨0x0208, 2, 2, 0, 1, 0x20⟩, ⟨0x0209, 4, 4, 0, 1, 0x20⟩]
  form := ledgerForm
  perm := onlyOperator
  run := fun s _ => .pend .limits 0 0 true s

def execLedgerCfg (r : Req) (s : State) : Res := .next (batonRun opLedgerCfg r s)

/-- The words of snapshot group 0 (Table 5.4). -/
def State.ledgerSnap (s : State) : List Nat :=
  [s.ledger.ein % 2 ^ 32, s.ledger.ein / 2 ^ 32, s.rd Reg.LEDGER_DRAW, s.rd Reg.LEDGER_BANK]

def opLedgerRead : OpDef where
  code := 0x0205
  blk := 2
  perm := operatorOrService
  run := fun s _ =>
    .done .ok (tlv 0x020A (natBE 4 (s.rd Reg.LEDGER_ALLOC) ++ natBE 4 (s.rd Reg.LEDGER_DRAW) ++ natBE 4 (s.rd Reg.LEDGER_BANK) ++
      natBE 8 s.ledger.ein ++ natBE 4 (s.rd Reg.LEDGER_EFF) ++ natBE 4 (s.rd Reg.LEDGER_HOLD_LAST))) s

def execLedgerRead (r : Req) (s : State) : Res := .next (batonRun opLedgerRead r s)

end Sys2Proof.Machine
end

