-- ==== Sys2Proof/Machine/Holdup.lean ====
section
/-! DEFINITION. Machine/Holdup.lean: supply loss and the steps of Table 5.6, which HOLDUP runs and which a commanded restart runs from
step 2 on (5.6, R146). -/

namespace Sys2Proof.Machine

def State.setHold (s : State) (f : HoldSt → HoldSt) : State := s.setLedger fun l => { l with hold := f l.hold }

/-! ### Charges (Table 5.6) -/

/-- The charge in mJ that an opcode's chapter gives, or 2 mJ (R134). -/
def itemCharge (opcode : Nat) : Nat :=
  match opcode with
  | 0x0304 => 1 | 0x0305 => 30 | 0x0306 => 20 | 0x0307 => 20
  | 0x0601 => 1 | 0x0602 => 5 | 0x0603 => 5 | 0x0604 => 1 | 0x0605 => 5 | 0x0606 => 1 | 0x0607 => 1
  | 0x0702 => 1 | 0x0703 => 2 | 0x0705 => 2
  | 0x0D02 => 2 | 0x0D06 => 5 | 0x0D07 => 1 | 0x0D08 => 2 | 0x0D0F => 20
  | 0x0E01 => 2 | 0x0E02 => 1 | 0x0E05 => 30 | 0x0E06 => 20 | 0x0E07 => 30 | 0x0E08 => 2
  | _ => 2

/-- The relay output writes of the current period and of the period after it have begun (Table 5.6, step 3). -/
def State.relayBegun (s : State) (w : RWrite) : Bool :=
  w.carry.isSome || w.atNs + 2 * usec ≤ s.relay.sofClk + s.relayPeriod

/-- The CAN object of a channel whose frame is on the wire: a lap's, a Baton item's, a reply or any other. -/
def State.canBegun (s : State) (c : Nat) : List Nat := ((s.canCh c).wire.map (·.m)).toList

/-- Put a number in its place in a list that rises by `at_`, behind its equals. -/
def placeBy (at_ : Nat → Nat) (n : Nat) : List Nat → List Nat
  | [] => [n]
  | m :: ms => if at_ n < at_ m then n :: m :: ms else m :: placeBy at_ n ms

/-- Numbers in the order of their instants. -/
def orderBy (at_ : Nat → Nat) (ns : List Nat) : List Nat := ns.foldl (fun l n => placeBy at_ n l) []

/-- The optional items of steps 2 to 4 in table order, and within a step in admission order: each with its charge in µJ and its time bound.
Step 3 has one charge, which its first item carries. -/
def State.holdWork (s : State) : List HoldItem :=
  let tasks := orderBy (fun n => (s.task n).relAt) ((List.range 8).filter fun n => (s.task n).phase ≠ .idle)
  let laps : List HoldItem := tasks.map fun n => ⟨.lap (Fin.ofNat 8 n), 100000, s.clk + 20 * msec, false⟩
  let relay : List HoldRef := (s.relay.writes.filter fun w => s.relayBegun w).map relayRef
  let can : List HoldRef := (List.range 4).flatMap fun c => (s.canBegun c).map fun m => .link (Fin.ofNat 16 c) (BitVec.ofNat 32 m)
  -- 5 W × 2 relay periods
  let step3 := ceilDiv (5 * 2 * s.relayPeriod) 1000
  let end3 := s.clk + 2 * s.relayPeriod
  let links : List HoldItem := match relay ++ can with
    | [] => []
    | r :: rs => ⟨r, step3, end3, false⟩ :: rs.map fun r => ⟨r, 0, end3, false⟩
  let chans := orderBy (fun c => (s.dmaCh c).since) ((List.range 32).filter fun c => s.dmaState c = dActive)
  let dmas : List HoldItem := chans.map fun c => ⟨.dma (Fin.ofNat 32 c), 500, s.clk + 100 * usec, false⟩
  laps ++ links ++ dmas

/-- The HOLDUP time bound that an opcode's chapter gives, or 10 ms (R134, R184, R490). -/
def State.itemBound (s : State) (opcode : Nat) : Nat :=
  if opcode = 0x0306 || opcode = 0x0307 then s.get F.LAP_OC_CFG_XFER_MAX * usec + msec
  else if opcode = 0x0D0F || opcode = 0x0E06 then 25 * msec else 10 * msec

/-- Step 5: the Baton items in flight, in admission order. -/
def State.holdBaton (s : State) : List HoldItem :=
  s.baton.items.map fun i => ⟨.baton i.owner (BitVec.ofNat 32 i.item), itemCharge i.opcode * 1000, s.clk + s.itemBound i.opcode, false⟩

/-- Fund items in order while the bank, less what is set aside, covers each (R134): those funded and those not. The links of step 3 are
funded with the first of them. -/
def fundAll : Nat → Bool → List HoldItem → List HoldItem × List HoldItem
  | _, _, [] => ([], [])
  | left, link, h :: hs =>
    let free := holdIsLink h.ref && h.uj = 0
    let ok := if free then link else h.uj ≤ left
    let (f, u) := fundAll (if ok then left - h.uj else left) (if holdIsLink h.ref && !free then ok else link) hs
    if ok then (h :: f, u) else (f, h :: u)

/-! ### Items that end FAILED -/

/-- One item of steps 2 to 5 ends FAILED: it is not funded, or it overruns its bound (R134). -/
def State.holdFail (s : State) (ref : HoldRef) : State :=
  match ref with
  | .lap n =>
    let s := s.lapAbort n.val
    s.holdEnd ref true
  | .link owner item =>
    if owner.val < 4 then
      match (s.canObj owner.val item.toNat).req with
      | some r =>
        let s := s.setCanObj owner.val item.toNat fun o => { o with req := none }
        (s.canReqEnd owner.val item.toNat r stFailed).holdEnd ref true
      | none => s.holdEnd ref true
    else
      match s.relay.writes.find? fun w => relayRef w == ref with
      | some w => s.relayWriteEnd w stFailed
      | none => s.holdEnd ref true
  | .dma c =>
    match (s.dmaCh c.val).desc with
    | some d => ((s.dmaFail c.val d).setDma c.val fun x => { x with desc := none, await := false }).dmaTo c.val dIdle
    | none => s.holdEnd ref true
  | .baton owner item =>
    match s.item? owner item.toNat with
    | some i => s.failItem i
    | none => s.holdEnd ref true

/-- CAN messages not yet begun, and relay output writes queued for later periods, end FAILED at entry (R135). -/
def State.linksNotBegun (s : State) : State :=
  let s := s.relayEndAll (fun w => !s.relayBegun w) stFailed
  (List.range 4).foldl (fun s c =>
    (List.range 64).foldl (fun s m =>
      let o : CanObj := s.canObj c m
      if (s.canCh c).onWire m then
        match o.shadow with
        | some (_, r) => ((s.setCanObj c m fun o => { o with shadow := none }).canReqEnd c m r stFailed).canSync c m
        | none => s
      else if o.shadow.isSome || o.req.isSome || (s.canCh c).fifo.any fun p => p.1 == m then s.canDrop c m stFailed else s) s) s

/-- Baton items that do not enter step 5: MODE_SETs (R120), and a switch of which nothing has been copied (R184). -/
def State.holdRefused (s : State) : State :=
  (s.baton.items.filter fun i => i.wait == .modeSet || i.wait == .modeHeld || (i.wait == .progSwitch && s.lap.copy.isNone)).foldl
    (fun s i => s.failItem i) s

/-! ### SUPPLY_LOSS: entry and step 1 (R133 to R136) -/

/-- CHSTATE of a channel's latest frame, or 0xFF when the channel is absent (Table 5.10). -/
def State.chStateByte (s : State) (ch : Bool) : Nat :=
  if !s.safePresent ch then 0xFF else
  match s.safeFrame ch with
  | some f => bitsOf f.chw 31 24
  | none => 0xFF

/-- Set the funded items and what stays set aside. -/
def State.fund (s : State) (bankUj : Nat) (all : Bool) : State :=
  let work := s.holdWork ++ s.holdBaton
  let (funded, rest) := if all then (work, []) else fundAll (bankUj - 66000) true work
  let s := s.setHold fun h => { h with items := funded, failed := 0, unfunded := rest.length }
  let s : State := { s with baton := { s.baton with items := s.baton.items.map fun (i : Item) =>
    { i with funded := funded.any fun h => h.ref == .baton i.owner (BitVec.ofNat 32 i.item) } } }
  rest.foldl (fun s h => s.holdFail h.ref) s

/-- HOLDUP is entered and step 1 runs. -/
def State.enterHoldup (s : State) : State :=
  let base := s.get F.LEDGER_MODE_BASE
  let s : State := { s with start := { s.start with restartKind := none, phase := .holdup } }
  let s := s.holdRefused.setLedger fun l => { l with auto := false }
  let s := s.toMode modeHoldup 5
  let s := s.linksNotBegun
  -- QUEUED channels return to IDLE without an item (R528)
  let s := (List.range 32).foldl (fun s c => if s.dmaState c = dQueued then s.dmaTo c dIdle else s) s
  let s := s.setHold fun h => { h with step := 1, reserve := 65000, stable := none, enough := s.bankUj ≥ 66000 }
  let s := s.fund s.bankUj false
  let s := ((s.coordStop.hardGate 2).stopMirror.hardGate 6).heartbeats modeHoldup
  let s := (s.put F.LEDGER_HOLD_LAST_BANK_END 0).put F.LEDGER_HOLD_LAST_STEPS 1
  s.raise 0x0206 1 0 (natBE 4 (s.get F.LEDGER_BANK_MJ) ++ natBE 1 (s.chStateByte false) ++ natBE 1 (s.chStateByte true) ++ natBE 1 base)

/-- Steps 2 to 8 of Table 5.6 begin with the supply present, every item funded; the reset of `kind` follows (R146). -/
def State.beginRestart (s : State) (kind : Nat) : State :=
  let s : State := { s with start := { s.start with restartKind := some kind, phase := .restarting } }
  (s.setHold fun h => { h with step := 1, reserve := 0, stable := none, enough := false }).fund 0 true

/-- HOLDUP_ITEM_BOUND: an item of steps 2 to 5 overruns its time bound (R134). -/
def execHoldupItemBound (ref : HoldRef) (s : State) : Res :=
  .next <| if !s.closing then s else
  match s.ledger.hold.items.find? fun h => h.ref == ref with
  | some h => (s.reach h.till).holdFail ref
  | none => s

/-! ### Steps 6 to 9 -/

/-- A step of Table 5.6 has been passed: its charge is no longer set aside, and in HOLDUP LEDGER_HOLD_LAST shows it. -/
def State.stepPassed (s : State) (n spent : Nat) : State :=
  let s := s.setHold fun h => { h with step := n, reserve := h.reserve - spent }
  if s.mode = modeHoldup then s.put F.LEDGER_HOLD_LAST_STEPS (2 ^ n - 1) else s

/-- The step is the next one of the sequence. -/
def State.stepDue (s : State) (n : Nat) : Bool :=
  s.closing && (if n = 6 then s.ledger.hold.step < 6 && !s.holdReads else s.ledger.hold.step + 1 == n)

/-- HOLDUP_FIELD: step 6. In HOLDUP reads that have not ended end FAILED (R136). Outputs take START, loops go to MANUAL (R202 cause 4), and
PD_LOOP, PD_FIELD and PD_NET are gated. -/
def State.holdField (s : State) : State :=
  if !s.stepDue 6 then s else
  let s := if s.mode = modeHoldup then s.baton.items.foldl (fun s i => s.failItem i) s else s
  let s0 := s
  let s := s.stepPassed 6 0
  let s := (State.uioOutAll s0 s).uioAllStart
  let s : State := { s with engine := { s.engine with holdup := true } }
  let s := (List.range 256).foldl (fun s n => if s.loopMode n = 0 then s else s.loopEval n) s
  ((s.hardGate 3).hardGate 5).hardGate 4

def execHoldupField (s : State) : Res := .next s.holdField

/-- The identity of the active lap program. -/
def State.progId (s : State) : BitVec 256 := Config.sm3 (s.slot (s.get F.LAP_STAT_SLOT)).image

/-- HOLDUP_RETAIN: step 7 writes the retain image (R144, R166). -/
def State.holdRetain (s : State) : State :=
  if !s.stepDue 7 then s else
  { s.stepPassed 7 40000 with start := { s.start with retain := some (s.retainImg s.progId) } }

def execHoldupRetain (s : State) : Res := .next s.holdRetain

/-- HOLDUP_ITEM_TABLE: step 8 writes every item and its final state, and flushes the in-flight mirror (6.5). -/
def State.holdTable (s : State) : State :=
  if !s.stepDue 8 then s else
  { s.stepPassed 8 20000 with start := { s.start with flushed := some s.start.mirror } }

def execHoldupItemTable (s : State) : Res := .next s.holdTable

/-- HOLDUP_CLOSE: step 9 records the outcome and gates the domains that are still on; the watchdog stops (R559). -/
def State.holdClose (s : State) (bank : Nat) : State :=
  if s.mode ≠ modeHoldup || !s.stepDue 9 then s else
  let s := ((s.wr Reg.LEDGER_BANK bank).stepPassed 9 5000).put F.LEDGER_HOLD_LAST_BANK_END (min bank 65535)
  let h := s.ledger.hold
  let s := s.raise 0x0207 2 0 (natBE 2 (s.get F.LEDGER_HOLD_LAST_STEPS) ++ natBE 4 bank ++ natBE 2 h.failed ++ natBE 2 h.unfunded)
  let s := [1, 2, 3, 4, 5, 6].foldl (fun s d => s.hardGate d) s
  { s with sys := { s.sys with wdtOn := false } }

def execHoldupClose (bank : W32) (s : State) : Res := .next (s.holdClose bank.toNat)

/-- SUPPLY_RETURN: a source rises above its start threshold during HOLDUP (R137). -/
def State.supplyReturn (s : State) (vin poe cls : Nat) : State :=
  if s.mode ≠ modeHoldup || !(s.vinUp vin || s.poeUp poe cls) then s else
  let s := s.setSources vin poe cls
  s.setHold fun h => { h with stable := some (h.stable.getD s.clk) }

def execSupplyReturn (vin : BitVec 16) (poe : PoeIn) (s : State) : Res := .next (s.supplyReturn vin.toNat poe.mv.toNat poe.cls.toNat)

end Sys2Proof.Machine
end

