-- ==== Sys2Proof/Machine/Keys.lean ====
section
/-! DEFINITION. Machine/Keys.lean: the key engine's opcodes, and tamper (18.3 to 18.7, 18.10). -/

namespace Sys2Proof.Machine

def tGen : Nat := 0x0D02
def tPubkey : Nat := 0x0D03
def tCert : Nat := 0x0D04
def tTrustSlot : Nat := 0x0D05
def tSerial : Nat := 0x0D06
def tVslot : Nat := 0x0D07
def tWrapped : Nat := 0x0D08
def tNonce : Nat := 0x0D09
def tArm : Nat := 0x0D0B
def tParent : Nat := 0x0D0C
def tLabel : Nat := 0x0D0D
def tContext : Nat := 0x0D0E
def tKeyAttr : Nat := 0x0D0F
def tHandle : Nat := 0x0D10
def tBlob : Nat := 0x0D11
def tLifeState : Nat := 0x0D12
def tConfirm : Nat := 0x0D13

/-- The lifecycle: burnt fuses, rounded up to the next state (R466). -/
def State.lifecycle (s : State) : Nat := (s.keys.lifeFuses + 1) / 2

/-- In RETIRED only KEYS_STATUS is served (R490). -/
def notRetired : Chk := fun s _ => if s.lifecycle = 2 then some { status := .wrongMode } else none

/-- KEYS_CERT event and condition 4. -/
def State.certEvent (s : State) (what n : Nat) : State :=
  (s.cond 13 4).raise 0x0D05 5 0 (natBE 1 what ++ natBE 1 n)

def opKeysStatus : OpDef where
  code := 0x0D01
  blk := 13
  perm := onlyOperator
  run := fun s _ => .done .ok (tlv 0x0D01 (([Reg.KEYS_STAT, Reg.KEYS_ROLLBACK, Reg.KEYS_TAMPER_CFG, Reg.KEYS_TAMPER_STAT,
    Reg.KEYS_EPOCH, Reg.KEYS_CERT_GEN].map fun r => natBE 4 (s.rd r)).flatten)) s

def opKeysCsr : OpDef where
  code := 0x0D02
  blk := 13
  charge := 2
  schema := [{ typ := tGen, lo := 1, hi := 1 }]
  perm := onlyOperator
  mode := notRetired
  run := fun s q =>
    let g := tn q.tlvs tGen
    .done .ok (tlv tPubkey (oprkPub g)) (s.setKeys fun k => { k with csrGen := some g })

/-- The generation that an operational certificate is for. -/
def State.certGen (s : State) : Nat := s.keys.csrGen.getD (s.get F.KEYS_CERT_GEN_GEN)

def opKeysCertSet : OpDef where
  code := 0x0D03
  blk := 13
  schema := [{ typ := tCert, lo := 0, hi := 1200 }]
  perm := onlyOperator
  mode := notRetired
  pre := fun s q =>
    match Config.certKey (tv q.tlvs tCert) with
    | some key => if key = oprkPub s.certGen then none else some (badAt q.tlvs tCert 0x0008)
    | none => some (badAt q.tlvs tCert 0x0008)
  run := fun s q =>
    let g := s.certGen
    let s := ((s.put F.KEYS_CERT_GEN_GEN g).put F.KEYS_CERT_GEN_CERT 1).setKeys fun k => { k with
      csrGen := none
      cert := tv q.tlvs tCert }
    .done .ok [] (s.certEvent 0 g)

def opKeysTrustSet : OpDef where
  code := 0x0D04
  blk := 13
  schema := [{ typ := tTrustSlot, lo := 1, hi := 1 }, { typ := tPubkey, lo := 64, hi := 64, minN := 0 },
    { typ := tCert, lo := 0, hi := 0, minN := 0 }]
  form := allChk [rangeChk tTrustSlot fun v => v ≤ 4, fun _ q =>
    if (tv? q.tlvs tPubkey).isSome == (tv? q.tlvs tCert).isSome then some (badP 0x0004) else none]
  perm := onlyOperator
  mode := notRetired
  run := fun s q =>
    let n := tn q.tlvs tTrustSlot
    .done .ok [] ((s.setKeys fun k => { k with trust := setNth k.trust n (tv? q.tlvs tPubkey) }).certEvent 1 n)

/-- A session or link ends when its chain holds a newly revoked certificate (R479). -/
def State.revokeSerials (s : State) (slot : Nat) (fresh : List Nat) : State :=
  let hit (ss : List Nat) : Bool := ss.any fun x => fresh.contains x
  let s := (s.baton.sessions.filter fun x => x.trust == slot && hit x.serials).foldl (fun s x => s.closeSession x.slot 5) s
  let gone := (s.keys.linkSlots.filter fun l => l.trust == slot && hit l.serials).map (·.peer)
  gone.foldl (fun s p => s.linkDown p) s

def opKeysRevoke : OpDef where
  code := 0x0D05
  blk := 13
  schema := [{ typ := tTrustSlot, lo := 1, hi := 1 }, { typ := tSerial, lo := 1, hi := 20, minN := 0, maxN := 64 }]
  form := rangeChk tTrustSlot fun v => v ≤ 4
  perm := onlyOperator
  mode := notRetired
  run := fun s q =>
    let n := tn q.tlvs tTrustSlot
    let new := (tvs q.tlvs tSerial).map beNat
    let old := (s.keys.revoked[n]?).getD []
    let s := s.setKeys fun k => { k with revoked := setNth k.revoked n new }
    let s := s.certEvent 2 n
    -- the reply goes out before the sessions close
    .done .ok [] (s.revokeSerials n (new.filter fun x => !(old.contains x)))

/-- KEYS_ROOT event and condition 2. -/
def State.rootEvent (s : State) (slot erased : Nat) (g : W64) : State :=
  (s.cond 13 2).raise 0x0D03 4 0 (natBE 1 slot ++ natBE 1 erased ++ natBE 8 g.toNat)

/-- The unwrap key of an import (R472). -/
def importKey (r : Bytes) (slot : Nat) : Bytes := sm4Key (hmac (Config.sm2Shared didk r) (ascii "IMPT" ++ natBE 1 slot))

def opKeysImport : OpDef where
  code := 0x0D06
  blk := 13
  charge := 5
  schema := [{ typ := tVslot, lo := 1, hi := 1 }, { typ := 0x0001, lo := 8, hi := 8 }, { typ := tPubkey, lo := 64, hi := 64 },
    { typ := tWrapped, lo := 60, hi := 60 }]
  form := allChk [rangeChk tVslot fun v => v ≤ 4, fun _ q =>
    let a := tAddr q.tlvs
    if tn q.tlvs tVslot = 0 then (if a = 0 then none else some (badAt q.tlvs 0x0001 0x0008))
    else if addrBad a then some (badAt q.tlvs 0x0001 0x0006)
    else if addrObj a ≠ 0 then some (badAt q.tlvs 0x0001 0x0008) else none]
  perm := onlyOperator
  mode := notRetired
  lock := fun s _ => if s.get F.KEYS_TAMPER_STAT_CAUSE ≠ 0 then some { status := .locked } else none
  run := fun s q =>
    let n := tn q.tlvs tVslot
    let g := tAddr q.tlvs
    let w := tv q.tlvs tWrapped
    let aad := natBE 1 n ++ natBE 8 g.toNat ++ natBE 32 deviceId.toNat
    match Config.sm4Open (importKey (tv q.tlvs tPubkey) n) (w.take 12) aad (w.drop 12) with
    | none => .done .failed [] s
    | some root =>
      let x : BitVec 256 := BitVec.ofNat 256 (beNat (root.take 32))
      let s := (s.setKeys fun k => { k with vault := setNth k.vault n (some (x, g)) }).keysSync
      .done .ok [] (s.rootEvent n 0 g)

/-- One slot of the vault is zeroed; sealed replicas held under its root are discarded (R473). -/
def State.eraseSlot (s : State) (n : Nat) : State :=
  match (s.keys.vault[n]?).getD none with
  | none => s
  | some (_, g) =>
    let s := (s.setKeys fun k => { k with vault := setNth k.vault n none }).keysSync
    let keep := s.furun.replicas.filter fun r => n == 0 || r.tag == 0 || (s.groupRoot g).isSome || !(addrParent (addrOf r.obj 0 0) == g)
    let s : State := { s with furun := { s.furun with replicas := keep } }
    s.roleSync.rootEvent n 1 g

def opKeysErase : OpDef where
  code := 0x0D07
  blk := 13
  charge := 1
  schema := [{ typ := tVslot, lo := 1, hi := 1 }]
  form := rangeChk tVslot fun v => v ≤ 4 || v == 255
  perm := onlyOperator
  mode := notRetired
  run := fun s q =>
    let n := tn q.tlvs tVslot
    .done .ok [] (if n = 255 then (List.range 5).foldl (fun s k => s.eraseSlot k) s else s.eraseSlot n)

/-- The active firmware set. -/
def State.activeSet (s : State) : FwSet := if s.get F.UPD_STAT_SET = 0 then s.upd.setA else s.upd.setB

/-- The attestation report before its signature (Table 18.5). -/
def State.attestBody (s : State) (nonce : Bytes) : Bytes :=
  let prog := match s.lap.slots[s.get F.LAP_STAT_SLOT]? with
    | some x => if x.image.isEmpty then 0 else (Config.sm3 x.image).toNat
    | none => 0
  let chk (b : Nat) : Nat := (((s.mirror.frames[b]?).getD none).map (·.chk)).getD 0
  natBE 1 1 ++ natBE 1 s.lifecycle ++ natBE 2 0 ++ natBE 4 (s.get F.KEYS_ROLLBACK_COUNT) ++ natBE 4 (s.rd Reg.SYS_START_CNT) ++
  natBE 8 s.tsNow.toNat ++ padTo 32 nonce ++ natBE 32 deviceId.toNat ++
  padTo 256 (s.activeSet.parts.map fun p => natBE 32 p.digest.toNat).flatten ++ natBE 32 prog ++
  natBE 4 (chk 0) ++ natBE 4 (chk 1) ++ natBE 1 s.slotBits ++ natBE 1 (s.get F.KEYS_TAMPER_STAT_CAUSE) ++
  natBE 2 (s.get F.KEYS_TAMPER_STAT_COUNT)

def opKeysAttest : OpDef where
  code := 0x0D08
  blk := 13
  charge := 2
  schema := [{ typ := tNonce, lo := 32, hi := 32 }]
  mode := notRetired
  run := fun s q =>
    let b := s.attestBody (tv q.tlvs tNonce)
    .done .ok (tlv 0x0D0A (b ++ padTo 64 (Config.sm2Sign didk b))) s

def opKeysTamperArm : OpDef where
  code := 0x0D09
  blk := 13
  schema := [{ typ := tArm, lo := 1, hi := 1 }]
  form := fun _ q => if tn q.tlvs tArm > 3 then some (badAt q.tlvs tArm 0x0005) else none
  perm := onlyOperator
  mode := notRetired
  lock := fun s q =>
    let disarms := (List.range 2).any fun b => bit1 (s.rd Reg.KEYS_TAMPER_CFG) b == 1 && bit1 (tn q.tlvs tArm) b == 0
    if disarms && s.vaultHolds then some { status := .locked } else none
  run := fun s q => .done .ok [] (s.wr Reg.KEYS_TAMPER_CFG (tn q.tlvs tArm))

/-- Every armed input reads intact. -/
def State.armedIntact (s : State) : Bool :=
  (s.get F.KEYS_TAMPER_CFG_ARM0 == 0 || s.get F.KEYS_TAMPER_STAT_LIVE0 == 1) &&
  (s.get F.KEYS_TAMPER_CFG_ARM1 == 0 || s.get F.KEYS_TAMPER_STAT_LIVE1 == 1)

def opKeysTamperClear : OpDef where
  code := 0x0D0A
  blk := 13
  perm := onlyOperator
  mode := notRetired
  run := fun s _ =>
    if s.armedIntact then .done .ok [] ((s.put F.KEYS_TAMPER_STAT_CAUSE 0).put F.KEYS_STAT_TAMPER 0) else .done .failed [] s

/-! ### Handles (R470, R474, R475) -/

def State.handle? (s : State) (n : Nat) : Option KeyHandle := s.keys.handles.find? fun h => h.no == n

def freeHandle (hs : List KeyHandle) : Nat := ((List.range 256).find? fun n => !(hs.any fun h => h.no == n)).getD 0

def handlesFull : Chk := fun s _ => if s.keys.handles.length ≥ 256 then some { status := .busy } else none

/-- The labels of Table 18.3. -/
def reservedLabels : List Bytes := ["DIDK", "OPRK", "SEAL", "XPRT", "APPK", "VIEW", "RPLC"].map ascii

/-- KEY_ATTR: a type of R469 and no reserved bit. -/
def attrChk : Chk := fun _ q =>
  let a := tn q.tlvs tKeyAttr
  if a % 256 ≥ 64 then some (badAt q.tlvs tKeyAttr 0x0005)
  else if a / 256 > 3 then some (badAt q.tlvs tKeyAttr 0x0008) else none

def State.addHandle (s : State) (h : KeyHandle) : State :=
  (s.setKeys fun k => { k with handles := k.handles ++ [h] }).keysSync

/-- A handle that the request may use for an operation under a usage bit. -/
def handleChk (t : Nat) (ok : KeyHandle → Bool) : Chk := fun s q =>
  match s.handle? (tn q.tlvs t) with
  | none => some { status := .noObject }
  | some h => if h.owner = some q.owner && ok h then none else some { status := .denied }

/-- APPK from the estate root (R470). -/
def isAppk (q : Q) : Bool := tn q.tlvs tParent == 0x0100 && tv q.tlvs tLabel == ascii "APPK"

def opKeysDerive : OpDef where
  code := 0x0D0B
  blk := 13
  schema := [{ typ := tParent, lo := 2, hi := 2 }, { typ := tLabel, lo := 4, hi := 4 }, { typ := tContext, lo := 0, hi := 26 },
    { typ := tKeyAttr, lo := 2, hi := 2 }]
  form := allChk [rangeChk tParent fun v => v ≤ 0x0100, attrChk, fun _ q =>
    if !isAppk q then none
    else if tn q.tlvs tKeyAttr / 256 ≠ 0 then some (badAt q.tlvs tKeyAttr 0x0008)
    else if (tv q.tlvs tContext).isEmpty then some (badAt q.tlvs tContext 0x0008) else none]
  perm := fun s q =>
    if q.tag ≠ 0 then some { status := .denied }
    else if isAppk q then none
    else if reservedLabels.contains (tv q.tlvs tLabel) || tn q.tlvs tParent = 0x0100 then some { status := .denied }
    else match s.handle? (tn q.tlvs tParent) with
      | none => none
      | some h =>
        let wantsExport := bit1 (tn q.tlvs tKeyAttr) 5 == 1
        if h.owner = some q.owner && bit1 h.use 0 = 1 && (!wantsExport || h.exportable) then none else some { status := .denied }
  mode := notRetired
  exist := fun s q =>
    if isAppk q || (s.handle? (tn q.tlvs tParent)).isSome then none else some { status := .noObject }
  pre := allChk [fun s q =>
    match s.handle? (tn q.tlvs tParent) with
    | some h => if !isAppk q && h.level ≥ 7 then some (badAt q.tlvs tParent 0x0008) else none
    | none => none, handlesFull]
  run := fun s q =>
    let attr := tn q.tlvs tKeyAttr
    let ctx := tv q.tlvs tContext
    let exp := bit1 attr 5 == 1
    let no := freeHandle s.keys.handles
    if isAppk q then
      match s.root? 0 with
      | none => .done .failed [] s
      | some root =>
        let x := derive root (ascii "APPK") 1 ctx
        .done .ok (tlv tHandle (natBE 1 no)) (s.addHandle ⟨no, 0, 1, exp, some q.owner, 1, x⟩)
    else
      match s.handle? (tn q.tlvs tParent) with
      | none => .refuse { status := .noObject }
      | some h =>
        let x := derive h.val (tv q.tlvs tLabel) (h.level + 1) ctx
        .done .ok (tlv tHandle (natBE 1 no)) (s.addHandle ⟨no, attr / 256, attr % 32, exp, some q.owner, h.level + 1, x⟩)

/-- The export wrap key (R475). -/
def exportKey (root : BitVec 256) : Bytes := sm4Key (derive root (ascii "XPRT") 1 [])

def opKeysExport : OpDef where
  code := 0x0D0C
  blk := 13
  schema := [{ typ := tHandle, lo := 1, hi := 1 }]
  perm := fun s q =>
    if q.tag ≠ 0 then some { status := .denied }
    else match s.handle? (tn q.tlvs tHandle) with
      | none => none
      | some _ => handleChk tHandle (fun h => h.exportable) s q
  mode := notRetired
  exist := fun s q => if (s.handle? (tn q.tlvs tHandle)).isSome then none else some { status := .noObject }
  run := fun s q =>
    match s.handle? (tn q.tlvs tHandle), s.root? 0 with
    | some h, some root =>
      -- a fresh nonce of 12 bytes
      let (a, s) := s.free
      let (b, s) := s.free
      let nonce := natBE 8 a.toNat ++ (natBE 8 b.toNat).take 4
      let ct := padTo 48 (Config.sm4Seal (exportKey root) nonce [] (natBE 32 h.val.toNat))
      .done .ok (tlv tBlob (nonce ++ natBE 1 h.typ ++ ct)) s
    | _, _ => .done .failed [] s

def opKeysKeyImport : OpDef where
  code := 0x0D0D
  blk := 13
  schema := [{ typ := tBlob, lo := 61, hi := 61 }, { typ := tKeyAttr, lo := 2, hi := 2 }]
  form := allChk [attrChk, fun _ q =>
    if beAt (tv q.tlvs tBlob) 12 1 = tn q.tlvs tKeyAttr / 256 then none else some (badAt q.tlvs tKeyAttr 0x0008)]
  perm := onlyOperator
  mode := notRetired
  pre := handlesFull
  run := fun s q =>
    let b := tv q.tlvs tBlob
    let attr := tn q.tlvs tKeyAttr
    match (s.root? 0).bind fun root => Config.sm4Open (exportKey root) (b.take 12) [] (b.drop 13) with
    | none => .done .failed [] s
    | some x =>
      let no := freeHandle s.keys.handles
      let h : KeyHandle := ⟨no, attr / 256, attr % 32, bit1 attr 5 == 1, some q.owner, 1, BitVec.ofNat 256 (beNat (x.take 32))⟩
      .done .ok (tlv tHandle (natBE 1 no)) (s.addHandle h)

def opKeysFree : OpDef where
  code := 0x0D0E
  blk := 13
  schema := [{ typ := tHandle, lo := 1, hi := 1 }]
  -- an operator that owns the handle (R474, Table 18.9)
  perm := fun s q =>
    if q.tag ≠ 0 then some { status := .denied }
    else if (s.handle? (tn q.tlvs tHandle)).isSome then handleChk tHandle (fun _ => true) s q else none
  mode := notRetired
  exist := fun s q => if (s.handle? (tn q.tlvs tHandle)).isSome then none else some { status := .noObject }
  run := fun s q =>
    .done .ok [] (s.setKeys fun k => { k with handles := k.handles.filter fun h => h.no != tn q.tlvs tHandle }).keysSync

def opKeysLifecycle : OpDef where
  code := 0x0D0F
  blk := 13
  charge := 20
  schema := [{ typ := tLifeState, lo := 1, hi := 1 }, { typ := tConfirm, lo := 4, hi := 4 }]
  form := fun s q =>
    if tn q.tlvs tLifeState ≠ s.lifecycle + 1 || tn q.tlvs tLifeState > 2 then some (badAt q.tlvs tLifeState 0x0008)
    else if tn q.tlvs tConfirm ≠ deviceId.toNat / 2 ^ 224 then some (badAt q.tlvs tConfirm 0x0008) else none
  perm := onlyOperator
  mode := notRetired
  exist := fun s q =>
    let ready := ((s.keys.trust[0]?).getD none).isSome && s.get F.KEYS_CERT_GEN_CERT == 1
    if tn q.tlvs tLifeState = 1 && !ready then some { status := .busy } else none
  run := fun s q =>
    let n := tn q.tlvs tLifeState
    let s := (s.setKeys fun k => { k with lifeFuses := 2 * n }).put F.KEYS_STAT_LIFECYCLE n
    let s := s.raise 0x0D08 2 0 (natBE 1 n)
    .done .ok [] (if n = 2 then s.zeroise else s)

def execKeysStatus (r : Req) (s : State) : Res := .next (batonRun opKeysStatus r s)
def execKeysCsr (r : Req) (s : State) : Res := .next (batonRun opKeysCsr r s)
def execKeysCertSet (r : Req) (s : State) : Res := .next (batonRun opKeysCertSet r s)
def execKeysTrustSet (r : Req) (s : State) : Res := .next (batonRun opKeysTrustSet r s)
def execKeysRevoke (r : Req) (s : State) : Res := .next (batonRun opKeysRevoke r s)
def execKeysImport (r : Req) (s : State) : Res := .next (batonRun opKeysImport r s)
def execKeysErase (r : Req) (s : State) : Res := .next (batonRun opKeysErase r s)
def execKeysAttest (r : Req) (s : State) : Res := .next (batonRun opKeysAttest r s)
def execKeysTamperArm (r : Req) (s : State) : Res := .next (batonRun opKeysTamperArm r s)
def execKeysTamperClear (r : Req) (s : State) : Res := .next (batonRun opKeysTamperClear r s)
def execKeysDerive (r : Req) (s : State) : Res := .next (batonRun opKeysDerive r s)
def execKeysExport (r : Req) (s : State) : Res := .next (batonRun opKeysExport r s)
def execKeysKeyImport (r : Req) (s : State) : Res := .next (batonRun opKeysKeyImport r s)
def execKeysFree (r : Req) (s : State) : Res := .next (batonRun opKeysFree r s)
def execKeysLifecycle (r : Req) (s : State) : Res := .next (batonRun opKeysLifecycle r s)

/-! ### Tamper (R485, Table 18.6) -/

/-- The mesh loop, in ohms, is intact: neither above 50 kilohms nor below 200 ohms (R536). -/
def meshIntact (ohms : Nat) : Bool := 200 ≤ ohms && ohms ≤ 50000

/-- TAMPER: the resistance of the mesh loop, the case switch (closed), and a debug attach. An armed cause zeroes the vault and sets the
latch. -/
def execTamper (loop : W32) (tmp1 debug : Bool) (s : State) : Res :=
  let tmp0 := meshIntact loop.toNat
  let attach := debug && s.lifecycle = 0 && s.vaultHolds
  let cause := b2n (s.get F.KEYS_TAMPER_CFG_ARM0 == 1 && !tmp0) + 2 * b2n (s.get F.KEYS_TAMPER_CFG_ARM1 == 1 && !tmp1) +
    4 * b2n attach
  let s := (s.put F.KEYS_TAMPER_STAT_LIVE0 (b2n tmp0)).put F.KEYS_TAMPER_STAT_LIVE1 (b2n tmp1)
  if cause = 0 then .next s else
  let s := (s.put F.KEYS_TAMPER_STAT_CAUSE (s.get F.KEYS_TAMPER_STAT_CAUSE ||| cause)).put F.KEYS_STAT_TAMPER 1
  let s := s.bump F.KEYS_TAMPER_STAT_COUNT 1
  let s := s.setKeys fun k => { k with tampTime := s.tsNow }
  if !s.pdOn 0 then
    .next (s.setKeys fun k => { k with
      vault := List.replicate 5 none
      tampOff := k.tampOff ++ [(cause, s.tsNow, s.get F.KEYS_TAMPER_STAT_COUNT)] })
  else
    let s := s.zeroise
    let s := (s.setKeys fun k => { k with
      handles := []
      linkSlots := [] }).keysSync
    let s := (s.cond 13 0).raise 0x0D01 1 0 (natBE 1 cause ++ natBE 8 s.tsNow.toNat ++ natBE 2 (s.get F.KEYS_TAMPER_STAT_COUNT))
    let s := s.closeAll 4
    .next (s.furun.links.foldl (fun s l => s.linkDown l.peer) s)

/-- The words of KEYS snapshot group 0 (Table 18.7). -/
def State.keysSnap (s : State) : List Nat :=
  let id := deviceId.toNat
  (List.range 8).map (fun w => id / 2 ^ (32 * w) % 2 ^ 32) ++ [s.keys.tampTime.toNat % 2 ^ 32, s.keys.tampTime.toNat / 2 ^ 32]

end Sys2Proof.Machine
end

