-- ==== Sys2Proof/Machine/Upd.lean ====
section
/-! DEFINITION. Machine/Upd.lean: field update: manifests, staging, fetching, the commit record, trials, and the UPD opcodes
(chapter 19). -/

namespace Sys2Proof.Machine

def State.setUpd (s : State) (f : UpdSt → UpdSt) : State := { s with upd := f s.upd }

/-! ### Update states (Table 19.3) -/

def State.updState (s : State) : Nat := s.get F.UPD_STAT_STATE
def usIdle : Nat := 0
def usStaging : Nat := 1
def usStaged : Nat := 2
def usTrial : Nat := 3
def usRecovery : Nat := 4

/-! ### Sets, parts and the commit record (R491, R499) -/

def State.fwSet (s : State) (b : Nat) : FwSet := if b = 0 then s.upd.setA else s.upd.setB
def State.setFw (s : State) (b : Nat) (f : FwSet → FwSet) : State :=
  s.setUpd fun u => if b = 0 then { u with setA := f u.setA } else { u with setB := f u.setB }

def FwPart.none_ : FwPart := ⟨0, 0, [], false⟩
def FwSet.part (x : FwSet) (k : Nat) : FwPart := x.parts.getD k FwPart.none_

/-- The latest valid copy of the commit record (Table 6.2). -/
def State.commit? (s : State) : Option CommitRec :=
  match s.upd.recs with
  | (some a, some b) => some (if b.seq > a.seq then b else a)
  | (some a, none) => some a
  | (none, b) => b

/-- The set that a staging goes to: the one that is not active; in RECOVERY the one that the record does not name, or set A (R494). -/
def State.stageSet (s : State) : Nat :=
  if s.start.phase = .recovery then
    match s.commit? with
    | some c => 1 - c.set
    | none => 0
  else 1 - s.get F.UPD_STAT_SET

/-- Write both copies of the record with the sequence number raised by 1 (R499). -/
def State.writeRec (s : State) (set : Nat) (trial : Bool) (attempts prior : Nat) : State :=
  let x := s.fwSet set
  let seq := ((s.commit?.map (·.seq)).getD 0 + 1) % 2 ^ 32
  let c : CommitRec := ⟨set, trial, attempts, seq, Config.sm3 x.man, beAt x.man 5 1, prior, s.tsNow⟩
  ((s.setUpd fun u => { u with recs := (some c, some c) }).cond 14 3)

/-! ### Manifests (R493) -/

/-- Slot sizes of parts 1 to 8 in bytes (Table 19.1). -/
def slotSize (part : Nat) : Nat := ([4, 128, 32, 16, 4, 2, 8].map (· * 2 ^ 20) ++ [2 ^ 16]).getD (part - 1) 0

def manParts (m : Bytes) : Nat := beAt m 1 1
def manSvn (m : Bytes) : Nat := beAt m 5 1

/-- Entries: part, length, digest. -/
def manEntries (m : Bytes) : List (Nat × Nat × BitVec 256) :=
  (List.range (manParts m)).map fun k =>
    let o := 24 + 48 * k
    (beAt m o 1, beAt m (o + 4) 4, BitVec.ofNat 256 (beAt m (o + 12) 32))

def manListed (m : Bytes) (part : Nat) : Bool := (manEntries m).any fun e => e.1 == part

/-- LISTED of UPD_STAT. -/
def manMask (m : Bytes) : Nat := (List.range 8).foldl (fun a k => a + b2n (manListed m (k + 1)) * 2 ^ k) 0

/-- Parts stand in ascending order. -/
def ascending : List Nat → Bool
  | a :: b :: r => Nat.blt a b && ascending (b :: r)
  | _ => true

/-- Format and lengths keep R493. -/
def manForm (m : Bytes) : Bool :=
  let n := manParts m
  let b := beAt m 7 1
  let es := manEntries m
  beAt m 0 1 == 2 && beAt m 12 4 == 0 && Nat.ble 1 n && Nat.ble n 8 && Nat.ble b 32 && Nat.ble (beAt m 6 1) 1 && (beAt m 6 1 == 1 || b == 0) &&
  m.length == 24 + 48 * n + 8 * b + 128 && Nat.ble (manSvn m) 128 &&
  (List.range n).all (fun k => beAt m (25 + 48 * k) 3 == 0 && beAt m (68 + 48 * k) 4 == 0) &&
  ascending (es.map (·.1)) && es.all fun e => Nat.ble 1 e.1 && Nat.ble e.1 8 && Nat.ble 1 e.2.1 && Nat.ble e.2.1 (slotSize e.1)

/-- The unit is listed. -/
def manBound (m : Bytes) : Bool :=
  (List.range (beAt m 7 1)).any fun k => beAt m (24 + 48 * manParts m + 8 * k) 8 == Config.serial.toNat

/-- A manifest that UPD_BEGIN refuses with BAD_PARAM, reason 0x0008 (R494). -/
def State.manBad (s : State) (m : Bytes) : Bool :=
  !manForm m || beAt m 2 2 != 0x0960 || Nat.blt 3 (beAt m 4 1) || (beAt m 6 1 == 1 && !manBound m) ||
  Nat.blt (manSvn m) (s.get F.KEYS_ROLLBACK_COUNT) || (s.start.phase == .recovery && manParts m != 8)

/-! ### Registers -/

def partChunks (p : FwPart) : Nat := (p.len + 1023) / 1024

/-- Parts of the staging, listed ones with their chunks present and to come. -/
def State.stageListed (s : State) : List FwPart :=
  if !s.upd.staging then [] else
  let x := s.fwSet s.stageSet
  ((List.range 8).filter fun k => manListed x.man (k + 1)).map x.part

/-- The registers that show the staging, the record and the trial. -/
def State.updSync (s : State) : State :=
  let x := s.fwSet s.stageSet
  let done := if s.upd.staging then (List.range 8).foldl (fun a k => a + b2n (x.part k).ok * 2 ^ k) 0 else 0
  let ls := s.stageListed
  let s := (s.put F.UPD_STAT_DONE done).put F.UPD_STAT_LISTED (if s.upd.staging then manMask x.man else 0)
  let s := s.wr Reg.UPD_RCVD (ls.foldl (fun a p => a + p.chunks.length) 0)
  let s := s.wr Reg.UPD_TOTAL (ls.foldl (fun a p => a + partChunks p) 0)
  let s := (s.put F.UPD_STAT_ATTEMPTS ((s.commit?.map (·.attempts)).getD 0)).wr Reg.UPD_SEQ ((s.commit?.map (·.seq)).getD 0)
  let s := s.put F.UPD_STAT_HEALTHY (b2n s.healthOk)
  let left := match s.upd.trialAt with
    | some t => s.get F.UPD_CFG_HEALTH_TO - (s.clk - t) / sec
    | none => 0
  let held := match s.upd.heldAt with
    | some t => min 65535 ((s.clk - t) / sec)
    | none => 0
  (s.put F.UPD_HEALTH_LEFT left).put F.UPD_HEALTH_HELD held

def State.updTo (s : State) (st : Nat) : State := (s.put F.UPD_STAT_STATE st).updSync

/-- UPD_STATE (Table 19.11). -/
def State.updBlock (s : State) : Bytes :=
  let s := s.updSync
  let id := if s.upd.staging then (Config.sm3 (s.fwSet s.stageSet).man).toNat else 0
  natBE 4 (s.rd Reg.UPD_STAT) ++ natBE 4 (s.rd Reg.UPD_RCVD) ++ natBE 4 (s.rd Reg.UPD_TOTAL) ++ natBE 4 (s.rd Reg.UPD_SEQ) ++
    natBE 32 id ++ natBE 4 (s.rd Reg.UPD_HEALTH) ++ List.replicate 12 0

/-- The values of UPD snapshot groups 0 and 1 (R509). -/
def State.updSnap (s : State) (grp : Nat) : Option (List Nat) :=
  let words (m : Bytes) (on : Bool) : List Nat :=
    if !on then List.replicate 10 0 else
    let id := (Config.sm3 m).toNat
    (List.range 8).map (fun w => bitsOf id (32 * w + 31) (32 * w)) ++ [beAt m 8 4, manSvn m]
  if grp = 0 then some (words s.activeSet.man (s.start.phase != .recovery))
  else if grp = 1 then some (words (s.fwSet s.stageSet).man s.upd.staging)
  else none

/-- The first 8 bytes of a manifest's identity. -/
def identHead (m : Bytes) : Bytes := natBE 8 ((Config.sm3 m).toNat / 2 ^ 192)

/-! ### Staging (R494 to R496) -/

/-- A fetch ends. -/
def State.fetchEnd (s : State) (st : Status) : State :=
  match s.upd.fetch with
  | none => s
  | some f => (s.setUpd fun u => { u with fetch := none }).endItem f.owner f.item st

/-- STAGED once every listed part has passed and every copy has ended. -/
def State.stageCheck (s : State) : State :=
  let x := s.fwSet s.stageSet
  if s.updState = usStaging && s.upd.copies.isEmpty && (List.range 8).all fun k => (x.part k).ok then
    ((s.updTo usStaged).cond 14 2).fetchEnd .ok
  else s.updSync

/-- Accept a manifest (R494). -/
def State.stageBegin (s : State) (m : Bytes) : State :=
  let es := manEntries m
  let act := s.activeSet
  let parts := (List.range 8).map fun k =>
    match es.find? fun e => e.1 == k + 1 with
    | some e => (⟨e.2.2, e.2.1, [], false⟩ : FwPart)
    | none => ⟨(act.part k).digest, (act.part k).len, [], false⟩
  let copies := ((List.range 8).map (· + 1)).filter fun p => !manListed m p
  let s := s.setFw s.stageSet fun _ => ⟨m, parts, false⟩
  let s := s.setUpd fun u => { u with staging := true, copies := copies, clean := false }
  (s.updTo usStaging).raise 0x0E01 5 0 (identHead m ++ natBE 1 (manMask m))

/-- The staging under way is of this manifest. -/
def State.stageSame (s : State) (m : Bytes) : Bool :=
  (s.updState == usStaging || s.updState == usStaged) && Config.sm3 (s.fwSet s.stageSet).man == Config.sm3 m

/-- UPD_BEGIN is accepted (R494, R505). -/
def State.beginAllowed (s : State) (m : Bytes) : Bool :=
  s.updState == usIdle || s.updState == usRecovery || s.stageSame m

/-- The bytes of a part, chunk by chunk. -/
def partBytes (p : FwPart) : Bytes :=
  ((List.range (partChunks p)).map fun c => ((p.chunks.find? fun x => x.1 == c).map (·.2)).getD []).flatten

/-- A part fails its digest: every bit of it is cleared (R495). -/
def State.partBad (s : State) (k : Nat) : State :=
  let n := ((s.fwSet s.stageSet).part k).chunks.length
  let s := s.setFw s.stageSet fun x => { x with parts := modNth x.parts k fun p => { p with chunks := [], ok := false } }
  (s.cond 14 1).raise 0x0E03 3 0 (natBE 1 (k + 1) ++ natBE 4 n)

/-- A chunk is staged; the last one that was missing brings the part's digest check (R495). -/
def State.putChunk (s : State) (part c : Nat) (bs : Bytes) : State :=
  let k := part - 1
  let b := s.stageSet
  let s := s.setFw b fun x => { x with parts := modNth x.parts k fun p =>
    { p with chunks := (p.chunks.filter fun y => y.1 != c) ++ [(c, bs)], ok := false } }
  let p := (s.fwSet b).part k
  if p.chunks.length < partChunks p then s.updSync else
  if Config.sm3 (partBytes p) = p.digest then
    let s := s.setFw b fun x => { x with parts := modNth x.parts k fun p => { p with ok := true } }
    ((s.cond 14 0).raise 0x0E02 6 0 (natBE 1 part ++ natBE 4 p.len)).stageCheck
  else (s.partBad k).updSync

/-- The length that a chunk of a part must have. -/
def chunkLen (p : FwPart) (c : Nat) : Nat := min 1024 (p.len - 1024 * c)

/-- PART_COPY_DONE: the copy of the lowest part not yet copied completes; its bytes are those of the active set (R494). -/
def State.copyDone (s : State) : State :=
  match s.upd.copies with
  | [] => s
  | p :: rest =>
    let a := s.activeSet.part (p - 1)
    let ok := a.ok && a.digest == ((s.fwSet s.stageSet).part (p - 1)).digest
    if !ok then s else
    let s := s.setFw s.stageSet fun x => { x with parts := setNth x.parts (p - 1) { a with ok := true } }
    (s.setUpd fun u => { u with copies := rest }).stageCheck

def execPartCopyDone (s : State) : Res := .next s.copyDone

/-! ### UPD_BEGIN, UPD_PUT, UPD_STATUS, UPD_ABANDON -/

def tManifest : Nat := 0x0E01
def tPart : Nat := 0x0E02
def tChunk : Nat := 0x0E03
def tPiece : Nat := 0x0E04
def tUpdState : Nat := 0x0E05
def tManifestId : Nat := 0x0E06
def tRstType : Nat := 0x0E07
def tUpdSetup : Nat := 0x0E08

def busyIf (p : State → Q → Bool) : Chk := fun s q => if p s q then some { status := .busy } else none

def opUpdBegin : OpDef where
  code := 0x0E01
  blk := 14
  charge := 2
  schema := [{ typ := tManifest, lo := 200, hi := 792 }]
  form := fun s q => if s.manBad (tv q.tlvs tManifest) then some (badAt q.tlvs tManifest 0x0008) else none
  perm := onlyOperator
  pre := busyIf fun s q => !(s.beginAllowed (tv q.tlvs tManifest))
  run := fun s q =>
    let m := tv q.tlvs tManifest
    let s := if s.stageSame m then s
      -- a staging that a reset into RECOVERY has left goes on (R496)
      else if s.updState = usRecovery && s.upd.staging && Config.sm3 (s.fwSet s.stageSet).man = Config.sm3 m then
        (s.updTo usStaging).stageCheck
      else s.stageBegin m
    .done .ok (tlv tUpdState s.updBlock) s

def execUpdBegin (r : Req) (s : State) : Res := .next (batonRun opUpdBegin r s)

def opUpdPut : OpDef where
  code := 0x0E02
  blk := 14
  charge := 1
  schema := [{ typ := tPart, lo := 1, hi := 1 }, { typ := tChunk, lo := 4, hi := 4 }, { typ := tPiece, lo := 1, hi := 1024 }]
  form := rangeChk tPart fun p => 1 ≤ p && p ≤ 8
  perm := onlyOperator
  pre := allChk [busyIf (fun s q => s.updState != usStaging || !manListed (s.fwSet s.stageSet).man (tn q.tlvs tPart)), fun s q =>
    let p := (s.fwSet s.stageSet).part (tn q.tlvs tPart - 1)
    let c := tn q.tlvs tChunk
    if c ≥ partChunks p then some (badAt q.tlvs tChunk 0x0008)
    else if (tv q.tlvs tPiece).length ≠ chunkLen p c then some (badAt q.tlvs tPiece 0x0008) else none]
  run := fun s q => .done .ok [] (s.putChunk (tn q.tlvs tPart) (tn q.tlvs tChunk) (tv q.tlvs tPiece))

def execUpdPut (r : Req) (s : State) : Res := .next (batonRun opUpdPut r s)

def opUpdStatus : OpDef where
  code := 0x0E03
  blk := 14
  perm := operatorOrService
  run := fun s _ => .done .ok (tlv tUpdState s.updBlock) s

def execUpdStatus (r : Req) (s : State) : Res := .next (batonRun opUpdStatus r s)

/-- UPD_ABANDON ends a staging; a fetch that feeds it ends FAILED. -/
def State.stageAbandon (s : State) : State :=
  if !s.upd.staging then s else
  let m := (s.fwSet s.stageSet).man
  let n := s.stageListed.foldl (fun a p => a + p.chunks.length) 0
  let s := s.setFw s.stageSet fun _ => ⟨[], List.replicate 8 FwPart.none_, false⟩
  let s := s.setUpd fun u => { u with staging := false, copies := [] }
  (((s.updTo usIdle).raise 0x0E07 5 0 (identHead m ++ natBE 4 n))).fetchEnd .failed

def opUpdAbandon : OpDef where
  code := 0x0E04
  blk := 14
  perm := onlyOperator
  pre := busyIf fun s _ => s.updState == usTrial
  run := fun s _ => .done .ok [] s.stageAbandon

def execUpdAbandon (r : Req) (s : State) : Res := .next (batonRun opUpdAbandon r s)

/-! ### Activation and revert (R500, R501, R507) -/

/-- Parts of a set that fail when their digests are checked again: a part whose bytes are in its slot. -/
def badParts (x : FwSet) : List Nat :=
  (List.range 8).filter fun k =>
    let p := x.part k
    !p.ok || (!p.chunks.isEmpty && Config.sm3 (partBytes p) != p.digest)

/-- The record is written for a trial, the item ends OK and the restart sequence begins. -/
def State.activate (s : State) (set typ : Nat) : State :=
  let s := s.writeRec set true 0 (if s.start.phase = .recovery then 1 - set else s.get F.UPD_STAT_SET)
  let s := s.setUpd fun u => { u with staging := false, copies := [], clean := true }
  let s := s.updTo usTrial
  let s := s.raise 0x0E04 4 0 (natBE 4 (s.rd Reg.UPD_SEQ) ++ natBE 1 set ++ identHead (s.fwSet set).man)
  s.beginRestart (if typ = 1 then 3 else 4)

/-- A program switch is in SWITCHING, or a restart sequence runs. -/
def State.restartBusy (s : State) : Bool := s.ocState == ocSwitching || s.start.phase == .restarting

def sRstType : TlvSpec := { typ := tRstType, lo := 1, hi := 1 }

def opUpdActivate : OpDef where
  code := 0x0E05
  blk := 14
  charge := 30
  schema := [sRstType]
  form := rangeChk tRstType fun v => v ≤ 1
  perm := onlyOperator
  -- part 5 differs from the active set's, and the mirror does not show CONFIG on both channels (R507)
  lock := fun s _ =>
    let shows (b : Bool) : Bool := s.safePresent b && ((s.safeFrame b).map fun x => bitsOf x.chw 31 24 == 2).getD false
    if s.start.phase ≠ .recovery && s.updState = usStaged && ((s.fwSet s.stageSet).part 4).digest ≠ (s.activeSet.part 4).digest &&
      !(shows false && shows true) then some { status := .locked } else none
  pre := busyIf fun s _ => s.updState != usStaged || s.restartBusy
  run := fun s q =>
    let b := s.stageSet
    match badParts (s.fwSet b) with
    | [] => .done .ok [] (s.activate b (tn q.tlvs tRstType))
    | bad => .done .failed [] ((bad.foldl (fun s k => s.partBad k) s).updTo usStaging)

def execUpdActivate (r : Req) (s : State) : Res := .next (batonRun opUpdActivate r s)

/-- UPD_REVERT may activate the record's Prior set (R501). -/
def State.revertOk (s : State) : Bool :=
  match s.commit? with
  | some c =>
    s.updState == usIdle && (s.fwSet c.prior).confirmed && Nat.ble (s.get F.KEYS_ROLLBACK_COUNT) (manSvn (s.fwSet c.prior).man) &&
      s.upd.clean && !s.restartBusy
  | none => false

def opUpdRevert : OpDef where
  code := 0x0E07
  blk := 14
  charge := 30
  schema := [sRstType]
  form := rangeChk tRstType fun v => v ≤ 1
  perm := onlyOperator
  pre := busyIf fun s _ => !s.revertOk
  run := fun s q =>
    let b := (s.commit?.map (·.prior)).getD 1
    if (badParts (s.fwSet b)).isEmpty then .done .ok [] (s.activate b (tn q.tlvs tRstType)) else .done .failed [] s

def execUpdRevert (r : Req) (s : State) : Res := .next (batonRun opUpdRevert r s)

/-! ### UPD_CONFIRM, UPD_CFG_SET -/

def opUpdConfirm : OpDef where
  code := 0x0E06
  blk := 14
  charge := 20
  perm := onlyOperator
  run := fun s _ =>
    .done .ok [] ((s.setUpd fun u => { u with confirmRx := u.confirmRx || s.updState == usTrial }).healthSync)

def execUpdConfirm (r : Req) (s : State) : Res := .next (batonRun opUpdConfirm r s)

/-- Every field of an UPD_CFG image stands in its range. -/
def updCfgOk (v : Nat) : Bool :=
  Nat.ble 60 (bitsOf v 31 16) && Nat.ble 10 (bitsOf v 15 8) && Nat.ble 1 (bitsOf v 5 4)

def opUpdCfgSet : OpDef where
  code := 0x0E09
  blk := 14
  schema := [{ typ := tUpdSetup, lo := 4, hi := 4 }]
  form := fun _ q => imgFault q.tlvs tUpdSetup [(Reg.UPD_CFG, tn q.tlvs tUpdSetup)] (updCfgOk (tn q.tlvs tUpdSetup))
  perm := onlyOperator
  run := fun s q => .done .ok [] (s.setImgs [(Reg.UPD_CFG, tn q.tlvs tUpdSetup)]).healthSync

def execUpdCfgSet (r : Req) (s : State) : Res := .next (batonRun opUpdCfgSet r s)

/-! ### Fetching from a peer (R497) -/

/-- Chunks that the fetch still needs and has not asked for; part 0 is the manifest. -/
def State.fetchMissing (s : State) (f : FetchJob) : List (Nat × Nat) :=
  let asked (p c : Nat) : Bool := f.asked.any fun a => a.1 == p && a.2.1 == c
  if f.man.isSome then (if asked 0 0 then [] else [(0, 0)]) else
  let x := s.fwSet s.stageSet
  ((List.range 8).filter fun k => manListed x.man (k + 1)).flatMap fun k =>
    let p := x.part k
    ((List.range (partChunks p)).filter fun c => !(p.chunks.any fun y => y.1 == c) && !asked (k + 1) c).map fun c => (k + 1, c)

/-- Consecutive chunks of one part as part, first chunk and count. -/
def runsOf : List (Nat × Nat) → List (Nat × Nat × Nat)
  | [] => []
  | (p, c) :: r =>
    match runsOf r with
    | (p', c', n) :: rs => if p' = p && c' = c + 1 then (p, c, n + 1) :: rs else (p, c, 1) :: (p', c', n) :: rs
    | [] => [(p, c, 1)]

def wantBody (ident : BitVec 256) (w : Nat × Nat × Nat) : Bytes :=
  natBE 1 1 ++ natBE 3 0 ++ natBE 8 (ident.toNat / 2 ^ 192) ++ natBE 1 w.1 ++ natBE 3 0 ++ natBE 4 w.2.1 ++ natBE 2 w.2.2 ++ natBE 2 0

/-- Send a message to a unit by the link that reaches it. -/
def State.sendTo (s : State) (dst : W64) (typ cls : Nat) (body : Bytes) : State :=
  match s.route dst with
  | some l => s.furunSend l.peer typ cls dst body
  | none => s

/-- Ask for chunks. -/
def State.fetchWant (s : State) (cs : List (Nat × Nat)) : State :=
  match s.upd.fetch with
  | none => s
  | some f =>
    let s := s.setUpd fun u => { u with fetch := some { f with
      asked := (f.asked.filter fun a => !(cs.contains (a.1, a.2.1))) ++ cs.map fun c => (c.1, c.2, s.clk) } }
    (runsOf cs).foldl (fun s w => s.sendTo f.src 10 3 (wantBody f.ident w)) s

/-- Keep up to 64 chunks outstanding. -/
def State.fetchMore (s : State) : State :=
  match s.upd.fetch with
  | none => s
  | some f => s.fetchWant ((s.fetchMissing f).take (64 - f.asked.length))

def opUpdFetch : OpDef where
  code := 0x0E08
  blk := 14
  charge := 2
  schema := [{ typ := 0x0001, lo := 8, hi := 8 }, { typ := tManifestId, lo := 32, hi := 32 }]
  form := fun _ q =>
    let a := tAddr q.tlvs
    if addrBad a then some (badAt q.tlvs 0x0001 0x0006)
    else if addrObj a ≠ 0 then some (badAt q.tlvs 0x0001 0x0008) else none
  perm := onlyOperator
  pre := busyIf fun s _ => s.upd.fetch.isSome
  run := fun s q =>
    let item := q.r.item.toNat
    let f : FetchJob := ⟨q.owner, item, tAddr q.tlvs, BitVec.ofNat 256 (tn q.tlvs tManifestId), some [], [], s.clk⟩
    .pend .updFetch 0 0 false ((s.setUpd fun u => { u with fetch := some f }).fetchMore)

def execUpdFetch (r : Req) (s : State) : Res := .next (batonRun opUpdFetch r s)

/-- The bytes that a source serves for a chunk: a staging, the active or the fallback set of that identity, and a part that has passed its
digest. -/
def State.serve (s : State) (prefix_ part c : Nat) : Option Bytes :=
  let fits (x : FwSet) : Bool := !x.man.isEmpty && (Config.sm3 x.man).toNat / 2 ^ 192 == prefix_
  match ([s.fwSet s.stageSet, s.activeSet].find? fits) with
  | none => none
  | some x =>
    if part = 0 then (if c = 0 then some x.man else none) else
    let p := x.part (part - 1)
    if part ≤ 8 && p.ok then (p.chunks.find? fun y => y.1 == c).map (·.2) else none

/-- WANT: each chunk of the run is answered with PIECE or NONE. -/
def execWant (p : FPiece) (s : State) : Res :=
  match s.furunPiece 10 p with
  | (s, none) => .next s
  | (s, some b) =>
    let pre := beAt b 4 8
    let part := beAt b 12 1
    .next <| (List.range (min 64 (beAt b 20 2))).foldl (fun s k =>
      let c := beAt b 16 4 + k
      let head (n : Nat) := natBE 1 n ++ natBE 3 0 ++ natBE 8 pre ++ natBE 1 part ++ natBE 3 0 ++ natBE 4 c
      match s.serve pre part c with
      | some bs => s.sendTo p.src 10 3 (head 2 ++ natBE 2 bs.length ++ natBE 2 0 ++ bs)
      | none => s.sendTo p.src 10 3 (head 3)) s

/-- The chunk is one the fetch has asked for from this source. -/
def State.fetchAsked (s : State) (src : W64) (b : Bytes) : Option FetchJob :=
  match s.upd.fetch with
  | none => none
  | some f =>
    if src = f.src && beAt b 4 8 = f.ident.toNat / 2 ^ 192 &&
      f.asked.any fun a => a.1 == beAt b 12 1 && a.2.1 == beAt b 16 4 then some f else none

/-- The manifest has arrived: R494 applies to it. -/
def State.fetchManifest (s : State) (f : FetchJob) (m : Bytes) : State :=
  if Config.sm3 m ≠ f.ident || s.manBad m || !(s.beginAllowed m) then s.fetchEnd .failed else
  let s := s.setUpd fun u => { u with fetch := u.fetch.map fun f => { f with man := none } }
  let s := if s.stageSame m then s else s.stageBegin m
  if s.updState = usStaged then s.fetchEnd .ok else s

/-- PIECE: a chunk that was asked for is staged under R495. -/
def execPiece (p : FPiece) (s : State) : Res :=
  match s.furunPiece 10 p with
  | (s, none) => .next s
  | (s, some b) =>
    match s.fetchAsked p.src b with
    | none => .next s
    | some f =>
      let part := beAt b 12 1
      let c := beAt b 16 4
      let bs := (b.drop 24).take (beAt b 20 2)
      let s := s.setUpd fun u => { u with fetch := some { f with
        asked := f.asked.filter (fun a => !(a.1 == part && a.2.1 == c)), pieceAt := s.clk } }
      let s :=
        if part = 0 then s.fetchManifest f bs
        else if s.updState = usStaging && bs.length = chunkLen ((s.fwSet s.stageSet).part (part - 1)) c then s.putChunk part c bs
        else s
      .next s.fetchMore

/-- NONE for a needed chunk ends the fetch FAILED; what is staged stays. -/
def execNoneMsg (p : FPiece) (s : State) : Res :=
  match s.furunPiece 10 p with
  | (s, none) => .next s
  | (s, some b) => .next (if (s.fetchAsked p.src b).isSome then s.fetchEnd .failed else s)

/-- FETCH_RETRY: chunks not received within 2 s are asked for again (R434). -/
def State.fetchRetry (s : State) : State :=
  match s.upd.fetch with
  | none => s
  | some f =>
    match f.asked.map (·.2.2) with
    | [] => s
    | t :: ts =>
      let s := s.reach (ts.foldl min t + 2 * sec)
      s.fetchWant ((f.asked.filter fun a => a.2.2 + 2 * sec ≤ s.clk).map fun a => (a.1, a.2.1))

def execFetchRetry (s : State) : Res := .next s.fetchRetry

/-- FETCH_TIMEOUT: 60 s with no PIECE. -/
def execFetchTimeout (s : State) : Res :=
  match s.upd.fetch with
  | none => .next s
  | some f => .next ((s.reach (f.pieceAt + 60 * sec)).fetchEnd .failed)

/-! ### Trial (R502, R503, R507) -/

/-- TRIAL_HEALTHY: the conditions have held for HEALTH_S. -/
def State.trialHealthy (s : State) : State :=
  match s.upd.heldAt, s.commit? with
  | some t, some c =>
    if s.updState ≠ usTrial || !s.healthOk then s else
    let s := s.reach (t + s.get F.UPD_CFG_HEALTH_S * sec)
    let s := s.writeRec c.set false c.attempts c.prior
    let s := s.setFw c.set fun x => { x with confirmed := true }
    let s := s.setUpd fun u => { u with trialAt := none, heldAt := none, confirmRx := false }
    let s := s.updTo usIdle
    let s := s.rollbackTo c.svn
    (s.cond 14 4).raise 0x0E05 4 0 (natBE 4 (s.rd Reg.UPD_SEQ) ++ natBE 1 c.set ++ natBE 1 (s.get F.KEYS_ROLLBACK_COUNT))
  | _, _ => s

def execTrialHealthy (s : State) : Res := .next s.trialHealthy

/-- A record names the Prior set as CONFIRMED; UPD_FALLBACK tells the set abandoned and the reason. -/
def State.fallback (s : State) (c : CommitRec) (reason : Nat) : State :=
  let s := s.writeRec c.prior false 0 c.set
  (s.cond 14 5).raise 0x0E06 2 0 (natBE 1 c.set ++ natBE 1 reason)

/-- HEALTH_TIMEOUT: HEALTH_TO has passed since step 12 without a healthy trial. -/
def State.healthTimeout (s : State) : State :=
  match s.upd.trialAt, s.commit? with
  | some t, some c =>
    if s.updState ≠ usTrial || s.closing then s else
    let s := s.reach (t + s.get F.UPD_CFG_HEALTH_TO * sec)
    let s := (s.fallback c 2).setUpd fun u => { u with trialAt := none, heldAt := none, confirmRx := false }
    (s.updTo usIdle).beginRestart 4
  | _, _ => s

def execHealthTimeout (s : State) : Res := .next s.healthTimeout

/-- SAFETY_FW_TRANSFER: a transfer of part 5 to channel A completes while SKEY is active; SAFE_CONFIRM is then awaited (R358). -/
def State.safeFw (s : State) : State :=
  let d := (s.activeSet.part 4).digest
  if !s.safe.a.skey || s.safe.fw = some d then s else
  ({ s with safe := { s.safe with fw := some d, reconf := true } }).healthSync

def execSafetyFwTransfer (s : State) : Res := .next s.safeFw

end Sys2Proof.Machine
end

