-- ==== Sys2Proof/Machine/Snapshot.lean ====
section
/-! DEFINITION. Machine/Snapshot.lean: the snapshot groups of the blocks (R99 to R101, R557): which groups each block defines,
the words of a group, the request and the capture. -/

namespace Sys2Proof.Machine

/-! ### Accesses to a domain that is off (R16) -/

/-- Power domain of the block at a window offset, where that domain is off. -/
def State.offDomain? (s : State) (off : Nat) : Option Nat :=
  match blkOfOff off with
  | some b => if s.blkOn b then none else some (blkDomain b)
  | none => none

/-- An access has reached a domain that is off: its OFFACC bit is set. -/
def State.offAccess (s : State) (d : Nat) : State :=
  s.put F.SYS_PD_STAT_OFFACC (putBits (s.get F.SYS_PD_STAT_OFFACC) d d 1)

/-! ### Words of a group -/

/-- Consecutive words of 64-bit values. -/
def wide (ns : List Nat) : List Nat := ns.flatMap fun n => [n % 2 ^ 32, n / 2 ^ 32 % 2 ^ 32]

/-- PACER group 0: the plan that last reached DONE (R262, Table 10.7). -/
def State.pacerSnap (s : State) : List Nat :=
  let (no, t, obj, rp, rd) := s.pacer.wide
  wide [no, t.toNat, obj] ++ [rp, rd]

/-- FURUN group 0 (R444, Table 16.10). -/
def State.furunSnap (s : State) : List Nat :=
  wide [s.own.toNat] ++ [s.furun.sent, s.furun.recv, s.furun.reasmDrop, s.furun.badType]

/-- The first record that window w passes at or after its cursor. -/
def State.winNext (s : State) (w : Nat) : Option Rec := (s.winRecs w (s.win w).cursor).head?

/-- EVR groups (R520, Table 20.3). -/
def State.evrSnap (s : State) (g : Nat) : List Nat :=
  if g = 0 then
    wide [s.newestSeq, s.oldestSeq, (s.evr.span.map (·.seq)).getD 0] ++ [0, 0, 0, 0]
  else
    match (if s.winOpen (g - 1) then s.winNext (g - 1) else none) with
    | none => List.replicate 10 0
    | some x => wide [x.seq] ++ (List.range 8).map fun i => beAt x.bytes (4 * i) 4

/-- The words that a capture of group g of a source latches, with the window offset of the first; none where the block
does not define the group. Each block chapter numbers its groups (R183, R222, R262, R332, R360, R387, R414, R443, R444, R455,
R489, R509, R520, R529, R545). -/
def State.snapWords (s : State) (src g : Nat) : Option (Nat × List Nat) :=
  let lone (off : Nat) (ws : List Nat) : Option (Nat × List Nat) := if g = 0 then some (off, ws) else none
  match src with
  | 2 => lone 0x010060 s.ledgerSnap
  | 3 => if g = 0 then some (0x020040, s.lapSnap 0) else if g ≤ 8 then some (0x020080, s.lapSnap g) else none
  | 4 => if g ≤ 255 then some (0x110040, s.loopSnap g) else none
  | 5 => lone 0x200060 s.pacerSnap
  | 6 => (s.metSnap g).map fun ws => (0x300800, ws)
  | 7 => lone 0x380040 s.safeSnap
  | 8 => lone 0x400080 s.relaySnap
  | 9 => if g ≤ 64 then some (0x480800, s.canSnap 0 g) else none
  | 10 => if g ≤ 3 then some (0x500040, (s.port g).words) else none
  | 11 => lone 0x580040 s.furunSnap
  | 12 => lone 0x600080 s.rtcSnap
  | 13 => lone 0x680040 s.keysSnap
  | 14 => (s.updSnap g).map fun ws => (0x700040, ws)
  | 15 => if g ≤ 16 then some (0x780040, s.evrSnap g) else none
  | 16 => if g ≤ 31 then some (0x800040, s.dmaSnap g) else none
  | 18 => if g ≤ 15 then some (0x900040, s.uioSnap g) else none
  | 19 => if g ≤ 64 then some (0x490800, s.canSnap 1 g) else none
  | 20 => if g ≤ 64 then some (0x4A0800, s.canSnap 2 g) else none
  | 21 => if g ≤ 64 then some (0x4B0800, s.canSnap 3 g) else none
  | _ => none

/-! ### Request -/

/-- SNAP_CTL and SNAP_STAT of a source. -/
def snapCtl (b : Nat) : Nat := b + 0x10
def snapStat (b : Nat) : Nat := b + 0x14

/-- A capture of the source is in progress. -/
def State.snapBusy (s : State) (src : Nat) : Bool := s.sys.snaps.any fun j => j.src == src

/-- GRP of SNAP_CTL, and the request (R100): an undefined group sets ERR and takes no capture. -/
def State.snapReq (s : State) (src grp : Nat) : State :=
  match srcBase src with
  | none => s
  | some b =>
    if s.snapBusy src then s else
    let s := s.wr (snapCtl b) grp
    if (s.snapWords src grp).isNone then s.wr (snapStat b) (putBits (s.rd (snapStat b)) 30 30 1) else
    let s := (s.wr (snapCtl b) (grp + 2 ^ 8)).wr (snapStat b) (putBits (putBits (s.rd (snapStat b)) 30 30 0) 31 31 1)
    { s with sys := { s.sys with snaps := s.sys.snaps ++ [⟨src, grp⟩] } }

/-- REQ with a group is written to a source's SNAP_CTL: SAFE has a request register of its own, and a block that is off takes no
request (R98, R100, R16). -/
def State.snapWrite (s : State) (src grp : Nat) : State :=
  match srcBase src with
  | none => s
  | some b =>
    match s.offDomain? b with
    | some d => s.offAccess d
    | none => if src = 7 then s else s.snapReq src grp

def execSnapshotRequest (src : Fin 22) (grp : Byte) (s : State) : Res := .next (s.snapWrite src.val grp.toNat)

/-- REQ in SYS_SAFE_SNAP_CTL (R360). -/
def State.safeSnapReq (s : State) (grp : Nat) : State :=
  if s.sys.safeSnap.isSome then s else
  let s := s.wr Reg.SYS_SAFE_SNAP_CTL grp
  let st := 0x380014
  if grp ≠ 0 then s.wr st (putBits (s.rd st) 30 30 1) else
  let s := (s.wr Reg.SYS_SAFE_SNAP_CTL (grp + 2 ^ 8)).wr st (putBits (putBits (s.rd st) 30 30 0) 31 31 1)
  { s with sys := { s.sys with safeSnap := some grp } }

def execSysSafeSnapCtl (grp : Byte) (s : State) : Res := .next (s.safeSnapReq grp.toNat)

/-! ### Capture -/

/-- The RS registers take the words; BUSY clears, CGRP names the group and SEQ counts (R99). -/
def State.snapFill (s : State) (b off grp : Nat) (ws : List Nat) : State :=
  let st := s.rd (snapStat b)
  (s.wrs off ws).wr (snapStat b) (putBits (putBits (putBits st 31 31 0) 15 8 grp) 7 0 (bitsOf st 7 0 + 1))

/-- What a capture leaves in its block: MET stamps its time (Table 12.10), an EVR window keeps the sequence latched and its record
counts as returned (R514, R520). -/
def State.snapMark (s : State) (src grp : Nat) : State :=
  if src = 6 then s.wrs 0x3008F8 (wide [s.met.view.ts.toNat])
  else if src = 15 && grp ≥ 1 then
    let w := grp - 1
    let q := ((if s.winOpen w then s.winNext w else none).map (·.seq)).getD 0
    (s.setWin w fun y => { y with latched := q }).markShown [q]
  else s

/-- SNAPSHOT_CAPTURE: the capture in progress of a source completes (R99). -/
def State.snapDone (s : State) (src : Nat) : State :=
  match srcBase src with
  | none => s
  | some b =>
    if src = 7 then
      match s.sys.safeSnap with
      | none => s
      | some g =>
        let s := s.snapFill b 0x380040 g s.safeSnap
        let s : State := { s with sys := { s.sys with safeSnap := none } }
        s.wr Reg.SYS_SAFE_SNAP_CTL (bitsOf (s.rd Reg.SYS_SAFE_SNAP_CTL) 7 0)
    else
      match s.sys.snaps.find? fun j => j.src == src with
      | none => s
      | some j =>
        match s.snapWords src j.grp with
        | none => s
        | some (off, ws) =>
          let s := (s.snapFill b off j.grp ws).snapMark src j.grp
          let s : State := { s with sys := { s.sys with snaps := s.sys.snaps.filter fun k => k.src != src } }
          s.wr (snapCtl b) (bitsOf (s.rd (snapCtl b)) 7 0)

def execSnapshotCapture (src : Fin 22) (s : State) : Res := .next (s.snapDone src.val)

end Sys2Proof.Machine
end

