-- ==== Sys2Proof/Machine/RegSpace.lean ====
section
/-! DEFINITION. Machine/RegSpace.lean: accesses to the register window (R8 to R12, R16, R92 to R104): what a read returns and what a
write does, register by register. -/

namespace Sys2Proof.Machine

/-! ### Reads -/

/-- The word that a read of an occupied offset returns, its block being on: most registers hold it; a few are taken live. -/
def State.liveWord (s : State) (off : Nat) : Nat :=
  match regAt off with
  | none => 0
  | some (d, i, _) =>
    if off = Reg.SYS_INT_PEND then s.intPend
    else if off = Reg.LOOP_GSTAT then s.gstat
    else if off = Reg.SYS_CLK_STAT then
      putBits (s.rd off) 9 0 ((List.range 10).foldl (fun a k => a + b2n (s.clkOk k) * 2 ^ k) 0)
    else match d.wk with
    | .loopSpt =>
      if ((s.loopSt i).bind? 1).isSome then ((s.loopSt i).tgtLast.map (wrapN 16)).getD (s.rd off) else s.rd off
    | .loopFf =>
      if ((s.loopSt i).bind? 2).isSome then ((s.loopSt i).ffLast.map (wrapN 16)).getD (s.rd off) else s.rd off
    -- W1S bits whose action runs read 1 (R10): GO while the channel is QUEUED or ACTIVE; CANCEL while it waits for the attempt on the
    -- wire, RECOVER while recovery runs; the other actions end with the write
    | .dmaChctl => putBits (s.rd off) 31 31 (b2n (s.dmaState i == dQueued || s.dmaState i == dActive))
    | .canTxctl =>
      putBits (putBits (s.rd off) 30 30 (b2n (s.canObj i (s.get (F.CAN_TXCTL_OBJ i))).cancel)) 29 29 (b2n (s.get (F.CAN_STAT_STATE i) == 5))
    | _ =>
      if d.blk = 12 then s.rtcLive.rd off
      else if d.blk = 14 then s.updSync.rd off
      else if off = Reg.ETH_PSTAT i then (s.strideUnbar i).rd off
      else s.rd off

/-- A read of 32 bits (R12, R16): the word, 0 at an offset that no register occupies and in a block that is off. -/
def State.regWord (s : State) (off : Nat) : Nat := if (s.offDomain? off).isSome then 0 else s.liveWord off

/-- OFFACC follows an access to a domain that is off. -/
def State.accessed (s : State) (off : Nat) : State :=
  match s.offDomain? off with
  | some d => s.offAccess d
  | none => s

def State.regRead (s : State) (off : Nat) : State := (s.accessed off).emit (.reg off (s.regWord off))

/-! ### Writes -/

/-- The word that a write leaves, by the access codes of its fields (R8). -/
def maskWrite (fs : List RField) (old v : Nat) : Nat :=
  fs.foldl (fun a f =>
    let x := bitsOf v f.hi f.lo
    match f.acc with
    | .rw => putBits a f.hi f.lo x
    | .w1c => putBits a f.hi f.lo (bitsOf a f.hi f.lo - (bitsOf a f.hi f.lo &&& x))
    | .w1s => putBits a f.hi f.lo (bitsOf a f.hi f.lo ||| x)
    | _ => a) old

/-- LOOP_CTLn (R192, R208, R217): MODE follows the rules of a Baton write; a loop without an object keeps its MODE. -/
def State.writeLoopCtl (s : State) (n v : Nat) : State :=
  let m := bitsOf v 26 24
  let had := (s.loopSt n).obj ≠ 0
  if m > 2 || bitsOf v 21 20 > 2 || bitsOf v 15 14 > 2 then s
  else if had && m ≠ s.loopMode n && (s.modeOk n m).isSome then s
  else
    let s := s.loopPutCtl n v
    let s := if had && m ≠ s.loopMode n then s.loopSetMode n m else s
    if bit1 v 31 = 1 then s.loopReqSwap n else s

/-- Timing of a loop: only while EFF is 0, within R206, with its same-sample links and the load kept (R208, R213). -/
def State.writeLoopTime (s : State) (n per ofs : Nat) : State :=
  let t := (s.wr (Reg.LOOP_PER n) per).wr (Reg.LOOP_OFS n) ofs
  if s.loopEff n ≠ effOff || !s.timingOk n per ofs || s.endsLink n per ofs || s.longChain n per ofs || !loadFits (t.loadOf fun k => t.loopMode k != 0) then s
  else t.cascSync

/-- A bank word (R216, Table 8.11). -/
def State.writeBank (s : State) (n off v : Nat) : State :=
  let x := off - Reg.LOOP_BANK n 0
  if x / 0x60 = s.actb n || s.get (F.LOOP_CTL_SWAP n) = 1 || !bankWordOk (x % 0x60 / 4) v then s else s.wr off v

/-- A task register: only while the task is stopped or halted, in range (7.10). -/
def State.writeTask (s : State) (n off v : Nat) : State :=
  let w (r : Nat) : Nat := if r = off then v else s.rd r
  if s.taskLive n || !taskCfgOk (w (Reg.LAP_TCFG n)) (w (Reg.LAP_TPER n)) (w (Reg.LAP_TOFS n)) (w (Reg.LAP_TCOM n)) then s
  else s.wr off v

/-- A range of 10.8 and 11.13 for the PACER register at `off` with the value `v`. -/
def State.pacerOk (s : State) (off v : Nat) : Bool :=
  let q (x y : Nat) : Fl := Fl.ofRat fp64F x y
  if off = Reg.PACER_CFG then 1 ≤ bitsOf v 23 16 && bitsOf v 23 16 ≤ 192 && 1 ≤ bitsOf v 5 0 && bitsOf v 5 0 ≤ 60
  else if off = Reg.PACER_RHO then fpRange v (q 1 1024) (dNat 1024)
  else if off = Reg.PACER_EPSP || off = Reg.PACER_EPSD then fpRange v (q 1 1000000) (q 1 10)
  else fedOk ((fedRegs.map fun r => natBE 4 (if r = off then v else s.rd r)).flatten)

/-- A configuration register of RELAY: only while ROLE is 0 (14.10). -/
def State.writeRelay (s : State) (off v : Nat) : State :=
  let w (r : Nat) : Nat := if r = off then v else s.rd r
  if s.relayRole ≠ 0 || !s.trigPeriodsOk (bitsOf (w Reg.RELAY_PER) 31 0) ||
    !relayCfgOk (w Reg.RELAY_CFG) (w Reg.RELAY_PER) (w Reg.RELAY_LEN) (w Reg.RELAY_TMO) (w Reg.RELAY_WGT) then s
  else
    let s := s.wr off v
    if off = Reg.RELAY_CFG then s.relayAnew 0 else s

/-- MODE is INIT, and in effect: registers of the channel other than MODE, CAN_TXCTL and the W1C bits may be written (15.8). -/
def State.canInitNow (s : State) (c : Nat) : Bool := s.get (F.CAN_CTL_MODE c) == 0 && (s.canCh c).mode == 0

/-- Control, bit timing and schedule of a CAN channel (R391 to R393). -/
def State.writeCan (s : State) (c off v : Nat) : State :=
  let w (r : Nat) : Nat := if r = off then v else s.rd r
  let ctl := w (Reg.CAN_CTL c)
  if bitsOf ctl 1 0 = 3 || !canCfgOk ctl (w (Reg.CAN_NBT c)) (w (Reg.CAN_DBT c)) (w (Reg.CAN_TT c)) then s
  else (s.wr off v).wr (Reg.CAN_TMAX c) (canTmaxNs ctl (w (Reg.CAN_NBT c)) (w (Reg.CAN_DBT c)))

/-- Object configuration and schedule matrix of a CAN channel: only in INIT (R393, 15.8). -/
def State.writeCanObj (s : State) (c off v : Nat) (ok : State → Bool) : State :=
  let t := s.wr off v
  if s.canInitNow c && ok t then t else s

/-- CAN_TXCTL: OBJ and DLEN, then GO, CANCEL and RECOVER (15.8). -/
def State.writeTxctl (s : State) (c v : Nat) : State :=
  if bitsOf v 6 0 > 64 then s else
  let m := bitsOf v 13 8
  let s := (s.put (F.CAN_TXCTL_OBJ c) m).put (F.CAN_TXCTL_DLEN c) (bitsOf v 6 0)
  let data := ((List.range 16).map fun w => natBE 4 (s.rd (Reg.CAN_TXD c w))).flatten
  let s := if bit1 v 31 = 1 then s.canRequest c m (data.take (bitsOf v 6 0)) .plain else s
  let s := if bit1 v 30 = 1 then s.canCancel c m else s
  if bit1 v 29 = 1 then s.canRecover c else s

/-- DMA_CHCTLc (R523, R527, R528). How far the engine has come when an ABORT arrives is open: a free value says it (log 3). -/
def State.writeChctl (s : State) (c v : Nat) : State :=
  if bitsOf v 26 24 > 3 then s else
  let s := s.put (F.DMA_CHCTL_TRIG c) (bitsOf v 26 24)
  let s := if bit1 v 29 = 1 then s.dmaRecover c else s
  let s : State := if bit1 v 30 = 1 then
      let (x, s) := s.free
      s.dmaAbort c (x.toNat / 2) (x.toNat % 2 == 1)
    else s
  if bit1 v 31 = 1 then s.dmaGo c else s

/-- DMA_CHDLOc and DMA_CHDHIc: the write of the high word commits both (R102). -/
def State.writeChd (s : State) (c off v : Nat) (hi : Bool) : State :=
  if s.dmaState c ≠ dIdle then s else
  let s := s.wr off v
  if hi then
    let a : W64 := BitVec.ofNat 64 (v * 2 ^ 32 + s.rd (Reg.DMA_CHDLO c))
    s.setDma c fun x => { x with first := a }
  else s

/-- UIO_CFGn and UIO_BETAn: only in BLOCKS, in range, and with a mode that the channel's object and the thermal meters allow. -/
def State.writeUioCfg (s : State) (n off v : Nat) : State :=
  let w (r : Nat) : Nat := if r = off then v else s.rd r
  let m := bitsOf (w (Reg.UIO_CFG n)) 31 28
  let o := (s.uioCh n).obj
  let cnt := ((s.obj? o).map Obj.count).getD 0
  if s.mode ≠ modeBlocks || !uioCfgOk (w (Reg.UIO_CFG n)) (w (Reg.UIO_BETA n)) ||
    (m ≠ s.uioMode n && (s.thermalNames n || (o ≠ 0 && !uioFits m (s.typOf o) cnt))) then s
  else State.uioOut s (State.uioSetMode s (s.wr off v) n) n

/-- UIO_OUTn: the value of an output channel without an object, outside BLOCKS. -/
def State.writeUioOut (s : State) (n v : Nat) : State :=
  let raw := bitsOf v 15 0
  if s.mode = modeBlocks || !uioIsOut (s.uioMode n) || (s.uioCh n).obj ≠ 0 || raw > (if s.uioMode n = 8 then 1 else 10000) then s
  else (s.wr (Reg.UIO_OUT n) raw).uioDrive n raw

def oneHot (k : Nat) : Bool := k == 1 || k == 2 || k == 4 || k == 8

/-- INT_CLR of a source (R97); SAFE has a clear register of its own in SYS (R98). -/
def State.clearInt (s : State) (src mask : Nat) : State :=
  match srcBase src with
  | none => s
  | some b =>
    let old := s.rd (b + 4)
    s.wr (b + 4) (old - (old &&& mask))

/-- The effect of a write of `v` to a register at `off` with indices i and j, whose access codes would leave `nw`. -/
def State.writeReg (s : State) (d : RDesc) (i j off v nw : Nat) : State :=
  let ok (c : Bool) : State := if c then s.wr off nw else s
  match d.wk with
  | .plain => s.wr off nw
  | .intEn => s.wr off nw
  | .intClr => s.clearInt i v
  | .snapCtl => if s.snapBusy i then s else if bit1 v 8 = 1 then s.snapReq i (bitsOf v 7 0) else s.wr off nw
  | .sysSafeIntEn => s.wr off nw
  | .sysSafeIntClr => s.clearInt 7 v
  | .sysIntRoute => ok (oneHot (bitsOf v 3 0))
  | .sysSafeSnapCtl =>
    if s.sys.safeSnap.isSome then s else if bit1 v 8 = 1 then s.safeSnapReq (bitsOf v 7 0) else s.wr off nw
  | .sysRstCfg => ok (Nat.ble 1 (bitsOf v 15 8) && Nat.ble (bitsOf v 15 8) 100)
  | .sysWdtKick => if bitsOf v 7 0 = 0xA5 then { s with sys := { s.sys with wdtAt := s.clk } } else s
  | .ledgerModeCfg => ok (ledgerRange off nw)
  | .ledgerBudget => ok (ledgerRange off nw)
  | .ledgerExt => ok (ledgerRange off nw)
  | .ledgerHoldMin => ok (ledgerRange off nw)
  | .ledgerAppLim => ok (ledgerRange off nw)
  | .ledgerLaneLim => ok (ledgerRange off nw)
  | .ledgerPortLim => ok (ledgerRange off nw)
  | .lapOcCfg => ok (Nat.ble 1 (bitsOf nw 31 16) && Nat.ble (bitsOf nw 31 16) 1200 && Nat.ble 100 (bitsOf nw 15 0) && Nat.ble (bitsOf nw 15 0) 50000)
  | .lapTcfg => s.writeTask i off nw
  | .lapTper => s.writeTask i off nw
  | .lapTofs => s.writeTask i off nw
  | .lapTcom => s.writeTask i off nw
  | .loopCtl => s.writeLoopCtl i v
  | .loopPer => s.writeLoopTime i nw (s.rd (Reg.LOOP_OFS i))
  | .loopOfs => s.writeLoopTime i (s.rd (Reg.LOOP_PER i)) nw
  | .loopMan => if s.loopEff i = effAuto || s.loopEff i = effHold then s else (s.wr off nw).loopImage i
  | .loopSpt => if ((s.loopSt i).bind? 1).isSome then s else (s.wr off nw).loopImage i
  | .loopFf => if ((s.loopSt i).bind? 2).isSome then s else (s.wr off nw).loopImage i
  | .loopStart => s.wr off nw
  | .loopBank => s.writeBank i off nw
  | .loopSwsel => s.wr off nw
  | .loopSwgo => if bit1 v 0 = 1 then s.loopSwgo else s
  | .pacerCfg => ok (s.pacerOk off nw)
  | .pacerRho => ok (s.pacerOk off nw)
  | .pacerEpsp => ok (s.pacerOk off nw)
  | .pacerEpsd => ok (s.pacerOk off nw)
  | .pacerFcfg => ok (s.pacerOk off nw)
  | .pacerFtmo => ok (s.pacerOk off nw)
  | .pacerFprobe => ok (s.pacerOk off nw)
  | .pacerPstep => ok (s.pacerOk off nw)
  | .pacerRhof => ok (s.pacerOk off nw)
  | .pacerRhop => ok (s.pacerOk off nw)
  | .pacerEpsfp => ok (s.pacerOk off nw)
  | .pacerEpsfd => ok (s.pacerOk off nw)
  | .pacerFiter => ok (s.pacerOk off nw)
  | .relayCfg => s.writeRelay off nw
  | .relayPer => s.writeRelay off nw
  | .relayLen => s.writeRelay off nw
  | .relayTmo => s.writeRelay off nw
  | .relayWgt => s.writeRelay off nw
  | .relayMapid => s.writeRelay off nw
  | .relayMapgo => if bit1 v 0 = 1 then s.mapGo else s
  | .relayMaps => ok (s.get F.RELAY_MAPGO_GO == 0)
  | .canCtl => if s.canInitNow i then s.writeCan i off nw else s.writeCan i off (putBits (s.rd off) 1 0 (bitsOf nw 1 0))
  | .canNbt => if s.canInitNow i then s.writeCan i off nw else s
  | .canDbt => if s.canInitNow i then s.writeCan i off nw else s
  | .canTt => if s.canInitNow i then s.writeCan i off nw else s
  | .canTxctl => s.writeTxctl i v
  | .canTxd => s.wr off nw
  | .canOcfg => s.writeCanObj i off nw fun t =>
      objCfgOk nw && ((List.range 64).filter fun m => isTtCfg (t.rd (Reg.CAN_OCFG i m))).length ≤ 8
  | .canOid => s.writeCanObj i off nw fun _ => true
  | .canOtim => s.writeCanObj i off nw fun _ => true
  | .canTtcol => s.writeCanObj i off nw fun t => bit1 nw 31 == 0 || isTtCfg (t.rd (Reg.CAN_OCFG i (bitsOf nw 5 0)))
  | .ethNet => ok (Nat.ble 1024 (bitsOf nw 31 16) && Nat.ble 1024 (bitsOf nw 15 0) && bitsOf nw 31 16 != bitsOf nw 15 0)
  | .ethPcfg => if 1 ≤ bitsOf nw 11 0 && bitsOf nw 11 0 ≤ 4094 then (s.wr off nw).portOff i else s
  | .ethWgt =>
    ok (bitsOf nw 23 16 != 0 && bitsOf nw 15 8 != 0 && bitsOf nw 7 0 != 0 && bitsOf nw 23 16 + bitsOf nw 15 8 + bitsOf nw 7 0 == 100)
  | .ethFltlo => ok (Nat.ble 2 j)
  | .ethFlthi =>
    if j < 2 then s else s.setFilter i j (bitsOf v 15 0 * 2 ^ 32 + s.rd (Reg.ETH_FLTLO i j)) (bit1 v 31 == 1)
  | .furunCfg => ok (Nat.ble 100 (bitsOf nw 31 16) && Nat.ble (bitsOf nw 31 16) 10000 && Nat.ble 1 (bitsOf nw 15 0) && Nat.ble (bitsOf nw 15 0) 600)
  | .rtcPtp => (ok (bitsOf nw 1 0 != 3)).ptpRole (s.get F.RTC_PTP_ROLE)
  | .rtcStep => ok (Nat.ble 10 nw && Nat.ble nw 1000000)
  | .rtcTrim => ok (nw != 0x400)
  | .rtcStgDate => s.wr off nw
  | .rtcStgTime => s.wr off nw
  | .rtcStgTaiLo => s.wr off nw
  | .rtcStgTaiHi => s.wr off nw
  | .rtcStgOfs => s.wr off nw
  | .rtcCommit => s.rtcGo v
  | .rtcAlmlo => s.wr off nw
  | .rtcAlmhi => s.alarmSet i v
  | .updCfg => if updCfgOk nw then (s.wr off nw).healthSync else s
  | .evrCfg => ok (evrSetupOk nw (s.rd Reg.EVR_TRIG))
  | .evrTrig => ok (evrSetupOk (s.rd Reg.EVR_CFG) nw)
  | .evrTrigctl => if bit1 v 0 = 1 then s.spanRelease else s
  | .evrWctl => if bit1 v 0 = 1 then s.winAdvance i else s
  | .dmaChctl => s.writeChctl i v
  | .dmaChdlo => s.writeChd i off nw false
  | .dmaChdhi => s.writeChd i off nw true
  | .uioCfg => s.writeUioCfg i off nw
  | .uioBeta => s.writeUioCfg i off nw
  | .uioOut => s.writeUioOut i v

/-- The sources of loops that a register write has changed are kept as they stood, for samples of the same CLK_LOOP cycle (R211). -/
def State.keepSources (s t : State) : State :=
  let srcs := s.engine.loops.flatMap fun l => (l.binds.filter fun b => b.role < 3).map fun b => (b.obj, b.elem)
  let moved := srcs.filter fun p => s.view? p.1 p.2 != t.view? p.1 p.2
  if moved.isEmpty then t else t.setLap fun l =>
    { l with prior := (l.prior.filter fun p => p.cycle == s.loopCycle) ++ s.priors 8 moved }

/-- A write of 32 bits (R8, R11, R12, R16). -/
def State.regWrite (s : State) (off v : Nat) : State :=
  match s.offDomain? off with
  | some d => s.offAccess d
  | none =>
    match regAt off with
    | none => s
    | some (d, i, j) => State.keepSources s (s.writeReg d i j off v (maskWrite d.fields (s.rd off) v))

/-! ### Commands -/

/-- REGISTER_WRITE: a write of 32 bits, aligned (R8, R94). -/
def execRegisterWrite (off : BitVec 24) (val : W32) (s : State) : Res :=
  .next (if off.toNat % 4 = 0 then s.regWrite off.toNat val.toNat else s)

/-- OFF_DOMAIN_ACCESS: an access of 32 bits as it finds the block's domain (R16). -/
def execOffDomainAccess (off : BitVec 24) (write : Bool) (val : W32) (s : State) : Res :=
  let o := off.toNat / 4 * 4
  .next (if write then s.regWrite o val.toNat else s.regRead o)

def widthBytes : Width → Nat
  | .w8 => 1
  | .w16 => 2
  | .w32 => 4

/-- A narrow write or an unaligned access sets its bits and leaves its offset (R94). -/
def State.busNote (s : State) (off : Nat) (narrow unal : Bool) : State :=
  let s := if narrow then s.put F.SYS_BUS_STAT_NARROW 1 else s
  let s := if unal then s.put F.SYS_BUS_STAT_UNALIGNED 1 else s
  if narrow || unal then s.wr Reg.SYS_BUS_ADDR off else s

/-- UNALIGNED_ACCESS: an access of any width and alignment (R94). -/
def State.busAccess (s : State) (off : Nat) (width : Width) (write : Bool) (v : Nat) : State :=
  let n := widthBytes width
  let unal := off % n ≠ 0
  let narrow := write && n ≠ 4
  if n = 4 && !unal then (if write then s.regWrite off v else s.regRead off) else
  let w := off / 4 * 4
  let t := (s.accessed w).busNote off narrow unal
  if write then t
  else t.emit (.reg off (if unal then 0 else bitsOf (s.regWord w) (8 * (off % 4 + n) - 1) (8 * (off % 4))))

def execUnalignedAccess (off : BitVec 24) (width : Width) (write : Bool) (val : W32) (s : State) : Res :=
  .next (s.busAccess off.toNat width write val.toNat)

/-- INT_CLR of a source's common group (R97, R98). -/
def execIntClr (src : Fin 22) (mask : W32) (s : State) : Res :=
  .next (match srcBase src.val with
    | none => s
    | some b => s.regWrite (b + 0x0C) mask.toNat)

def execSysSafeIntClr (mask : W32) (s : State) : Res := .next (s.regWrite Reg.SYS_SAFE_INT_CLR mask.toNat)

/-- A write to SYS_INT_ROUTEn, n = 1 to 21 (R103). -/
def execSysIntRouteWrite (n : Fin 22) (val : W32) (s : State) : Res :=
  .next (if n.val = 0 then s else s.regWrite (Reg.SYS_INT_ROUTE n.val) val.toNat)

def execSysWdtKick (val : W32) (s : State) : Res := .next (s.regWrite Reg.SYS_WDT_KICK val.toNat)

end Sys2Proof.Machine
end

