-- ==== Sys2Proof/Machine/SessionOps.lean ====
section
/-! DEFINITION. Machine/SessionOps.lean: handshakes, sessions and the session opcodes of Baton (3.1, 3.5, 3.7, 3.11, 18.5). -/

namespace Sys2Proof.Machine

/-! ### Handshakes (R59, R62, R478, R479, Table 18.4) -/

/-- KEYS_TIME_UNCHECKED, once per start. -/
def State.timeUnchecked (s : State) : State :=
  if s.keys.unchecked then s else
  (s.setKeys fun k => { k with unchecked := true }).raise 0x0D09 4 0 (natBE 4 (s.get F.SYS_START_CNT_COUNT))

/-- The first check of Table 18.4 that a certificate fails. `member` is the member address of a Furun endpoint. -/
def State.certFault (s : State) (c : Cert) (member : Option W64) : Option Nat :=
  let slot := c.trust.val
  if !(c.sound && (s.keys.trust.getD slot none).isSome) then some 1
  else if c.serials.any fun (n : BitVec 160) => (s.keys.revoked.getD slot []).contains n.toNat then some 2
  else if s.get F.RTC_STAT_VALID = 1 && !(c.start.toNat ≤ s.tsNow.toNat && s.tsNow.toNat ≤ c.stop.toNat) then some 3
  else if !(c.role && c.kind.toNat ≤ 1) then some 4
  else match member with
    | some a => if c.kind.toNat = 1 && c.addr = a then none else some 5
    | none => none

/-- KEYS_HANDSHAKE_REFUSED, at most once per second per reason. -/
def State.refuseHandshake (s : State) (c : Cert) (reason : Nat) : State :=
  (s.cond 13 5).raiseLim 0x0D06 reason sec 5 0 fun n => natBE 1 reason ++ natBE 8 (c.owner.toNat / 2 ^ 192) ++ natBE 3 n

/-- The lowest session slot without a session, the proposed one first. -/
def State.freeSlot (s : State) (want : Nat) : Option Nat :=
  if (s.session? want).isNone then some want else firstBelow 64 fun k => (s.session? k).isNone

/-- HANDSHAKE: on success a Baton session takes an engine slot, or a Furun link opens and its HELLO goes out. -/
def State.handshake (s : State) (want port : Nat) (c : Option Cert) (suite : Bool) (link : Option W64) : State :=
  -- in RECOVERY E1 alone is enabled, for operator sessions (R504)
  let rec_ := s.start.phase = .recovery && port = 1 && link.isNone && c.any fun x => x.tag = 0
  let enabled := port ≥ 4 || link.isSome || s.get (F.ETH_PCFG_EN port) = 1
  let served := s.pdOn 4 && (rec_ || (enabled &&
    (s.start.phase = .firmware || s.start.phase = .running || s.start.phase = .holdup || s.start.phase = .restarting)))
  if !served || !suite then s else
  match c with
  | none => s
  | some c =>
    let room := match link with
      | none => s.freeSlot want
      | some a => if (s.keys.linkSlots.filter fun (l : LinkSlot) => l.peer != a).length < 256 then some 0 else none
    match room, link with
    | none, none => s
    | none, some a => s.raise 0x0B04 3 0 (natBE 8 a.toNat)
    | some k, _ =>
      let early := match s.certFault c link with
        | some n => Nat.ble n 2
        | none => false
      let s := if s.get F.RTC_STAT_VALID = 0 && !early then s.timeUnchecked else s
      match s.certFault c link with
      | some r => s.refuseHandshake c r
      | none =>
        let serials : List Nat := c.serials.map fun (n : BitVec 160) => n.toNat
        match link with
        | none =>
          let x : Session := ⟨k, c.tag.toNat, c.owner, serials, c.trust.val, none, s.clk, [], port⟩
          { s with baton := { s.baton with sessions := s.baton.sessions ++ [x] } }
        | some a =>
          if !(s.isMember a) then s else
          let s := s.setKeys fun y => { y with linkSlots := y.linkSlots.filter (fun (l : LinkSlot) => l.peer != a) ++ [(⟨a, c.trust.val, serials⟩ : LinkSlot)] }
          s.helloSend a

def execHandshake (sess : Fin 64) (port : Fin 5) (c : Option Cert) (suite : Bool) (link : Option W64) (s : State) : Res :=
  .next (s.handshake sess.val port.val c suite link)

/-! ### Records, idling, errors (R62, R63) -/

/-- RUNT_RECORD: a record that authenticates and is shorter than 12 bytes counts; one that does not authenticate leaves nothing. -/
def State.runt (s : State) (slot : Nat) (authOk : Bool) : State :=
  match s.session? slot with
  | none => s
  | some x =>
    if !authOk then s else
    s.raiseLim 0x0012 slot sec 5 x.tag fun n => natBE 8 (x.owner.toNat / 2 ^ 192) ++ natBE 4 n

def execRuntRecord (sess : Fin 64) (authOk : Bool) (s : State) : Res := .next (s.runt sess.val authOk)

/-- SESSION_IDLE_TIMEOUT: no packet for 300 s. -/
def State.sessionIdle (s : State) (slot : Nat) : State :=
  match s.session? slot with
  | none => s
  | some x => (s.reach (x.last + 300 * sec)).closeSession slot 1

def execSessionIdleTimeout (sess : Fin 64) (s : State) : Res := .next (s.sessionIdle sess.val)

def execDtlsError (sess : Fin 64) (s : State) : Res := .next (s.closeSession sess.val 2)

/-- CACHE_ENTRY_EXPIRY: the oldest entry has stood for 10 minutes (R84). -/
def State.cacheExpire (s : State) : State :=
  match s.baton.cache with
  | [] => s
  | e :: rest =>
    let s := s.reach (e.since + cacheLife)
    { s with baton := { s.baton with cache := rest } }

def execCacheEntryExpiry (s : State) : Res := .next s.cacheExpire

/-! ### Session opcodes (R69, R70, R74, R87, R91) -/

/-- The module's version range. -/
def versionRange : Bytes := tlv 0x000B (natBE 1 0x20 ++ natBE 1 0x31)

def opHello : OpDef where
  code := 0x0001
  session := true
  schema := [{ typ := 0x000B, lo := 2, hi := 2, since := 0 }]
  run := fun s q =>
    let v := tv q.tlvs 0x000B
    let common := [0x20, 0x30, 0x31].filter fun x => beAt v 0 1 ≤ x && x ≤ beAt v 1 1
    match common.getLast?, q.sess with
    | some x, some slot =>
      let s := s.modSession slot fun y => { y with version := some x }
      let s := s.raise 0x0010 6 q.tag (natBE 8 (q.owner.toNat / 2 ^ 192) ++ natBE 1 x)
      -- 1,400 bytes, 32 items per session, 64 sessions, 10 s
      .done .ok (tlv 0x000C (natBE 1 x) ++ versionRange ++ tlv 0x000D (natBE 2 1400 ++ natBE 2 32 ++ natBE 2 64 ++ natBE 2 10)) s
    | _, _ => .refuse { status := .badVersion, named := versionRange }

def execHello (r : Req) (s : State) : Res := .next (batonRun opHello r s)

def opPing : OpDef where
  code := 0x0002
  session := true
  run := fun s _ => .done .ok [] s

def execPing (r : Req) (s : State) : Res := .next (batonRun opPing r s)

def sTarget : TlvSpec := { typ := 0x0009, lo := 4, hi := 4 }

/-- TARGET_STATUS with a status. -/
def targetStatus (st : Nat) : Bytes := tlv 0x000A (natBE 2 st)

def opItemStatus : OpDef where
  code := 0x0003
  session := true
  schema := [sTarget]
  run := fun s q =>
    let item := tn q.tlvs 0x0009
    if (s.item? q.owner item).isSome then .done .ok (targetStatus Status.pending.code) s else
    match s.cached? q.owner item with
    | some c => .done .ok (targetStatus c.status) s
    | none => .done .unknownItem [] s

def execItemStatus (r : Req) (s : State) : Res := .next (batonRun opItemStatus r s)

/-- The relay forwards a CANCEL to the neighbour that the item went to (R91). -/
def State.cancelRelayed (s : State) (q : Q) (i : Item) : State :=
  let params := tlv 0x0009 (natBE 4 i.item)
  let pkt := natBE 1 q.ver ++ natBE 1 0 ++ natBE 1 q.tag ++ natBE 1 i.cls ++ natBE 4 q.r.item.toNat ++ natBE 2 0x0004 ++
    natBE 2 params.length ++ params
  s.furunSend (BitVec.ofNat 64 i.a) 6 i.cls (addrOf (BitVec.ofNat 64 i.b) 0 0) (natBE 32 q.owner.toNat ++ natBE 1 q.tag ++ natBE 3 0 ++ pkt)

/-- CANCEL of an item in flight (R87): the state, and whether the item has ended by it. -/
def State.cancelItem (s : State) (q : Q) (i : Item) : State :=
  match i.wait with
  | .relayed => s.cancelRelayed q i
  | .canSend => if i.ponr then s else s.canCancel i.a i.b
  | _ => if i.ponr then s else (s.withdrawItem i).endItem i.owner i.item .abortedCancel

def opCancel : OpDef where
  code := 0x0004
  since := 0x30
  session := true
  schema := [sTarget]
  run := fun s q =>
    let item := tn q.tlvs 0x0009
    match s.item? q.owner item with
    | some i =>
      let s := s.cancelItem q i
      let st := if (s.item? q.owner item).isSome then Status.pending.code
        else ((s.cached? q.owner item).map (·.status)).getD Status.abortedCancel.code
      .done .ok (targetStatus st) s
    | none =>
      match s.cached? q.owner item with
      | some c => .done .ok (targetStatus c.status) s
      | none => .done .unknownItem [] s

def execCancel (r : Req) (s : State) : Res := .next (batonRun opCancel r s)

def opClose : OpDef where
  code := 0x0005
  session := true
  run := fun s q =>
    match q.sess with
    | some slot => .done .ok [] (s.closeSession slot 0)
    | none => .done .ok [] s

def execClose (r : Req) (s : State) : Res := .next (batonRun opClose r s)

/-- UNDEFINED_OPCODE: an opcode that no chapter defines is refused with BAD_OPCODE once the earlier checks pass (R68, R72). -/
def execUndefinedOpcode (opcode : BitVec 16) (r : Req) (s : State) : Res :=
  .next (batonCore { code := opcode.toNat, run := fun s _ => .done .failed [] s } false (fun _ _ => none) r s)

end Sys2Proof.Machine
end

