-- ==== Sys2Proof/Machine/Start.lean ====
section
/-! DEFINITION. Machine/Start.lean: reset, boot, start-up, the watchdog, the residue record and the SYS opcodes (chapter 6; R447,
R502, R552). -/

namespace Sys2Proof.Machine

/-! ### What a reset keeps (Table 6.3) -/

/-- Registers whose content is not in PD_AON, PD_RTC or PD_VAULT logic but in fuses, the MRAM-class store or the backup domain: the words
of RTC, KEYS and EVR past the common group, SYS_START_CNT and LEDGER_HOLD_LAST. -/
def outlivesAon (off : Nat) : Bool :=
  match blkOfOff off with
  | some 1 => off == Reg.SYS_START_CNT
  | some 2 => off == Reg.LEDGER_HOLD_LAST
  | some 12 => Nat.ble 0x20 (off % 0x1000)
  | some 13 => Nat.ble 0x20 (off % 0x1000)
  | some 15 => Nat.ble 0x20 (off % 0x1000)
  | _ => false

/-- The register at an offset keeps its word over a reset of a kind: PD_AON state is lost with KIND 1 and kept otherwise. -/
def resetKeeps (kind off : Nat) : Bool :=
  match blkOfOff off with
  | some b => if blkDomain b = 0 || blkDomain b = 9 then (kind != 1 || outlivesAon off) else false
  | none => false

/-- An element after a reset: one that Baton writes and no source fills keeps its value and time (R552), every other has had no value since
the start. -/
def Elem.afterReset (x : Elem) (filled : Bool) : Elem :=
  if x.kept && !filled then (if x.ts = 0 && x.src = qCold then x else { x with src := qGood })
  else { x with value := 0, ts := 0, src := qCold, inh := none, kept := false }

/-- An object after a reset at `t`: Changed moves where an element takes a new value or quality (R551). -/
def State.objAfterReset (s : State) (t : W64) (x : Obj) : Obj :=
  let es := ((List.range x.elems.length).zip x.elems).map fun p => p.2.afterReset (s.moduleFills x (p.1 + 1))
  let moved := (x.elems.zip es).any fun p => p.1.value != p.2.value || p.1.src != p.2.src
  { x with elems := es, changed := if moved then t else x.changed }

/-- The registers after a reset: those of a domain that has lost its power take their stored image or their reset value (R554), but for the
words that the MRAM-class store keeps. -/
def State.regsAfterReset (s : State) (kind : Nat) : State :=
  let s0 := s
  let s : State := { s with regs := s.regs.filter fun p => resetKeeps kind p.1 }
  let s := s.cfgMem.foldl (fun s p => if resetKeeps kind p.1 then s else s.wr p.1 p.2.toNat) s
  let s := (s.put F.LAP_STAT_SLOT (s0.get F.LAP_STAT_SLOT)).wr Reg.MET_CALCNT (s0.rd Reg.MET_CALCNT)
  -- bits 7 to 10 are the safety channels, PD_RTC and PD_VAULT, which no reset touches
  let on := s0.get F.SYS_PD_STAT_ON / 128 * 128
  let s := s.put F.SYS_PD_STAT_ON (if kind = 1 then on else on + 1)
  -- with PD_AON the mirror's record of the safety channels goes, so OK of their clocks reads 0 until frames arrive
  let ok := s0.get F.SYS_CLK_STAT_OK / 128 * 128
  let s := s.put F.SYS_CLK_STAT_OK (if kind = 1 then ok / 512 * 512 else ok)
  let s := if kind = 1 then [12, 13, 15].foldl (fun s n => s.snapReset n) s else s
  let s := (s.put F.LEDGER_MODE_CUR modeBlocks).put F.LEDGER_MODE_CAUSE 0
  (s.wr Reg.SYS_RST_STAT 0).put F.SYS_RST_STAT_KIND kind

/-- The ledger after a reset. With KIND 2 to 6 it runs on throughout (R555); the mode is BLOCKS, so nothing of a mode goes on. -/
def LedgerSt.afterReset (l : LedgerSt) (on1 : Bool) (clk : Nat) : LedgerSt :=
  let l := if !on1 then l else { l with
    resv := []
    headroom := 0
    laneRem := 0
    unmet := [false, false, false, false]
    carriedFor := [0, 0, 0, 0]
    lldp := false
    measured := false
    moved := false
    nextTick := clk + msec
    bankLow := false
    caps := (2, 2) }
  { l with
    auto := false
    hold := ⟨0, 0, [], 0, 0, none, false⟩ }

/-- What a reset finds, for a second cause at the same instant (R147). -/
def State.resetCoin (s : State) : ResetCoin :=
  ⟨if s.sys.wdtOn && s.pdOn 1 then some (s.sys.wdtAt + s.get F.SYS_RST_CFG_WDT_TO * 100 * msec) else none, s.pdOn 1,
    if s.start.phase = .restarting && s.ledger.hold.step = 8 then s.start.restartKind else none⟩

/-- The captures that a reset leaves in progress: those of PD_AON, PD_RTC and PD_VAULT, which it does not gate, but for POWER_ON (R557). -/
def State.keptSnaps (s : State) (on1 : Bool) : List SnapJob :=
  if on1 then [] else s.sys.snaps.filter fun j => blkDomain (srcBlk j.src) = 0 || blkDomain (srcBlk j.src) = 9

/-- The blocks beside their registers after a reset. Configuration stays (R554), work and what DRAM held are gone. -/
def State.blocksAfterReset (s : State) (kind : Nat) : State :=
  let on1 := kind = 1
  let keepMirror := !on1 || s.start.flushed.isSome
  let b := s.baton
  let r := s.relay
  let f := s.furun
  let p := s.pacer
  let stations : List RStation := (r.stations.filter fun x => x.obj != 0).map fun x => ⟨x.addr, x.obj, 0, 0, 0, 0, 0, false, 0, 0, 0, s.clk⟩
  let groups : List FGroup := f.groups.map fun g => ⟨g.addr, g.members, 0, none, none, none, false⟩
  { s with
    startClk := s.clk
    mem := []
    limiters := []
    sys := { s.sys with gates := [], snaps := s.keptSnaps on1, safeSnap := if on1 then none else s.sys.safeSnap, wdtOn := false, stopped := [] }
    start := { s.start with
      phase := if on1 then .cold else .poweredOn
      fallback := none
      restartKind := none
      warm := false
      mirrorLost := s.start.mirrorLost || (!keepMirror && s.start.reached7)
      mirror := if !on1 then s.start.mirror else s.start.flushed.getD []
      -- the journal and the mirror stay until the record has been written (R148)
      reached7 := !on1 && s.start.reached7
      coin := s.resetCoin
      resetTs := tsOfNs s.rtcNs }
    baton := { b with sessions := [], items := [], cache := [], locks := [] }
    estate := { s.estate with objs := s.estate.objs.map (s.objAfterReset s.tsNow) }
    drill := { s.drill with insts := List.replicate 38 ⟨[], [0, 0, 0, 0], 0⟩ }
    ledger := s.ledger.afterReset on1 s.clk
    evr := { s.evr with queue := if on1 then [] else s.evr.queue }
    dma := List.replicate 32 ⟨0, none, 0, 0, 0, 0, false⟩
    uio := s.uio.map fun x => ⟨x.obj, 0, 0, none, none, 0, [], none, false, 0, none⟩
    relay := ⟨r.binds, stations, List.replicate 32 [], List.replicate 32 [], [], 0, 0, 0, false, [], [], [], 0, 0, 0, 0, [], [], [], [], 0, [], none, none, 0, false, [], false, false, none, none, [], false, false, []⟩
    can := s.can.map fun c => ⟨List.replicate 64 ⟨CanBuf.zero, none, none, 0, false, false⟩, CanBuf.zero, [], [], none, none, 0, 0, 0, c.sigs,
      c.stations.map fun x => ⟨x.no, x.mon, x.obj, 0, 0, 0, 0, 0⟩⟩
    engine := ⟨s.engine.loops.map fun x => { LoopSt.init with
      obj := x.obj
      binds := x.binds }, false, false, 0, [], [], false, []⟩
    lap := { s.lap with
      tasks := List.replicate 8 LapTask.zero
      fbs := []
      wstat := []
      fails := []
      vars := []
      charts := []
      prior := []
      downtime := 0
      sw := none
      copy := none }
    furun := { f with
      links := []
      groups := groups
      hands := []
      replicas := []
      suspects := []
      relayed := []
      mirrorRx := none
      sent := 0
      recv := 0
      reasmDrop := 0
      badType := 0
      hbAt := s.clk
      replAt := s.clk
      replSeq := 0
      noAnchor := none
      regained := none
      aggs := [] }
    eth := s.eth.map fun x =>
      ⟨List.replicate 16 (0, false), x.ip6, x.pre6, x.ip4, x.pre4, 0, 0, none, 0, false, none, 0, 0, none, false, false, false, 0, 0, none, 0, 0, 0, 0, 0, 0, 0, 0, [], s.clk, none⟩
    pacer := ⟨p.series, p.plan, none, [], [], [], [], [], [], p.no, none, none, 60, none, false, (0, 0, 0, 0, 0), [], [], none, [], 0, 0⟩
    met := { s.met with
      on := false
      mirror := if keepMirror then s.met.mirror else none }
    mirror := { s.mirror with
      frames := if on1 then [none, none] else s.mirror.frames
      at_ := if on1 then [s.clk, s.clk] else s.mirror.at_
      -- counted since the module's start
      demands := List.replicate 8 0
      known := if on1 then [] else s.mirror.known
      config := !on1 && s.mirror.config
      block := if on1 then 0 else s.mirror.block
      pubAt := s.clk
      pubSeen := [] }
    rtc := { s.rtc with good := 0, gm := 0, best := none, utcValid := false, schedMin := none }
    keys := { s.keys with handles := [], linkSlots := [], sealed := false, noRoot := [], unchecked := false }
    upd := { s.upd with fetch := none, trialAt := none, heldAt := none, confirmRx := false } }

/-- A reset of a kind of Table 6.3: domains are gated without waiting, and with KIND 1 PD_AON too. -/
def State.resetCore (s : State) (kind : Nat) : State :=
  let t := (s.regsAfterReset kind).blocksAfterReset kind
  State.uioOutAll s t

/-- A reset other than POWER_ON: steps 4 to 12 follow (R555). -/
def State.resetTo (s : State) (kind : Nat) : State :=
  match s.start.phase with
  | .booted | .recovery | .firmware | .running | .holdup | .restarting => s.resetCore kind
  | _ => s

/-- A second cause at the instant of a reset: the lowest KIND is recorded; later it has no further effect (R147). -/
def State.coincide (s : State) (kind : Nat) : State :=
  if s.start.phase = .poweredOn && s.clk = s.startClk then s.put F.SYS_RST_STAT_KIND (min (s.get F.SYS_RST_STAT_KIND) kind) else s

/-! ### Supply (R133, R137, R140, R141) -/

/-- SUPPLY_LOSS: no source is present (R133). Before step 7 of a start the start ends without HOLDUP, and the next start is a power-on reset
(R141); a loss within HOLDUP only ends the stable supply (R137). -/
def State.supplyLoss (s : State) (bank : Nat) : State :=
  let s1 := (s.setSources 0 0 0).wr Reg.LEDGER_BANK bank
  match s.start.phase with
  | .cold => s
  | .poweredOn | .booted | .recovery => s1.resetCore 1
  | .holdup => s1.setHold fun h => { h with stable := none }
  | _ => (s1.wr Reg.LEDGER_ALLOC 0).enterHoldup

def execSupplyLoss (bank : W32) (s : State) : Res := .next (s.supplyLoss bank.toNat)

/-- A source is present. -/
def State.supplied (s : State) : Bool := s.get F.LEDGER_SRC_VIN == 1 || s.get F.LEDGER_SRC_POE == 1

/-- BANK_EXHAUSTED: with no source present the bank reaches converter drop-out (R137). A bank of 66 mJ or more at HOLDUP entry outlasts step 9,
and SUPPLY_LOSS and HOLDUP_CLOSE are on record (R138, log 305). -/
def State.bankExhausted (s : State) : State :=
  if s.start.phase = .cold || s.supplied then s
  else if s.start.phase = .holdup && s.ledger.hold.enough then
    if s.ledger.hold.step < 9 then s else s.storeAll.resetCore 1
  else s.resetCore 1

def execBankExhausted (s : State) : Res := .next s.bankExhausted

/-- HOLDUP_RETURN: step 9 reached and the supply stable for 50 ms. -/
def State.holdupReturn (s : State) : State :=
  match s.ledger.hold.stable with
  | some t => if s.mode = modeHoldup && s.ledger.hold.step = 9 then (s.reach (t + 50 * msec)).resetTo 2 else s
  | none => s

def execHoldupReturn (s : State) : Res := .next s.holdupReturn

/-- POWER_UP: steps 1 to 3 of Table 6.1. PD_RTC returns to the rail; the voltage of VBAK that RTC_SUPPLY shows is not stated. -/
def State.powerUp (s : State) (vin poe cls : Nat) : State :=
  if s.start.phase ≠ .cold || !(s.vinUp vin || s.poeUp poe cls) then s else
  let s := (s.setPd 0 true).setSources vin poe cls
  let s : State := { s with
    startClk := s.clk
    start := { s.start with phase := .poweredOn }
    ledger := { s.ledger with nextTick := s.clk + msec }
    mirror := { s.mirror with at_ := [s.clk, s.clk] } }
  if s.get F.RTC_STAT_ON_VBAK = 0 then s else
  let (v, s) := s.free
  (((s.put F.RTC_STAT_ON_VBAK 0).put F.RTC_STAT_VBAK_LOW 0).cond 12 5).raise 0x0C07 4 0 (natBE 1 1 ++ natBE 2 (v.toNat % 65536))

def execPowerUp (vin poe : BitVec 16) (cls : BitVec 4) (s : State) : Res := .next (s.powerUp vin.toNat poe.toNat cls.toNat)

/-! ### Boot (R142, R143, R498, R504) -/

/-- The code of a failure for BOOT_FALLBACK. -/
def failCode : PartFail → Nat
  | .digest => 1
  | .signature => 2
  | .rollback => 3

/-- The first part of a set that fails, 1 to 8, and why: what the boot found, a version below the anti-rollback counter, or a part that is not
whole (R498). -/
def State.setFails (s : State) (b : Nat) (found : Option (Fin 8 × PartFail)) : Option (Nat × Nat) :=
  match found with
  | some (p, w) => some (p.val + 1, failCode w)
  | none =>
    let x := s.fwSet b
    if manSvn x.man < s.get F.KEYS_ROLLBACK_COUNT then some (1, 3) else
    match (List.range 8).find? fun k => !(x.part k).ok with
    | some k => some (k + 1, 1)
    | none => none

/-- Table 6.2: the set booted, or none, and the fallback as set, part and reason. -/
def State.bootSet (s : State) (v : BootCheck) : Option Nat × Option (Nat × Nat × Nat) :=
  let fails (b : Nat) := s.setFails b (if b = 0 then v.failA else v.failB)
  let named := (s.commit?.map (·.set)).getD 0
  match fails named with
  | none => (some named, if s.commit?.isSome then none else some (0, 0, 0))
  | some (p, w) => if (fails (1 - named)).isNone then (some (1 - named), some (named, p, w)) else (none, some (named, p, w))

/-- UPD_STAT after a boot on a set: TRIAL on the record's set while it is on trial, else what a staging has left (Table 19.3). -/
def State.updBoot (s : State) (b : Nat) : State :=
  let s := s.put F.UPD_STAT_SET b
  let trial := s.commit?.any fun c => c.trial && c.set == b
  let whole := s.upd.copies.isEmpty && (List.range 8).all fun k => ((s.fwSet s.stageSet).part k).ok
  s.updTo (if trial then usTrial else if s.upd.staging then (if whole then usStaged else usStaging) else usIdle)

/-- BOOT: steps 4 to 6 of Table 6.1. -/
def State.boot (s : State) (v : BootCheck) : State :=
  if s.start.phase ≠ .poweredOn then s else
  let s := s.bump F.SYS_START_CNT_COUNT 1
  let (b, fb) := s.bootSet v
  let s : State := { s with start := { s.start with fallback := fb } }
  match b with
  | some b =>
    let s := (s.setPd 1 true).updBoot b
    let trial := b2n (s.updState == usTrial)
    let s := (s.put F.SYS_RST_STAT_SET b).put F.SYS_RST_STAT_TRIAL trial
    { s with start := { s.start with phase := .booted } }
  | none =>
    -- neither boot stage passes: the unit does not start
    if (s.setFails 0 v.failA).any (fun x => x.1 = 1) && (s.setFails 1 v.failB).any (fun x => x.1 = 1) then s else
    let s : State := { s with start := { s.start with phase := .recovery } }
    let s := ((s.setPd 1 true).setPd 4 true).filterStart 1
    (s.updTo usRecovery).raise 0x0E08 1 0 (natBE 4 (s.get F.SYS_START_CNT_COUNT))

def execBoot (v : BootCheck) (s : State) : Res := .next (s.boot v)

/-! ### Step 7 (R144, R148, R447, R502, R506) -/

/-- The registers that the configuration memory gives at every start although PD_AON has kept them. -/
def aonLoads : List Nat :=
  [Reg.SYS_RST_CFG, Reg.LEDGER_MODE_CFG, Reg.LEDGER_BUDGET, Reg.LEDGER_EXT, Reg.LEDGER_HOLD_MIN, Reg.LEDGER_APP_LIM, Reg.LEDGER_LANE_LIM,
   Reg.LEDGER_PORT_LIM, Reg.EVR_CFG, Reg.EVR_TRIG, Reg.RTC_PTP, Reg.RTC_STEP]

/-- The commit record at step 7: trial starts are counted, a fallback from a trial set that failed is written, and a burn that was cut short is
completed. The second result tells that the trial set has used up its starts. -/
def State.recordStart (s : State) : State × Bool :=
  match s.commit? with
  | none => (s, false)
  | some c =>
    if c.trial && c.set = s.get F.UPD_STAT_SET then
      if c.attempts + 1 > s.get F.UPD_CFG_TRIAL_MAX then (s.fallback c 1, true)
      else ((s.writeRec c.set true (c.attempts + 1) c.prior).updSync, false)
    else if c.trial then ((s.fallback c 3).updSync, false)
    else (s.rollbackTo c.svn, false)

/-- The system time is loaded from the RTC; where that holds no time, both start 1 s after the latest stored record (R447, R449). -/
def State.timeStart (s : State) : State :=
  let s := if s.rtc.lost then
      ((s.put F.RTC_STAT_LOST 1).put F.RTC_STAT_VALID 0).setRtc fun r => { r with lost := false }
    else s
  let s := s.put F.RTC_STAT_SYNC 0
  if s.get F.RTC_STAT_VALID = 1 then { s with sysOfs := s.rtcNs - s.clk } else
  let ts : W64 := ((s.evr.recs.getLast?).map (·.ev.ts)).getD 0
  let t := nsOfTs ts + sec
  let s : State := { s with sysOfs := t - s.clk }
  let s := s.setRtc fun r => { r with
    tai := (t / sec).toNat % 2 ^ 40
    secAt := s.clk }
  s.raise 0x0C03 2 0 (natBE 8 s.tsNow.toNat)

/-- The first reason of R144 that refuses a warm start, 0 for none; cold by command is not refused. -/
def State.warmRefuse (s : State) : Nat :=
  if s.get F.SYS_RST_STAT_KIND = 4 then 0
  else if s.get F.SYS_RST_CFG_WARM_EN = 0 then 1
  else match s.start.retain with
    | none => 2
    | some img =>
      if !img.complete then 2
      else if img.startCnt + 1 ≠ s.get F.SYS_START_CNT_COUNT then 3
      else if img.prog ≠ s.progId then 4
      else if s.start.fallback.isSome then 5 else 0

/-- The restart type and WARM_REFUSED. -/
def State.warmDecide (s : State) : State :=
  let why := s.warmRefuse
  let warm := why = 0 && s.get F.SYS_RST_STAT_KIND ≠ 4
  let s := (s.put F.SYS_RST_STAT_RESTART (b2n warm)).put F.SYS_RST_STAT_WARM_REFUSE why
  let down := match s.start.retain with
    | some img => if warm then s.rtc.tai - img.time else 0
    | none => 0
  let s : State := { s with
    start := { s.start with warm := warm }
    lap := { s.lap with downtime := down } }
  if why = 0 then s else s.raise 0x0103 4 0 (natBE 1 why)

/-- BOOT_FALLBACK for what the boot decided. -/
def State.fallbackEvent (s : State) : State :=
  match s.start.fallback with
  | some (b, p, w) => s.raise 0x0104 2 0 (natBE 1 b ++ natBE 1 p ++ [Config.bootReason w])
  | none => s

/-- The entries of the residue record: class 1 from the journal, classes 2 to 5 from the mirror, each in admission order (R148, Table 6.5). -/
def State.resEntries (s : State) : List ResEntry :=
  let st (x : Option Nat) : Nat := x.getD Status.abortedReset.code
  let items : List ResEntry := s.start.journal.map fun j => ⟨1, j.tag, st j.final, j.owner.toNat / 2 ^ 224, j.item, j.opcode⟩
  let links : List ResEntry := [2, 3, 4, 5].flatMap fun c =>
    (s.start.mirror.filter fun m => m.cls == c).map fun m => ⟨c, m.tag, st m.final, m.owner % 2 ^ 32, m.item % 2 ^ 32, 0⟩
  (items ++ links).take 8192

/-- The record is built, its sources are cleared, and the completion cache is filled from the journal's entries (R89, R148, R150). -/
def State.residueBuild (s : State) : State :=
  let inc := if s.start.mirrorLost then 0x1E else 0
  let r : Residue := ⟨s.get F.SYS_RST_STAT_KIND, b2n s.start.warm, inc, s.get F.SYS_START_CNT_COUNT, s.start.resetTs, s.resEntries⟩
  let js := s.start.journal.take 8192
  let s := s.put F.SYS_RST_STAT_INCOMPLETE (b2n s.start.mirrorLost)
  let s : State := { s with start := { s.start with
    residuePrev := s.start.residue, residue := some r, journal := [], mirror := [], mirrorLost := false, flushed := none, reached7 := true } }
  js.foldl (fun s j => s.cacheAdd j.owner j.item (j.final.getD Status.abortedReset.code) j.opcode j.tag) s

/-- Drills 0 to 63 come from the booted set; a binding that it does not carry on is removed (R492). -/
def State.drillStart (s : State) : State :=
  let p := s.activeSet.part 7
  let lib := (if p.chunks.isEmpty then [] else (Config.drillLib (partBytes p)).filter fun d => Nat.blt d.1 64) ++
    s.drill.lib.filter fun d => Nat.ble 64 d.1
  let s : State := { s with drill := { s.drill with lib := lib } }
  (List.range 38).foldl (fun s h =>
    let n := s.get (F.DRILL_BIND_NUM h)
    let ok := lib.any fun d => d.1 == n && drillKind d.2 == hostKind h
    if s.get (F.DRILL_BIND_EN h) = 1 && n < 64 && !ok then
      let old := s.bindNum h
      ((s.wr (Reg.DRILL_BIND h) 0).store (Reg.DRILL_BIND h)).raise 0x1102 6 0 (natBE 1 h ++ natBE 1 old ++ natBE 1 0)
    else s) s

/-- A vault that has lost both sources reads empty (R487). -/
def State.vaultStart (s : State) : State :=
  let was := s.keys.wasSet
  let lost := s.rtc.lost && was ≠ 0
  let s := if lost then s.zeroise else s.keysSync
  let s := s.put F.KEYS_STAT_VAULT_LOST (b2n lost)
  if lost then (s.cond 13 1).raise 0x0D02 2 0 (natBE 1 was) else s

/-- A trust store that fails its seal is treated as empty (R477). -/
def State.trustStart (s : State) (ok : Bool) : State :=
  let s := s.put F.KEYS_STAT_TRUST_LOST (b2n !ok)
  if ok then s else
  (s.setKeys fun k => { k with trust := List.replicate 5 none }).raise 0x0D0A 2 0 (natBE 4 (s.get F.SYS_START_CNT_COUNT))

/-- SPT, MAN and FF of a LOOP object that Baton has written outlive a reset (R552). -/
def State.loopRestore (s : State) (n : Nat) : State :=
  let l := s.loopSt n
  let back (s : State) (e : Nat) (f : Fld) (free : Bool) : State :=
    match s.elem? l.obj e with
    | some x => if free && x.kept && x.src = qGood then s.put f (x.value.toNat % 2 ^ 16) else s
    | none => s
  back (back (back s 4 (F.LOOP_SPT_SPT n) (l.bind? 1).isNone) 5 (F.LOOP_MAN_MAN n) true) 7 (F.LOOP_FF_FF n) (l.bind? 2).isNone

/-- Steps 8 and 9: domains, outputs at their start values, loops at MODE_INIT, metrology, and the links. -/
def State.facesStart (s : State) : State :=
  let s0 := s
  let s := [3, 5, 6, 4].foldl (fun s d => s.setPd d true) s
  let s := (List.range 256).foldl (fun s n =>
    let s := (s.put (F.LOOP_CTL_SWAP n) 0).put (F.LOOP_CTL_ACTB n) 0
    let s := s.put (F.LOOP_CTL_MODE n) (if (s.loopSt n).obj = 0 then 0 else s.get (F.LOOP_CTL_MODE_INIT n))
    if (s.loopSt n).obj = 0 then s else (s.loopRestore n).loopImage n) s
  let s := s.cascSync
  let s := (State.uioOutAll s0 s.uioAllStart).metStart
  let s := (List.range 16).foldl (fun s n => s.uioImage n) s
  let s := (List.range 32).foldl (fun s n => s.wr (Reg.RELAY_MAP n) (s.cfg (Reg.RELAY_MAPS n))) s
  let s := if s.relayRole = 0 then s else s.relayTo rsLinking
  (List.range 4).foldl (fun s p =>
    let s := (List.range 16).foldl (fun s e =>
      let hi := s.rd (Reg.ETH_FLTHI p e)
      s.setFilter p e (bitsOf hi 15 0 * 2 ^ 32 + s.rd (Reg.ETH_FLTLO p e)) (bit1 hi 31 == 1)) s
    s.filterStart p) s

/-- Configuration whose opcode has ended OK but which had not taken effect is in force after the start (R445, R554). -/
def State.pendStart (s : State) : State :=
  s.furun.pend.foldl (fun s x => (s.ethApply x).furunApply x) { s with furun := { s.furun with pend := [] } }

/-- FIRMWARE_START: steps 7 to 10 of Table 6.1. `trustOk` tells whether the trust store passes its seal. -/
def State.firmwareStart (s : State) (trustOk : Bool) : State :=
  if s.start.phase ≠ .booted then s else
  let s := aonLoads.foldl (fun s off => s.load off) s
  let (s, spent) := s.recordStart
  if spent then s.resetCore 4 else
  let s : State := { s with sys := { s.sys with wdtOn := true, wdtAt := s.clk } }
  let s := (s.vaultStart.trustStart trustOk).timeStart
  let s := (s.fallbackEvent.warmDecide).residueBuild
  let s := s.put F.LEDGER_MODE_BASE (s.get F.LEDGER_MODE_CFG_RUN_MODE)
  let s := s.drillStart.facesStart.pendStart
  let s := (s.rtcLive.schedules).c0locks
  let s : State := { s with start := { s.start with phase := .firmware } }
  s.roleSync

def execFirmwareStart (trustOk : Bool) (s : State) : Res := .next (s.firmwareStart trustOk)

/-! ### Steps 11 and 12 (R150, R165, Table 7.2) -/

/-- Step 11: the restart type decided at step 7 is applied to the lap program's data and to forces. -/
def State.restartApply (s : State) : State :=
  let d := s.lap.decl
  let warm := s.start.warm
  let s := (s.put F.LAP_STAT_RESTART (b2n warm)).put F.LAP_STAT_FORCES s.estate.forces.length
  let s := s.setLap fun l => { l with tasks := l.tasks.map fun t => { t with firstNext := if warm then 2 else 1 } }
  match warm, s.start.retain with
  | true, some r =>
    let back (x : FbInst) : FbInst := { x with resume := x.since.isSome }
    let s := s.setLap fun l => { l with
      vars := startVars d r.vars
      charts := startCharts d r.charts
      fbs := r.fbs.map back }
    s.estate.forces.foldl (fun s f => s.forceOut f.obj f.elem) s
  | _, _ =>
    s.forceClearAll.setLap fun l => { l with
      vars := startVars d []
      charts := startCharts d [] }

/-- Alarms and tamper events that found the module off are reported (R460, R485). -/
def State.lateReports (s : State) : State :=
  let s := s.rtc.unreported.foldl (fun s x => s.raise 0x0C04 5 0 (natBE 1 x.1 ++ natBE 5 x.2.1 ++ natBE 1 (b2n x.2.2))) s
  let s := s.setRtc fun r => { r with unreported := [] }
  s.keys.tampOff.foldl (fun s x => (s.cond 13 0).raise 0x0D01 1 0 (natBE 1 x.1 ++ natBE 8 x.2.1.toNat ++ natBE 2 x.2.2))
    (s.setKeys fun k => { k with tampOff := [] })

/-- START_DONE: steps 11 and 12. -/
def State.startDone (s : State) : State :=
  if s.start.phase ≠ .firmware then s else
  let s := s.restartApply
  let s : State := { s with start := { s.start with phase := .running } }
  let cnt := s.get F.SYS_START_CNT_COUNT
  let s := s.raise 0x0101 5 0 (natBE 1 (s.get F.SYS_RST_STAT_KIND) ++ natBE 1 (s.get F.SYS_RST_STAT_RESTART) ++
    natBE 1 (s.get F.SYS_RST_STAT_SET) ++ natBE 4 cnt)
  let s := match s.start.residue with
    | some r => s.raise 0x0102 5 0 (natBE 4 cnt ++ natBE 2 r.entries.length ++ natBE 1 r.incomplete)
    | none => s
  let s := (s.put F.SYS_RST_STAT_PUBLISHED 1).lateReports
  let s := s.setLedger fun l => { l with auto := s.get F.LEDGER_MODE_CFG_AUTO_RUN == 1 }
  (s.setUpd fun u => { u with trialAt := if s.updState = usTrial then some s.clk else none }).healthSync

def execStartDone (s : State) : Res := .next s.startDone

/-! ### Commanded restart, watchdog, fatal faults (R145, R146, R559) -/

def opRestart : OpDef where
  code := 0x0181
  schema := [{ typ := 0x0181, lo := 1, hi := 1 }]
  form := rangeChk 0x0181 fun v => v ≤ 1
  perm := onlyOperator
  pre := busyIf fun s _ => s.start.phase != .running
  run := fun s q => .done .ok [] (s.beginRestart (if tn q.tlvs 0x0181 = 1 then 3 else 4))

def execRestart (r : Req) (s : State) : Res := .next (batonRun opRestart r s)

/-- COMMANDED_RESET: the sequence has passed step 8. -/
def State.commandedReset (s : State) : State :=
  match s.start.phase, s.start.restartKind, s.start.coin.cmd with
  | .restarting, some k, _ => if s.ledger.hold.step = 8 then s.resetTo k else s
  | .poweredOn, _, some k => s.coincide k
  | _, _, _ => s

def execCommandedReset (s : State) : Res := .next s.commandedReset

/-- WATCHDOG: no kick for WDT_TO while the watchdog counts. -/
def State.watchdog (s : State) (pc : Nat) : State :=
  if !s.sys.wdtOn || !s.pdOn 1 then
    match s.start.coin.wdt with
    | some t => if s.start.phase = .poweredOn && s.clk = s.startClk && t ≤ s.clk then (s.raise 0x0105 2 0 (natBE 8 pc)).coincide 5 else s
    | none => s
  else
    let s := s.reach (s.sys.wdtAt + s.get F.SYS_RST_CFG_WDT_TO * 100 * msec)
    (s.raise 0x0105 2 0 (natBE 8 pc)).resetTo 5

def execWatchdog (pc : W64) (s : State) : Res := .next (s.watchdog pc.toNat)

/-- FATAL: an uncorrectable DRAM error, or a firmware fault that AC0 cannot contain; none occurs while PD_APP is off. -/
def execFatal (s : State) : Res := .next (if s.pdOn 1 then s.resetTo 6 else if s.start.coin.app then s.coincide 6 else s)

/-! ### RESIDUE_READ, START_INFO (R149, R150) -/

/-- An entry of Table 6.5. -/
def ResEntry.bytes (e : ResEntry) : Bytes :=
  natBE 1 e.cls ++ natBE 1 e.tag ++ natBE 2 e.state ++ natBE 4 e.owner ++ natBE 4 e.item ++ natBE 2 e.opcode ++ natBE 2 0

/-- The header of Table 6.4 over the entries that the reader receives. -/
def Residue.header (r : Residue) (es : List ResEntry) : Bytes :=
  let h := natBE 1 1 ++ natBE 1 r.kind ++ natBE 1 r.warm ++ natBE 1 r.incomplete ++ natBE 4 r.startCnt ++ natBE 8 r.time.toNat ++
    natBE 2 es.length ++ List.replicate 10 0
  h ++ natBE 4 (crc32 (h ++ (es.map ResEntry.bytes).flatten))

/-- The record of a generation, once published. -/
def State.residueGen (s : State) (g : Nat) : Option Residue :=
  if s.get F.SYS_RST_STAT_PUBLISHED = 0 then (if g = 0 then s.start.residuePrev else none)
  else if g = 0 then s.start.residue else s.start.residuePrev

/-- The pages of a list, n entries each; one empty page of an empty list. -/
def pageLists {α : Type} (n : Nat) (xs : List α) : List (List α) :=
  (List.range (max 1 ((xs.length + n - 1) / n))).map fun i => (xs.drop (n * i)).take n

def opResidueRead : OpDef where
  code := 0x0182
  schema := [{ typ := 0x0182, lo := 1, hi := 1, minN := 0 }, { typ := 0x0005, lo := 4, hi := 4, minN := 0, since := 0x30 }]
  form := rangeChk 0x0182 fun v => v ≤ 1
  exist := fun s q =>
    if (tv? q.tlvs 0x0005).isSome || (s.residueGen (tn q.tlvs 0x0182)).isSome then none else some { status := .noObject }
  pre := cursorChk 0x0182
  run := fun s q =>
    if (tv? q.tlvs 0x0005).isSome then nextPage s q 0x0182 else
    match s.residueGen (tn q.tlvs 0x0182) with
    | none => .refuse { status := .noObject }
    | some r =>
      let es := if q.tag = 0 || q.tag = 255 then r.entries else r.entries.filter fun e => e.tag == q.tag
      let head := tlv 0x0183 (r.header es)
      -- every page is the header and up to 67 entries
      pageRun s q 0x0182 1 [] ((pageLists 67 es).map fun p => head ++ (p.map fun e => tlv 0x0184 e.bytes).flatten)

def execResidueRead (r : Req) (s : State) : Res := .next (batonRun opResidueRead r s)

def opStartInfo : OpDef where
  code := 0x0183
  perm := operatorOrService
  run := fun s _ => .done .ok (tlv 0x0185 (natBE 4 (s.rd Reg.SYS_RST_STAT) ++ natBE 4 (s.rd Reg.SYS_START_CNT))) s

def execStartInfo (r : Req) (s : State) : Res := .next (batonRun opStartInfo r s)

end Sys2Proof.Machine
end

