-- ==== Sys2Proof/Machine/Dispatch.lean ====
section
/-! DEFINITION. Machine/Dispatch.lean: each command's meaning, one arm a command. -/

namespace Sys2Proof.Machine

def exec (i : Instr) (s : State) : Host.Outcome State Fault Refusal :=
  match i with
  | .registerWrite off val => Sys2Proof.Machine.execRegisterWrite off val s
  | .offDomainAccess off write val => Sys2Proof.Machine.execOffDomainAccess off write val s
  | .unalignedAccess off width write val => Sys2Proof.Machine.execUnalignedAccess off width write val s
  | .snapshotRequest src grp => Sys2Proof.Machine.execSnapshotRequest src grp s
  | .snapshotCapture src => Sys2Proof.Machine.execSnapshotCapture src s
  | .intClr src mask => Sys2Proof.Machine.execIntClr src mask s
  | .sysSafeIntClr mask => Sys2Proof.Machine.execSysSafeIntClr mask s
  | .sysIntRouteWrite n val => Sys2Proof.Machine.execSysIntRouteWrite n val s
  | .sysSafeSnapCtl grp => Sys2Proof.Machine.execSysSafeSnapCtl grp s
  | .sysWdtKick val => Sys2Proof.Machine.execSysWdtKick val s
  | .domainGate d => Sys2Proof.Machine.execDomainGate d s
  | .clockLost k => Sys2Proof.Machine.execClockLost k s
  | .handshake sess port c suite link => Sys2Proof.Machine.execHandshake sess port c suite link s
  | .runtRecord sess authOk => Sys2Proof.Machine.execRuntRecord sess authOk s
  | .sessionIdleTimeout sess => Sys2Proof.Machine.execSessionIdleTimeout sess s
  | .dtlsError sess => Sys2Proof.Machine.execDtlsError sess s
  | .hello r => Sys2Proof.Machine.execHello r s
  | .ping r => Sys2Proof.Machine.execPing r s
  | .itemStatus r => Sys2Proof.Machine.execItemStatus r s
  | .cancel r => Sys2Proof.Machine.execCancel r s
  | .close r => Sys2Proof.Machine.execClose r s
  | .cacheEntryExpiry => Sys2Proof.Machine.execCacheEntryExpiry s
  | .objRead r => Sys2Proof.Machine.execObjRead r s
  | .objReadNext r => Sys2Proof.Machine.execObjReadNext r s
  | .objWrite r => Sys2Proof.Machine.execObjWrite r s
  | .objCreate r => Sys2Proof.Machine.execObjCreate r s
  | .objDelete r => Sys2Proof.Machine.execObjDelete r s
  | .objSetTag r => Sys2Proof.Machine.execObjSetTag r s
  | .objLock r => Sys2Proof.Machine.execObjLock r s
  | .objUnlock r => Sys2Proof.Machine.execObjUnlock r s
  | .unitClearSuspect r => Sys2Proof.Machine.execUnitClearSuspect r s
  | .lockExpiry obj => Sys2Proof.Machine.execLockExpiry obj s
  | .cursorRelease sess cursor => Sys2Proof.Machine.execCursorRelease sess cursor s
  | .baton p => Sys2Proof.Machine.execBaton p s
  | .elementStale obj elem => Sys2Proof.Machine.execElementStale obj elem s
  | .drillLoad r => Sys2Proof.Machine.execDrillLoad r s
  | .drillRead r => Sys2Proof.Machine.execDrillRead r s
  | .drillDelete r => Sys2Proof.Machine.execDrillDelete r s
  | .drillBind r => Sys2Proof.Machine.execDrillBind r s
  | .drillStat r => Sys2Proof.Machine.execDrillStat r s
  | .drillRun h => Sys2Proof.Machine.execDrillRun h s
  | .modeSet r => Sys2Proof.Machine.execModeSet r s
  | .modeGet r => Sys2Proof.Machine.execModeGet r s
  | .limitSet r => Sys2Proof.Machine.execLimitSet r s
  | .ledgerCfg r => Sys2Proof.Machine.execLedgerCfg r s
  | .ledgerRead r => Sys2Proof.Machine.execLedgerRead r s
  | .ledgerTick m => Sys2Proof.Machine.execLedgerTick m s
  | .sourceChange vin poe cls => Sys2Proof.Machine.execSourceChange vin poe cls s
  | .supplyLoss bank => Sys2Proof.Machine.execSupplyLoss bank s
  | .holdupItemBound ref => Sys2Proof.Machine.execHoldupItemBound ref s
  | .holdupField => Sys2Proof.Machine.execHoldupField s
  | .holdupRetain => Sys2Proof.Machine.execHoldupRetain s
  | .holdupItemTable => Sys2Proof.Machine.execHoldupItemTable s
  | .holdupClose bank => Sys2Proof.Machine.execHoldupClose bank s
  | .supplyReturn vin poe => Sys2Proof.Machine.execSupplyReturn vin poe s
  | .holdupReturn => Sys2Proof.Machine.execHoldupReturn s
  | .bankExhausted => Sys2Proof.Machine.execBankExhausted s
  | .powerUp vin poe cls => Sys2Proof.Machine.execPowerUp vin poe cls s
  | .boot v => Sys2Proof.Machine.execBoot v s
  | .firmwareStart trustOk => Sys2Proof.Machine.execFirmwareStart trustOk s
  | .startDone => Sys2Proof.Machine.execStartDone s
  | .restart r => Sys2Proof.Machine.execRestart r s
  | .commandedReset => Sys2Proof.Machine.execCommandedReset s
  | .watchdog pc => Sys2Proof.Machine.execWatchdog pc s
  | .fatal => Sys2Proof.Machine.execFatal s
  | .residueRead r => Sys2Proof.Machine.execResidueRead r s
  | .startInfo r => Sys2Proof.Machine.execStartInfo r s
  | .taskCfg r => Sys2Proof.Machine.execTaskCfg r s
  | .taskStart r => Sys2Proof.Machine.execTaskStart r s
  | .taskStop r => Sys2Proof.Machine.execTaskStop r s
  | .progLoad r => Sys2Proof.Machine.execProgLoad r s
  | .progPrepare r => Sys2Proof.Machine.execProgPrepare r s
  | .progSwitch r => Sys2Proof.Machine.execProgSwitch r s
  | .progRevert r => Sys2Proof.Machine.execProgRevert r s
  | .switchPoint => Sys2Proof.Machine.execSwitchPoint s
  | .switchCopyDone => Sys2Proof.Machine.execSwitchCopyDone s
  | .switchTimeout => Sys2Proof.Machine.execSwitchTimeout s
  | .forceSet r => Sys2Proof.Machine.execForceSet r s
  | .forceClear r => Sys2Proof.Machine.execForceClear r s
  | .forceList r => Sys2Proof.Machine.execForceList r s
  | .lapStatus r => Sys2Proof.Machine.execLapStatus r s
  | .lapRelease n => Sys2Proof.Machine.execLapRelease n s
  | .lapExecution n calls => Sys2Proof.Machine.execLapExecution n calls s
  | .programReturn n outs data => Sys2Proof.Machine.execProgramReturn n outs data s
  | .lapCommit n => Sys2Proof.Machine.execLapCommit n s
  | .wstat n obj elem => Sys2Proof.Machine.execWstat n obj elem s
  | .loopAssign r => Sys2Proof.Machine.execLoopAssign r s
  | .loopCfg r => Sys2Proof.Machine.execLoopCfg r s
  | .loopBind r => Sys2Proof.Machine.execLoopBind r s
  | .loopBankWrite r => Sys2Proof.Machine.execLoopBankWrite r s
  | .loopBankRead r => Sys2Proof.Machine.execLoopBankRead r s
  | .loopSwap r => Sys2Proof.Machine.execLoopSwap r s
  | .loopRead r => Sys2Proof.Machine.execLoopRead r s
  | .loopBindRead r => Sys2Proof.Machine.execLoopBindRead r s
  | .loopCtlSwap n => Sys2Proof.Machine.execLoopCtlSwap n s
  | .loopSwgo => Sys2Proof.Machine.execLoopSwgo s
  | .loopSampleDue n => Sys2Proof.Machine.execLoopSampleDue n s
  | .loopEvaluation => Sys2Proof.Machine.execLoopEvaluation s
  | .relaySampleTrigger => Sys2Proof.Machine.execRelaySampleTrigger s
  | .loopTrigLost => Sys2Proof.Machine.execLoopTrigLost s
  | .profilePlan => Sys2Proof.Machine.execProfilePlan s
  | .planStart => Sys2Proof.Machine.execPlanStart s
  | .pacerRound p => Sys2Proof.Machine.execPacerRound p s
  | .localSolveDone => Sys2Proof.Machine.execLocalSolveDone s
  | .pacerReply p => Sys2Proof.Machine.execPacerReply p s
  | .replyTimeout grp => Sys2Proof.Machine.execReplyTimeout grp s
  | .roundDeadline grp => Sys2Proof.Machine.execRoundDeadline grp s
  | .pacerFinal p => Sys2Proof.Machine.execPacerFinal p s
  | .pacerProbe p => Sys2Proof.Machine.execPacerProbe p s
  | .probeDeadline grp => Sys2Proof.Machine.execProbeDeadline grp s
  | .pacerEnvelope p => Sys2Proof.Machine.execPacerEnvelope p s
  | .fallback => Sys2Proof.Machine.execFallback s
  | .dispatchStale => Sys2Proof.Machine.execDispatchStale s
  | .pacerFedSet r => Sys2Proof.Machine.execPacerFedSet r s
  | .seriesWrite r => Sys2Proof.Machine.execSeriesWrite r s
  | .seriesRead r => Sys2Proof.Machine.execSeriesRead r s
  | .planValues r => Sys2Proof.Machine.execPlanValues r s
  | .envelopeRead r => Sys2Proof.Machine.execEnvelopeRead r s
  | .lineCycleEnd x => Sys2Proof.Machine.execLineCycleEnd x s
  | .metColdEnd n => Sys2Proof.Machine.execMetColdEnd n s
  | .demandWindowEnd => Sys2Proof.Machine.execDemandWindowEnd s
  | .flowPulse t => Sys2Proof.Machine.execFlowPulse t s
  | .thermalUpdate => Sys2Proof.Machine.execThermalUpdate s
  | .pulseEmit p => Sys2Proof.Machine.execPulseEmit p s
  | .metrologySave ok => Sys2Proof.Machine.execMetrologySave ok s
  | .stopMirror => Sys2Proof.Machine.execStopMirror s
  | .metLinkDown => Sys2Proof.Machine.execMetLinkDown s
  | .metLinkUp => Sys2Proof.Machine.execMetLinkUp s
  | .metSetup r => Sys2Proof.Machine.execMetSetup r s
  | .metCal r => Sys2Proof.Machine.execMetCal r s
  | .metCirCfg r => Sys2Proof.Machine.execMetCirCfg r s
  | .metAssign r => Sys2Proof.Machine.execMetAssign r s
  | .metThmCfg r => Sys2Proof.Machine.execMetThmCfg r s
  | .metPoCfg r => Sys2Proof.Machine.execMetPoCfg r s
  | .metDemandReset r => Sys2Proof.Machine.execMetDemandReset r s
  | .metGapRead r => Sys2Proof.Machine.execMetGapRead r s
  | .metCalRead r => Sys2Proof.Machine.execMetCalRead r s
  | .safetyStart selfA selfB copyA copyB => Sys2Proof.Machine.execSafetyStart selfA selfB copyA copyB s
  | .safetyInputEdge input a b => Sys2Proof.Machine.execSafetyInputEdge input a b s
  | .filterElapsed ch input => Sys2Proof.Machine.execFilterElapsed ch input s
  | .discrepancy p => Sys2Proof.Machine.execDiscrepancy p s
  | .testPulse tp inA inB tpOk => Sys2Proof.Machine.execTestPulse tp inA inB tpOk s
  | .ossdTest o j lines => Sys2Proof.Machine.execOssdTest o j lines s
  | .ossdOvercurrent o => Sys2Proof.Machine.execOssdOvercurrent o s
  | .stopDelayEnd f => Sys2Proof.Machine.execStopDelayEnd f s
  | .channelBDelayEnd f late => Sys2Proof.Machine.execChannelBDelayEnd f late s
  | .crossExchange bClk aIvl => Sys2Proof.Machine.execCrossExchange bClk aIvl s
  | .crossFrameTimeout ch => Sys2Proof.Machine.execCrossFrameTimeout ch s
  | .edmTimeout o => Sys2Proof.Machine.execEdmTimeout o s
  | .selfTest ch ok => Sys2Proof.Machine.execSelfTest ch ok s
  | .safetySupplyFault ch gone => Sys2Proof.Machine.execSafetySupplyFault ch gone s
  | .lockoutRecheck ch clkOk selfOk supplyOk => Sys2Proof.Machine.execLockoutRecheck ch clkOk selfOk supplyOk s
  | .srstPulse msA msB ossd => Sys2Proof.Machine.execSrstPulse msA msB ossd s
  | .skeyActive a b => Sys2Proof.Machine.execSkeyActive a b s
  | .skeyRelease a b => Sys2Proof.Machine.execSkeyRelease a b s
  | .mirrorFrame ch => Sys2Proof.Machine.execMirrorFrame ch s
  | .safeChannelAbsent ch => Sys2Proof.Machine.execSafeChannelAbsent ch s
  | .safeStatus r => Sys2Proof.Machine.execSafeStatus r s
  | .safeParamWrite r => Sys2Proof.Machine.execSafeParamWrite r s
  | .safeParamCheck r => Sys2Proof.Machine.execSafeParamCheck r s
  | .safeParamRead r => Sys2Proof.Machine.execSafeParamRead r s
  | .safeConfirm r => Sys2Proof.Machine.execSafeConfirm r s
  | .safeViewCfg r => Sys2Proof.Machine.execSafeViewCfg r s
  | .relayFrameStart lo hi => Sys2Proof.Machine.execRelayFrameStart lo hi s
  | .relayFrame port bs bad => Sys2Proof.Machine.execRelayFrame port bs bad s
  | .frameReturn d frames bad => Sys2Proof.Machine.execFrameReturn d frames bad s
  | .relayLinkUp port => Sys2Proof.Machine.execRelayLinkUp port s
  | .portLockLost port lo hi => Sys2Proof.Machine.execPortLockLost port lo hi s
  | .ringClose => Sys2Proof.Machine.execRingClose s
  | .noframe => Sys2Proof.Machine.execNoframe s
  | .relayHold => Sys2Proof.Machine.execRelayHold s
  | .relayMapgo => Sys2Proof.Machine.execRelayMapgo s
  | .relayCfg r => Sys2Proof.Machine.execRelayCfg r s
  | .relayMap r => Sys2Proof.Machine.execRelayMap r s
  | .relayBind r => Sys2Proof.Machine.execRelayBind r s
  | .relayStation r => Sys2Proof.Machine.execRelayStation r s
  | .relayStatus r => Sys2Proof.Machine.execRelayStatus r s
  | .canFrameReceived c f => Sys2Proof.Machine.execCanFrameReceived c f s
  | .canTxStart c => Sys2Proof.Machine.execCanTxStart c s
  | .canTxEnd c x => Sys2Proof.Machine.execCanTxEnd c x s
  | .canRxTimeout c m => Sys2Proof.Machine.execCanRxTimeout c m s
  | .ttCell c => Sys2Proof.Machine.execTtCell c s
  | .canTtMiss c => Sys2Proof.Machine.execCanTtMiss c s
  | .canBusOff c => Sys2Proof.Machine.execCanBusOff c s
  | .canRecovered c => Sys2Proof.Machine.execCanRecovered c s
  | .canModeChange c => Sys2Proof.Machine.execCanModeChange c s
  | .canTxctlGo c => Sys2Proof.Machine.execCanTxctlGo c s
  | .canTxctlCancel c => Sys2Proof.Machine.execCanTxctlCancel c s
  | .canTxctlRecover c => Sys2Proof.Machine.execCanTxctlRecover c s
  | .canCfg r => Sys2Proof.Machine.execCanCfg r s
  | .canObjCfg r => Sys2Proof.Machine.execCanObjCfg r s
  | .canTtCfg r => Sys2Proof.Machine.execCanTtCfg r s
  | .canMode r => Sys2Proof.Machine.execCanMode r s
  | .canSend r => Sys2Proof.Machine.execCanSend r s
  | .canCancelObj r => Sys2Proof.Machine.execCanCancelObj r s
  | .canRecover r => Sys2Proof.Machine.execCanRecover r s
  | .canBind r => Sys2Proof.Machine.execCanBind r s
  | .canStation r => Sys2Proof.Machine.execCanStation r s
  | .canStatus r => Sys2Proof.Machine.execCanStatus r s
  | .canRead r => Sys2Proof.Machine.execCanRead r s
  | .ethLink p up rates half eee => Sys2Proof.Machine.execEthLink p up rates half eee s
  | .ethFrameReceived p f => Sys2Proof.Machine.execEthFrameReceived p f s
  | .lldpReceived p alloc stride => Sys2Proof.Machine.execLldpReceived p alloc stride s
  | .lldpSend => Sys2Proof.Machine.execLldpSend s
  | .lysrixTimeout p => Sys2Proof.Machine.execLysrixTimeout p s
  | .lpiEntry p => Sys2Proof.Machine.execLpiEntry p s
  | .strideTrigger p load deep => Sys2Proof.Machine.execStrideTrigger p load deep s
  | .strideReq p rate seq lower => Sys2Proof.Machine.execStrideReq p rate seq lower s
  | .strideAck p seq => Sys2Proof.Machine.execStrideAck p seq s
  | .strideNak p seq => Sys2Proof.Machine.execStrideNak p seq s
  | .strideMark p => Sys2Proof.Machine.execStrideMark p s
  | .strideAnswerTimeout p => Sys2Proof.Machine.execStrideAnswerTimeout p s
  | .strideLock p => Sys2Proof.Machine.execStrideLock p s
  | .ethStrideFail p => Sys2Proof.Machine.execEthStrideFail p s
  | .txDropTimeout p n => Sys2Proof.Machine.execTxDropTimeout p n s
  | .ethFlthiWrite p e val => Sys2Proof.Machine.execEthFlthiWrite p e val s
  | .ethPortCfg r => Sys2Proof.Machine.execEthPortCfg r s
  | .ethFilterSet r => Sys2Proof.Machine.execEthFilterSet r s
  | .ethIpCfg r => Sys2Proof.Machine.execEthIpCfg r s
  | .ethNetCfg r => Sys2Proof.Machine.execEthNetCfg r s
  | .ethStatus r => Sys2Proof.Machine.execEthStatus r s
  | .configApply => Sys2Proof.Machine.execConfigApply s
  | .furunHello p => Sys2Proof.Machine.execFurunHello p s
  | .heartbeatSend => Sys2Proof.Machine.execHeartbeatSend s
  | .heartbeat p => Sys2Proof.Machine.execHeartbeat p s
  | .contactLost unit => Sys2Proof.Machine.execContactLost unit s
  | .vote p => Sys2Proof.Machine.execVote p s
  | .anchor p => Sys2Proof.Machine.execAnchor p s
  | .voteTimeout grp => Sys2Proof.Machine.execVoteTimeout grp s
  | .islandRevote grp => Sys2Proof.Machine.execIslandRevote grp s
  | .handover p => Sys2Proof.Machine.execHandover p s
  | .handoverTimeout grp => Sys2Proof.Machine.execHandoverTimeout grp s
  | .splitView unit case => Sys2Proof.Machine.execSplitView unit case s
  | .viewAgreed unit => Sys2Proof.Machine.execViewAgreed unit s
  | .islandEntry => Sys2Proof.Machine.execIslandEntry s
  | .islandExit => Sys2Proof.Machine.execIslandExit s
  | .replicaSend => Sys2Proof.Machine.execReplicaSend s
  | .replica p => Sys2Proof.Machine.execReplica p s
  | .withdraw p => Sys2Proof.Machine.execWithdraw p s
  | .mirrorPublish => Sys2Proof.Machine.execMirrorPublish s
  | .mirror p => Sys2Proof.Machine.execMirror p s
  | .reasmTimeout peer => Sys2Proof.Machine.execReasmTimeout peer s
  | .furunCfg r => Sys2Proof.Machine.execFurunCfg r s
  | .furunGroupCfg r => Sys2Proof.Machine.execFurunGroupCfg r s
  | .furunEndpointSet r => Sys2Proof.Machine.execFurunEndpointSet r s
  | .furunHandover r => Sys2Proof.Machine.execFurunHandover r s
  | .furunMembers r => Sys2Proof.Machine.execFurunMembers r s
  | .furunReplCfg r => Sys2Proof.Machine.execFurunReplCfg r s
  | .furunReplicaRead r => Sys2Proof.Machine.execFurunReplicaRead r s
  | .furunPubCfg r => Sys2Proof.Machine.execFurunPubCfg r s
  | .ptpSync p ofs => Sys2Proof.Machine.execPtpSync p ofs s
  | .syncHoldover => Sys2Proof.Machine.execSyncHoldover s
  | .servoHoldEnd p => Sys2Proof.Machine.execServoHoldEnd p s
  | .rtcSecond => Sys2Proof.Machine.execRtcSecond s
  | .rtcCommit w => Sys2Proof.Machine.execRtcCommit w s
  | .alarmCommit a hi => Sys2Proof.Machine.execAlarmCommit a hi s
  | .vbakChangeover rail mv => Sys2Proof.Machine.execVbakChangeover rail mv s
  | .zoneChange => Sys2Proof.Machine.execZoneChange s
  | .scheduleMinute => Sys2Proof.Machine.execScheduleMinute s
  | .rtcSet r => Sys2Proof.Machine.execRtcSet r s
  | .rtcRead r => Sys2Proof.Machine.execRtcRead r s
  | .rtcAlarmSet r => Sys2Proof.Machine.execRtcAlarmSet r s
  | .rtcLeapSet r => Sys2Proof.Machine.execRtcLeapSet r s
  | .rtcZoneSet r => Sys2Proof.Machine.execRtcZoneSet r s
  | .rtcPtpCfg r => Sys2Proof.Machine.execRtcPtpCfg r s
  | .tamper loop tmp1 debug => Sys2Proof.Machine.execTamper loop tmp1 debug s
  | .keysStatus r => Sys2Proof.Machine.execKeysStatus r s
  | .keysCsr r => Sys2Proof.Machine.execKeysCsr r s
  | .keysCertSet r => Sys2Proof.Machine.execKeysCertSet r s
  | .keysTrustSet r => Sys2Proof.Machine.execKeysTrustSet r s
  | .keysRevoke r => Sys2Proof.Machine.execKeysRevoke r s
  | .keysImport r => Sys2Proof.Machine.execKeysImport r s
  | .keysErase r => Sys2Proof.Machine.execKeysErase r s
  | .keysAttest r => Sys2Proof.Machine.execKeysAttest r s
  | .keysTamperArm r => Sys2Proof.Machine.execKeysTamperArm r s
  | .keysTamperClear r => Sys2Proof.Machine.execKeysTamperClear r s
  | .keysDerive r => Sys2Proof.Machine.execKeysDerive r s
  | .keysExport r => Sys2Proof.Machine.execKeysExport r s
  | .keysKeyImport r => Sys2Proof.Machine.execKeysKeyImport r s
  | .keysFree r => Sys2Proof.Machine.execKeysFree r s
  | .keysLifecycle r => Sys2Proof.Machine.execKeysLifecycle r s
  | .updBegin r => Sys2Proof.Machine.execUpdBegin r s
  | .updPut r => Sys2Proof.Machine.execUpdPut r s
  | .updStatus r => Sys2Proof.Machine.execUpdStatus r s
  | .updAbandon r => Sys2Proof.Machine.execUpdAbandon r s
  | .updActivate r => Sys2Proof.Machine.execUpdActivate r s
  | .updConfirm r => Sys2Proof.Machine.execUpdConfirm r s
  | .updRevert r => Sys2Proof.Machine.execUpdRevert r s
  | .updFetch r => Sys2Proof.Machine.execUpdFetch r s
  | .updCfgSet r => Sys2Proof.Machine.execUpdCfgSet r s
  | .partCopyDone => Sys2Proof.Machine.execPartCopyDone s
  | .want p => Sys2Proof.Machine.execWant p s
  | .piece p => Sys2Proof.Machine.execPiece p s
  | .noneMsg p => Sys2Proof.Machine.execNoneMsg p s
  | .fetchRetry => Sys2Proof.Machine.execFetchRetry s
  | .fetchTimeout => Sys2Proof.Machine.execFetchTimeout s
  | .trialHealthy => Sys2Proof.Machine.execTrialHealthy s
  | .healthTimeout => Sys2Proof.Machine.execHealthTimeout s
  | .safetyFwTransfer => Sys2Proof.Machine.execSafetyFwTransfer s
  | .eventIngest e => Sys2Proof.Machine.execEventIngest e s
  | .eventStore => Sys2Proof.Machine.execEventStore s
  | .evrTrigctlRel => Sys2Proof.Machine.execEvrTrigctlRel s
  | .evrWctlAdv w => Sys2Proof.Machine.execEvrWctlAdv w s
  | .evrOpen r => Sys2Proof.Machine.execEvrOpen r s
  | .evrClose r => Sys2Proof.Machine.execEvrClose r s
  | .evrRead r => Sys2Proof.Machine.execEvrRead r s
  | .evrAck r => Sys2Proof.Machine.execEvrAck r s
  | .evrCfg r => Sys2Proof.Machine.execEvrCfg r s
  | .evrTrigRelease r => Sys2Proof.Machine.execEvrTrigRelease r s
  | .dmaGo c => Sys2Proof.Machine.execDmaGo c s
  | .dmaTrigger src => Sys2Proof.Machine.execDmaTrigger src s
  | .dmaActivate => Sys2Proof.Machine.execDmaActivate s
  | .descriptorDone c => Sys2Proof.Machine.execDescriptorDone c s
  | .dmaBusError c moved addr write cause => Sys2Proof.Machine.execDmaBusError c moved addr write cause s
  | .dmaAbort c moved lastAck => Sys2Proof.Machine.execDmaAbort c moved lastAck s
  | .dmaChctlRecover c => Sys2Proof.Machine.execDmaChctlRecover c s
  | .dmaStatus r => Sys2Proof.Machine.execDmaStatus r s
  | .dmaRecover r => Sys2Proof.Machine.execDmaRecover r s
  | .uioConversion n x => Sys2Proof.Machine.execUioConversion n x s
  | .uioPulseEdge n => Sys2Proof.Machine.execUioPulseEdge n s
  | .nofld mv => Sys2Proof.Machine.execNofld mv s
  | .doSwitchOff n => Sys2Proof.Machine.execDoSwitchOff n s
  | .doRetry n => Sys2Proof.Machine.execDoRetry n s
  | .uioCfg r => Sys2Proof.Machine.execUioCfg r s
  | .uioAssign r => Sys2Proof.Machine.execUioAssign r s
  | .uioStatus r => Sys2Proof.Machine.execUioStatus r s
  | .undefinedOpcode opcode r => Sys2Proof.Machine.execUndefinedOpcode opcode r s
  | .probeReply p => Sys2Proof.Machine.execProbeReply p s
  | .ptpAnnounce p a => Sys2Proof.Machine.execPtpAnnounce p a s
  | .canBusError c lec => Sys2Proof.Machine.execCanBusError c lec s
  | .overload n => Sys2Proof.Machine.execOverload n s

end Sys2Proof.Machine
end

