-- ==== Sys2Proof/Safety.lean ====
section
/-! DEFINITION. Safety.lean: the terms in which claims speak of a run: the parts of the state that a command may change, a Baton
request that passes every check of Table 3.9, the answer it gets, the canonical forms, and the commands that reach the safety channel. -/

namespace Sys2Proof.Machine

/-! ### What a command leaves unchanged -/

/-- What the frames that a port sends change: its egress queues, TXF, the instant at which it fell idle, and the tag of the latest frame. -/
def EthPort.sending (x : EthPort) : List EthTx × Nat × Nat × Option (Nat × Nat) := (x.egress, x.txf, x.idleAt, x.tag)

/-- A port but for what the frames that it sends change. -/
def EthPort.still (x : EthPort) : EthPort := { x with egress := [], txf := 0, idleAt := 0, tag := none }

/-- The parts of the state beside the register window. -/
inductive Part where
  | pending | clk | sysOfs | startClk | cfgMem | mem | out | freeCtr | limiters | sys | start | baton | estate | drill
  | ledger | evr | dma | uio | relay | can | engine | lap | furun | eth | ethTx | pacer | met | safe | mirror | rtc | keys | upd
  deriving DecidableEq, Repr

/-- A part is the same in two states. -/
def Part.same : Part → State → State → Prop
  | .pending, s, t => t.pending = s.pending
  | .clk, s, t => t.clk = s.clk
  | .sysOfs, s, t => t.sysOfs = s.sysOfs
  | .startClk, s, t => t.startClk = s.startClk
  | .cfgMem, s, t => t.cfgMem = s.cfgMem
  | .mem, s, t => t.mem = s.mem
  | .out, s, t => t.out = s.out
  | .freeCtr, s, t => t.freeCtr = s.freeCtr
  | .limiters, s, t => t.limiters = s.limiters
  | .sys, s, t => t.sys = s.sys
  | .start, s, t => t.start = s.start
  | .baton, s, t => t.baton = s.baton
  | .estate, s, t => t.estate = s.estate
  | .drill, s, t => t.drill = s.drill
  | .ledger, s, t => t.ledger = s.ledger
  | .evr, s, t => t.evr = s.evr
  | .dma, s, t => t.dma = s.dma
  | .uio, s, t => t.uio = s.uio
  | .relay, s, t => t.relay = s.relay
  | .can, s, t => t.can = s.can
  | .engine, s, t => t.engine = s.engine
  | .lap, s, t => t.lap = s.lap
  | .furun, s, t => t.furun = s.furun
  | .eth, s, t => t.eth.map EthPort.still = s.eth.map EthPort.still
  | .ethTx, s, t => t.eth.map EthPort.sending = s.eth.map EthPort.sending
  | .pacer, s, t => t.pacer = s.pacer
  | .met, s, t => t.met = s.met
  | .safe, s, t => t.safe = s.safe
  | .mirror, s, t => t.mirror = s.mirror
  | .rtc, s, t => t.rtc = s.rtc
  | .keys, s, t => t.keys = s.keys
  | .upd, s, t => t.upd = s.upd

/-- From s to t nothing changes but the named parts and the registers at the offsets that `ro` names. -/
def ChangesOnly (ps : List Part) (ro : Nat → Bool) (s t : State) : Prop :=
  (∀ p, p ∉ ps → p.same s t) ∧ ∀ off, ro off = false → t.rd off = s.rd off

/-- The named parts are the same in two states. -/
def Leaves (ps : List Part) (s t : State) : Prop := ∀ p ∈ ps, p.same s t

/-- No register. -/
def noReg : Nat → Bool := fun _ => false

/-- The registers at the listed offsets. -/
def regsAt (l : List Nat) : Nat → Bool := fun off => l.contains off

/-- The registers of a block. -/
def regsOf (b : Nat) : Nat → Bool := fun off => blkOfOff off == some b

/-- Either of two sets of registers. -/
def regsOr (a b : Nat → Bool) : Nat → Bool := fun off => a off || b off

/-- The words in which the recorder counts what it loses: INT_STAT of EVR, EVR_DROP, and the count of its drill (R513, R105). -/
def evWords : Nat → Bool := regsAt [0x780004, Reg.EVR_DROP, Reg.DRILL_CNT 37]

/-! ### Baton requests -/

/-- The time of the session's last packet moves to the present (R62). -/
def State.heard (s : State) (r : Req) : State := s.modSession r.sess.val fun y => { y with last := s.clk }

/-- A request that passes steps 1 to 7 of Table 3.9 on an open session. -/
def asked (d : OpDef) (r : Req) (s : State) : Option Q :=
  match s.session? r.sess.val with
  | none => none
  | some x =>
    match framing r with
    | .error _ => none
    | .ok ts =>
      let ver := x.version.getD r.version.toNat
      let q : Q := ⟨r, x.tag, x.owner, ver, some r.sess.val, x.port, ts⟩
      if (if d.code = 1 then x.version.isNone else x.version == some r.version.toNat) && r.tenant.toNat == x.tag &&
        (d.session || ((s.item? x.owner r.item.toNat).isNone && (s.cached? x.owner r.item.toNat).isNone)) &&
        (x.version.isNone || Nat.ble d.since ver) && (tlvFault d.schema ver ts).isNone && (d.form (s.heard r) q).isNone
      then some q else none

/-- A request that passes steps 1 to 14 of Table 3.9 on an open session, as it is admitted. -/
def passes (d : OpDef) (relay : State → Q → Option State) (r : Req) (s : State) : Option Q :=
  match asked d r s with
  | none => none
  | some q => if ((s.heard r).start.phase == .recovery || (relay (s.heard r) q).isNone) && (d.later (s.heard r) q).isNone then some q else none

/-- An opcode that no other module serves. -/
def notRelayed : State → Q → Option State := fun _ _ => none

/-- The opcode and the request of a command that is a request of a generic object opcode, which another unit can serve (R90). -/
def genericOf : Instr → Option (OpDef × Req)
  | .objRead r => some (opObjRead, r)
  | .objWrite r => some (opObjWrite, r)
  | .objCreate r => some (opObjCreate, r)
  | .objDelete r => some (opObjDelete, r)
  | .objSetTag r => some (opObjSetTag, r)
  | .objLock r => some (opObjLock, r)
  | .objUnlock r => some (opObjUnlock, r)
  | .unitClearSuspect r => some (opUnitClearSuspect, r)
  | _ => none

/-- The opcode, its relaying, and the request of a command that is a Baton request. -/
def batonOf : Instr → Option (OpDef × (State → Q → Option State) × Req)
  | .hello r => some (opHello, notRelayed, r)
  | .ping r => some (opPing, notRelayed, r)
  | .itemStatus r => some (opItemStatus, notRelayed, r)
  | .cancel r => some (opCancel, notRelayed, r)
  | .close r => some (opClose, notRelayed, r)
  | .objRead r => some (opObjRead, relayObj opObjRead.code, r)
  | .objReadNext r => some (opObjReadNext, notRelayed, r)
  | .objWrite r => some (opObjWrite, relayObj opObjWrite.code, r)
  | .objCreate r => some (opObjCreate, relayObj opObjCreate.code, r)
  | .objDelete r => some (opObjDelete, relayObj opObjDelete.code, r)
  | .objSetTag r => some (opObjSetTag, relayObj opObjSetTag.code, r)
  | .objLock r => some (opObjLock, relayObj opObjLock.code, r)
  | .objUnlock r => some (opObjUnlock, relayObj opObjUnlock.code, r)
  | .unitClearSuspect r => some (opUnitClearSuspect, relayObj opUnitClearSuspect.code, r)
  | .drillLoad r => some (opDrillLoad, notRelayed, r)
  | .drillRead r => some (opDrillRead, notRelayed, r)
  | .drillDelete r => some (opDrillDelete, notRelayed, r)
  | .drillBind r => some (opDrillBind, notRelayed, r)
  | .drillStat r => some (opDrillStat, notRelayed, r)
  | .modeSet r => some (opModeSet, notRelayed, r)
  | .modeGet r => some (opModeGet, notRelayed, r)
  | .limitSet r => some (opLimitSet, notRelayed, r)
  | .ledgerCfg r => some (opLedgerCfg, notRelayed, r)
  | .ledgerRead r => some (opLedgerRead, notRelayed, r)
  | .restart r => some (opRestart, notRelayed, r)
  | .residueRead r => some (opResidueRead, notRelayed, r)
  | .startInfo r => some (opStartInfo, notRelayed, r)
  | .taskCfg r => some (opTaskCfg, notRelayed, r)
  | .taskStart r => some (opTaskStart, notRelayed, r)
  | .taskStop r => some (opTaskStop, notRelayed, r)
  | .progLoad r => some (opProgLoad, notRelayed, r)
  | .progPrepare r => some (opProgPrepare, notRelayed, r)
  | .progSwitch r => some (opProgSwitch, notRelayed, r)
  | .progRevert r => some (opProgRevert, notRelayed, r)
  | .forceSet r => some (opForceSet, notRelayed, r)
  | .forceClear r => some (opForceClear, notRelayed, r)
  | .forceList r => some (opForceList, notRelayed, r)
  | .lapStatus r => some (opLapStatus, notRelayed, r)
  | .loopAssign r => some (opLoopAssign, notRelayed, r)
  | .loopCfg r => some (opLoopCfg, notRelayed, r)
  | .loopBind r => some (opLoopBind, notRelayed, r)
  | .loopBankWrite r => some (opLoopBankWrite, notRelayed, r)
  | .loopBankRead r => some (opLoopBankRead, notRelayed, r)
  | .loopSwap r => some (opLoopSwap, notRelayed, r)
  | .loopRead r => some (opLoopRead, notRelayed, r)
  | .loopBindRead r => some (opLoopBindRead, notRelayed, r)
  | .pacerFedSet r => some (opPacerFedSet, notRelayed, r)
  | .seriesWrite r => some (opSeriesWrite, notRelayed, r)
  | .seriesRead r => some (opSeriesRead, notRelayed, r)
  | .planValues r => some (opPlanValues, notRelayed, r)
  | .envelopeRead r => some (opEnvelopeRead, notRelayed, r)
  | .metSetup r => some (opMetSetup, notRelayed, r)
  | .metCal r => some (opMetCal, notRelayed, r)
  | .metCirCfg r => some (opMetCirCfg, notRelayed, r)
  | .metAssign r => some (opMetAssign, notRelayed, r)
  | .metThmCfg r => some (opMetThmCfg, notRelayed, r)
  | .metPoCfg r => some (opMetPoCfg, notRelayed, r)
  | .metDemandReset r => some (opMetDemandReset, notRelayed, r)
  | .metGapRead r => some (opMetGapRead, notRelayed, r)
  | .metCalRead r => some (opMetCalRead, notRelayed, r)
  | .safeStatus r => some (opSafeStatus, notRelayed, r)
  | .safeParamWrite r => some (opSafeParamWrite, notRelayed, r)
  | .safeParamCheck r => some (opSafeParamCheck, notRelayed, r)
  | .safeParamRead r => some (opSafeParamRead, notRelayed, r)
  | .safeConfirm r => some (opSafeConfirm, notRelayed, r)
  | .safeViewCfg r => some (opSafeViewCfg, notRelayed, r)
  | .relayCfg r => some (opRelayCfg, notRelayed, r)
  | .relayMap r => some (opRelayMap, notRelayed, r)
  | .relayBind r => some (opRelayBind, notRelayed, r)
  | .relayStation r => some (opRelayStation, notRelayed, r)
  | .relayStatus r => some (opRelayStatus, notRelayed, r)
  | .canCfg r => some (opCanCfg, notRelayed, r)
  | .canObjCfg r => some (opCanObjCfg, notRelayed, r)
  | .canTtCfg r => some (opCanTtCfg, notRelayed, r)
  | .canMode r => some (opCanMode, notRelayed, r)
  | .canSend r => some (opCanSend, notRelayed, r)
  | .canCancelObj r => some (opCanCancelObj, notRelayed, r)
  | .canRecover r => some (opCanRecover, notRelayed, r)
  | .canBind r => some (opCanBind, notRelayed, r)
  | .canStation r => some (opCanStation, notRelayed, r)
  | .canStatus r => some (opCanStatus, notRelayed, r)
  | .canRead r => some (opCanRead, notRelayed, r)
  | .ethPortCfg r => some (opEthPortCfg, notRelayed, r)
  | .ethFilterSet r => some (opEthFilterSet, notRelayed, r)
  | .ethIpCfg r => some (opEthIpCfg, notRelayed, r)
  | .ethNetCfg r => some (opEthNetCfg, notRelayed, r)
  | .ethStatus r => some (opEthStatus, notRelayed, r)
  | .furunCfg r => some (opFurunCfg, notRelayed, r)
  | .furunGroupCfg r => some (opFurunGroupCfg, notRelayed, r)
  | .furunEndpointSet r => some (opFurunEndpointSet, notRelayed, r)
  | .furunHandover r => some (opFurunHandover, notRelayed, r)
  | .furunMembers r => some (opFurunMembers, notRelayed, r)
  | .furunReplCfg r => some (opFurunReplCfg, notRelayed, r)
  | .furunReplicaRead r => some (opFurunReplicaRead, notRelayed, r)
  | .furunPubCfg r => some (opFurunPubCfg, notRelayed, r)
  | .rtcSet r => some (opRtcSet, notRelayed, r)
  | .rtcRead r => some (opRtcRead, notRelayed, r)
  | .rtcAlarmSet r => some (opRtcAlarmSet, notRelayed, r)
  | .rtcLeapSet r => some (opRtcLeapSet, notRelayed, r)
  | .rtcZoneSet r => some (opRtcZoneSet, notRelayed, r)
  | .rtcPtpCfg r => some (opRtcPtpCfg, notRelayed, r)
  | .keysStatus r => some (opKeysStatus, notRelayed, r)
  | .keysCsr r => some (opKeysCsr, notRelayed, r)
  | .keysCertSet r => some (opKeysCertSet, notRelayed, r)
  | .keysTrustSet r => some (opKeysTrustSet, notRelayed, r)
  | .keysRevoke r => some (opKeysRevoke, notRelayed, r)
  | .keysImport r => some (opKeysImport, notRelayed, r)
  | .keysErase r => some (opKeysErase, notRelayed, r)
  | .keysAttest r => some (opKeysAttest, notRelayed, r)
  | .keysTamperArm r => some (opKeysTamperArm, notRelayed, r)
  | .keysTamperClear r => some (opKeysTamperClear, notRelayed, r)
  | .keysDerive r => some (opKeysDerive, notRelayed, r)
  | .keysExport r => some (opKeysExport, notRelayed, r)
  | .keysKeyImport r => some (opKeysKeyImport, notRelayed, r)
  | .keysFree r => some (opKeysFree, notRelayed, r)
  | .keysLifecycle r => some (opKeysLifecycle, notRelayed, r)
  | .updBegin r => some (opUpdBegin, notRelayed, r)
  | .updPut r => some (opUpdPut, notRelayed, r)
  | .updStatus r => some (opUpdStatus, notRelayed, r)
  | .updAbandon r => some (opUpdAbandon, notRelayed, r)
  | .updActivate r => some (opUpdActivate, notRelayed, r)
  | .updConfirm r => some (opUpdConfirm, notRelayed, r)
  | .updRevert r => some (opUpdRevert, notRelayed, r)
  | .updFetch r => some (opUpdFetch, notRelayed, r)
  | .updCfgSet r => some (opUpdCfgSet, notRelayed, r)
  | .evrOpen r => some (opEvrOpen, notRelayed, r)
  | .evrClose r => some (opEvrClose, notRelayed, r)
  | .evrRead r => some (opEvrRead, notRelayed, r)
  | .evrAck r => some (opEvrAck, notRelayed, r)
  | .evrCfg r => some (opEvrCfg, notRelayed, r)
  | .evrTrigRelease r => some (opEvrTrigRelease, notRelayed, r)
  | .dmaStatus r => some (opDmaStatus, notRelayed, r)
  | .dmaRecover r => some (opDmaRecover, notRelayed, r)
  | .uioCfg r => some (opUioCfg, notRelayed, r)
  | .uioAssign r => some (opUioAssign, notRelayed, r)
  | .uioStatus r => some (opUioStatus, notRelayed, r)
  | _ => none

/-- A command that is a request and passes every check of Table 3.9 (R81) while the domain of the block it addresses is on (R17): the
request as it is admitted. -/
def admitted? (c : Instr) (s : State) : Option Q :=
  match batonOf c with
  | some (d, relay, r) => if s.blkOn d.blk then passes d relay r s else none
  | none => none

/-- A frame of class c for port p has just been sent: it is the latest out, or it waits last in the port's egress queue while the port
holds its frames (R427, R428). -/
def Sent (t : State) (p c : Nat) (o : Out) : Prop :=
  if p < 4 ∧ t.portHeld p = true then (t.port p).egress.getLast? = some ⟨c, o⟩ else t.out.head? = some o

/-- The reply to a request that a session carried: its version, the bits of the flags beside REPLY, tenant, class, item, and then opcode,
status and results (Tables 3.2 and 3.3). -/
def replyOf (t : State) (q : Q) (code : Nat) (st : Status) (flags : Nat) (res : Bytes) : Out :=
  .baton q.r.sess.val (replyPkt (((t.session? q.r.sess.val).bind (·.version)).getD q.ver) (fReply + flags)
    q.r.tenant.toNat (carriedClass q.r.cls.toNat) q.r.item.toNat code st.code res)

/-- The reply to a request has just been sent on its session's port. -/
def Answered (t : State) (q : Q) (code : Nat) (st : Status) (flags : Nat) (res : Bytes) : Prop :=
  Sent t q.port (carriedClass q.r.cls.toNat) (replyOf t q code st flags res)

/-- From s to t exactly one frame has been sent, of class c and on port p: it is out, or it waits last in the port's egress queue. -/
def SentOne (s t : State) (p c : Nat) (o : Out) : Prop :=
  (∀ k, k ≠ p → t.port k = s.port k) ∧
  if p < 4 ∧ s.portHeld p = true then t.out = s.out ∧ (t.port p).egress = (s.port p).egress ++ [⟨c, o⟩]
  else t.out = o :: s.out ∧ (t.port p).egress = (s.port p).egress

/-- What the admission and the answer of any request touch: the packet out, the session and its item, the journal, the
reservation, and BATON_EVICT. -/
def batonParts : List Part := [.out, .ethTx, .limiters, .start, .baton, .ledger, .evr]

/-- What the admission and the answer of a session opcode touch. -/
def sessionParts : List Part := [.out, .ethTx, .baton]

/-- The words that a frame sent on a port may change: LPI in ETH_PSTAT of the port (R424). -/
def portWords (p : Nat) : Nat → Bool := regsAt [Reg.ETH_PSTAT p]

/-- The words that the answer of a request may change beside those in which the recorder counts. -/
def answerWords (q : Q) : Nat → Bool := regsOr evWords (portWords q.port)

/-- From s to t the request r on session x was answered with one packet, and nothing else happened but that the time of the session's last
packet moved (R62, R80). -/
def OnlyAnswered (s t : State) (r : Req) (x : Session) (flags code st : Nat) (res : Bytes) : Prop :=
  SentOne s t x.port (carriedClass r.cls.toNat) (.baton r.sess.val (replyPkt (x.version.getD r.version.toNat) flags r.tenant.toNat
    (carriedClass r.cls.toNat) r.item.toNat code st res)) ∧
  t.baton = (s.heard r).baton ∧ ChangesOnly sessionParts (portWords x.port) s t

/-! ### Canonical forms -/

/-- Rising keys from `lo` on, and no word that equals the default of its key. -/
def spWfFrom : Nat → List (Nat × W32) → Bool
  | _, [] => true
  | lo, (k, v) :: r => Nat.ble lo k && v != rstOf k && spWfFrom (k + 1) r

/-- The register window and configuration memory list each word once, by rising offset, and no word at its reset value; memory is
in its canonical form. -/
def Canonical (s : State) : Prop :=
  spWfFrom 0 s.regs = true ∧ spWfFrom 0 s.cfgMem = true ∧ Memory.wf s.mem = true

/-! ### The safety channel (R20, R73, R334) -/

/-- A channel holds a lock-out with a cause on a unit (Table 13.7). -/
def SafeCh.holds (c : SafeCh) (cause unit : Nat) : Bool := c.locks.any fun l => l.cause == cause && l.unit == unit

/-- A channel closes its switches of an OSSD pair only while it runs outside CONFIG, the pair is enabled and under no lock-out,
some function names it, and every one that does contributes on (R344, R351, R355). -/
def SafeCh.Sound (c : SafeCh) : Prop :=
  ∀ o, o < 4 → c.closed o = true → c.phase = 2 ∧ c.skey = false ∧ prmOen c.prm o = true ∧ c.ossdLocked o = false ∧
    c.namers o ≠ [] ∧ ∀ f ∈ c.namers o, c.fn f = 1 ∨ c.fn f = 2

/-- Both channels are sound. -/
def SafeSt.Sound (x : SafeSt) : Prop := x.a.Sound ∧ x.b.Sound

/-- The commands that act on the safety channel: its inputs, its own steps, and the operator's parameter procedure. -/
def safetyCommand : Instr → Bool
  | .safetyStart _ _ _ _ => true
  | .safetyInputEdge _ _ _ => true
  | .filterElapsed _ _ => true
  | .discrepancy _ => true
  | .testPulse _ _ _ _ => true
  | .ossdTest _ _ _ => true
  | .ossdOvercurrent _ => true
  | .stopDelayEnd _ => true
  | .channelBDelayEnd _ _ => true
  | .crossExchange _ _ => true
  | .crossFrameTimeout _ => true
  | .edmTimeout _ => true
  | .selfTest _ _ => true
  | .safetySupplyFault _ _ => true
  | .lockoutRecheck _ _ _ _ => true
  | .srstPulse _ _ _ => true
  | .skeyActive _ _ => true
  | .skeyRelease _ _ => true
  | .mirrorFrame _ => true
  | .safeParamWrite _ => true
  | .safeParamCheck _ => true
  | .safeConfirm _ => true
  | .safetyFwTransfer => true
  | _ => false

end Sys2Proof.Machine
end

