-- ==== Sys2Proof/Certificates/Slice0/Obligations.lean ====
section
/-! DEFINITION. Certificates/Slice0/Obligations.lean: the statements for the provers. -/

open Sys2Proof Sys2Proof.Machine

/-- When a command c stands at the front of the queue, step is exec of c on the state with the rest of the queue. -/
def Obligations.StepTakesTheFrontCommand : Prop :=
  ∀ (c : Instr) (rest : List Instr) (s : State), s.pending = c :: rest → step s = exec c { s with pending := rest }

/-- With no command waiting, step answers a next state that differs only in the clock, 1 ns later, and no register changes.
(notes/assumptions: log 1) -/
def Obligations.IdleStepOnlyLetsTimePass : Prop :=
  ∀ s : State, s.pending = [] → ∃ t, step s = .next t ∧ t.clk = s.clk + 1 ∧ ChangesOnly [.clk] noReg s t

/-- In the reset state every word of the register window is the sum of its fields' reset values, memory and the queue are empty, the own
address is the factory value, and the canonical forms and the soundness of the safety outputs hold (the values of log 57 and 59 are the
model's). (R8, R550, R140) (notes/assumptions: log 57, log 59) -/
def Obligations.ResetStateHoldsResetColumn : Prop :=
  (∀ off, State.reset.rd off = (rstOf off).toNat) ∧ State.reset.mem = [] ∧ State.reset.pending = [] ∧
  State.reset.estate.addr = 0x0400000000000000 ∧ Canonical State.reset ∧ State.reset.safe.Sound

/-- For every command and every state exec answers a next state, no command being refused or ending in a fault, and the commands that wait
are then the same, in the same order. -/
def Obligations.NoCommandTouchesTheQueue : Prop :=
  ∀ (c : Instr) (s : State), ∃ t, exec c s = .next t ∧ t.pending = s.pending

/-- For every command that is neither a safety input, a step of the safety channel nor one of the transfers over XC13, and every state,
exec answers a next state in which the safety channel is unchanged: no other command clears a lock-out, writes a parameter or moves an
output. (R20, R73, R11) -/
def Obligations.OnlySafetyCommandsReachTheSafetyChannel : Prop :=
  ∀ (c : Instr) (s : State), safetyCommand c = false → ∃ t, exec c s = .next t ∧ t.safe = s.safe

/-- From every state whose memory lists each non-zero byte once by rising address, every step gives such a state. (R254, R521) -/
def Obligations.EveryStepKeepsMemoryCanonical : Prop :=
  ∀ s t : State, Memory.wf s.mem = true → step s = .next t → Memory.wf t.mem = true

/-- At every aligned offset without a register, in a block that is on or in the span that no block has: a read answers 0 and nothing else
changes, and a write changes nothing. (R12) -/
def Obligations.UnoccupiedOffsetsReadZero : Prop :=
  ∀ (off : BitVec 24) (v : W32) (s : State), off.toNat % 4 = 0 → regAt off.toNat = none → s.offDomain? off.toNat = none →
    exec (.offDomainAccess off false v) s = .next (s.emit (.reg off.toNat 0)) ∧ exec (.registerWrite off v) s = .next s

/-- A write of 32 bits to an occupied, aligned offset of a block that is on, whose register has no behaviour of its own, sets RW fields,
clears the W1C bits written as 1 and leaves every other field; nothing else changes. (R8) -/
def Obligations.RegisterWritesFollowAccessCodes : Prop :=
  ∀ (off : BitVec 24) (v : W32) (d : RDesc) (i j : Nat) (s : State), off.toNat % 4 = 0 → regAt off.toNat = some (d, i, j) →
    s.offDomain? off.toNat = none → d.wk ∈ [WKind.plain, .intEn, .sysSafeIntEn, .loopStart, .loopSwsel, .canTxd] →
    ∃ t, exec (.registerWrite off v) s = .next t ∧
      (∀ f ∈ d.fields, bitsOf (t.rd off.toNat) f.hi f.lo =
        let old := bitsOf (s.rd off.toNat) f.hi f.lo
        let new := bitsOf v.toNat f.hi f.lo
        match f.acc with
        | .rw => new
        | .w1c => old - (old &&& new)
        | _ => old) ∧
      ChangesOnly [] (regsAt [off.toNat]) s t

/-- While PD_AON is on, a write of any value to any aligned offset of the SAFE block answers a next state in which no register and no other
part of the state has changed: no event, nothing in the safety channel. (R11, R98) -/
def Obligations.SafeRegistersDiscardWrites : Prop :=
  ∀ (off : BitVec 24) (v : W32) (s : State), off.toNat % 4 = 0 → blkOfOff off.toNat = some 7 → s.blkOn 7 = true →
    ∃ t, exec (.registerWrite off v) s = .next t ∧ ChangesOnly [] noReg s t

/-- For every block whose domain d is off, a read answers 0 and a write is discarded; OFFACC bit d of SYS_PD_STAT is set, its other bits
stay, and nothing else changes. (R16) -/
def Obligations.AccessToADomainThatIsOff : Prop :=
  ∀ (off : BitVec 24) (write : Bool) (v : W32) (d : Nat) (s : State), s.offDomain? (off.toNat / 4 * 4) = some d →
    ∃ t, exec (.offDomainAccess off write v) s = .next t ∧
      (∀ k, k < 11 → bit1 (t.get F.SYS_PD_STAT_OFFACC) k = if k = d then 1 else bit1 (s.get F.SYS_PD_STAT_OFFACC) k) ∧
      t.get F.SYS_PD_STAT_ON = s.get F.SYS_PD_STAT_ON ∧
      t.out = (if write then s.out else .reg (off.toNat / 4 * 4) 0 :: s.out) ∧
      ChangesOnly [.out] (regsAt [Reg.SYS_PD_STAT]) s t

/-- A write of 8 or 16 bits and any unaligned access is discarded, an unaligned read returns 0, the bits NARROW and UNALIGNED are set as
R94 says and SYS_BUS_ADDR takes the offset; an aligned read of 8 or 16 bits returns the addressed byte lanes (0 in a block that is off)
and notes nothing; nothing else changes, but for OFFACC where the block is off. (R94) -/
def Obligations.NarrowAndUnalignedAccesses : Prop :=
  (∀ (off : BitVec 24) (w : Width) (write : Bool) (v : W32) (s : State),
    ((write = true ∧ w ≠ .w32) ∨ off.toNat % widthBytes w ≠ 0) →
    ∃ t, exec (.unalignedAccess off w write v) s = .next t ∧
      t.get F.SYS_BUS_STAT_NARROW = (if write = true ∧ w ≠ .w32 then 1 else s.get F.SYS_BUS_STAT_NARROW) ∧
      t.get F.SYS_BUS_STAT_UNALIGNED = (if off.toNat % widthBytes w ≠ 0 then 1 else s.get F.SYS_BUS_STAT_UNALIGNED) ∧
      t.rd Reg.SYS_BUS_ADDR = off.toNat ∧
      t.out = (if write then s.out else .reg off.toNat 0 :: s.out) ∧
      ChangesOnly [.out] (regsAt [Reg.SYS_BUS_STAT, Reg.SYS_BUS_ADDR, Reg.SYS_PD_STAT]) s t) ∧
  (∀ (off : BitVec 24) (w : Width) (v : W32) (s : State), w ≠ .w32 → off.toNat % widthBytes w = 0 →
    ∃ t, exec (.unalignedAccess off w false v) s = .next t ∧
      t.out = .reg off.toNat (s.regWord (off.toNat / 4 * 4) / 2 ^ (8 * (off.toNat % 4)) % 2 ^ (8 * widthBytes w)) :: s.out ∧
      ChangesOnly [.out] (regsAt [Reg.SYS_PD_STAT]) s t)

/-- A request of a defined group of a block that is on, with no capture in progress, sets BUSY, clears ERR and waits; a request of an
undefined group sets ERR and waits for nothing; while BUSY a request changes nothing. The capture fills the group's words, clears BUSY,
counts SEQ and leaves REQ 0. (That the words are those of the capture's instant is the model's reading, log 55.) The SAFE snapshot is
requested through SYS_SAFE_SNAP_CTL: group 0 starts it, another group sets ERR in SNAP_STAT of SAFE, a request under way changes
nothing, and the capture fills the sixteen words and clears REQ and BUSY. (R99, R100, R101, R98, R360) -/
def Obligations.SnapshotRequestAndCapture : Prop :=
  (∀ (src : Fin 22) (grp : Byte) (b : Nat) (s : State), srcBase src.val = some b → src.val ≠ 7 → s.offDomain? b = none →
    s.snapBusy src.val = false → (s.snapWords src.val grp.toNat).isSome = true →
    ∃ t, exec (.snapshotRequest src grp) s = .next t ∧ t.sys.snaps = s.sys.snaps ++ [⟨src.val, grp.toNat⟩] ∧
      bit1 (t.rd (b + 0x14)) 31 = 1 ∧ bit1 (t.rd (b + 0x14)) 30 = 0 ∧ t.rd (b + 0x10) = grp.toNat + 256 ∧
      ChangesOnly [.sys] (regsAt [b + 0x10, b + 0x14]) s t) ∧
  (∀ (src : Fin 22) (grp : Byte) (b : Nat) (s : State), srcBase src.val = some b → src.val ≠ 7 → s.offDomain? b = none →
    s.snapBusy src.val = false → (s.snapWords src.val grp.toNat).isSome = false →
    ∃ t, exec (.snapshotRequest src grp) s = .next t ∧ bit1 (t.rd (b + 0x14)) 30 = 1 ∧ t.rd (b + 0x10) = grp.toNat ∧
      ChangesOnly [] (regsAt [b + 0x10, b + 0x14]) s t) ∧
  (∀ (src : Fin 22) (grp : Byte) (b : Nat) (s : State), srcBase src.val = some b → s.offDomain? b = none → s.snapBusy src.val = true →
    exec (.snapshotRequest src grp) s = .next s) ∧
  (∀ (src : Fin 22) (b grp off : Nat) (ws : List Nat) (s : State), srcBase src.val = some b → src.val ≠ 7 →
    s.sys.snaps.find? (fun j => j.src == src.val) = some ⟨src.val, grp⟩ → s.snapWords src.val grp = some (off, ws) →
    ∃ t, exec (.snapshotCapture src) s = .next t ∧
      (∀ k, k < ws.length → (off + 4 * k = 0x3008F8 ∨ off + 4 * k = 0x3008FC) ∨ t.rd (off + 4 * k) = (ws.getD k 0) % 2 ^ 32) ∧
      bit1 (t.rd (b + 0x14)) 31 = 0 ∧ bitsOf (t.rd (b + 0x14)) 7 0 = (bitsOf (s.rd (b + 0x14)) 7 0 + 1) % 256 ∧
      bitsOf (t.rd (b + 0x14)) 15 8 = grp % 256 ∧ bit1 (t.rd (b + 0x10)) 8 = 0 ∧ t.snapBusy src.val = false ∧
      Leaves [.pending, .mem, .safe, .estate, .baton, .keys, .upd, .out, .clk] s t) ∧
  (∀ s : State, s.sys.safeSnap = none →
    ∃ t, exec (.sysSafeSnapCtl 0) s = .next t ∧ t.sys = { s.sys with safeSnap := some 0 } ∧ t.rd Reg.SYS_SAFE_SNAP_CTL = 256 ∧
      bit1 (t.rd 0x380014) 31 = 1 ∧ bit1 (t.rd 0x380014) 30 = 0 ∧
      ChangesOnly [.sys] (regsAt [Reg.SYS_SAFE_SNAP_CTL, 0x380014]) s t) ∧
  (∀ (grp : Byte) (s : State), s.sys.safeSnap = none → grp ≠ 0 →
    ∃ t, exec (.sysSafeSnapCtl grp) s = .next t ∧ bit1 (t.rd 0x380014) 30 = 1 ∧
      ChangesOnly [] (regsAt [Reg.SYS_SAFE_SNAP_CTL, 0x380014]) s t) ∧
  (∀ (grp : Byte) (s : State), s.sys.safeSnap.isSome = true → exec (.sysSafeSnapCtl grp) s = .next s) ∧
  (∀ (g : Nat) (s : State), s.sys.safeSnap = some g →
    ∃ t, exec (.snapshotCapture 7) s = .next t ∧ (∀ k, k < 16 → t.rd (0x380040 + 4 * k) = (s.safeSnap.getD k 0) % 2 ^ 32) ∧
      bit1 (t.rd 0x380014) 31 = 0 ∧ bit1 (t.rd Reg.SYS_SAFE_SNAP_CTL) 8 = 0 ∧ t.sys.safeSnap = none ∧
      Leaves [.pending, .mem, .safe, .mirror, .estate, .baton, .out, .clk] s t)

/-- INT_CLR of a source whose block is on clears exactly the INT_STAT bits written as 1 (SAFE's own INT_CLR discards); SYS_SAFE_INT_CLR
clears the mirror's conditions; SYS_INT_ROUTEn takes a one-hot CORE with EN and PRIO and discards any other; SYS_WDT_KICK restarts the
count for 0xA5 alone. (R97, R98, R103, R559) -/
def Obligations.InterruptRegisters : Prop :=
  (∀ (src : Fin 22) (mask : W32) (b : Nat) (s : State), srcBase src.val = some b → src.val ≠ 7 → s.offDomain? (b + 0x0C) = none →
    ∃ t, exec (.intClr src mask) s = .next t ∧
      (∀ k, k < 32 → bit1 (t.rd (b + 4)) k = if bit1 mask.toNat k = 1 then 0 else bit1 (s.rd (b + 4)) k) ∧
      ChangesOnly [] (regsAt [b + 4]) s t) ∧
  (∀ (mask : W32) (s : State), s.blkOn 7 = true → ∃ t, exec (.intClr 7 mask) s = .next t ∧ ChangesOnly [] noReg s t) ∧
  (∀ (mask : W32) (s : State), s.blkOn 1 = true →
    ∃ t, exec (.sysSafeIntClr mask) s = .next t ∧
      (∀ k, k < 32 → bit1 (t.rd 0x380004) k = if bit1 mask.toNat k = 1 then 0 else bit1 (s.rd 0x380004) k) ∧
      ChangesOnly [] (regsAt [0x380004]) s t) ∧
  (∀ (n : Fin 22) (v : W32) (s : State), n.val ≠ 0 → s.blkOn 1 = true → bitsOf v.toNat 3 0 ∈ [1, 2, 4, 8] →
    ∃ t, exec (.sysIntRouteWrite n v) s = .next t ∧ t.get (F.SYS_INT_ROUTE_CORE n.val) = bitsOf v.toNat 3 0 ∧
      t.get (F.SYS_INT_ROUTE_EN n.val) = bitsOf v.toNat (F.SYS_INT_ROUTE_EN n.val).hi (F.SYS_INT_ROUTE_EN n.val).lo ∧
      t.get (F.SYS_INT_ROUTE_PRIO n.val) = bitsOf v.toNat (F.SYS_INT_ROUTE_PRIO n.val).hi (F.SYS_INT_ROUTE_PRIO n.val).lo ∧
      ChangesOnly [] (regsAt [Reg.SYS_INT_ROUTE n.val]) s t) ∧
  (∀ (n : Fin 22) (v : W32) (s : State), n.val ≠ 0 → s.blkOn 1 = true → bitsOf v.toNat 3 0 ∉ [1, 2, 4, 8] →
    exec (.sysIntRouteWrite n v) s = .next s) ∧
  (∀ (v : W32) (s : State), s.blkOn 1 = true →
    exec (.sysWdtKick v) s = .next (if bitsOf v.toNat 7 0 = 0xA5 then { s with sys := { s.sys with wdtAt := s.clk } } else s))

/-- A requested gate of a domain that is on and drained switches it off and leaves the other domains; a gate that is not requested or not
drained changes nothing. A clock that a domain that is on uses sets its LOST bit when it stops (CLK_RELAY while a receiver is locked, a
safety channel's clock while its frames arrive); otherwise nothing changes. (R15, R21, R556, R557) -/
def Obligations.DomainGateAndClockLoss : Prop :=
  (∀ (d : Fin 11) (s : State), s.sys.gates.contains d.val = true → s.pdOn d.val = true → s.drained d.val = true →
    ∃ t, exec (.domainGate d) s = .next t ∧ t.pdOn d.val = false ∧ (∀ k, k < 11 → k ≠ d.val → t.pdOn k = s.pdOn k) ∧
      t.sys.gates = s.sys.gates.filter (· != d.val) ∧ (d.val = 2 → ∀ c ∈ t.mem, inSram c.1 = false) ∧ Leaves [.pending, .safe, .mirror, .keys, .upd, .cfgMem, .clk] s t) ∧
  (∀ (d : Fin 11) (s : State), (s.sys.gates.contains d.val = false ∨ s.pdOn d.val = false ∨ s.drained d.val = false) →
    exec (.domainGate d) s = .next s) ∧
  (∀ (k : Fin 10) (s : State), s.clkUsed k.val = true → (k.val = 4 ∨ k.val = 7 ∨ k.val = 8 → s.clkOk k.val = true) →
    ∃ t, exec (.clockLost k) s = .next t ∧ bit1 (t.get F.SYS_CLK_STAT_LOST) k.val = 1 ∧ (k.val ∉ [7, 8] → t.clkOk k.val = false) ∧
      Leaves [.pending, .mem, .safe, .keys, .upd, .cfgMem, .clk] s t) ∧
  (∀ (k : Fin 10) (s : State), (s.clkUsed k.val = false ∨ (k.val = 4 ∨ k.val = 7 ∨ k.val = 8) ∧ s.clkOk k.val = false) →
    exec (.clockLost k) s = .next s)

/-- For every request command on an open session that fails one of steps 8 to 14 of Table 3.9 (first clause), is malformed for its opcode
at step 7 (second clause), or passes them all and is refused by its block (third clause), after steps 1 to 6 have passed and not being
carried to another module: one packet goes out, the refusal with its status and results, and nothing else changes but the time of the
session's last packet: no item, no cache entry, no register. (R80, R81) -/
def Obligations.RefusalChangesNothing : Prop :=
  (∀ (c : Instr) (d : OpDef) (relay : State → Q → Option State) (r : Req) (s : State) (x : Session) (ts : List Tlv) (f : Refuse),
    batonOf c = some (d, relay, r) → s.session? r.sess.val = some x → x.version = some r.version.toNat → framing r = .ok ts →
    d.code ≠ 1 → r.tenant.toNat = x.tag → s.item? x.owner r.item.toNat = none → s.cached? x.owner r.item.toNat = none →
    d.since ≤ r.version.toNat →
    (let q : Q := ⟨r, x.tag, x.owner, r.version.toNat, some r.sess.val, x.port, ts⟩
     tlvFault d.schema r.version.toNat ts = none ∧ d.form (s.heard r) q = none ∧
      (s.start.phase = .recovery ∨ relay (s.heard r) q = none) ∧ d.later (s.heard r) q = some f) →
    ∃ t, exec c s = .next t ∧ OnlyAnswered s t r x fReply d.code f.status.code (f.results r.version.toNat)) ∧
  (∀ (c : Instr) (d : OpDef) (relay : State → Q → Option State) (r : Req) (s : State) (x : Session) (ts : List Tlv) (f : Refuse),
    batonOf c = some (d, relay, r) → s.session? r.sess.val = some x → x.version = some r.version.toNat → framing r = .ok ts →
    d.code ≠ 1 → r.tenant.toNat = x.tag → s.item? x.owner r.item.toNat = none → s.cached? x.owner r.item.toNat = none →
    d.since ≤ r.version.toNat → tlvFault d.schema r.version.toNat ts = some f →
    ∃ t, exec c s = .next t ∧ OnlyAnswered s t r x fReply d.code f.status.code (f.results r.version.toNat)) ∧
  (∀ (c : Instr) (d : OpDef) (relay : State → Q → Option State) (r : Req) (s : State) (x : Session) (ts : List Tlv) (f : Refuse),
    batonOf c = some (d, relay, r) → s.session? r.sess.val = some x → x.version = some r.version.toNat → framing r = .ok ts →
    d.code ≠ 1 → r.tenant.toNat = x.tag → s.item? x.owner r.item.toNat = none → s.cached? x.owner r.item.toNat = none →
    d.since ≤ r.version.toNat →
    (let q : Q := ⟨r, x.tag, x.owner, r.version.toNat, some r.sess.val, x.port, ts⟩
     s.blkOn d.blk = true ∧ passes d relay r s = some q ∧
      (match d.run (d.begun (s.heard r) q) q with | .refuse g => some g | _ => none) = some f) →
    ∃ t, exec c s = .next t ∧ OnlyAnswered s t r x fReply d.code f.status.code (f.results r.version.toNat))

/-- For every request command that is no session opcode and reaches step 5: with its key in flight the reply is PENDING; with its key in
the completion cache the reply has the flag CACHED, the cached status and opcode and no results; either way nothing changes but the one
packet sent and the session's time. (R85, R82, R84) -/
def Obligations.RepeatedItemIsNotRunAgain : Prop :=
  (∀ (c : Instr) (d : OpDef) (relay : State → Q → Option State) (r : Req) (s : State) (x : Session) (ts : List Tlv), batonOf c = some (d, relay, r) → s.session? r.sess.val = some x →
    x.version = some r.version.toNat → framing r = .ok ts → d.session = false → d.code ≠ 1 → r.tenant.toNat = x.tag →
    (s.item? x.owner r.item.toNat).isSome = true →
    ∃ t, exec c s = .next t ∧ OnlyAnswered s t r x fReply d.code Status.pending.code ([])) ∧
  (∀ (c : Instr) (d : OpDef) (relay : State → Q → Option State) (r : Req) (s : State) (x : Session) (ts : List Tlv) (e : CacheEntry), batonOf c = some (d, relay, r) → s.session? r.sess.val = some x →
    x.version = some r.version.toNat → framing r = .ok ts → d.session = false → d.code ≠ 1 → r.tenant.toNat = x.tag →
    s.item? x.owner r.item.toNat = none → s.cached? x.owner r.item.toNat = some e →
    ∃ t, exec c s = .next t ∧ OnlyAnswered s t r x (fReply + fCached) e.opcode e.status [])

/-- A request on a slot without a session changes nothing. After negotiation a request of another version, or a second HELLO, is
BAD_VERSION; one of the right version that breaks framing is refused with its reason; one with another tenant byte is DENIED; an
undefined opcode that passes these is BAD_OPCODE, whatever TLVs it carries. None of them changes anything but the one packet sent and
the session's time. (R70, R65, R68, R71) -/
def Obligations.FramingVersionAndTenantChecks : Prop :=
  (∀ (c : Instr) (d : OpDef) (relay : State → Q → Option State) (r : Req) (s : State), batonOf c = some (d, relay, r) →
    s.session? r.sess.val = none → exec c s = .next s) ∧
  (∀ (c : Instr) (d : OpDef) (relay : State → Q → Option State) (r : Req) (s : State) (x : Session) (v : Nat), batonOf c = some (d, relay, r) →
    s.session? r.sess.val = some x → x.version = some v → (r.version.toNat ≠ v ∨ d.code = 1) →
    ∃ t, exec c s = .next t ∧ OnlyAnswered s t r x fReply d.code Status.badVersion.code ([])) ∧
  (∀ (c : Instr) (d : OpDef) (relay : State → Q → Option State) (r : Req) (s : State) (x : Session) (f : Refuse), batonOf c = some (d, relay, r) → s.session? r.sess.val = some x →
    x.version = some r.version.toNat → framing r = .error f → d.code ≠ 1 →
    ∃ t, exec c s = .next t ∧ OnlyAnswered s t r x fReply d.code f.status.code (f.results r.version.toNat)) ∧
  (∀ (c : Instr) (d : OpDef) (relay : State → Q → Option State) (r : Req) (s : State) (x : Session) (ts : List Tlv), batonOf c = some (d, relay, r) → s.session? r.sess.val = some x →
    x.version = some r.version.toNat → framing r = .ok ts → d.code ≠ 1 → r.tenant.toNat ≠ x.tag →
    ∃ t, exec c s = .next t ∧ OnlyAnswered s t r x fReply d.code Status.denied.code ([])) ∧
  (∀ (op : BitVec 16) (r : Req) (s : State) (x : Session) (ts : List Tlv), s.session? r.sess.val = some x →
    x.version = some r.version.toNat → framing r = .ok ts → op.toNat ≠ 1 → r.tenant.toNat = x.tag → s.item? x.owner r.item.toNat = none →
    s.cached? x.owner r.item.toNat = none →
    ∃ t, exec (.undefinedOpcode op r) s = .next t ∧ OnlyAnswered s t r x fReply op.toNat Status.badOpcode.code [])

/-- HELLO with a common version negotiates the highest one and answers VERSION, VERSION_RANGE and LIMITS on it; without one it is
BAD_VERSION with VERSION_RANGE. PING answers OK. ITEM_STATUS answers PENDING for an own item in flight, its final status from the
cache, else UNKNOWN_ITEM. CANCEL of an ended item reports its final status and of an unknown one UNKNOWN_ITEM; of an own item in flight
that is neither relayed nor a CAN request and before its point of no return it answers ABORTED_CANCEL, and past that point PENDING.
CLOSE answers OK and closes the session. None is entered in the item table or the completion cache; the items of a closed session run
on without it. (R69, R74, R87, R62) -/
def Obligations.SessionOpcodes : Prop :=
  (∀ r s q v, admitted? (.hello r) s = some q →
    ([0x20, 0x30, 0x31].filter fun x => beAt (tv q.tlvs 0x000B) 0 1 ≤ x && x ≤ beAt (tv q.tlvs 0x000B) 1 1).getLast? = some v →
    ∃ t, exec (.hello r) s = .next t ∧ Answered t q 1 .ok 0
        (tlv 0x000C (natBE 1 v) ++ tlv 0x000B [0x20, 0x31] ++ tlv 0x000D (natBE 2 1400 ++ natBE 2 32 ++ natBE 2 64 ++ natBE 2 10)) ∧
      (t.session? r.sess.val).map (·.version) = some (some v) ∧ t.baton.items = s.baton.items ∧ t.baton.cache = s.baton.cache ∧
      ChangesOnly [.out, .ethTx, .baton, .limiters, .evr] (answerWords q) s t) ∧
  (∀ r s q, admitted? (.hello r) s = some q →
    ([0x20, 0x30, 0x31].filter fun x => beAt (tv q.tlvs 0x000B) 0 1 ≤ x && x ≤ beAt (tv q.tlvs 0x000B) 1 1).getLast? = none →
    ∃ t, exec (.hello r) s = .next t ∧ Answered t q 1 .badVersion 0 (tlv 0x000B [0x20, 0x31]) ∧ t.baton = (s.heard r).baton ∧ ChangesOnly sessionParts (portWords q.port) s t) ∧
  (∀ r s q, admitted? (.ping r) s = some q →
    ∃ t, exec (.ping r) s = .next t ∧ Answered t q 2 .ok 0 [] ∧ t.baton = (s.heard r).baton ∧ ChangesOnly sessionParts (portWords q.port) s t) ∧
  (∀ r s q, admitted? (.itemStatus r) s = some q →
    ∃ t, exec (.itemStatus r) s = .next t ∧ t.baton = (s.heard r).baton ∧ ChangesOnly sessionParts (portWords q.port) s t ∧
      (if (s.item? q.owner (tn q.tlvs 0x0009)).isSome then Answered t q 3 .ok 0 (tlv 0x000A [0x00, 0x01])
       else match s.cached? q.owner (tn q.tlvs 0x0009) with
        | some e => Answered t q 3 .ok 0 (tlv 0x000A (natBE 2 e.status))
        | none => Answered t q 3 .unknownItem 0 [])) ∧
  (∀ r s q, admitted? (.cancel r) s = some q → s.item? q.owner (tn q.tlvs 0x0009) = none →
    ∃ t, exec (.cancel r) s = .next t ∧ t.baton = (s.heard r).baton ∧ ChangesOnly sessionParts (portWords q.port) s t ∧
      match s.cached? q.owner (tn q.tlvs 0x0009) with
      | some e => Answered t q 4 .ok 0 (tlv 0x000A (natBE 2 e.status))
      | none => Answered t q 4 .unknownItem 0 []) ∧
  (∀ r s q i, admitted? (.cancel r) s = some q → s.item? q.owner (tn q.tlvs 0x0009) = some i → i.wait ≠ .relayed → i.ponr = true →
    ∃ t, exec (.cancel r) s = .next t ∧ Answered t q 4 .ok 0 (tlv 0x000A [0x00, 0x01]) ∧ t.baton = (s.heard r).baton ∧ ChangesOnly sessionParts (portWords q.port) s t) ∧
  (∀ r s q i, admitted? (.cancel r) s = some q → s.item? q.owner (tn q.tlvs 0x0009) = some i → i.wait ≠ .relayed → i.wait ≠ .canSend →
    i.ponr = false → s.cached? q.owner (tn q.tlvs 0x0009) = none →
    ∃ t, exec (.cancel r) s = .next t ∧ Answered t q 4 .ok 0 (tlv 0x000A [0x01, 0x02]) ∧ t.item? q.owner (tn q.tlvs 0x0009) = none ∧
      Leaves [.pending, .mem, .safe, .estate, .keys, .cfgMem, .clk, .dma, .uio, .can, .met] s t) ∧
  (∀ r s q, admitted? (.close r) s = some q →
    ∃ t, exec (.close r) s = .next t ∧ Answered t q 5 .ok 0 [] ∧ t.session? r.sess.val = none ∧
      t.baton.items = s.baton.items.map (Item.orphan r.sess.val) ∧ t.baton.cache = s.baton.cache ∧
      ChangesOnly [.out, .ethTx, .baton, .limiters, .evr] (answerWords q) s t)

/-- A client handshake on an enabled port of a running module, with a free slot and a certificate that no check of Table 18.4 fails, opens
one session in that slot with the certificate's tag and identity; one whose certificate fails a check opens none. A short record on an
open session changes only what reports it, and raises BATON_RUNT where none has been raised for the session. After 300 s without a
packet a session closes, and on a DTLS error at once, with SESSION_CLOSED; its items run on and the cache stays. The oldest entry of
the completion cache leaves 10 minutes after it was entered. (R62, R63, R478, R84, R60) -/
def Obligations.SessionsOpenAndClose : Prop :=
  (∀ (want : Fin 64) (port : Fin 5) (c : Cert) (k : Nat) (s : State), s.pdOn 4 = true → s.start.phase = .running →
    (port.val = 4 ∨ s.get (F.ETH_PCFG_EN port.val) = 1) → s.freeSlot want.val = some k → s.certFault c none = none →
    ∃ t, exec (.handshake want port (some c) true none) s = .next t ∧
      t.baton = { s.baton with sessions := s.baton.sessions ++
        [⟨k, c.tag.toNat, c.owner, c.serials.map BitVec.toNat, c.trust.val, none, s.clk, [], port.val⟩] } ∧
      t.keys = { s.keys with unchecked := t.keys.unchecked } ∧ ChangesOnly [.baton, .keys, .limiters, .evr] evWords s t) ∧
  (∀ (want : Fin 64) (port : Fin 5) (c : Cert) (n k : Nat) (s : State), s.pdOn 4 = true → s.start.phase = .running →
    (port.val = 4 ∨ s.get (F.ETH_PCFG_EN port.val) = 1) → s.freeSlot want.val = some k → s.certFault c none = some n →
    ∃ t, exec (.handshake want port (some c) true none) s = .next t ∧ t.keys = { s.keys with unchecked := t.keys.unchecked } ∧
      ChangesOnly [.keys, .limiters, .evr] (regsOr evWords (regsAt [0x680004])) s t) ∧
  (∀ (k : Fin 64) (s : State), (s.session? k.val).isSome = true →
    ∃ t, exec (.runtRecord k true) s = .next t ∧ ChangesOnly [.evr, .limiters] evWords s t ∧
      (s.limiters.any (fun l => l.code == 0x0012 && l.inst == k.val) = false → s.evr.queue.length < 256 →
        t.evr.queue.any (fun i => i.ev.code == 0x0012 && i.ev.ts == s.tsNow) = true)) ∧
  (∀ (k : Fin 64) (s : State), exec (.runtRecord k false) s = .next s) ∧
  (∀ (k : Fin 64) (x : Session) (s : State), s.session? k.val = some x →
    ∃ t, exec (.sessionIdleTimeout k) s = .next t ∧ t.session? k.val = none ∧ t.clk = max s.clk (x.last + 300 * sec) ∧
      t.baton.items = s.baton.items.map (Item.orphan k.val) ∧ t.baton.cache = s.baton.cache ∧
      (s.evr.queue.length < 256 → t.evr.queue.any (fun i => i.ev.code == 0x0011 && i.ev.tag == x.tag) = true) ∧
      ChangesOnly [.clk, .baton, .limiters, .evr] evWords s t) ∧
  (∀ (k : Fin 64) (x : Session) (s : State), s.session? k.val = some x →
    ∃ t, exec (.dtlsError k) s = .next t ∧ t.session? k.val = none ∧ t.baton.items = s.baton.items.map (Item.orphan k.val) ∧
      t.baton.cache = s.baton.cache ∧ (s.evr.queue.length < 256 → t.evr.queue.any (fun i => i.ev.code == 0x0011 && i.ev.tag == x.tag) = true) ∧
      ChangesOnly [.baton, .limiters, .evr] evWords s t) ∧
  (∀ (e : CacheEntry) (rest : List CacheEntry) (s : State), s.baton.cache = e :: rest →
    ∃ t, exec .cacheEntryExpiry s = .next t ∧ t.baton = { s.baton with cache := rest } ∧ t.clk = max s.clk (e.since + 600 * sec) ∧
      ChangesOnly [.clk, .baton] noReg s t)

/-- An admitted OBJ_READ of an address served here answers OK. Of one element: its record. Of a whole object: the header and the elements
in order, up to 52; of the unit: COUNT and the visible objects in order, up to 172; of a group that the module anchors: its four
aggregates to the operator, none to a tenant. What does not fit sets MORE, and from session version 3.0 on the reply carries the handle
of a new cursor, which holds the rest. OBJ_READ_NEXT answers the next page of its held cursor. Beside what every request changes, they
change the session's cursors alone. (R75, R76, R51, R42) -/
def Obligations.ObjectReads : Prop :=
  (∀ r s q h vs v, admitted? (.objRead r) s = some q → addrObj (tAddr q.tlvs) ≠ 0 → addrElem (tAddr q.tlvs) ≠ 0 → s.served (tAddr q.tlvs) = some (h, vs) → vs[addrElem (tAddr q.tlvs) - 1]? = some v →
    ∃ t, exec (.objRead r) s = .next t ∧
      Answered t q 0x0101 .ok 0 (elemTlv (addrElem (tAddr q.tlvs)) v) ∧ ChangesOnly batonParts (answerWords q) s t) ∧
  (∀ r s q h vs, admitted? (.objRead r) s = some q → addrObj (tAddr q.tlvs) ≠ 0 → addrElem (tAddr q.tlvs) = 0 → s.served (tAddr q.tlvs) = some (h, vs) → vs.length ≤ 52 →
    ∃ t, exec (.objRead r) s = .next t ∧
      Answered t q 0x0101 .ok 0 (tlv 0x0003 h ++ (((List.range vs.length).zip vs).map fun p => elemTlv (p.1 + 1) p.2).flatten) ∧ ChangesOnly batonParts (answerWords q) s t) ∧
  (∀ r s q h vs, admitted? (.objRead r) s = some q → addrObj (tAddr q.tlvs) ≠ 0 → addrElem (tAddr q.tlvs) = 0 → s.served (tAddr q.tlvs) = some (h, vs) → 52 < vs.length → 0x30 ≤ q.ver →
    ∃ t, exec (.objRead r) s = .next t ∧
      Answered t q 0x0101 .ok fMore (tlv 0x0003 h ++ ((((List.range vs.length).zip vs).map fun p => elemTlv (p.1 + 1) p.2).take 52).flatten ++ tlv 0x0005 (natBE 4 s.baton.nextCursor)) ∧
      t.baton.nextCursor = (s.baton.nextCursor + 1) % 2 ^ 32 ∧
      (t.session? r.sess.val).bind (fun x => x.cursors.getLast?) = some ⟨s.baton.nextCursor, 0x0101, (((List.range vs.length).zip vs).map fun p => elemTlv (p.1 + 1) p.2).drop 52, 52, s.clk⟩ ∧ ChangesOnly batonParts (answerWords q) s t) ∧
  (∀ r s q h vs, admitted? (.objRead r) s = some q → addrObj (tAddr q.tlvs) ≠ 0 → addrElem (tAddr q.tlvs) = 0 → s.served (tAddr q.tlvs) = some (h, vs) → 52 < vs.length → q.ver < 0x30 →
    ∃ t, exec (.objRead r) s = .next t ∧
      Answered t q 0x0101 .ok fMore (tlv 0x0003 h ++ ((((List.range vs.length).zip vs).map fun p => elemTlv (p.1 + 1) p.2).take 52).flatten) ∧ ChangesOnly batonParts (answerWords q) s t) ∧
  (∀ r s q, admitted? (.objRead r) s = some q → addrObj (tAddr q.tlvs) = 0 → s.servedGroup (tAddr q.tlvs) = none → (s.visibleObjs q.tag).length ≤ 172 →
    ∃ t, exec (.objRead r) s = .next t ∧
      Answered t q 0x0101 .ok 0 (tlv 0x0008 (natBE 2 (s.visibleObjs q.tag).length) ++ ((s.visibleObjs q.tag).map fun x => tlv 0x000F (natBE 2 x.num ++ natBE 1 x.typ ++ natBE 1 x.tag)).flatten) ∧ ChangesOnly batonParts (answerWords q) s t) ∧
  (∀ r s q, admitted? (.objRead r) s = some q → addrObj (tAddr q.tlvs) = 0 → s.servedGroup (tAddr q.tlvs) = none → 172 < (s.visibleObjs q.tag).length → 0x30 ≤ q.ver →
    ∃ t, exec (.objRead r) s = .next t ∧
      Answered t q 0x0101 .ok fMore (tlv 0x0008 (natBE 2 (s.visibleObjs q.tag).length) ++ (((s.visibleObjs q.tag).map fun x => tlv 0x000F (natBE 2 x.num ++ natBE 1 x.typ ++ natBE 1 x.tag)).take 171).flatten ++ tlv 0x0005 (natBE 4 s.baton.nextCursor)) ∧
      t.baton.nextCursor = (s.baton.nextCursor + 1) % 2 ^ 32 ∧
      (t.session? r.sess.val).bind (fun x => x.cursors.getLast?) = some ⟨s.baton.nextCursor, 0x0101, ((s.visibleObjs q.tag).map fun x => tlv 0x000F (natBE 2 x.num ++ natBE 1 x.typ ++ natBE 1 x.tag)).drop 171, 171, s.clk⟩ ∧ ChangesOnly batonParts (answerWords q) s t) ∧
  (∀ r s q g, admitted? (.objRead r) s = some q → addrObj (tAddr q.tlvs) = 0 → s.servedGroup (tAddr q.tlvs) = some g →
    ∃ t, exec (.objRead r) s = .next t ∧
      Answered t q 0x0101 .ok 0 (if q.tag = 0 then tlv 0x0008 [0, 4] ++ tlv 0x000F [0, 1, tyCircuit, 0] ++ tlv 0x000F [0, 2, tyThermal, 0] ++
        tlv 0x000F [0, 3, tyPlan, 0] ++ tlv 0x000F [0, 4, tyMSV, 0] else tlv 0x0008 [0, 0]) ∧ ChangesOnly batonParts (answerWords q) s t) ∧
  (∀ r s q c, admitted? (.objReadNext r) s = some q → cursor? s q 0x0101 (tn q.tlvs 0x0005) = some c →
    ∃ t, exec (.objReadNext r) s = .next t ∧
      (if c.rest.length ≤ c.per then Answered t q 0x0102 .ok 0 c.rest.flatten
       else Answered t q 0x0102 .ok fMore ((c.rest.take c.per).flatten ++ tlv 0x0005 (natBE 4 (tn q.tlvs 0x0005)))) ∧
      ChangesOnly batonParts (answerWords q) s t)

/-- Admitted: OBJ_WRITE of an object that is assigned to no loop answers OK, and each element written holds its value and timestamp (the
time of receipt where that is 0), GOOD and kept, every other object being as before; of a LOOP object whose writes its loop takes it
answers OK. OBJ_CREATE of a free number adds the object with its type, tag and Count, all elements 0 and COLD; of a used number it ends
FAILED with reason 0x0009. OBJ_DELETE of an object that nothing binds removes it and its lock; of a bound one it is BUSY and changes
nothing. OBJ_SET_TAG to the same tag changes nothing; to another tag, of an object that takes no tag from a circuit, gives that tag and
raises RETAG. OBJ_LOCK holds the object for the identity for LOCK_TIME from now, OBJ_UNLOCK ends any lock on it, UNIT_CLEAR_SUSPECT
clears the mark. A lock expires when its time has run out, a cursor is released 10 s after its last page, and a GOOD element with a
freshness limit goes STALE when its age has passed it. (R40, R77, R78, R79, R552, R56, R58) -/
def Obligations.ObjectWritesAndLocks : Prop :=
  (∀ r s q x, admitted? (.objWrite r) s = some q → qObj s q = some x → x.typ ≠ tyLoop → s.loopOfObj x.num = none →
    ∃ t, exec (.objWrite r) s = .next t ∧ Answered t q 0x0103 .ok 0 [] ∧
      (∀ w ∈ eWrites q, (t.elem? x.num w.e).map (fun e => (e.value, e.ts, e.src, e.kept)) = some (w.v, if w.ts = 0 then s.tsNow else w.ts, qGood, true)) ∧
      (∀ n, n ≠ x.num → t.obj? n = s.obj? n) ∧ Leaves [.pending, .mem, .safe, .keys, .upd, .clk, .can, .furun, .pacer, .met] s t) ∧
  (∀ r s q x, admitted? (.objWrite r) s = some q → qObj s q = some x → x.typ = tyLoop → (∀ w ∈ eWrites q, s.loopVet x.num w.e w.v = none) →
    ∃ t, exec (.objWrite r) s = .next t ∧ Answered t q 0x0103 .ok 0 [] ∧ Leaves [.pending, .mem, .safe, .keys, .upd, .clk, .furun, .met] s t) ∧
  (∀ r s q, admitted? (.objCreate r) s = some q → s.obj? (addrObj (tAddr q.tlvs)) = none →
    ∃ t, exec (.objCreate r) s = .next t ∧ Answered t q 0x0104 .ok 0 [] ∧
      (∃ x, t.obj? (addrObj (tAddr q.tlvs)) = some x ∧ x.typ = tn q.tlvs 0x0006 ∧ x.tag = tn q.tlvs 0x0007 ∧ x.count = tn q.tlvs 0x0008 ∧
        ∀ e ∈ x.elems, e.value = 0 ∧ e.src = qCold) ∧
      (∀ n, n ≠ (addrObj (tAddr q.tlvs)) → t.obj? n = s.obj? n) ∧ ChangesOnly (.estate :: batonParts) (answerWords q) s t) ∧
  (∀ r s q, admitted? (.objCreate r) s = some q → (s.obj? (addrObj (tAddr q.tlvs))).isSome = true →
    ∃ t, exec (.objCreate r) s = .next t ∧ Answered t q 0x0104 .failed 0 (if 0x31 ≤ q.ver then tlv 0x000E (natBE 2 0xFFFF ++ natBE 2 0x0009) else []) ∧
      ChangesOnly batonParts (answerWords q) s t) ∧
  (∀ r s q, admitted? (.objDelete r) s = some q → s.objBound (addrObj (tAddr q.tlvs)) = false → s.replicated (addrObj (tAddr q.tlvs)) = false →
    ∃ t, exec (.objDelete r) s = .next t ∧ Answered t q 0x0105 .ok 0 [] ∧ t.obj? (addrObj (tAddr q.tlvs)) = none ∧
      (∀ n, n ≠ (addrObj (tAddr q.tlvs)) → t.obj? n = s.obj? n) ∧ (∀ l ∈ t.baton.locks, l.obj ≠ (addrObj (tAddr q.tlvs))) ∧
      ChangesOnly (.estate :: .furun :: batonParts) (regsOr (answerWords q) (regsAt [Reg.LAP_STAT])) s t) ∧
  (∀ r s q, admitted? (.objDelete r) s = some q → s.objBound (addrObj (tAddr q.tlvs)) = false → s.replicated (addrObj (tAddr q.tlvs)) = true →
    ∃ t, exec (.objDelete r) s = .next t ∧ Answered t q 0x0105 .ok 0 [] ∧ t.obj? (addrObj (tAddr q.tlvs)) = none ∧
      (∀ n, n ≠ (addrObj (tAddr q.tlvs)) → t.obj? n = s.obj? n) ∧ (∀ l ∈ t.baton.locks, l.obj ≠ (addrObj (tAddr q.tlvs))) ∧ Leaves [.pending, .mem, .safe, .keys, .upd, .clk, .cfgMem] s t) ∧
  (∀ r s q, admitted? (.objDelete r) s = some q → s.objBound (addrObj (tAddr q.tlvs)) = true →
    ∃ t, exec (.objDelete r) s = .next t ∧ Answered t q 0x0105 .busy 0 (if 0x31 ≤ q.ver then tlv 0x000E (natBE 2 0xFFFF ++ natBE 2 0x000A) else []) ∧ t.baton = (s.heard r).baton ∧ ChangesOnly sessionParts (portWords q.port) s t) ∧
  (∀ r s q x, admitted? (.objSetTag r) s = some q → qObj s q = some x → x.tag = tn q.tlvs 0x0007 →
    ∃ t, exec (.objSetTag r) s = .next t ∧ Answered t q 0x0106 .ok 0 [] ∧ ChangesOnly batonParts (answerWords q) s t) ∧
  (∀ r s q x, admitted? (.objSetTag r) s = some q → qObj s q = some x → x.tag ≠ tn q.tlvs 0x0007 → s.tagTied x = false →
    ∃ t, exec (.objSetTag r) s = .next t ∧ Answered t q 0x0106 .ok 0 [] ∧ (t.obj? x.num).map (·.tag) = some (tn q.tlvs 0x0007) ∧
      (s.evr.queue.length < 256 → t.evr.queue.any (fun i => i.ev.code == 0x0B30 && i.ev.obj == x.num) = true) ∧
      Leaves [.pending, .mem, .safe, .keys, .upd, .clk, .uio, .can, .dma] s t) ∧
  (∀ r s q, admitted? (.objLock r) s = some q →
    ∃ t, exec (.objLock r) s = .next t ∧ Answered t q 0x0107 .ok 0 [] ∧
      t.baton.locks = (s.baton.locks.filter fun x => x.obj != (addrObj (tAddr q.tlvs))) ++
        [⟨(addrObj (tAddr q.tlvs)), q.owner, s.clk + tn q.tlvs 0x0010 * sec⟩] ∧ ChangesOnly batonParts (answerWords q) s t) ∧
  (∀ r s q, admitted? (.objUnlock r) s = some q →
    ∃ t, exec (.objUnlock r) s = .next t ∧ Answered t q 0x0108 .ok 0 [] ∧
      t.baton.locks = (s.baton.locks.filter fun x => x.obj != (addrObj (tAddr q.tlvs))) ∧ ChangesOnly batonParts (answerWords q) s t) ∧
  (∀ r s q, admitted? (.unitClearSuspect r) s = some q →
    ∃ t, exec (.unitClearSuspect r) s = .next t ∧ Answered t q 0x0109 .ok 0 [] ∧
      t.furun = { s.furun with suspects := s.furun.suspects.filter fun u => u != addrOf (tAddr q.tlvs) 0 0 } ∧
      ChangesOnly (.furun :: batonParts) (answerWords q) s t) ∧
  (∀ (o : BitVec 13) (l : Lock) (s : State), s.baton.locks.find? (fun l => l.obj == o.toNat) = some l →
    ∃ t, exec (.lockExpiry o) s = .next t ∧ t.clk = max s.clk l.till ∧
      t.baton = { s.baton with locks := s.baton.locks.filter fun k => k.obj != o.toNat } ∧ ChangesOnly [.clk, .baton] noReg s t) ∧
  (∀ (k : Fin 64) (h : W32) (x : Session) (c : Cursor) (s : State), s.session? k.val = some x →
    x.cursors.find? (fun c => c.handle == h.toNat) = some c →
    ∃ t, exec (.cursorRelease k h) s = .next t ∧ t.clk = max s.clk (c.last + 10 * sec) ∧
      (t.session? k.val).map (·.cursors) = some (x.cursors.filter fun d => d.handle != h.toNat) ∧ ChangesOnly [.clk, .baton] noReg s t) ∧
  (∀ (o : BitVec 13) (e : Byte) (x : Elem) (s : State), s.elem? o.toNat e.toNat = some x → x.fresh ≠ 0 → x.src = qGood →
    ∃ t, exec (.elementStale o e) s = .next t ∧ t.elem? o.toNat e.toNat = some { x with src := qStale } ∧
      t.clk = max s.clk (nsOfTs x.ts + (x.fresh * msec : Nat) + 1 - s.sysOfs).toNat ∧ ChangesOnly [.clk, .estate] noReg s t)

/-- An admitted DRILL_LOAD of a number that no instance binds puts the image in the library under it; DRILL_READ answers the image;
DRILL_DELETE of an unbound number removes it; DRILL_BIND writes the instance's binding and, where it binds a drill, clears the
persistent words and (stated for hosts other than EVR, whose count the event of the binding may move) the counts; DRILL_STAT answers
number, enable and counts. (R105, R111, R112) -/
def Obligations.DrillOpcodes : Prop :=
  (∀ r s q, admitted? (.drillLoad r) s = some q → s.drillBound (tn q.tlvs 0x1101) = false →
    ∃ t, exec (.drillLoad r) s = .next t ∧ Answered t q 0x1101 .ok 0 ([]) ∧
      t.drill = { s.drill with lib := (s.drill.lib.filter fun p => p.1 != (tn q.tlvs 0x1101)) ++ [((tn q.tlvs 0x1101), tv q.tlvs 0x1102)] } ∧
      ChangesOnly (.drill :: batonParts) (answerWords q) s t) ∧
  (∀ r s q img, admitted? (.drillRead r) s = some q → (s.drill.lib.find? fun p => p.1 == (tn q.tlvs 0x1101)) = some ((tn q.tlvs 0x1101), img) →
    ∃ t, exec (.drillRead r) s = .next t ∧ Answered t q 0x1102 .ok 0 (tlv 0x1102 img) ∧ ChangesOnly batonParts (answerWords q) s t) ∧
  (∀ r s q, admitted? (.drillDelete r) s = some q → s.drillBound (tn q.tlvs 0x1101) = false →
    ∃ t, exec (.drillDelete r) s = .next t ∧ Answered t q 0x1103 .ok 0 ([]) ∧
      t.drill = { s.drill with lib := s.drill.lib.filter fun p => p.1 != (tn q.tlvs 0x1101) } ∧
      ChangesOnly (.drill :: batonParts) (answerWords q) s t) ∧
  (∀ r s q, admitted? (.drillBind r) s = some q →
    let h := tn q.tlvs 0x1103
    ∃ t, exec (.drillBind r) s = .next t ∧ Answered t q 0x1104 .ok 0 [] ∧ t.get (F.DRILL_BIND_EN h) = tn q.tlvs 0x1104 ∧
      t.get (F.DRILL_BIND_NUM h) = (if tn q.tlvs 0x1104 = 1 then tn q.tlvs 0x1101 else 0) ∧
      (tn q.tlvs 0x1104 = 1 → h ≠ 37 → t.rd (Reg.DRILL_CNT h) = 0) ∧
      (t.inst h).pers = (if tn q.tlvs 0x1104 = 1 then [0, 0, 0, 0] else (s.inst h).pers) ∧ t.drill.lib = s.drill.lib ∧
      ChangesOnly (.drill :: .cfgMem :: batonParts) (regsOr (answerWords q) (regsAt [Reg.DRILL_BIND h, Reg.DRILL_CNT h])) s t) ∧
  (∀ r s q, admitted? (.drillStat r) s = some q →
    let h := tn q.tlvs 0x1103
    ∃ t, exec (.drillStat r) s = .next t ∧ Answered t q 0x1105 .ok 0
      (tlv 0x1101 (natBE 1 (s.get (F.DRILL_BIND_NUM h))) ++ tlv 0x1104 (natBE 1 (s.get (F.DRILL_BIND_EN h))) ++
        tlv 0x1105 (natBE 2 (s.get (F.DRILL_CNT_OVERRUN h)) ++ natBE 2 (s.get (F.DRILL_CNT_FAULT h)) ++ natBE 8 (s.inst h).runs)) ∧
      ChangesOnly batonParts (answerWords q) s t)

/-- Every image that the loader accepts ends, on any host fields, with a verdict that its host kind defines, after visiting each
instruction at most once. DRILL_RUN on EVR gives the first waiting event its verdict, on RELAY it hands the entries that a COMMIT has
written to the map in the relay, and a REJECT without ACT on a CAN channel leaves the channels as they are (each stated for a run
without a fault); on any instance whose drill has been removed it takes the oldest trigger from the queue; in a block that is off, or
with nothing waiting, it changes nothing. (R105, R107, R108, R109, R110) -/
def Obligations.DrillRunsAndVerdicts : Prop :=
  (∀ (img : Bytes) (fields : List (Nat × W32)), imageOk img = true → verdictCount (drillKind img) > (drillGo img fields).verdict) ∧
  (∀ (i : Ingest) (s : State), s.blkOn 15 = true → s.evr.queue.find? (fun i => i.dv == .waiting) = some i →
    ∃ t, exec (.drillRun 37) s = .next t ∧
      t.evr.queue = setVerdict (s.runBound 37 (evrFields i.ev)).1.verdict (s.runBound 37 (evrFields i.ev)).2.evr.queue ∧
      ChangesOnly [.evr, .drill, .limiters] evWords s t) ∧
  (∀ (f : List (Nat × W32)) (rest : List DrillTrig) (img : Bytes) (s : State), s.blkOn 8 = true → s.boundImg 36 = some img →
    (s.inst 36).queue = ⟨f, .relay⟩ :: rest →
    let e := (s.runBound 36 f).1
    e.fault = none →
    ∃ t, exec (.drillRun 36) s = .next t ∧ (t.inst 36).queue = rest ∧ (t.inst 36).runs = (s.inst 36).runs + 1 ∧
      t.relay = (if e.verdict = 1 then { s.relay with drillMap := (List.range 32).filterMap fun n =>
        (e.run.fields.find? fun p => p.1 == 16 + n).map fun p => (n, p.2) } else s.relay) ∧
      ChangesOnly [.drill, .relay] noReg s t) ∧
  (∀ (h : Fin 38) (f : List (Nat × W32)) (fr : CanFrame) (rest : List DrillTrig) (img : Bytes) (s : State), h.val < 4 → s.blkOn 9 = true →
    s.boundImg h.val = some img → (s.inst h.val).queue = ⟨f, .can h.val fr⟩ :: rest →
    let e := (s.runBound h.val f).1
    e.fault = none → e.verdict = 0 → e.run.acts = [] →
    ∃ t, exec (.drillRun h) s = .next t ∧ (t.inst h.val).queue = rest ∧ (t.inst h.val).runs = (s.inst h.val).runs + 1 ∧
      t.can = s.can ∧ Leaves [.pending, .safe, .out, .baton, .estate] s t) ∧
  (∀ (h : Fin 38) (x : DrillTrig) (rest : List DrillTrig) (s : State), h.val ≠ 37 → s.blkOn (drillBlk h.val) = true → s.drillOn h.val = false →
    (s.inst h.val).queue = x :: rest →
    ∃ t, exec (.drillRun h) s = .next t ∧ (t.inst h.val).queue = rest ∧ Leaves [.pending, .safe, .keys, .upd, .cfgMem, .clk, .baton] s t) ∧
  (∀ (h : Fin 38) (s : State), (s.blkOn (drillBlk h.val) = false ∨ h.val ≠ 37 ∧ (s.inst h.val).queue = []) → exec (.drillRun h) s = .next s)

/-- An admitted MODE_SET is PENDING: past its point of no return and due at the next tick, or, on a change out of BLOCKS with the bank
below HOLD_MIN, held for the bank and revocable. LIMIT_SET and LEDGER_CFG are PENDING for the next tick. At the tick a MODE_SET alone
in flight ends and the mode and CAUSE are the commanded ones, a MODE_SET to the mode in effect ends and changes neither, and LIMIT_SET
and LEDGER_CFG alone in flight have written their register. MODE_GET and LEDGER_READ answer the registers as they stand. (R119, R120,
R125, R139) -/
def Obligations.LedgerOpcodes : Prop :=
  (∀ r s q, admitted? (.modeSet r) s = some q → s.bankHolds (tn q.tlvs 0x0201) = false →
    ∃ t, exec (.modeSet r) s = .next t ∧ Answered t q 0x0201 .pending 0 [] ∧ t.baton.items = s.baton.items ++ [opModeSet.item q .modeSet (tn q.tlvs 0x0201) (0) true] ∧
      ChangesOnly (batonParts) (answerWords q) s t) ∧
  (∀ r s q, admitted? (.modeSet r) s = some q → s.bankHolds (tn q.tlvs 0x0201) = true →
    ∃ t, exec (.modeSet r) s = .next t ∧ Answered t q 0x0201 .pending 0 [] ∧ t.baton.items = s.baton.items ++ [opModeSet.item q .modeHeld (tn q.tlvs 0x0201) (0) false] ∧
      ChangesOnly (batonParts) (answerWords q) s t) ∧
  (∀ r s q, admitted? (.limitSet r) s = some q →
    ∃ t, exec (.limitSet r) s = .next t ∧ Answered t q 0x0203 .pending 0 [] ∧ t.baton.items = s.baton.items ++ [opLimitSet.item q .limits (0) (0) true] ∧
      ChangesOnly (batonParts) (answerWords q) s t) ∧
  (∀ r s q, admitted? (.ledgerCfg r) s = some q →
    ∃ t, exec (.ledgerCfg r) s = .next t ∧ Answered t q 0x0204 .pending 0 [] ∧ t.baton.items = s.baton.items ++ [opLedgerCfg.item q .limits (0) (0) true] ∧
      ChangesOnly (batonParts) (answerWords q) s t) ∧
  (∀ (m : Monitor) (i : Item) (s : State), s.start.phase ≠ .cold → s.baton.items = [i] → i.wait = .modeSet → s.ledger.auto = false → s.mode ≠ modeHoldup → s.mode ≠ modeIsland → i.a ≤ 3 → i.a ≠ s.mode → s.bankHolds i.a = false → (isRunMode i.a = true → s.tooShort i.a = false) →
    ∃ t, exec (.ledgerTick m) s = .next t ∧ (t.mode = i.a) ∧ (t.get F.LEDGER_MODE_CAUSE = 1) ∧ (t.baton.items = []) ∧
      Leaves [.pending, .mem, .safe, .keys, .upd, .can] s t) ∧
  (∀ (m : Monitor) (i : Item) (s : State), s.start.phase ≠ .cold → s.baton.items = [i] → i.wait = .modeSet → s.ledger.auto = false → s.mode ≠ modeHoldup → i.a = s.mode →
    ∃ t, exec (.ledgerTick m) s = .next t ∧ (t.mode = s.mode) ∧ (t.get F.LEDGER_MODE_CAUSE = s.get F.LEDGER_MODE_CAUSE) ∧ (t.baton.items = []) ∧
      Leaves [.pending, .mem, .safe, .keys, .upd, .can] s t) ∧
  (∀ (m : Monitor) (i : Item) (x : Tlv) (off : Nat) (s : State), s.start.phase ≠ .cold → s.baton.items = [i] → i.wait = .limits → parseTlvs (i.data.length + 1) 12 i.data = .ok [x] → ledgerRegOf x.typ = some off → s.ledger.auto = false →
    ∃ t, exec (.ledgerTick m) s = .next t ∧ (t.baton.items = []) ∧ ((off ≠ Reg.LEDGER_MODE_CFG → t.rd off = beNat x.val % 2 ^ 32)) ∧ (t.mode = s.mode) ∧
      Leaves [.pending, .mem, .safe, .keys, .upd, .can] s t) ∧
  (∀ r s q, admitted? (.modeGet r) s = some q →
    ∃ t, exec (.modeGet r) s = .next t ∧ Answered t q 0x0202 .ok 0 (tlv 0x0202 (natBE 1 s.mode ++ natBE 1 (s.get F.LEDGER_MODE_BASE) ++ natBE 1 (s.get F.LEDGER_MODE_CAUSE))) ∧
      ChangesOnly (batonParts) (answerWords q) s t) ∧
  (∀ r s q, admitted? (.ledgerRead r) s = some q →
    ∃ t, exec (.ledgerRead r) s = .next t ∧ Answered t q 0x0205 .ok 0 (tlv 0x020A (natBE 4 (s.rd Reg.LEDGER_ALLOC) ++ natBE 4 (s.rd Reg.LEDGER_DRAW) ++ natBE 4 (s.rd Reg.LEDGER_BANK) ++
        natBE 8 s.ledger.ein ++ natBE 4 (s.rd Reg.LEDGER_EFF) ++ natBE 4 (s.rd Reg.LEDGER_HOLD_LAST))) ∧
      ChangesOnly (batonParts) (answerWords q) s t)

/-- A tick with no limit or mode item in flight and no AUTO_RUN waiting takes the monitor's draw and bank, takes over the allocation of the
present sources (0 in HOLDUP), computes the headroom as allocation less draw less 5 % rounded down, adds the energy, and moves the
clock to the tick; before the first power-up it changes nothing. A source is present from the moment it rises above its start threshold
(VIN 17.5 V, PoE 37 V with class 8) until it falls below its loss threshold (16.5 V, 30 V), and SOURCE_CHANGE shows what is present in
LEDGER_SRC as long as one source is. (R121, R122, R123, R139, R532) -/
def Obligations.LedgerTickAndSources : Prop :=
  (∀ (m : Monitor) (s : State), s.start.phase ≠ .cold → (∀ i ∈ s.baton.items, i.wait ≠ .limits ∧ i.wait ≠ .modeSet ∧ i.wait ≠ .modeHeld) → s.ledger.auto = false → s.mode ≠ modeHoldup →
    ∃ t, exec (.ledgerTick m) s = .next t ∧ (t.rd Reg.LEDGER_DRAW = m.draw.toNat) ∧ (t.rd Reg.LEDGER_BANK = m.bank.toNat) ∧ (t.rd Reg.LEDGER_ALLOC = s.allocNow % 2 ^ 32) ∧ (t.mode = s.mode) ∧ (t.ledger.headroom = headroomOf (s.allocNow % 2 ^ 32) m.draw.toNat) ∧ (t.clk = max s.clk s.ledger.nextTick) ∧ (t.ledger.nextTick = (t.clk / msec + 1) * msec) ∧ (t.ledger.ein = (s.ledger.ein + (s.ledger.einFrac + m.draw.toNat) / 1000) % 2 ^ 64) ∧
      Leaves [.pending, .mem, .out, .baton, .estate, .safe, .keys, .upd, .cfgMem, .start, .can, .relay] s t) ∧
  (∀ (m : Monitor) (s : State), s.start.phase ≠ .cold → (∀ i ∈ s.baton.items, i.wait ≠ .limits) → s.mode = modeHoldup →
    ∃ t, exec (.ledgerTick m) s = .next t ∧ (t.rd Reg.LEDGER_ALLOC = 0) ∧ (t.rd Reg.LEDGER_DRAW = m.draw.toNat) ∧ (t.rd Reg.LEDGER_BANK = m.bank.toNat) ∧ (t.mode = modeHoldup) ∧ (t.clk = max s.clk s.ledger.nextTick) ∧
      Leaves [.pending, .mem, .out, .baton, .estate, .safe, .keys, .upd, .cfgMem, .start] s t) ∧
  (∀ (m : Monitor) (s : State), s.start.phase = .cold → exec (.ledgerTick m) s = .next s) ∧
  (∀ (alloc draw : Nat) (k : Int), headroomOf alloc draw = k ↔ k * 100 ≤ 95 * (alloc : Int) - 100 * draw ∧ 95 * (alloc : Int) - 100 * draw < (k + 1) * 100) ∧
  (∀ (mv cls : Nat) (s : State), (s.vinUp mv = true ↔ if s.get F.LEDGER_SRC_VIN = 1 then 16500 ≤ mv else 17500 < mv) ∧
    (s.poeUp mv cls = true ↔ cls = 8 ∧ if s.get F.LEDGER_SRC_POE = 1 then 30000 ≤ mv else 37000 < mv)) ∧
  (∀ (vin poe : BitVec 16) (cls : BitVec 4) (s : State), s.start.phase ≠ .cold → (s.vinUp vin.toNat || s.poeUp poe.toNat cls.toNat) = true →
    ∃ t, exec (.sourceChange vin poe cls) s = .next t ∧ (t.get F.LEDGER_SRC_VIN = b2n (s.vinUp vin.toNat)) ∧ (t.get F.LEDGER_SRC_POE = b2n (s.poeUp poe.toNat cls.toNat)) ∧ (t.get F.LEDGER_SRC_CLASS = (if 30000 ≤ poe.toNat then cls.toNat else 0)) ∧ (t.ledger.moved = (s.ledger.moved || (t.source ≠ s.source && s.mode ≠ modeHoldup))) ∧
      ChangesOnly [.ledger] (regsAt [Reg.LEDGER_SRC]) s t) ∧
  (∀ (vin poe : BitVec 16) (cls : BitVec 4) (s : State), (s.start.phase = .cold ∨ (s.vinUp vin.toNat || s.poeUp poe.toNat cls.toNat) = false) → exec (.sourceChange vin poe cls) s = .next s)

/-- A supply loss while running leaves no source, no allocation, mode and phase HOLDUP, step 1 done and PD_PACER and PD_MET gated; before
step 7 of a start the start ends cold; within HOLDUP it only ends the stable supply. A source that rises above its start threshold in
HOLDUP records when the supply became stable; 50 ms later, after step 9, a reset of kind 2 follows. With no source and the bank
exhausted the module is cold; a bank that held 66 mJ at entry outlasts step 9 (the model's reading, log 305). (R133, R135, R136, R137,
R141) -/
def Obligations.SupplyLossAndReturn : Prop :=
  (∀ (bank : W32) (s : State), (s.start.phase = .running ∨ s.start.phase = .firmware ∨ s.start.phase = .restarting) →
    ∃ t, exec (.supplyLoss bank) s = .next t ∧ (t.mode = modeHoldup) ∧ (t.start.phase = .holdup) ∧ (t.rd Reg.LEDGER_ALLOC = 0) ∧ (t.get F.LEDGER_SRC_VIN = 0) ∧ (t.get F.LEDGER_SRC_POE = 0) ∧ (t.ledger.hold.step = 1) ∧ (t.ledger.auto = false) ∧ (t.pdOn 2 = false) ∧ (t.pdOn 6 = false) ∧
      Leaves [.pending, .safe, .clk] s t) ∧
  (∀ (bank : W32) (s : State), (s.start.phase = .poweredOn ∨ s.start.phase = .booted ∨ s.start.phase = .recovery) →
    ∃ t, exec (.supplyLoss bank) s = .next t ∧ (t.start.phase = .cold) ∧ (t.get F.SYS_RST_STAT_KIND = 1) ∧ (t.baton.items = []) ∧
      Leaves [.pending, .safe, .clk] s t) ∧
  (∀ (bank : W32) (s : State), s.start.phase = .holdup →
    ∃ t, exec (.supplyLoss bank) s = .next t ∧ (t.ledger.hold = { s.ledger.hold with stable := none }) ∧ (t.get F.LEDGER_SRC_VIN = 0) ∧ (t.get F.LEDGER_SRC_POE = 0) ∧ (t.rd Reg.LEDGER_BANK = bank.toNat) ∧
      ChangesOnly [.ledger] (regsAt [Reg.LEDGER_SRC, Reg.LEDGER_BANK]) s t) ∧
  (∀ (bank : W32) (s : State), s.start.phase = .cold → exec (.supplyLoss bank) s = .next s) ∧
  (∀ (vin poe : BitVec 16) (cls : BitVec 4) (s : State), s.mode = modeHoldup → (s.vinUp vin.toNat || s.poeUp poe.toNat cls.toNat) = true →
    ∃ t, exec (.supplyReturn vin ⟨poe, cls⟩) s = .next t ∧ (t.ledger.hold = { s.ledger.hold with stable := some (s.ledger.hold.stable.getD s.clk) }) ∧ (t.get F.LEDGER_SRC_VIN = b2n (s.vinUp vin.toNat)) ∧ (t.get F.LEDGER_SRC_POE = b2n (s.poeUp poe.toNat cls.toNat)) ∧
      ChangesOnly [.ledger] (regsAt [Reg.LEDGER_SRC]) s t) ∧
  (∀ (vin poe : BitVec 16) (cls : BitVec 4) (s : State), (s.mode ≠ modeHoldup ∨ (s.vinUp vin.toNat || s.poeUp poe.toNat cls.toNat) = false) → exec (.supplyReturn vin ⟨poe, cls⟩) s = .next s) ∧
  (∀ (x : Nat) (s : State), s.ledger.hold.stable = some x → s.mode = modeHoldup → s.ledger.hold.step = 9 → s.start.phase = .holdup →
    ∃ t, exec .holdupReturn s = .next t ∧ (t.start.phase = .poweredOn) ∧ (t.get F.SYS_RST_STAT_KIND = 2) ∧ (t.mode = modeBlocks) ∧ (t.baton.items = []) ∧ (t.clk = max s.clk (x + 50 * msec)) ∧
      Leaves [.pending, .safe, .cfgMem] s t) ∧
  (∀  (s : State), (s.ledger.hold.stable = none ∨ s.mode ≠ modeHoldup ∨ s.ledger.hold.step ≠ 9) → exec .holdupReturn s = .next s) ∧
  (∀  (s : State), s.start.phase ≠ .cold → s.supplied = false → (s.start.phase = .holdup → s.ledger.hold.enough = true → s.ledger.hold.step ≥ 9) →
    ∃ t, exec .bankExhausted s = .next t ∧ (t.start.phase = .cold) ∧ (t.get F.SYS_RST_STAT_KIND = 1) ∧ (t.baton.sessions = []) ∧ (t.mem = []) ∧
      Leaves [.pending, .safe, .clk] s t) ∧
  (∀  (s : State), (s.start.phase = .cold ∨ s.supplied = true ∨ s.start.phase = .holdup ∧ s.ledger.hold.enough = true ∧ s.ledger.hold.step < 9) → exec .bankExhausted s = .next s)

/-- A Baton item that overruns its bound leaves the item table at the end of the bound, a lap that does is no longer in progress, a relay
output write that does no longer waits, and a descriptor that does leaves its channel IDLE. Step 6 gates PD_LOOP, PD_FIELD and PD_NET
and in HOLDUP leaves no item; step 7 writes the retain image; step 8 flushes the in-flight mirror; step 9 records bank and steps, gates
domains 1 to 6 and stops the watchdog. A step that is not due changes nothing. (R133, R134, R136, R166) -/
def Obligations.HoldupSteps : Prop :=
  (∀ (owner : BitVec 256) (item : W32) (i : Item) (h : HoldItem) (s : State), s.closing = true → s.ledger.hold.items.find? (fun h => h.ref == .baton owner item) = some h → s.item? owner item.toNat = some i →
    ∃ t, exec (.holdupItemBound (.baton owner item)) s = .next t ∧ (t.item? owner item.toNat = none) ∧ (t.clk = max s.clk h.till) ∧
      Leaves [.pending, .mem, .safe] s t) ∧
  (∀ (c : Fin 32) (d : Desc) (h : HoldItem) (s : State), s.closing = true → s.ledger.hold.items.find? (fun h => h.ref == .dma c) = some h → (s.dmaCh c.val).desc = some d →
    ∃ t, exec (.holdupItemBound (.dma c)) s = .next t ∧ (t.dmaState c.val = dIdle) ∧ ((t.dmaCh c.val).desc = none) ∧ (t.clk = max s.clk h.till) ∧
      Leaves [.pending, .safe, .out, .baton, .estate, .relay, .can] s t) ∧
  (∀ (n : Fin 8) (h : HoldItem) (s : State), s.closing = true → s.ledger.hold.items.find? (fun h => h.ref == .lap n) = some h →
    ∃ t, exec (.holdupItemBound (.lap n)) s = .next t ∧ ((t.task n.val).phase = .idle) ∧ (t.clk = max s.clk h.till) ∧
      Leaves [.pending, .mem, .safe, .can, .relay, .estate] s t) ∧
  (∀ (k : Fin 16) (item : W32) (w : RWrite) (h : HoldItem) (s : State), s.closing = true → k.val ≥ 4 → s.ledger.hold.items.find? (fun h => h.ref == .link k item) = some h → s.relay.writes.find? (fun w => relayRef w == .link k item) = some w →
    ∃ t, exec (.holdupItemBound (.link k item)) s = .next t ∧ (w ∉ t.relay.writes) ∧ (t.clk = max s.clk h.till) ∧
      Leaves [.pending, .mem, .safe, .can, .out, .baton] s t) ∧
  (∀ (ref : HoldRef) (s : State), (s.closing = false ∨ s.ledger.hold.items.find? (fun h => h.ref == ref) = none) → exec (.holdupItemBound ref) s = .next s) ∧
  (∀  (s : State), s.stepDue 6 = true →
    ∃ t, exec .holdupField s = .next t ∧ (t.ledger.hold.step = 6) ∧ (t.pdOn 3 = false) ∧ (t.pdOn 4 = false) ∧ (t.pdOn 5 = false) ∧ ((s.mode = modeHoldup → t.baton.items = [])) ∧
      Leaves [.pending, .safe, .clk] s t) ∧
  (∀  (s : State), s.stepDue 6 = false → exec .holdupField s = .next s) ∧
  (∀  (s : State), s.stepDue 7 = true →
    ∃ t, exec .holdupRetain s = .next t ∧ (t.start = { s.start with retain := some (s.retainImg s.progId) }) ∧ (t.ledger.hold.step = 7) ∧
      ChangesOnly [.ledger, .start] (regsAt [Reg.LEDGER_HOLD_LAST]) s t) ∧
  (∀ s : State, (s.retainImg s.progId).complete = true ∧ (s.retainImg s.progId).startCnt = s.get F.SYS_START_CNT_COUNT ∧
    (∀ p ∈ (s.retainImg s.progId).vars, p ∈ s.lap.vars ∧ ∃ v ∈ s.lap.decl.vars, v.keep = true ∧ v.path = p.1)) ∧
  (∀  (s : State), s.stepDue 7 = false → exec .holdupRetain s = .next s) ∧
  (∀  (s : State), s.stepDue 8 = true →
    ∃ t, exec .holdupItemTable s = .next t ∧ (t.start = { s.start with flushed := some s.start.mirror }) ∧ (t.ledger.hold.step = 8) ∧
      ChangesOnly [.ledger, .start] (regsAt [Reg.LEDGER_HOLD_LAST]) s t) ∧
  (∀  (s : State), s.stepDue 8 = false → exec .holdupItemTable s = .next s) ∧
  (∀ (bank : W32) (s : State), s.mode = modeHoldup → s.stepDue 9 = true →
    ∃ t, exec (.holdupClose bank) s = .next t ∧ (t.rd Reg.LEDGER_BANK = bank.toNat) ∧ (t.get F.LEDGER_HOLD_LAST_BANK_END = min bank.toNat 65535) ∧ (t.get F.LEDGER_HOLD_LAST_STEPS = 511) ∧ (t.ledger.hold.step = 9) ∧ (t.sys.wdtOn = false) ∧ ((∀ d, 1 ≤ d → d ≤ 6 → t.pdOn d = false)) ∧
      Leaves [.pending, .safe, .clk, .estate] s t) ∧
  (∀ (bank : W32) (s : State), (s.mode ≠ modeHoldup ∨ s.stepDue 9 = false) → exec (.holdupClose bank) s = .next s)

/-- Power-up with a source turns PD_AON on; the boot counts the start, boots the set of Table 6.2 and turns PD_APP on, or serves RECOVERY
when a boot stage passes and no set does, and with no boot stage that passes does not start; step 7 starts the watchdog, builds the
residue record, presets the run mode and turns the faces on, or, where a trial set has used up its starts, resets as CMD_COLD; step 12
publishes the record and runs. Each acts in its phase alone. (R140, R142, R144, R150, R559) -/
def Obligations.StartUpSteps : Prop :=
  (∀ (vin poe : BitVec 16) (cls : BitVec 4) (s : State), s.start.phase = .cold → (s.vinUp vin.toNat || s.poeUp poe.toNat cls.toNat) = true →
    ∃ t, exec (.powerUp vin poe cls) s = .next t ∧ (t.start = { s.start with phase := .poweredOn }) ∧ (t.pdOn 0 = true) ∧ (t.get F.LEDGER_SRC_VIN = b2n (s.vinUp vin.toNat)) ∧ (t.get F.LEDGER_SRC_POE = b2n (s.poeUp poe.toNat cls.toNat)) ∧ (t.startClk = s.clk) ∧
      Leaves [.pending, .mem, .safe, .estate, .baton, .cfgMem, .clk, .out] s t) ∧
  (∀ (vin poe : BitVec 16) (cls : BitVec 4) (s : State), (s.start.phase ≠ .cold ∨ (s.vinUp vin.toNat || s.poeUp poe.toNat cls.toNat) = false) → exec (.powerUp vin poe cls) s = .next s) ∧
  (∀ (v : BootCheck) (b : Nat) (s : State), s.start.phase = .poweredOn → (s.bootSet v).1 = some b →
    ∃ t, exec (.boot v) s = .next t ∧ (t.start = { s.start with phase := .booted, fallback := (s.bootSet v).2 }) ∧ (t.pdOn 1 = true) ∧ (t.get F.SYS_RST_STAT_SET = b % 2) ∧ (t.get F.SYS_START_CNT_COUNT = min (2 ^ 32 - 1) (s.get F.SYS_START_CNT_COUNT + 1)) ∧
      Leaves [.pending, .mem, .safe, .estate, .baton, .cfgMem, .clk, .out] s t) ∧
  (∀ (v : BootCheck) (s : State), s.start.phase = .poweredOn → (s.bootSet v).1 = none → ((s.setFails 0 v.failA).any (fun x => x.1 = 1) && (s.setFails 1 v.failB).any (fun x => x.1 = 1)) = false →
    ∃ t, exec (.boot v) s = .next t ∧ (t.start.phase = .recovery) ∧ (t.pdOn 1 = true) ∧ (t.pdOn 4 = true) ∧
      Leaves [.pending, .mem, .safe, .estate, .baton, .clk] s t) ∧
  (∀ (v : BootCheck) (s : State), s.start.phase = .poweredOn → (s.bootSet v).1 = none → ((s.setFails 0 v.failA).any (fun x => x.1 = 1) && (s.setFails 1 v.failB).any (fun x => x.1 = 1)) = true →
    ∃ t, exec (.boot v) s = .next t ∧ (t.start = { s.start with fallback := (s.bootSet v).2 }) ∧ (t.get F.SYS_START_CNT_COUNT = min (2 ^ 32 - 1) (s.get F.SYS_START_CNT_COUNT + 1)) ∧
      ChangesOnly [.start] (regsAt [Reg.SYS_START_CNT]) s t) ∧
  (∀ (v : BootCheck) (s : State), s.start.phase ≠ .poweredOn → exec (.boot v) s = .next s) ∧
  (∀ (ok : Bool) (s : State), s.start.phase = .booted → (aonLoads.foldl (fun s off => s.load off) s).recordStart.2 = false →
    ∃ t, exec (.firmwareStart ok) s = .next t ∧ (t.start.phase = .firmware) ∧ (t.start.reached7 = true) ∧ (t.start.residue.isSome = true) ∧ (t.start.journal = []) ∧ (t.get F.LEDGER_MODE_BASE = t.get F.LEDGER_MODE_CFG_RUN_MODE) ∧ (t.mode = s.mode) ∧ (t.sys.wdtOn = true) ∧ (t.sys.wdtAt = s.clk) ∧ (t.pdOn 3 = true) ∧ (t.pdOn 4 = true) ∧ (t.pdOn 5 = true) ∧ (t.pdOn 6 = true) ∧ (t.get F.KEYS_STAT_TRUST_LOST = b2n !ok) ∧
      Leaves [.pending, .mem, .safe, .clk] s t) ∧
  (∀ (ok : Bool) (s : State), s.start.phase = .booted → (aonLoads.foldl (fun s off => s.load off) s).recordStart.2 = true →
    ∃ t, exec (.firmwareStart ok) s = .next t ∧ (t.start.phase = .poweredOn) ∧ (t.get F.SYS_RST_STAT_KIND = 4) ∧ (t.pdOn 1 = false) ∧
      Leaves [.pending, .safe, .clk] s t) ∧
  (∀ (ok : Bool) (s : State), s.start.phase ≠ .booted → exec (.firmwareStart ok) s = .next s) ∧
  (∀  (s : State), s.start.phase = .firmware →
    ∃ t, exec .startDone s = .next t ∧ (t.start.phase = .running) ∧ (t.get F.SYS_RST_STAT_PUBLISHED = 1) ∧ (t.get F.LAP_STAT_RESTART = b2n s.start.warm) ∧ (t.ledger.auto = (s.get F.LEDGER_MODE_CFG_AUTO_RUN == 1)) ∧
      Leaves [.pending, .mem, .safe, .cfgMem, .clk] s t) ∧
  (∀  (s : State), s.start.phase ≠ .firmware → exec .startDone s = .next s)

/-- RESTART answers OK and begins the sequence; after step 8 the reset has kind 3 (warm) or 4 (cold). A watchdog that counts and is not
kicked for WDT_TO resets with kind 5, a fatal fault with kind 6: the mode is BLOCKS, no session, item or lock is left, configuration
stays. Of causes at one instant the lowest kind is recorded, in whatever order they come. Each acts under its condition alone. (R145,
R146, R147, R559) -/
def Obligations.ResetsAndWatchdog : Prop :=
  (∀ r s q, admitted? (.restart r) s = some q →
    ∃ t, exec (.restart r) s = .next t ∧ Answered t q 0x0181 .ok 0 ([]) ∧
      t.start.phase = .restarting ∧ t.start.restartKind = some (if tn q.tlvs 0x0181 = 1 then 3 else 4) ∧ t.ledger.hold.step = 1 ∧
      ChangesOnly (batonParts) (answerWords q) s t) ∧
  (∀ (k : Nat) (s : State), s.start.phase = .restarting → s.start.restartKind = some k → (k = 3 ∨ k = 4) → s.ledger.hold.step = 8 →
    ∃ t, exec .commandedReset s = .next t ∧ (t.start.phase = .poweredOn) ∧ (t.get F.SYS_RST_STAT_KIND = k) ∧ (t.mode = modeBlocks) ∧ (t.baton.items = []) ∧
      Leaves [.pending, .cfgMem, .safe, .clk] s t) ∧
  (∀  (s : State), (s.start.phase ≠ .restarting ∨ s.start.restartKind = none ∨ s.ledger.hold.step ≠ 8) ∧ (s.start.phase ≠ .poweredOn ∨ s.start.coin.cmd = none ∨ s.clk ≠ s.startClk) → exec .commandedReset s = .next s) ∧
  (∀ (pc : W64) (s : State), s.sys.wdtOn = true → s.pdOn 1 = true → s.start.phase ≠ .cold → s.start.phase ≠ .poweredOn →
    ∃ t, exec (.watchdog pc) s = .next t ∧ (t.start.phase = .poweredOn) ∧ (t.get F.SYS_RST_STAT_KIND = 5) ∧ (t.mode = modeBlocks) ∧ (t.baton.items = []) ∧ (t.baton.sessions = []) ∧ (t.clk = max s.clk (s.sys.wdtAt + s.get F.SYS_RST_CFG_WDT_TO * 100 * msec)) ∧
      Leaves [.pending, .cfgMem, .safe] s t) ∧
  (∀ (pc : W64) (s : State), (s.sys.wdtOn = false ∨ s.pdOn 1 = false) → (s.start.coin.wdt = none ∨ s.start.phase ≠ .poweredOn ∨ s.clk ≠ s.startClk) → exec (.watchdog pc) s = .next s) ∧
  (∀  (s : State), s.pdOn 1 = true → s.start.phase ≠ .cold → s.start.phase ≠ .poweredOn →
    ∃ t, exec .fatal s = .next t ∧ (t.start.phase = .poweredOn) ∧ (t.get F.SYS_RST_STAT_KIND = 6) ∧ (t.mode = modeBlocks) ∧ (t.baton.items = []) ∧ (t.baton.locks = []) ∧
      Leaves [.pending, .cfgMem, .safe, .clk] s t) ∧
  (∀  (s : State), s.pdOn 1 = false → (s.start.coin.app = false ∨ s.start.phase ≠ .poweredOn ∨ s.clk ≠ s.startClk) → exec .fatal s = .next s) ∧
  (∀ (k : Nat) (s : State), s.start.phase = .poweredOn → s.start.coin.cmd = some k → s.clk = s.startClk →
    ∃ t, exec .commandedReset s = .next t ∧ (t.get F.SYS_RST_STAT_KIND = min (s.get F.SYS_RST_STAT_KIND) k) ∧
      ChangesOnly [] (regsAt [Reg.SYS_RST_STAT]) s t) ∧
  (∀ (pc : W64) (x : Nat) (s : State), s.pdOn 1 = false → s.start.phase = .poweredOn → s.start.coin.wdt = some x → x ≤ s.clk → s.clk = s.startClk →
    ∃ t, exec (.watchdog pc) s = .next t ∧ (t.get F.SYS_RST_STAT_KIND = min (s.get F.SYS_RST_STAT_KIND) 5) ∧
      Leaves [.pending, .clk, .safe, .baton, .start, .estate] s t) ∧
  (∀  (s : State), s.pdOn 1 = false → s.start.phase = .poweredOn → s.start.coin.app = true → s.clk = s.startClk →
    ∃ t, exec .fatal s = .next t ∧ (t.get F.SYS_RST_STAT_KIND = min (s.get F.SYS_RST_STAT_KIND) 6) ∧
      ChangesOnly [] (regsAt [Reg.SYS_RST_STAT]) s t) ∧
  (∀ r s q x, admitted? (.residueRead r) s = some q → tv? q.tlvs 0x0005 = none → s.residueGen (tn q.tlvs 0x0182) = some x →
    let es := if q.tag = 0 || q.tag = 255 then x.entries else x.entries.filter fun e => e.tag == q.tag
    es.length ≤ 67 →
    ∃ t, exec (.residueRead r) s = .next t ∧ Answered t q 0x0182 .ok 0 (tlv 0x0183 (x.header es) ++ (es.map fun e => tlv 0x0184 e.bytes).flatten) ∧
      ChangesOnly batonParts (answerWords q) s t) ∧
  (∀ r s q, admitted? (.startInfo r) s = some q →
    ∃ t, exec (.startInfo r) s = .next t ∧ Answered t q 0x0183 .ok 0 (tlv 0x0185 (natBE 4 (s.rd Reg.SYS_RST_STAT) ++ natBE 4 (s.rd Reg.SYS_START_CNT))) ∧
      ChangesOnly (batonParts) (answerWords q) s t)

/-- An admitted TASK_CFG writes the task's four words and clears its counts. TASK_START lets every named task that is stopped or halted
wait for its first release, with its longest lap cleared, and leaves the others. TASK_STOP of tasks that are between laps ends OK with
each of them stopped; while a named task is within a lap it is PENDING past its point of no return. LAP_STATUS answers the task's
registers and lap. (R153, R168, R169, R185) -/
def Obligations.LapTaskOpcodes : Prop :=
  (∀ r s q, admitted? (.taskCfg r) s = some q →
    let n := taskN q
    let b := tv q.tlvs 0x0303
    ∃ t, exec (.taskCfg r) s = .next t ∧ Answered t q 0x0301 .ok 0 [] ∧ t.rd (Reg.LAP_TCFG n) = beAt b 0 4 ∧ t.rd (Reg.LAP_TPER n) = beAt b 4 4 ∧
      t.rd (Reg.LAP_TOFS n) = beAt b 8 4 ∧ t.rd (Reg.LAP_TCOM n) = beAt b 12 4 ∧ t.rd (Reg.LAP_TCNT n) = 0 ∧ t.rd (Reg.LAP_TMAX n) = 0 ∧
      ChangesOnly (.cfgMem :: batonParts) (regsOr (answerWords q) (regsAt [Reg.LAP_TCFG n, Reg.LAP_TPER n, Reg.LAP_TOFS n, Reg.LAP_TCOM n,
        Reg.LAP_TCNT n, Reg.LAP_TMAX n])) s t) ∧
  (∀ r s q, admitted? (.taskStart r) s = some q →
    ∃ t, exec (.taskStart r) s = .next t ∧ Answered t q 0x0302 .ok 0 ([]) ∧
      (∀ n, n < 8 → bit1 (tn q.tlvs 0x0302) n = 1 → t.taskLive n = true ∧ (s.taskLive n = false → t.tstate n = tsWaiting ∧ t.rd (Reg.LAP_TMAX n) = 0)) ∧
      (∀ n, n < 8 → bit1 (tn q.tlvs 0x0302) n = 0 → t.task n = s.task n ∧ t.tstate n = s.tstate n) ∧
      ChangesOnly (.lap :: .upd :: batonParts) (regsOr (answerWords q) (regsOf 3)) s t) ∧
  (∀ r s q, admitted? (.taskStop r) s = some q →
    (∀ n, n < 8 → bit1 (tn q.tlvs 0x0302) n = 1 → s.taskLive n = true → (s.task n).phase = .idle) →
    ∃ t, exec (.taskStop r) s = .next t ∧ Answered t q 0x0303 .ok 0 [] ∧
      (∀ n, n < 8 → bit1 (tn q.tlvs 0x0302) n = 1 → t.taskLive n = false) ∧ Leaves [.pending, .mem, .safe, .keys, .cfgMem, .clk] s t) ∧
  (∀ r s q n, admitted? (.taskStop r) s = some q → n < 8 → bit1 (tn q.tlvs 0x0302) n = 1 → s.taskLive n = true → (s.task n).phase ≠ .idle →
    ∃ t, exec (.taskStop r) s = .next t ∧ Answered t q 0x0303 .pending 0 [] ∧
      t.baton.items.getLast? = some (opTaskStop.item q .taskStop (tn q.tlvs 0x0302) 0 true) ∧ t.taskLive n = true ∧ Leaves [.pending, .mem, .safe, .keys, .cfgMem, .clk] s t) ∧
  (∀ r s q, admitted? (.lapStatus r) s = some q →
    ∃ t, exec (.lapStatus r) s = .next t ∧ Answered t q 0x030B .ok 0 (tlv 0x0308 (natBE 4 (s.rd (Reg.LAP_TSTAT (taskN q))) ++ natBE 4 (s.rd (Reg.LAP_TCNT (taskN q))) ++ natBE 4 (s.rd (Reg.LAP_TLAST (taskN q))) ++
        natBE 4 (s.rd (Reg.LAP_TMAX (taskN q))) ++ natBE 8 ((s.task (taskN q)).laps - 1) ++ natBE 8 (s.task (taskN q)).ts.toNat ++ natBE 8 (s.task (taskN q)).mono)) ∧
      ChangesOnly (batonParts) (answerWords q) s t)

/-- A piece that carries a new PROG_SIZE makes a fresh standby slot of its size, LOADED when it is whole and LOADING until then; a piece
without one, or with the size that is loading, is put before the older ones. PROG_PREPARE ends OK in PREPARED when RESULT is 0, else
FAILED in LOADED. PROG_SWITCH and PROG_REVERT are PENDING and cancellable; without a reverse transfer a revert fails with RESULT 9. At
a quiet instant the copy begins and the point of no return passes; the copy's end makes the standby slot active, with variables and
charts moved by Table 7.4 and the item ended; after SW_WAIT without one the switch fails with RESULT 8. (R174, R175, R176, R177, R178,
R185) -/
def Obligations.ProgramLoadAndOnlineChange : Prop :=
  (∀ r s q b, admitted? (.progLoad r) s = some q → tv? q.tlvs 0x0306 = some b → ¬ (s.ocState = ocLoading ∧ beNat b = (s.slot s.standby).size) →
    let p : ProgSlot := ⟨beNat b, [(tn q.tlvs 0x0304, tv q.tlvs 0x0305)]⟩
    ∃ t, exec (.progLoad r) s = .next t ∧ Answered t q 0x0304 .ok 0 [] ∧ t.lap = { s.lap with slots := setNth s.lap.slots s.standby p } ∧
      t.ocState = (if p.complete then ocLoaded else ocLoading) ∧ ChangesOnly (.lap :: batonParts) (regsOr (answerWords q) (regsAt [Reg.LAP_STAT])) s t) ∧
  (∀ r s q, admitted? (.progLoad r) s = some q → (tv? q.tlvs 0x0306 = none ∨ s.ocState = ocLoading ∧ beNat (tv q.tlvs 0x0306) = (s.slot s.standby).size ∧ (tv? q.tlvs 0x0306).isSome = true) →
    let p : ProgSlot := { s.slot s.standby with pieces := (tn q.tlvs 0x0304, tv q.tlvs 0x0305) :: (s.slot s.standby).pieces }
    ∃ t, exec (.progLoad r) s = .next t ∧ Answered t q 0x0304 .ok 0 [] ∧ t.lap = { s.lap with slots := setNth s.lap.slots s.standby p } ∧
      t.ocState = (if p.complete then ocLoaded else ocLoading) ∧ ChangesOnly (.lap :: batonParts) (regsOr (answerWords q) (regsAt [Reg.LAP_STAT])) s t) ∧
  (∀ r s q, admitted? (.progPrepare r) s = some q →
    let img := (s.slot s.standby).image
    let x := s.prepResult img.length (Config.progDecl img)
    ∃ t, exec (.progPrepare r) s = .next t ∧ t.get F.LAP_OC_STAT_RESULT = x ∧
      (if x = 0 then t.ocState = ocPrepared ∧ Answered t q 0x0305 .ok 0 (t.progInfo s.standby)
       else t.ocState = ocLoaded ∧ Answered t q 0x0305 .failed 0 []) ∧ ChangesOnly batonParts (regsOr (answerWords q) (regsOf 3)) s t) ∧
  (∀ r s q, admitted? (.progSwitch r) s = some q →
    ∃ t, exec (.progSwitch r) s = .next t ∧ Answered t q 0x0306 .pending 0 [] ∧ t.baton.items = s.baton.items ++ [opProgSwitch.item q .progSwitch (0) (0) false] ∧
      t.ocState = ocSwitching ∧ t.lap = { s.lap with sw := some (s.clk, false) } ∧
      ChangesOnly (.lap :: batonParts) (regsOr (answerWords q) (regsAt [Reg.LAP_STAT])) s t) ∧
  (∀ r s q, admitted? (.progRevert r) s = some q →
    ∃ t, exec (.progRevert r) s = .next t ∧
      (if (s.slot s.standby).complete = true ∧ (Config.progDecl (s.slot s.standby).image).hasRev = true then
        Answered t q 0x0307 .pending 0 [] ∧ t.baton.items = s.baton.items ++ [opProgRevert.item q .progSwitch 1 0 false] ∧ t.ocState = ocSwitching ∧
          t.lap = { s.lap with sw := some (s.clk, true) } ∧ ChangesOnly (.lap :: batonParts) (regsOr (answerWords q) (regsAt [Reg.LAP_STAT])) s t
      else Answered t q 0x0307 .failed 0 [] ∧ t.get F.LAP_OC_STAT_RESULT = 9 ∧ t.ocState = ocIdle ∧
        ChangesOnly (.lap :: batonParts) (regsOr (answerWords q) (regsOf 3)) s t)) ∧
  (∀  (s : State), s.lap.sw.isSome = true → s.lap.copy = none → (∀ n, n < 8 → (s.task n).phase = .idle) →
    ∃ t, exec .switchPoint s = .next t ∧ (t.lap = { s.lap with copy := some s.clk }) ∧ ((∀ i ∈ t.baton.items, i.wait = .progSwitch → i.ponr = true)) ∧
      ChangesOnly [.baton, .lap] noReg s t) ∧
  (∀  (s : State), (s.lap.sw = none ∨ s.lap.copy.isSome = true ∨ ∃ n, n < 8 ∧ (s.task n).phase ≠ .idle) → exec .switchPoint s = .next s) ∧
  (∀ (c : Nat) (w : Nat × Bool) (s : State), s.lap.copy = some c → s.lap.sw = some w → (∀ n, n < 8 → (s.task n).held = false) →
    ∃ t, exec .switchCopyDone s = .next t ∧ (t.get F.LAP_STAT_SLOT = 1 - s.get F.LAP_STAT_SLOT) ∧ (t.ocState = ocIdle) ∧ (t.get F.LAP_OC_STAT_RESULT = 0) ∧ (t.lap.sw = none) ∧ (t.lap.copy = none) ∧ (t.lap.decl = Config.progDecl (s.slot s.standby).image) ∧ (t.lap.vars = movedVars s.lap.decl (Config.progDecl (s.slot s.standby).image) (Config.varConv (s.slot (1 - s.standby)).image (s.slot s.standby).image w.2) s.lap.vars) ∧ (t.lap.charts = movedCharts s.lap.decl (Config.progDecl (s.slot s.standby).image) s.lap.charts) ∧ ((∀ i ∈ t.baton.items, i.wait ≠ .progSwitch)) ∧
      Leaves [.pending, .mem, .safe, .keys, .cfgMem, .clk, .estate, .upd] s t) ∧
  (∀  (s : State), (s.lap.copy = none ∨ s.lap.sw = none) → exec .switchCopyDone s = .next s) ∧
  (∀ (w : Nat × Bool) (s : State), s.lap.copy = none → s.lap.sw = some w →
    ∃ t, exec .switchTimeout s = .next t ∧ (t.clk = max s.clk (w.1 + s.get F.LAP_OC_CFG_SW_WAIT * 100 * msec)) ∧ (t.get F.LAP_OC_STAT_RESULT = 8) ∧ (t.ocState = ocIdle) ∧ (t.lap = { s.lap with sw := none, copy := none }) ∧ ((∀ i ∈ t.baton.items, i.wait ≠ .progSwitch)) ∧
      Leaves [.pending, .mem, .safe, .keys, .cfgMem, .estate, .upd] s t) ∧
  (∀  (s : State), (s.lap.copy.isSome = true ∨ s.lap.sw = none) → exec .switchTimeout s = .next s)

/-- An admitted FORCE_SET adds the force in place of one on the same point and LAP_STAT counts the forces; FORCE_CLEAR removes the force of
a point, or with CLEAR_ALL every force; on a point that is not forced it changes nothing. FORCE_LIST answers the count and the forces
in order. (R170, R171, R172) -/
def Obligations.Forces : Prop :=
  (∀ r s q, admitted? (.forceSet r) s = some q →
    let f := forceOf (tv q.tlvs 0x0309)
    ∃ t, exec (.forceSet r) s = .next t ∧ Answered t q 0x0308 .ok 0 [] ∧
      t.estate.forces = (s.estate.forces.filter fun x => !(x.obj == f.obj && x.elem == f.elem)) ++ [f] ∧ t.force? f.obj f.elem = some f ∧
      t.get F.LAP_STAT_FORCES = t.estate.forces.length % 512 ∧ Leaves [.pending, .mem, .safe, .keys, .cfgMem, .clk] s t) ∧
  (∀ r s q a, admitted? (.forceClear r) s = some q → tv? q.tlvs 0x0001 = some a → (s.force? (addrObj (tAddr q.tlvs)) (addrElem (tAddr q.tlvs))).isSome = true →
    ∃ t, exec (.forceClear r) s = .next t ∧ Answered t q 0x0309 .ok 0 [] ∧ t.force? (addrObj (tAddr q.tlvs)) (addrElem (tAddr q.tlvs)) = none ∧ Leaves [.pending, .mem, .safe, .keys, .cfgMem, .clk] s t) ∧
  (∀ r s q a, admitted? (.forceClear r) s = some q → tv? q.tlvs 0x0001 = some a → s.force? (addrObj (tAddr q.tlvs)) (addrElem (tAddr q.tlvs)) = none →
    ∃ t, exec (.forceClear r) s = .next t ∧ Answered t q 0x0309 .ok 0 [] ∧ ChangesOnly batonParts (answerWords q) s t) ∧
  (∀ r s q, admitted? (.forceClear r) s = some q → tv? q.tlvs 0x0001 = none →
    ∃ t, exec (.forceClear r) s = .next t ∧ Answered t q 0x0309 .ok 0 [] ∧ t.estate.forces = [] ∧ (s.estate.forces ≠ [] → t.get F.LAP_STAT_FORCES = 0) ∧ Leaves [.pending, .mem, .safe, .keys, .cfgMem, .clk] s t) ∧
  (∀ r s q, admitted? (.forceList r) s = some q → tv? q.tlvs 0x0005 = none → s.estate.forces.length ≤ 57 →
    ∃ t, exec (.forceList r) s = .next t ∧ Answered t q 0x030A .ok 0 (tlv 0x0008 (natBE 2 s.estate.forces.length) ++ (s.estate.forces.map s.forceBytes).flatten) ∧
      ChangesOnly (batonParts) (answerWords q) s t)

/-- A release of an idle task captures its declared inputs and counts the lap; of one that is still in a lap it counts an overrun, and
halts the task at OVR_LIMIT; during a copy it is held. A captured task takes the core unless a lower one on it is ready, a higher one
then runs no more, and a function block call is one evaluation. A return without a fixed commit ends the lap, with the variables and
charts as the program left them, and stops a task that is to stop; with a fixed commit it waits for COMMIT_OFS, and a COMMIT_OFS before
the return marks the lap late and counts it, or the return counts it. A task that does not hold its core returns nothing. WSTAT answers
the point's status; of a point that has forwarded nothing a free value. (R152, R155, R156, R167, R168, R182) -/
def Obligations.LapPhases : Prop :=
  (∀ (n : Fin 8) (s : State), n.val < s.lap.tasks.length → s.taskLive n.val = true → s.lapsRun = true → s.lap.copy = none → (s.task n.val).phase = .idle →
    ∃ t, exec (.lapRelease n) s = .next t ∧ ((t.task n.val).phase = .captured) ∧ ((t.task n.val).laps = (s.task n.val).laps + 1) ∧ ((t.task n.val).relAt = t.clk) ∧ (t.clk = max s.clk ((s.task n.val).next.getD s.clk)) ∧ ((t.task n.val).inputs = (s.taskDecl n.val).inputs.map fun p => t.lapSees n.val p.obj p.elem) ∧ ((t.task n.val).next.isSome = true) ∧ (t.tstate n.val = tsReady) ∧
      ChangesOnly [.clk, .lap] (regsAt [Reg.LAP_TSTAT n.val]) s t) ∧
  (∀ (n : Fin 8) (s : State), s.taskLive n.val = true → s.lapsRun = true → s.lap.copy = none → (s.task n.val).phase ≠ .idle → satAdd 255 (s.get (F.LAP_TSTAT_CONSEC n.val)) 1 < s.get (F.LAP_TCFG_OVR_LIMIT n.val) →
    ∃ t, exec (.lapRelease n) s = .next t ∧ (t.get (F.LAP_TCNT_OVERRUN n.val) = min 65535 (s.get (F.LAP_TCNT_OVERRUN n.val) + 1)) ∧ (t.get (F.LAP_TSTAT_CONSEC n.val) = satAdd 255 (s.get (F.LAP_TSTAT_CONSEC n.val)) 1) ∧ ((t.task n.val).phase = (s.task n.val).phase) ∧
      ChangesOnly [.clk, .lap, .evr, .limiters] (regsOr evWords (regsOf 3)) s t) ∧
  (∀ (n : Fin 8) (s : State), s.taskLive n.val = true → s.lapsRun = true → s.lap.copy = none → (s.task n.val).phase ≠ .idle → s.get (F.LAP_TCFG_OVR_LIMIT n.val) ≤ satAdd 255 (s.get (F.LAP_TSTAT_CONSEC n.val)) 1 →
    ∃ t, exec (.lapRelease n) s = .next t ∧ (t.tstate n.val = tsHalted) ∧ ((t.task n.val).phase = .idle) ∧ ((t.task n.val).next = none) ∧
      Leaves [.pending, .mem, .safe, .keys, .cfgMem] s t) ∧
  (∀ (n : Fin 8) (s : State), n.val < s.lap.tasks.length → s.taskLive n.val = true → s.lapsRun = true → s.lap.copy.isSome = true →
    ∃ t, exec (.lapRelease n) s = .next t ∧ ((t.task n.val).held = true) ∧
      ChangesOnly [.clk, .lap] noReg s t) ∧
  (∀ (n : Fin 8) (s : State), (s.taskLive n.val = false ∨ s.lapsRun = false) → exec (.lapRelease n) s = .next s) ∧
  (∀ (n : Fin 8) (c : FbCall) (s : State), ((s.task n.val).phase = .captured ∨ (s.task n.val).phase = .running) → s.blkOn 3 = true → (∀ k, k < n.val → ((s.task k).phase = .captured ∨ (s.task k).phase = .running) → s.get (F.LAP_TCFG_CORE k) ≠ s.get (F.LAP_TCFG_CORE n.val)) →
    ∃ t, exec (.lapExecution n [c]) s = .next t ∧ ((t.task n.val).phase = .running) ∧ (t.tstate n.val = tsRunning) ∧ (t.fb c.inst = (s.fb c.inst).eval c (s.task n.val).mono) ∧
      ChangesOnly [.lap] (regsAt ((List.range 8).map Reg.LAP_TSTAT)) s t) ∧
  (∀ (n : Fin 8) (calls : List FbCall) (s : State), ((s.task n.val).phase = .captured ∨ (s.task n.val).phase = .running) → s.blkOn 3 = true → (∀ k, k < n.val → ((s.task k).phase = .captured ∨ (s.task k).phase = .running) → s.get (F.LAP_TCFG_CORE k) ≠ s.get (F.LAP_TCFG_CORE n.val)) →
    ∃ t, exec (.lapExecution n calls) s = .next t ∧ ((t.task n.val).phase = .running) ∧ (t.tstate n.val = tsRunning) ∧ ((∀ k, n.val < k → k < 8 → s.get (F.LAP_TCFG_CORE k) = s.get (F.LAP_TCFG_CORE n.val) → t.tstate k ≠ tsRunning)) ∧
      ChangesOnly [.lap] (regsAt ((List.range 8).map Reg.LAP_TSTAT)) s t) ∧
  (∀ (n : Fin 8) (calls : List FbCall) (s : State), (s.blkOn 3 = false ∨ (s.task n.val).phase = .idle ∨ (s.task n.val).phase = .returned) → exec (.lapExecution n calls) s = .next s) ∧
  (∀ (n : Fin 8) (outs : List LapOut) (vars : List LapVar) (charts : List LapChart) (s : State), (s.task n.val).phase = .running → s.tstate n.val = tsRunning → s.get (F.LAP_TCFG_COMMIT n.val) = 0 → (s.task n.val).stop = none →
    ∃ t, exec (.programReturn n outs ⟨vars, charts⟩) s = .next t ∧ ((t.task n.val).phase = .idle) ∧ (t.tstate n.val = tsWaiting) ∧ ((t.task n.val).outs = ((s.task n.val).outs.filter fun p => !((outs.map fun o => (o.obj.toNat, o.elem.toNat, o.value)).any fun q => q.1 == p.1 && q.2.1 == p.2.1)) ++ outs.map fun o => (o.obj.toNat, o.elem.toNat, o.value)) ∧ (t.lap.vars = pathPut s.lap.vars (vars.filterMap s.varOf)) ∧ (t.lap.charts = pathPut s.lap.charts (charts.map fun c => (c.path.toNat, c.steps.map (·.toNat)))) ∧ (t.rd (Reg.LAP_TLAST n.val) = (s.clk - (s.task n.val).relAt) / usec % 2 ^ 32) ∧
      Leaves [.pending, .mem, .safe, .keys, .cfgMem, .clk] s t) ∧
  (∀ (n : Fin 8) (outs : List LapOut) (vars : List LapVar) (charts : List LapChart) (c : Nat) (s : State), (s.task n.val).phase = .running → s.tstate n.val = tsRunning → s.get (F.LAP_TCFG_COMMIT n.val) = 0 → (s.task n.val).stop = some c →
    ∃ t, exec (.programReturn n outs ⟨vars, charts⟩) s = .next t ∧ ((t.task n.val).phase = .idle) ∧ (t.tstate n.val = tsStopped) ∧ ((t.task n.val).next = none) ∧ ((∀ i ∈ t.baton.items, i.wait = .taskStop → ∃ k, k < 8 ∧ bit1 i.a k = 1 ∧ t.taskLive k = true)) ∧
      Leaves [.pending, .mem, .safe, .keys, .cfgMem, .clk] s t) ∧
  (∀ (n : Fin 8) (outs : List LapOut) (vars : List LapVar) (charts : List LapChart) (s : State), (s.task n.val).phase = .running → s.tstate n.val = tsRunning → s.get (F.LAP_TCFG_COMMIT n.val) = 1 → s.clk ≤ (s.task n.val).relAt + s.get (F.LAP_TCOM_COMMIT_OFS n.val) * usec → (s.task n.val).late = false →
    ∃ t, exec (.programReturn n outs ⟨vars, charts⟩) s = .next t ∧ ((t.task n.val).phase = .returned) ∧ ((t.task n.val).outs = ((s.task n.val).outs.filter fun p => !((outs.map fun o => (o.obj.toNat, o.elem.toNat, o.value)).any fun q => q.1 == p.1 && q.2.1 == p.2.1)) ++ outs.map fun o => (o.obj.toNat, o.elem.toNat, o.value)) ∧ ((t.task n.val).vars = vars.filterMap s.varOf) ∧ (t.tstate n.val = tsReady) ∧
      ChangesOnly [.lap] (regsAt ((List.range 8).map Reg.LAP_TSTAT)) s t) ∧
  (∀ (n : Fin 8) (outs : List LapOut) (vars : List LapVar) (charts : List LapChart) (s : State), (s.task n.val).phase = .running → s.tstate n.val = tsRunning → s.get (F.LAP_TCFG_COMMIT n.val) = 1 → ((s.task n.val).relAt + s.get (F.LAP_TCOM_COMMIT_OFS n.val) * usec < s.clk ∨ (s.task n.val).late = true) → (s.task n.val).stop = none →
    ∃ t, exec (.programReturn n outs ⟨vars, charts⟩) s = .next t ∧ ((t.task n.val).phase = .idle) ∧ (t.tstate n.val = tsWaiting) ∧ (t.lap.vars = pathPut s.lap.vars (vars.filterMap s.varOf)) ∧ (t.lap.charts = pathPut s.lap.charts (charts.map fun c => (c.path.toNat, c.steps.map (·.toNat)))) ∧ (t.get (F.LAP_TCNT_LATE n.val) = (if (s.task n.val).late then s.get (F.LAP_TCNT_LATE n.val) else min 65535 (s.get (F.LAP_TCNT_LATE n.val) + 1))) ∧
      Leaves [.pending, .mem, .safe, .keys, .cfgMem, .clk] s t) ∧
  (∀ (n : Fin 8) (outs : List LapOut) (vars : List LapVar) (charts : List LapChart) (s : State), ((s.task n.val).phase ≠ .running ∨ s.tstate n.val ≠ tsRunning) → exec (.programReturn n outs ⟨vars, charts⟩) s = .next s) ∧
  (∀ (n : Fin 8) (s : State), (s.task n.val).phase = .returned → s.get (F.LAP_TCFG_COMMIT n.val) = 1 → (s.task n.val).stop = none →
    ∃ t, exec (.lapCommit n) s = .next t ∧ ((t.task n.val).phase = .idle) ∧ (t.tstate n.val = tsWaiting) ∧ (t.clk = max s.clk ((s.task n.val).relAt + s.get (F.LAP_TCOM_COMMIT_OFS n.val) * usec)) ∧
      Leaves [.pending, .mem, .safe, .keys, .cfgMem] s t) ∧
  (∀ (n : Fin 8) (s : State), ((s.task n.val).phase = .captured ∨ (s.task n.val).phase = .running) → s.get (F.LAP_TCFG_COMMIT n.val) = 1 → (s.task n.val).late = false →
    ∃ t, exec (.lapCommit n) s = .next t ∧ ((t.task n.val).late = true) ∧ (t.get (F.LAP_TCNT_LATE n.val) = min 65535 (s.get (F.LAP_TCNT_LATE n.val) + 1)) ∧
      ChangesOnly [.clk, .lap] (regsAt [Reg.LAP_TCNT n.val]) s t) ∧
  (∀ (n : Fin 8) (s : State), ((s.task n.val).phase = .idle ∨ s.get (F.LAP_TCFG_COMMIT n.val) = 0) → exec (.lapCommit n) s = .next s) ∧
  (∀ (n : Fin 8) (o : BitVec 13) (e : Byte) (w : WStat) (s : State), s.lap.wstat.find? (fun w => w.task == n.val && w.obj == o.toNat && w.elem == e.toNat) = some w →
    exec (.wstat n o e) s = .next (s.emit (.wstat n.val o.toNat e.toNat w.st))) ∧
  (∀ (n : Fin 8) (o : BitVec 13) (e : Byte) (s : State), s.lap.wstat.find? (fun w => w.task == n.val && w.obj == o.toNat && w.elem == e.toNat) = none →
    ∃ t v, exec (.wstat n o e) s = .next t ∧ t.out = .wstat n.val o.toNat e.toNat v :: s.out ∧ ChangesOnly [.out, .freeCtr] noReg s t)

/-- An admitted LOOP_ASSIGN gives the loop its object; LOOP_CFG writes timing and start value and clears the counts; LOOP_BIND replaces the
bindings of the roles it names and removes those of kind NONE; LOOP_BANK_WRITE writes the 24 words of the inactive bank and no other;
the reads answer the bank, the state and the bindings as they stand. (R186, R206, R216, R223) -/
def Obligations.LoopOpcodes : Prop :=
  (∀ r s q, admitted? (.loopAssign r) s = some q → loopN q < s.engine.loops.length →
    ∃ t, exec (.loopAssign r) s = .next t ∧ Answered t q 0x0401 .ok 0 [] ∧ (t.loopSt (loopN q)).obj = addrObj (tAddr q.tlvs) ∧
      (∀ k, k ≠ loopN q → t.loopSt k = s.loopSt k) ∧ Leaves [.pending, .mem, .safe, .keys, .upd, .cfgMem, .clk] s t) ∧
  (∀ r s q, admitted? (.loopCfg r) s = some q →
    let b := tv q.tlvs 0x0402
    ∃ t, exec (.loopCfg r) s = .next t ∧ Answered t q 0x0402 .ok 0 [] ∧ t.rd (Reg.LOOP_PER (loopN q)) = beAt b 4 4 ∧ t.rd (Reg.LOOP_OFS (loopN q)) = beAt b 8 4 ∧
      t.rd (Reg.LOOP_START (loopN q)) = beAt b 12 4 ∧ t.rd (Reg.LOOP_CNT (loopN q)) = 0 ∧ ChangesOnly (.cfgMem :: batonParts) (regsOr (answerWords q) (regsOf 4)) s t) ∧
  (∀ r s q, admitted? (.loopBind r) s = some q → loopN q < s.engine.loops.length →
    ∃ t, exec (.loopBind r) s = .next t ∧ Answered t q 0x0403 .ok 0 [] ∧
      (t.loopSt (loopN q)).binds = newBinds (s.loopSt (loopN q)).binds ((tvs q.tlvs 0x0403).map bindOf) ∧
      (∀ k, k ≠ loopN q → t.loopSt k = s.loopSt k) ∧ ChangesOnly (.engine :: batonParts) (regsOr (answerWords q) (regsOf 4)) s t) ∧
  (∀ r s q, admitted? (.loopBankWrite r) s = some q →
    let n := loopN q
    let k := 1 - s.actb n
    ∃ t, exec (.loopBankWrite r) s = .next t ∧ Answered t q 0x0404 .ok 0 [] ∧ (∀ i, i < 24 → t.bank n k i = beAt (tv q.tlvs 0x0404) (4 * i) 4) ∧
      ChangesOnly (.cfgMem :: batonParts) (regsOr (answerWords q) (regsAt ((List.range 24).map fun i => Reg.LOOP_BANK n (24 * k + i)))) s t) ∧
  (∀ r s q, admitted? (.loopBankRead r) s = some q →
    let n := loopN q
    let x := tn q.tlvs 0x0405
    let b := if x ≤ 1 then x else if x = 2 then s.actb n else 1 - s.actb n
    ∃ t, exec (.loopBankRead r) s = .next t ∧ Answered t q 0x0405 .ok 0 (tlv 0x0404 (((List.range 24).map fun i => natBE 4 (s.bank n b i)).flatten)) ∧
      ChangesOnly batonParts (answerWords q) s t) ∧
  (∀ r s q, admitted? (.loopRead r) s = some q →
    ∃ t, exec (.loopRead r) s = .next t ∧ Answered t q 0x0407 .ok 0 (tlv 0x0407 ((s.loopSnap (loopN q)).map (natBE 4)).flatten) ∧
      ChangesOnly (batonParts) (answerWords q) s t) ∧
  (∀ r s q, admitted? (.loopBindRead r) s = some q →
    ∃ t, exec (.loopBindRead r) s = .next t ∧ Answered t q 0x0408 .ok 0 ((((List.range 5).filterMap fun r => (s.loopSt (loopN q)).bind? r).map fun b => tlv 0x0403 (s.bindBytes b)).flatten) ∧
      ChangesOnly (batonParts) (answerWords q) s t)

/-- An admitted LOOP_SWAP that names a loop whose inactive bank fails the check ends FAILED and swaps none; one whose loops pass and run is
PENDING with SWAP set on each. SWAP of a running loop waits; of an OFF loop a bank that passes becomes active at once, and one that
fails sets SWAPERR and leaves ACTB. GO sets SWAP on every selected loop that runs, swaps the selected OFF loops at once, and leaves the
others; while GO reads 1, or in a block that is off, it changes nothing. (R216, R217, R218, R219) -/
def Obligations.LoopBankSwaps : Prop :=
  (∀ r s q, admitted? (.loopSwap r) s = some q → (∃ n ∈ maskLoops (tv q.tlvs 0x0406), s.bankCheck n (1 - s.actb n) ≠ 0) →
    ∃ t, exec (.loopSwap r) s = .next t ∧ Answered t q 0x0406 .failed 0 ([]) ∧
      ChangesOnly (batonParts) (answerWords q) s t) ∧
  (∀ r s q, admitted? (.loopSwap r) s = some q → maskLoops (tv q.tlvs 0x0406) ≠ [] →
    (∀ n ∈ maskLoops (tv q.tlvs 0x0406), s.bankCheck n (1 - s.actb n) = 0 ∧ s.loopEff n ≠ effOff) →
    ∃ t, exec (.loopSwap r) s = .next t ∧ Answered t q 0x0406 .pending 0 [] ∧ t.baton.items = s.baton.items ++ [opLoopSwap.item q .loopSwap 0 0 true] ∧
      (∀ n ∈ maskLoops (tv q.tlvs 0x0406), t.get (F.LOOP_CTL_SWAP n) = 1 ∧ t.actb n = s.actb n) ∧ ChangesOnly batonParts (regsOr (answerWords q) (regsOf 4)) s t) ∧
  (∀ (n : Fin 256) (s : State), s.blkOn 4 = true → s.loopEff n.val ≠ effOff →
    ∃ t, exec (.loopCtlSwap n) s = .next t ∧ (t.get (F.LOOP_CTL_SWAP n.val) = 1) ∧ (t.actb n.val = s.actb n.val) ∧
      ChangesOnly [] (regsAt [Reg.LOOP_CTL n.val]) s t) ∧
  (∀ (n : Fin 256) (s : State), s.blkOn 4 = true → s.loopEff n.val = effOff → s.bankCheck n.val (1 - s.actb n.val) = 0 →
    ∃ t, exec (.loopCtlSwap n) s = .next t ∧ (t.actb n.val = 1 - s.actb n.val) ∧ (t.get (F.LOOP_CTL_SWAP n.val) = 0) ∧
      Leaves [.pending, .mem, .safe, .keys, .upd, .cfgMem, .clk] s t) ∧
  (∀ (n : Fin 256) (s : State), s.blkOn 4 = true → s.loopEff n.val = effOff → s.bankCheck n.val (1 - s.actb n.val) ≠ 0 →
    ∃ t, exec (.loopCtlSwap n) s = .next t ∧ (t.actb n.val = s.actb n.val) ∧ (t.get (F.LOOP_CTL_SWAP n.val) = 0) ∧ (t.get (F.LOOP_FLAG_SWAPERR n.val) = 1) ∧
      Leaves [.pending, .mem, .safe, .keys, .upd, .cfgMem, .clk] s t) ∧
  (∀ (n : Fin 256) (s : State), s.blkOn 4 = false → exec (.loopCtlSwap n) s = .next s) ∧
  (∀  (s : State), s.blkOn 4 = true → s.get F.LOOP_SWGO_GO = 0 →
    ∃ t, exec .loopSwgo s = .next t ∧ ((∀ n, n < 256 → bit1 (s.get (F.LOOP_SWSEL_SEL (n / 32))) (n % 32) = 1 → s.loopEff n ≠ effOff → t.get (F.LOOP_CTL_SWAP n) = 1 ∧ t.actb n = s.actb n)) ∧ ((∀ n, n < 256 → bit1 (s.get (F.LOOP_SWSEL_SEL (n / 32))) (n % 32) = 1 → s.loopEff n = effOff → t.get (F.LOOP_CTL_SWAP n) = 0 ∧ t.actb n = (if s.bankCheck n (1 - s.actb n) = 0 then 1 - s.actb n else s.actb n) ∧
      (s.bankCheck n (1 - s.actb n) ≠ 0 → t.get (F.LOOP_FLAG_SWAPERR n) = 1))) ∧ ((∀ n, n < 256 → bit1 (s.get (F.LOOP_SWSEL_SEL (n / 32))) (n % 32) = 0 → t.get (F.LOOP_CTL_SWAP n) = s.get (F.LOOP_CTL_SWAP n) ∧ t.actb n = s.actb n)) ∧
      Leaves [.pending, .mem, .safe, .keys, .upd, .cfgMem, .clk] s t) ∧
  (∀  (s : State), (s.blkOn 4 = false ∨ s.get F.LOOP_SWGO_GO = 1) → exec .loopSwgo s = .next s)

/-- A sample that falls due by a loop's timer waits for its evaluation at the instant of R206. An evaluation of an OFF loop keeps it OFF;
in BLOCKS the loop is MANUAL with cause 1 and its output START within UMIN and UMAX; with RATE 0 the output in AUTO or MANUAL lies
within UMIN and UMAX. The relay trigger, once for each that a frame has raised, counts; its loss marks every relay-triggered loop that
runs. The planning unit completes the oldest plan. In a block that is off nothing happens. (R198, R202, R206, R207, R209, R210, R226,
R230) -/
def Obligations.LoopSamplesAndOutput : Prop :=
  (∀ (n : Fin 256) (s : State), n.val < s.engine.loops.length → s.loopRuns n.val = true → (s.get (F.LOOP_PER_TRIG n.val) ≠ 1 ∨ s.engine.trigSeen = false ∨ s.engine.trigLost = true) →
    ∃ t, exec (.loopSampleDue n) s = .next t ∧ ((t.loopSt n.val).due = some t.clk) ∧ (t.clk = max s.clk (s.timerNext n.val)) ∧ ((t.loopSt n.val).lastDue = some (s.timerNext n.val)) ∧
      ChangesOnly [.clk, .engine, .evr, .limiters] (regsOr evWords (regsOf 4)) s t) ∧
  (∀ (n : Fin 256) (s : State), (s.loopRuns n.val = false ∨ s.get (F.LOOP_PER_TRIG n.val) = 1 ∧ s.engine.trigSeen = true ∧ s.engine.trigLost = false) → exec (.loopSampleDue n) s = .next s) ∧
  (∀ (n : Nat) (s : State), s.blkOn 4 = true → s.nextEval = some n → s.get (F.LOOP_CTL_SWAP n) = 0 → s.loopMode n = 0 →
    ∃ t, exec .loopEvaluation s = .next t ∧ (t.loopEff n = effOff) ∧ ((t.loopSt n).due = none) ∧
      Leaves [.pending, .mem, .safe, .keys, .upd, .cfgMem, .clk] s t) ∧
  (∀ (n : Nat) (s : State), s.blkOn 4 = true → s.nextEval = some n → s.get (F.LOOP_CTL_SWAP n) = 0 → s.loopMode n ≠ 0 → s.engine.holdup = false → s.mode = modeBlocks →
    ∃ t, exec .loopEvaluation s = .next t ∧ (t.loopEff n = effManual) ∧ (t.get (F.LOOP_STAT_CAUSE n) = 1) ∧ (t.get (F.LOOP_OUT_OUT n) = wrapN 16 (clampI (pairLo (s.act n 7)) (pairHi (s.act n 7)) (sgn 16 (s.get (F.LOOP_START_START n))))) ∧
      Leaves [.pending, .mem, .safe, .keys, .upd, .cfgMem, .clk] s t) ∧
  (∀ (n : Nat) (s : State), s.blkOn 4 = true → s.nextEval = some n → s.get (F.LOOP_CTL_SWAP n) = 0 → s.loopMode n ≠ 0 → pairLo (s.act n 7) ≤ pairHi (s.act n 7) → bitsOf (s.act n 8) 15 0 = 0 →
    ∃ t, exec .loopEvaluation s = .next t ∧ ((t.loopEff n = effAuto ∨ t.loopEff n = effManual → pairLo (s.act n 7) ≤ sgn 16 (t.get (F.LOOP_OUT_OUT n)) ∧ sgn 16 (t.get (F.LOOP_OUT_OUT n)) ≤ pairHi (s.act n 7))) ∧
      Leaves [.pending, .mem, .safe, .keys, .upd, .cfgMem, .clk] s t) ∧
  (∀  (s : State), (s.blkOn 4 = false ∨ s.nextEval = none) → exec .loopEvaluation s = .next s) ∧
  (∀  (s : State), s.relay.trigger = true → s.blkOn 4 = true →
    ∃ t, exec .relaySampleTrigger s = .next t ∧ (t.get F.LOOP_TRIG_COUNT = (s.get F.LOOP_TRIG_COUNT + 1) % 2 ^ 32) ∧ (t.engine.trigSeen = true) ∧ (t.engine.trigLost = false) ∧ (t.engine.lastTrig = s.clk) ∧ (t.relay.trigger = false) ∧
      Leaves [.pending, .mem, .safe, .keys, .upd, .cfgMem, .clk, .baton] s t) ∧
  (∀  (s : State), s.relay.trigger = true → s.blkOn 4 = false →
    ∃ t, exec .relaySampleTrigger s = .next t ∧ (t.relay = { s.relay with trigger := false, passing := none }) ∧
      ChangesOnly [.relay, .out] noReg s t) ∧
  (∀  (s : State), s.relay.trigger = false → exec .relaySampleTrigger s = .next s) ∧
  (∀ (n : Nat) (s : State), s.blkOn 4 = true → s.engine.trigSeen = true → s.engine.trigLost = false → n < 256 → s.get (F.LOOP_PER_TRIG n) = 1 → s.loopRuns n = true →
    ∃ t, exec .loopTrigLost s = .next t ∧ (t.engine.trigLost = true) ∧ (t.get (F.LOOP_STAT_TRIG_LOST n) = 1) ∧ (t.get (F.LOOP_FLAG_TRIGLOSS n) = 1) ∧
      Leaves [.pending, .mem, .safe, .keys, .upd, .cfgMem, .baton] s t) ∧
  (∀  (s : State), (s.blkOn 4 = false ∨ s.engine.trigSeen = false ∨ s.engine.trigLost = true) → exec .loopTrigLost s = .next s) ∧
  (∀ (n : Nat) (rest : List Nat) (s : State), s.engine.plans = n :: rest → (s.loopSt n).pg.st = 3 →
    ∃ t, exec .profilePlan s = .next t ∧ (t.engine.plans = rest) ∧ ((∃ m, (t.loopSt n).pg.move = some m ∧ m.tgt = (s.loopSt n).pg.planTgt)) ∧
      ChangesOnly [.engine] noReg s t) ∧
  (∀  (s : State), s.engine.plans = [] → exec .profilePlan s = .next s)

/-- A plan starts at a multiple of PERIOD, with the next number, at its instant. The end of a local solve in a group that another module
anchors is the state in which the engine of R256 stops within ITER_RND and the cap, at the instant of R259, kept with the solution
before it; a numeric fault ends the plan with STATE 5, ERR 3 and no lanes. Without rounds the plan closes on its own residuals. With no
FINAL by the period end the plan closes at that instant, as FALLBACK where the previous plan is usable and else as COLD. N steps after
step 0 of the latest plan its dispatch goes stale, once. (R266, R267, R268, R270, R279, R287, R288) -/
def Obligations.PlanLifeCycle : Prop :=
  (∀  (s : State), 0 < s.grid.2.2 →
    ∃ t, exec .planStart s = .next t ∧ (∃ st, t.pacer.startAt = some st ∧ st % s.grid.2.2 = 0 ∧ t.clk = max s.clk (s.clkOfTai st) ∧
      t.pacer.cur.map (fun p => (p.no, p.start)) = some (s.pacer.no + 1, st)) ∧ (t.pacer.no = s.pacer.no + 1) ∧ (t.pacer.period = s.grid.2.2) ∧
      Leaves [.pending, .safe, .keys, .upd, .cfgMem] s t) ∧
  (∀ (pl : PPlan) (pr : PProb) (sv : PSolve) (rest : List PSolve) (g : W64) (w : List (List Nat) × List (List Nat)) (o : EngOut) (s : State), s.pacer.cur = some pl → pl.prob = some pr → pl.solves = sv :: rest → sv.done = false → pl.closed = false → pl.fault = false → s.pdOn 2 = true → s.get F.PACER_LANES_LANES ≠ 0 → pl.grp = some g → s.anchors g = false → w = (match pl.latest with | some v => (v.zs, v.ys) | none => (pr.warmZ, pr.warmY)) → ((pr.engine (d64 pr.cw) (s.couplingLin pl sv.t)).solve w.1 w.2 (pl.budget (s.fget F.PACER_FITER_ITER_RND))).toOption = some o →
    ∃ t, exec .localSolveDone s = .next t ∧ (t.pacer.cur.map (fun x => (x.solves, x.iters)) = some (({ sv with done := true, z := pr.values o.z, ws := o.w, zs := o.z, ys := o.y, met := o.met, rp := o.rp, rd := o.rd, obj := pr.objective (pr.values o.z) } :: rest).take 2, pl.iters + o.iters)) ∧ (t.clk = max s.clk (s.solveFrom pl pr sv (s.get F.PACER_LANES_LANES) + cycNs (o.iters * iterCycles pl.n pr.nx pr.nu pr.g (s.get F.PACER_LANES_LANES)))) ∧
      Leaves [.pending, .safe, .keys, .upd, .cfgMem, .estate] s t) ∧
  (∀ (pl : PPlan) (pr : PProb) (sv : PSolve) (rest : List PSolve) (g : W64) (w : List (List Nat) × List (List Nat)) (s : State), s.pacer.cur = some pl → pl.prob = some pr → pl.solves = sv :: rest → sv.done = false → pl.closed = false → pl.fault = false → s.pdOn 2 = true → s.get F.PACER_LANES_LANES ≠ 0 → pl.grp = some g → s.anchors g = false → w = (match pl.latest with | some v => (v.zs, v.ys) | none => (pr.warmZ, pr.warmY)) → ((pr.engine (d64 pr.cw) (s.couplingLin pl sv.t)).solve w.1 w.2 (pl.budget (s.fget F.PACER_FITER_ITER_RND))).toOption = none →
    ∃ t, exec .localSolveDone s = .next t ∧ (t.pacer.cur.map (·.fault) = some true) ∧ (t.get F.PACER_STAT_STATE = 5) ∧ (t.get F.PACER_STAT_ERR = 3) ∧ (t.get F.PACER_LANES_LANES = 0) ∧
      Leaves [.pending, .safe, .keys, .upd, .cfgMem, .clk, .mem, .estate] s t) ∧
  (∀ (pl : PPlan) (pr : PProb) (sv : PSolve) (rest : List PSolve) (w : List (List Nat) × List (List Nat)) (o : EngOut) (s : State), s.pacer.cur = some pl → pl.prob = some pr → pl.solves = sv :: rest → sv.done = false → pl.closed = false → pl.fault = false → s.pdOn 2 = true → s.get F.PACER_LANES_LANES ≠ 0 → pl.grp = none → w = (match pl.latest with | some v => (v.zs, v.ys) | none => (pr.warmZ, pr.warmY)) → ((pr.engine (d64 pr.cw) (s.couplingLin pl sv.t)).solve w.1 w.2 (pl.budget (pr.fits pl.n (s.get F.PACER_LANES_LANES) (s.solveFrom pl pr sv (s.get F.PACER_LANES_LANES)) (s.pctAt pl.start pl.period (s.fget F.PACER_FCFG_DL_PCT))))).toOption = some o →
    ∃ t, exec .localSolveDone s = .next t ∧ (t.pacer.cur.map (·.closed) = some true) ∧ (t.get F.PACER_FSTAT_QUAL = (if pl.cold then 3 else if o.met then 0 else 1)) ∧ (t.get F.PACER_STAT_STATE = 4) ∧ (t.clk = max s.clk (s.solveFrom pl pr sv (s.get F.PACER_LANES_LANES) + cycNs (o.iters * iterCycles pl.n pr.nx pr.nu pr.g (s.get F.PACER_LANES_LANES)))) ∧
      Leaves [.pending, .safe, .keys, .upd, .cfgMem] s t) ∧
  (∀  (s : State), (s.pacer.cur = none ∨ s.pdOn 2 = false ∨ s.get F.PACER_LANES_LANES = 0) → exec .localSolveDone s = .next s) ∧
  (∀ (pl : PPlan) (s : State), s.pacer.cur = some pl → pl.closed = false →
    ∃ t, exec .fallback s = .next t ∧ (t.pacer.cur = some { pl with closed := true, nominal := t.pacer.cur.bind (·.nominal) }) ∧ (t.clk = max s.clk (s.clkOfTai (pl.start + pl.period))) ∧ (t.get F.PACER_FSTAT_QUAL = (if (s.pacer.plan.bind fun p => shiftOf p.step0 p.n p.stepMin pl.step0 pl.stepMin).isSome then 4 else 3)) ∧ (t.get F.PACER_FSTAT_PSEQ = pl.no % 256) ∧
      Leaves [.pending, .safe, .keys, .upd, .cfgMem, .mem, .baton] s t) ∧
  (∀  (s : State), (s.pacer.cur = none ∨ ∃ pl, s.pacer.cur = some pl ∧ pl.closed = true) → exec .fallback s = .next s) ∧
  (∀ (x : Nat × Nat × Nat × Nat) (s : State), s.pacer.live = some x → s.pacer.staleEv = false →
    ∃ t, exec .dispatchStale s = .next t ∧ (t.pacer = { s.pacer with staleEv := true }) ∧ (t.clk = max s.clk (s.clkOfTai (x.2.1 + x.2.2.1 * x.2.2.2 * 60))) ∧
      ChangesOnly [.clk, .estate, .pacer, .limiters, .evr] evWords s t) ∧
  (∀  (s : State), (s.pacer.live = none ∨ s.pacer.staleEv = true) → exec .dispatchStale s = .next s)

/-- A piece that completes no message has no effect beyond its link. A ROUND of the module's own plan from the anchor begins a solve; a
FINAL closes the plan; a PROBE for a child group that the module anchors is answered from its envelope, and one for the module itself
from its probes, or not at all where the engine faults or PR_PCT comes first. At an anchor a REPLY is entered while others are missing;
at a reply timeout the round closes or the next one opens; at DL_PCT the plan closes, and so does a plan without rounds; at PR_PCT the
envelope is formed. A valid envelope of a child replaces the one held; an invalid one is dropped with an event. (R269, R270, R272,
R275, R276, R280, R281, R283, R434) -/
def Obligations.PacerMessages : Prop :=
  (∀ (p : FPiece) (s1 s : State), s.furunPiece 7 p = (s1, none) → exec (.pacerRound p) s = .next s1) ∧
  (∀ (p : FPiece) (s1 s : State), s.furunPiece 7 p = (s1, none) → exec (.pacerReply p) s = .next s1) ∧
  (∀ (p : FPiece) (s1 s : State), s.furunPiece 7 p = (s1, none) → exec (.pacerFinal p) s = .next s1) ∧
  (∀ (p : FPiece) (s1 s : State), s.furunPiece 7 p = (s1, none) → exec (.pacerProbe p) s = .next s1) ∧
  (∀ (p : FPiece) (s1 s : State), s.furunPiece 7 p = (s1, none) → exec (.probeReply p) s = .next s1) ∧
  (∀ (p : FPiece) (s1 s : State), s.furunPiece 7 p = (s1, none) → exec (.pacerEnvelope p) s = .next s1) ∧
  (∀ (p : FPiece) (m : Bytes) (s1 : State) (g : W64) (pl : PPlan) (s : State), s.furunPiece 7 p = (s1, some m) → s1.groupOf p.dst = some g → (pheadOf m).typ = 1 → s1.fromAnchor g p.peer (pheadOf m).epoch = true → p.dst = s1.own → s1.pacer.cur = some pl → pl.closed = false → pl.start = (pheadOf m).start → pl.epoch = (pheadOf m).epoch → pl.grp = some g → ((pl.solves.head?.map (·.round)).getD 0) < (pheadOf m).round → pl.prob.isSome = true → pl.fault = false → s1.mode ≠ modeBlocks → s1.mode ≠ modeHoldup → s1.pacer.startAt = some (pheadOf m).start → (pl.latest = none ∨ pl.atCap = false) →
    ∃ t, exec (.pacerRound p) s = .next t ∧ (t.pacer.cur.map (fun x => x.solves.tail) = some ((pl.solves.filter (·.done)).take 2)) ∧ ((t.pacer.cur.bind (·.solves.head?)).map (fun v => (v.round, v.done, v.t)) = some ((pheadOf m).round, false,
      let v := spreadCars (pheadOf m).cars (pheadOf m).n pl.n (bytesVec (m.drop 40) ((pheadOf m).cars.length * (pheadOf m).n))
      if (pheadOf m).round = 1 then firstTarget pl.b0 v else v)) ∧ (t.get F.PACER_STAT_STATE = 3) ∧
      Leaves [.pending, .safe, .keys, .upd, .cfgMem, .clk, .mem, .estate] s t) ∧
  (∀ (p : FPiece) (m : Bytes) (s1 : State) (g : W64) (pl : PPlan) (s : State), s.furunPiece 7 p = (s1, some m) → s1.groupOf p.dst = some g → (pheadOf m).typ = 3 → s1.fromAnchor g p.peer (pheadOf m).epoch = true → p.dst = s1.own → s1.pacer.cur = some pl → pl.closed = false → s1.pacer.startAt = some (pheadOf m).start → pl.epoch = (pheadOf m).epoch → pl.grp = some g →
    ∃ t, exec (.pacerFinal p) s = .next t ∧ (t.pacer.cur.map (·.closed) = some true) ∧
      Leaves [.pending, .safe, .keys, .upd, .cfgMem, .clk] s t) ∧
  (∀ (p : FPiece) (m : Bytes) (g : W64) (s s1 : State), s.furunPiece 7 p = (s1, some m) → s1.groupOf p.dst = some g → (pheadOf m).typ = 4 →
    s1.fromAnchor g p.peer (pheadOf m).epoch = true → p.dst ≠ s1.own → s1.pacer.startAt = some (pheadOf m).start →
    let h := pheadOf m
    let lam := ((s1.pacer.ports.find? fun f => f.grp == p.dst).map (·.lam)).getD []
    exec (.pacerProbe p) s = .next (s1.furunSend p.peer 7 1 p.src (({ h with typ := 5, round := 0, hop := addrLast p.dst, parts := 0 } : PHead).bytes ++
      vecBytes (s1.envProbe p.dst h.cars h.n h.stepMin h.step0 lam (fl32 (beAt m 40 4))) ++ natBE 4 0))) ∧
  (∀ (p : FPiece) (m : Bytes) (g : W64) (pl : PPlan) (pr : PProb) (v : PSolve) (f : PFinal) (s s1 : State), s.furunPiece 7 p = (s1, some m) → s1.groupOf p.dst = some g →
    (pheadOf m).typ = 4 → s1.fromAnchor g p.peer (pheadOf m).epoch = true → p.dst = s1.own → s1.pacer.startAt = some (pheadOf m).start → s1.pacer.cur = some pl → pl.prob = some pr → pl.latest = some v →
    s1.pacer.finals.find? (fun f => f.grp == g) = some f → pl.closed = true → pl.grp = some g → pl.fault = false → s1.pdOn 2 = true →
    let x := s1.probeAnswer pl pr v (pheadOf m).cars (spreadCars f.cars f.n pl.n f.lam) (fl32 (beAt m 40 4))
    ∃ t, exec (.pacerProbe p) s = .next t ∧ (x.stop = true → t = x.s.pacerEnded) ∧
      (x.stop = false → t = (x.s.furunSend p.peer 7 1 p.src (({ pheadOf m with typ := 5, round := 0, hop := s1.hopIn g, parts := 0 } : PHead).bytes ++
        vecBytes x.b ++ natBE 1 (b2n x.capped) ++ natBE 3 0)).pacerEnded)) ∧
  (∀ (p : FPiece) (m : Bytes) (s1 : State) (x : GPlan) (a b : GPart) (s : State), s.furunPiece 7 p = (s1, some m) → (pheadOf m).typ = 2 → s1.coordOf p (pheadOf m) = some x → s1.coord? x.grp = some x → x.closed = false → (pheadOf m).round = x.round → (pheadOf m).n = x.n → (pheadOf m).cars = x.cars → 4 * (x.cars.length * x.n) + 9 ≤ (m.drop 40).length → x.parts.find? (fun k => k.hop == (pheadOf m).hop) = some a → a.frozen = none → a.next = none → b ∈ x.parts → b.hop ≠ (pheadOf m).hop → b.frozen = none → b.next = none →
    ∃ t, exec (.pacerReply p) s = .next t ∧ (∃ y, t.coord? x.grp = some y ∧ y.round = x.round ∧ y.closed = false ∧ ∀ k ∈ y.parts, k.hop = (pheadOf m).hop →
        let fl := beAt (m.drop 40) (4 * (x.cars.length * x.n) + 8) 1
        (if bit1 fl 3 = 1 then k.frozen.isSome = true else k.next = some (bytesVec (m.drop 40) (x.cars.length * x.n), fl) ∨ k.frozen.isSome = true)) ∧
      Leaves [.pending, .safe, .keys, .upd, .cfgMem, .clk, .mem, .estate] s t) ∧
  (∀ (grp : W64) (x : GPlan) (s : State), s.coord? grp = some x → x.closed = false →
    ∃ t, exec (.replyTimeout grp) s = .next t ∧ (∃ y, t.coord? grp = some y ∧ (y.closed = true ∨ x.round < y.round)) ∧ (t.clk = max s.clk (x.roundAt + (if x.round = 1 then s.fget F.PACER_FTMO_RND1_TO else s.fget F.PACER_FTMO_RND_TO) * msec)) ∧
      Leaves [.pending, .safe, .keys, .upd, .cfgMem] s t) ∧
  (∀ (grp : W64) (s : State), (s.coord? grp = none ∨ ∃ x, s.coord? grp = some x ∧ x.closed = true) → exec (.replyTimeout grp) s = .next s) ∧
  (∀ (grp : W64) (x : GPlan) (s : State), s.coord? grp = some x → x.closed = false →
    ∃ t, exec (.roundDeadline grp) s = .next t ∧ (∃ y, t.coord? grp = some y ∧ y.closed = true) ∧ (t.clk = max s.clk (s.pctAt x.start x.period (s.fget F.PACER_FCFG_DL_PCT))) ∧
      Leaves [.pending, .safe, .keys, .upd, .cfgMem] s t) ∧
  (∀ (grp : W64) (pl : PPlan) (sv : PSolve) (rest : List PSolve) (s : State), s.coord? grp = none → s.pacer.cur = some pl → pl.closed = false → pl.grp = none → pl.prob.isSome = true → pl.solves = sv :: rest → sv.done = true →
    ∃ t, exec (.roundDeadline grp) s = .next t ∧ (t.pacer.cur.map (·.closed) = some true) ∧ (t.clk = max s.clk (s.pctAt pl.start pl.period (s.fget F.PACER_FCFG_DL_PCT))) ∧
      Leaves [.pending, .safe, .keys, .upd, .cfgMem] s t) ∧
  (∀ (grp : W64) (s : State), (∃ x, s.coord? grp = some x ∧ x.closed = true) → exec (.roundDeadline grp) s = .next s) ∧
  (∀ (p : FPiece) (m : Bytes) (s1 : State) (x : GPlan) (s : State), s.furunPiece 7 p = (s1, some m) → (pheadOf m).typ = 5 → s1.coordOf p (pheadOf m) = some x → s1.coord? x.grp = some x → x.closed = true → 4 * (x.cars.length * 8 * x.n) + 1 ≤ (m.drop 40).length → s1.clk ≤ s1.pctAt x.start x.period (s1.fget F.PACER_FPROBE_PR_PCT) →
    ∃ t, exec (.probeReply p) s = .next t ∧ (∃ y, t.coord? x.grp = some y ∧ ∀ k ∈ y.parts, k.hop = (pheadOf m).hop → k.probe = some (bytesVec (m.drop 40) (x.cars.length * 8 * x.n))) ∧
      ChangesOnly [.pacer] noReg s1 t) ∧
  (∀ (grp : W64) (x : GPlan) (s : State), s.coord? grp = some x → x.closed = true → addrDepth grp = 0 →
    ∃ t, exec (.probeDeadline grp) s = .next t ∧ (t.pacer.own.find? (fun e => e.grp == grp) = some ⟨grp, s.envOf x (x.cond ||| (if s.fget F.PACER_FPROBE_PROBE_ITER ≠ 0 &&
      x.parts.any (fun p => p.frozen.isNone && p.probe.isNone) then 16 else 0))⟩) ∧ (t.clk = max s.clk (s.pctAt x.start x.period (s.fget F.PACER_FPROBE_PR_PCT))) ∧
      ChangesOnly [.clk, .pacer] noReg s t) ∧
  (∀ (grp : W64) (x : GPlan) (s : State), s.coord? grp = some x → x.closed = true → addrDepth grp ≠ 0 →
    ∃ t, exec (.probeDeadline grp) s = .next t ∧ (t.pacer.own.find? (fun e => e.grp == grp) = some ⟨grp, s.envOf x (x.cond ||| (if s.fget F.PACER_FPROBE_PROBE_ITER ≠ 0 &&
      x.parts.any (fun p => p.frozen.isNone && p.probe.isNone) then 16 else 0))⟩) ∧ (t.clk = max s.clk (s.pctAt x.start x.period (s.fget F.PACER_FPROBE_PR_PCT))) ∧
      Leaves [.pending, .safe, .keys, .upd, .cfgMem, .mem, .estate, .start] s t) ∧
  (∀ (grp : W64) (s : State), (s.coord? grp = none ∨ ∃ x, s.coord? grp = some x ∧ x.closed = false) → exec (.probeDeadline grp) s = .next s) ∧
  (∀ (p : FPiece) (m : Bytes) (l : FLink) (s s1 : State), s.furunPiece 7 p = (s1, some m) →
    let b := m.drop 40
    let child : W64 := BitVec.ofNat 64 (beAt b 28 8)
    (pheadOf m).typ = 6 → s1.anchors (addrParent child) = true → (pheadOf m).hop = addrLast child → s1.link? p.peer = some l →
    l.speaksFor (addrParent child) (addrLast child) = true → envFault b s1.grid.1 s1.grid.2.1 = none →
    exec (.pacerEnvelope p) s = .next { s1 with pacer := { s1.pacer with envs := ⟨child, b⟩ :: s1.pacer.envs.filter fun e => e.grp != child } }) ∧
  (∀ (p : FPiece) (m : Bytes) (l : FLink) (k : Nat) (s s1 : State), s.furunPiece 7 p = (s1, some m) →
    let b := m.drop 40
    let child : W64 := BitVec.ofNat 64 (beAt b 28 8)
    (pheadOf m).typ = 6 → s1.anchors (addrParent child) = true → (pheadOf m).hop = addrLast child → s1.link? p.peer = some l →
    l.speaksFor (addrParent child) (addrLast child) = true → envFault b s1.grid.1 s1.grid.2.1 = some k →
    ∃ t, exec (.pacerEnvelope p) s = .next t ∧ ChangesOnly [.limiters, .evr] evWords s1 t)

/-- While PD_PACER serves, an admitted PACER_FED_SET writes the nine federation registers; without it it ends FAILED. SERIES_WRITE replaces
or removes the series of its number and leaves every other; SERIES_READ answers the series, PLAN_VALUES the values of the latest
schedule by step, none without one, and ENVELOPE_READ the envelope (stated for one that fits one page). (R254, R293, R294) -/
def Obligations.PacerOpcodes : Prop :=
  (∀ r s q, admitted? (.pacerFedSet r) s = some q → s.pacerUp = true →
    ∃ t, exec (.pacerFedSet r) s = .next t ∧ Answered t q 0x0501 .ok 0 ([]) ∧
      (∀ i, i < 9 → t.rd (Reg.PACER_FCFG + 4 * i) = fedImg (tv q.tlvs 0x0501) i) ∧
      ChangesOnly (.cfgMem :: batonParts) (regsOr (answerWords q) (regsAt fedRegs)) s t) ∧
  (∀ r s q, admitted? (.pacerFedSet r) s = some q → s.pacerUp = false →
    ∃ t, exec (.pacerFedSet r) s = .next t ∧ Answered t q 0x0501 .failed 0 ([]) ∧
      ChangesOnly (batonParts) (answerWords q) s t) ∧
  (∀ r s q, admitted? (.seriesWrite r) s = some q →
    let no := tn q.tlvs 0x0502
    let b := tv q.tlvs 0x0503
    let n := beAt b 10 2
    (n = 0 → s.seriesUsed no = false) →
    ∃ t, exec (.seriesWrite r) s = .next t ∧ Answered t q 0x0502 .ok 0 [] ∧
      t.series? no = (if n = 0 then none else some ⟨no, ((tv? q.tlvs 0x0007).map beNat).getD (((s.series? no).map (·.tag)).getD 0), beAt b 0 8, beAt b 8 2,
        (List.range n).map fun i => beAt b (16 + 4 * i) 4⟩) ∧
      (∀ k, k ≠ no → t.series? k = s.series? k) ∧ ChangesOnly (.pacer :: .mem :: .estate :: batonParts) (answerWords q) s t) ∧
  (∀ r s q x, admitted? (.seriesRead r) s = some q → s.series? (tn q.tlvs 0x0502) = some x →
    ∃ t, exec (.seriesRead r) s = .next t ∧ Answered t q 0x0503 .ok 0 (tlv 0x0503 (natBE 8 x.start ++ natBE 2 x.step ++ natBE 2 x.vals.length ++ natBE 4 0 ++
      vecBytes x.vals) ++ tlv 0x0007 (natBE 1 x.tag)) ∧ ChangesOnly batonParts (answerWords q) s t) ∧
  (∀ r s q p, admitted? (.planValues r) s = some q → s.pacerUp = true → s.pacer.plan = some p →
    let o := addrObj (tAddr q.tlvs)
    let vals := (List.range p.n).filterMap fun k => (p.read o (s.typOf o) (addrElem (tAddr q.tlvs)) k).map fun v => if s.typOf o = tyPipe then r32 (dNat v) else v
    ∃ t, exec (.planValues r) s = .next t ∧ Answered t q 0x0504 .ok 0 (tlv 0x0504 (natBE 8 p.no ++ natBE 2 vals.length ++ natBE 2 0 ++ vecBytes vals)) ∧
      ChangesOnly batonParts (answerWords q) s t) ∧
  (∀ r s q, admitted? (.planValues r) s = some q → s.pacerUp = true → s.pacer.plan = none →
    ∃ t, exec (.planValues r) s = .next t ∧ Answered t q 0x0504 .ok 0 (tlv 0x0504 (natBE 8 0 ++ natBE 2 0 ++ natBE 2 0)) ∧
      ChangesOnly (batonParts) (answerWords q) s t) ∧
  (∀ r s q e, admitted? (.envelopeRead r) s = some q → s.pacerUp = true → tv? q.tlvs 0x0005 = none →
    s.pacer.own.find? (fun e => e.grp == addrOf (tAddr q.tlvs) 0 0) = some e → e.bs ≠ [] → e.bs.length ≤ 1344 →
    ∃ t, exec (.envelopeRead r) s = .next t ∧ Answered t q 0x0505 .ok 0 (tlv 0x0505 e.bs) ∧ ChangesOnly batonParts (answerWords q) s t)

/-- A line cycle moves the clock on by its duration, shows NOV and FREQ, leaves the accumulators of a circuit without enabled phases alone,
adds the energy of a cycle whose P is not negative to the import register and leaves those of export alone, and takes the settings in
the registers into effect. A channel leaves COLD at its own time or after 8 cycles. The demand window of every circuit ends with its
demand and begins at the value of its import register; a partial window sets no peak. A flow pulse counts volume, and no energy while a
temperature is lost. A second counts FAULT_S of every enabled meter. While PD_MET is off, metrology is stopped or CLK_MET stands, no
cycle, pulse or second has an effect. (R303, R304, R306, R307, R308, R315, R316, R318, R319, R329, R331) -/
def Obligations.MetrologyCyclesAndMeters : Prop :=
  (∀ (x : LineCycle) (s : State), s.blkOn 6 = true → s.met.on = true → s.metClk = true →
    ∃ t, exec (.lineCycleEnd x) s = .next t ∧ (t.met.cycAt = t.clk) ∧ (t.clk = max s.clk ((if s.met.cycAt = 0 then s.clk else s.met.cycAt) + (if s.cycleOk x then x.dur.toNat else sec / s.fnomHz))) ∧ (t.get F.MET_STAT_NOV = b2n (!s.cycleOk x)) ∧ (t.rd Reg.MET_FREQ = (if s.cycleOk x then x.mhz.toNat else 0)) ∧ (∀ c, c < 8 → (s.cir c).phEn = 0 → (t.cir c).acc = (s.cir c).acc ∧ (t.cir c).rem = (s.cir c).rem ∧ (t.cir c).peak = (s.cir c).peak) ∧ (∀ c, c < 8 → c < s.met.cirs.length → (t.cir c).phEn = s.get (F.MET_CIRCFG_PH_EN c) ∧ (t.cir c).rated = s.rd (Reg.MET_IN c)) ∧ (∀ c, c < 8 → c < s.met.cirs.length → 0 ≤ (s.cirTotals c (s.dsp x).ph).p → (∀ i ∈ [1, 3, 4, 7], (t.cir c).acc[i]? = (s.cir c).acc[i]?) ∧
      ((s.cir c).phEn ≠ 0 → (t.cir c).acc[0]? = (accAdd (s.cir c).acc (s.cir c).rem 0
        ((s.cirTotals c (s.dsp x).ph).p.natAbs * 2 ^ 149 * (if s.cycleOk x then x.dur.toNat else sec / s.fnomHz)) cirDen).1[0]?)) ∧
      Leaves [.pending, .mem, .safe, .keys, .upd, .cfgMem, .baton, .out, .lap, .ledger, .relay, .can] s t) ∧
  (∀ (x : LineCycle) (s : State), (s.blkOn 6 = false ∨ s.met.on = false ∨ s.metClk = false) → exec (.lineCycleEnd x) s = .next s) ∧
  (∀ (n : Fin 28) (k : MetChan) (since cycles : Nat) (s : State), s.blkOn 6 = true → s.met.on = true → s.met.cold[n.val]? = some true → s.met.chans[n.val]? = some k → s.met.coldFrom[n.val]? = some (since, cycles) → (k.kind = 2 ∨ 8 ≤ cycles) →
    ∃ t, exec (.metColdEnd n) s = .next t ∧ (t.met = { s.met with cold := setNth s.met.cold n.val false }) ∧ (t.clk = (if k.kind = 2 then max s.clk (since + k.coldNs) else s.clk)) ∧
      ChangesOnly [.met, .clk] noReg s t) ∧
  (∀ (n : Fin 28) (s : State), (s.blkOn 6 = false ∨ s.met.on = false ∨ s.met.cold[n.val]? ≠ some true ∨
      ((s.met.chans[n.val]?).map (·.kind)).getD 0 ≠ 2 ∧ ((s.met.coldFrom[n.val]?).map (·.2)).getD 0 < 8) → exec (.metColdEnd n) s = .next s) ∧
  (∀  (s : State), s.blkOn 6 = true → s.met.on = true →
    ∃ t, exec .demandWindowEnd s = .next t ∧ (t.met.part = !s.metClk) ∧ (t.met.demAt.isSome = true) ∧ (bit1 (t.rd 0x300004) 8 = 1) ∧ (∀ a, t.met.demAt = some a → a % (60 * max (s.get F.MET_CFG_DEM_MIN) 1) = 0) ∧ (∀ c, c < 8 → c < s.met.cirs.length →
      let a := ((s.cir c).acc[0]?).getD 0
      let w := bits32 (Fl.ofRat fp64F ((a + m96 - (s.cir c).dem0 % m96) % m96 * 3600 : Nat) (60 * max (s.get F.MET_CFG_DEM_MIN) 1 * 1000000000))
      (t.cir c).dem0 = a ∧ (t.cir c).acc = (s.cir c).acc ∧ (t.cir c).demand = w ∧ (t.cir c).part = (s.met.part || !s.metClk) ∧
      (t.cir c).demPk = (if s.met.part || !s.metClk then (s.cir c).demPk else if Fl.lt (fl32 (s.cir c).demPk) (fl32 w) then w else (s.cir c).demPk)) ∧
      Leaves [.pending, .mem, .safe, .keys, .upd, .cfgMem, .baton, .out, .lap, .ledger, .relay, .can] s t) ∧
  (∀  (s : State), (s.blkOn 6 = false ∨ s.met.on = false) → exec .demandWindowEnd s = .next s) ∧
  (∀ (n : Fin 4) (s : State), s.blkOn 6 = true → s.met.on = true → s.metClk = true → s.get (F.MET_THCFG_EN n.val) = 1 → n.val < s.met.thms.length →
    ∃ t, exec (.flowPulse n) s = .next t ∧ ((t.thm n.val).pulses.length = (s.thm n.val).pulses.length + 1) ∧ ((t.thm n.val).acc[2]? = (accAdd (s.thm n.val).acc (s.thm n.val).rem 2 ((fx (s.rd (Reg.MET_VPULSE n.val))).natAbs * 1000000 * 2 ^ 298) thmRemDen).1[2]?) ∧ (((s.thmTemps n.val).1 = none ∨ (s.thmTemps n.val).2 = none) → ∀ i, i < 2 → (t.thm n.val).acc[i]? = (s.thm n.val).acc[i]?) ∧ (t.met.cirs = s.met.cirs) ∧
      Leaves [.pending, .mem, .safe, .keys, .upd, .cfgMem, .baton, .out, .lap, .ledger, .relay, .can, .clk] s t) ∧
  (∀ (n : Fin 4) (s : State), (s.blkOn 6 = false ∨ s.met.on = false ∨ s.metClk = false ∨ s.get (F.MET_THCFG_EN n.val) = 0) → exec (.flowPulse n) s = .next s) ∧
  (∀  (s : State), s.blkOn 6 = true → s.met.on = true → s.metClk = true →
    ∃ t, exec .thermalUpdate s = .next t ∧ (t.clk = (s.clk / sec + 1) * sec) ∧ (∀ n, n < 4 → n < s.met.thms.length → (t.thm n).acc = (s.thm n).acc ∧
      (s.get (F.MET_THCFG_EN n) = 1 → (t.thm n).faultS = (s.thm n).faultS + b2n (s.thmStatus n % 4 != 0))) ∧
      Leaves [.pending, .mem, .safe, .keys, .upd, .cfgMem, .baton, .out, .lap, .ledger, .relay, .can] s t) ∧
  (∀  (s : State), (s.blkOn 6 = false ∨ s.met.on = false ∨ s.metClk = false) → exec .thermalUpdate s = .next s)

/-- An output with a backlog that nothing holds emits one pulse and counts it; without a backlog it emits none. A save that the MRAM takes
over a working link, with CLK_MET running, has the next sequence number and the energies, and leaves the other copy; one that fails
sets SAVE_FAIL and changes no value. The stop mirror takes the peaks over a working link. The loss and the return of the link set LINK
and their conditions. (R321, R322, R323, R324, R325, R330) -/
def Obligations.MetrologyPulsesSavesAndLink : Prop :=
  (∀ (p : Fin 8) (s : State), s.blkOn 6 = true → s.poBacklog p.val ≠ 0 → s.poHeld = 0 → s.mode ≠ modeHoldup →
    ∃ t, exec (.pulseEmit p) s = .next t ∧ (t.out = .pulse p.val :: s.out) ∧ ((t.po p.val).emitted = (s.po p.val).emitted + 1) ∧
      Leaves [.pending, .mem, .safe, .keys, .upd, .cfgMem, .baton] s t) ∧
  (∀ (p : Fin 8) (s : State), s.blkOn 6 = true → (s.poBacklog p.val = 0 ∨ s.poHeld ≠ 0 ∨ s.mode = modeHoldup) →
    ∃ t, exec (.pulseEmit p) s = .next t ∧ ((t.po p.val).emitted = (s.po p.val).emitted) ∧
      Leaves [.pending, .mem, .safe, .keys, .upd, .cfgMem, .baton, .out, .lap, .ledger, .relay, .can, .clk] s t) ∧
  (∀ (p : Fin 8) (s : State), s.blkOn 6 = false → exec (.pulseEmit p) s = .next s) ∧
  (∀  (s : State), s.blkOn 6 = true → s.met.on = true → s.mode ≠ modeHoldup → s.metLink = true → s.metClk = true →
    ∃ t, exec (.metrologySave true) s = .next t ∧ (t.met.seq = (s.met.seq + 1) % 2 ^ 32) ∧ (t.get F.MET_STAT_SAVE_FAIL = 0) ∧ (t.get F.MET_STAT_SAVE_SEQ = t.met.seq % 256) ∧ (let kept (v : MetSave) := (v.seq, v.cirs, v.thms, v.pks)
      let now := (t.met.seq, s.met.cirs.map (·.acc), s.met.thms.map (·.acc), s.met.cirs.map (·.demPk))
      t.met.saves.1.map kept = some now ∧ t.met.saves.2 = s.met.saves.2 ∨ t.met.saves.1 = s.met.saves.1 ∧ t.met.saves.2.map kept = some now) ∧ (t.met.cirs.map (·.acc) = s.met.cirs.map (·.acc)) ∧
      ChangesOnly [.clk, .met] (regsAt [Reg.MET_STAT, 0x300004]) s t) ∧
  (∀ (ok : Bool) (s : State), s.blkOn 6 = true → s.met.on = true → s.mode ≠ modeHoldup → (ok = false ∨ s.metLink = false ∨ s.metClk = false) →
    ∃ t, exec (.metrologySave ok) s = .next t ∧ (t.get F.MET_STAT_SAVE_FAIL = 1) ∧
      ChangesOnly [.clk, .evr, .limiters] (regsOr evWords (regsAt [Reg.MET_STAT, 0x300004])) s t) ∧
  (∀ (ok : Bool) (s : State), (s.blkOn 6 = false ∨ s.met.on = false ∨ s.mode = modeHoldup) → exec (.metrologySave ok) s = .next s) ∧
  (∀  (s : State), s.blkOn 6 = true → s.met.on = true →
    ∃ t, exec .stopMirror s = .next t ∧ (t.clk = (s.clk / (10 * msec) + 1) * (10 * msec)) ∧ (t.met.mirror = if s.metLink && s.metClk then some (s.met.cirs.map (·.peak), s.met.thms.map (·.peak), t.tsNow) else s.met.mirror) ∧
      ChangesOnly [.clk, .met] noReg s t) ∧
  (∀  (s : State), (s.blkOn 6 = false ∨ s.met.on = false) → exec .stopMirror s = .next s) ∧
  (∀  (s : State), s.blkOn 6 = true → s.metLink = true →
    ∃ t, exec .metLinkDown s = .next t ∧ (t.get F.MET_STAT_LINK = 0) ∧ (t.met = { s.met with downAt := some s.clk }) ∧ (bit1 (t.rd 0x300004) 0 = 1) ∧
      ChangesOnly [.met, .estate, .limiters, .evr] (regsOr evWords (regsAt [Reg.MET_STAT, 0x300004])) s t) ∧
  (∀  (s : State), (s.blkOn 6 = false ∨ s.metLink = false) → exec .metLinkDown s = .next s) ∧
  (∀  (s : State), s.blkOn 6 = true → s.metLink = false → s.met.on = true →
    ∃ t, exec .metLinkUp s = .next t ∧ (t.get F.MET_STAT_LINK = 1) ∧ (t.met = { s.met with downAt := none }) ∧ (bit1 (t.rd 0x300004) 1 = 1) ∧
      ChangesOnly [.met, .estate, .limiters, .evr] (regsOr evWords (regsAt [Reg.MET_STAT, 0x300004])) s t) ∧
  (∀  (s : State), (s.blkOn 6 = false ∨ s.metLink = true ∨ s.met.on = false) → exec .metLinkUp s = .next s)

/-- Admitted: MET_SETUP writes MET_CFG, and a new DEM_MIN makes the window partial; MET_CAL, MET_CIR_CFG and MET_THM_CFG write the images
and count the change; MET_ASSIGN gives a circuit, a thermal meter or a pulse output its object where the tags agree, and a circuit and
its meters take the tag of its object; MET_PO_CFG starts the output afresh; MET_DEMAND_RESET clears the peak; MET_GAP_READ of a record
of at most one page and MET_CAL_READ answer what is held. (R297, R316, R320, R327, R329, R333) -/
def Obligations.MetrologyOpcodes : Prop :=
  (∀ r s q, admitted? (.metSetup r) s = some q →
    ∃ t, exec (.metSetup r) s = .next t ∧ Answered t q 0x0601 .ok 0 ([]) ∧
      t.rd Reg.MET_CFG = tn q.tlvs 0x0601 ∧ (t.get F.MET_CFG_DEM_MIN ≠ s.get F.MET_CFG_DEM_MIN → t.met.part = true) ∧
      ChangesOnly (.met :: .cfgMem :: batonParts) (regsOr (answerWords q) (regsOf 6)) s t) ∧
  (∀ r s q, admitted? (.metCal r) s = some q →
    let n := tn q.tlvs 0x0602
    let b := tv q.tlvs 0x0603
    ∃ t, exec (.metCal r) s = .next t ∧ Answered t q 0x0602 .ok 0 [] ∧ t.rd (Reg.MET_CHCFG n) = beAt b 0 4 ∧ t.rd (Reg.MET_KS n) = beAt b 4 4 ∧
      t.rd (Reg.MET_GAIN n) = beAt b 8 4 ∧ t.rd Reg.MET_CALCNT = (s.rd Reg.MET_CALCNT + 1) % 2 ^ 32 ∧ ChangesOnly (.cfgMem :: batonParts) (regsOr (answerWords q) (regsOf 6)) s t) ∧
  (∀ r s q, admitted? (.metCirCfg r) s = some q →
    ∃ t, exec (.metCirCfg r) s = .next t ∧ Answered t q 0x0603 .ok 0 ([]) ∧
      t.get (F.MET_CIRCFG_PH_EN (unitOf q).2) = beAt (tv q.tlvs 0x0605) 0 1 ∧ t.rd (Reg.MET_IN (unitOf q).2) = beAt (tv q.tlvs 0x0605) 4 4 ∧ t.rd Reg.MET_CALCNT = (s.rd Reg.MET_CALCNT + 1) % 2 ^ 32 ∧
      ChangesOnly (.cfgMem :: batonParts) (regsOr (answerWords q) (regsOf 6)) s t) ∧
  (∀ r s q, admitted? (.metAssign r) s = some q →
    let o := addrObj (tAddr q.tlvs)
    let i := (unitOf q).2
    (unitOf q).1 = 0 → i < s.met.cirs.length → (o ≠ 0 → s.unitObj (unitOf q) = 0 ∧ (∀ x ∈ s.met.cirs, x.obj ≠ o) ∧ (∀ x ∈ s.met.thms, x.obj ≠ o) ∧ ∀ x ∈ s.met.pos, x.obj ≠ o) → s.cirDiffers i (s.tagOf o) = false →
    ∃ t, exec (.metAssign r) s = .next t ∧ Answered t q 0x0604 .ok 0 [] ∧ (t.cir i).obj = o ∧ t.get (F.MET_CIRCFG_ASSIGNED i) = b2n (o != 0) ∧
      t.get (F.MET_CIRCFG_TAG i) = s.tagOf o % 256 ∧ (∀ u, u < 4 → s.get (F.MET_THCFG_CIR u) = i → t.get (F.MET_THCFG_TAG u) = s.tagOf o % 256) ∧
      ChangesOnly (.met :: .cfgMem :: batonParts) (regsOr (answerWords q) (regsOf 6)) s t) ∧
  (∀ r s q, admitted? (.metAssign r) s = some q →
    let o := addrObj (tAddr q.tlvs)
    let i := (unitOf q).2
    let tag := s.thmImplied (s.get (F.MET_THCFG_CIR i)) o
    (unitOf q).1 = 1 → i < s.met.thms.length → (o ≠ 0 → s.unitObj (unitOf q) = 0 ∧ (∀ x ∈ s.met.cirs, x.obj ≠ o) ∧ (∀ x ∈ s.met.thms, x.obj ≠ o) ∧ ∀ x ∈ s.met.pos, x.obj ≠ o) → (o = 0 ∨ s.tagOf o = tag) → s.poDiffers 1 i tag = false →
    ∃ t, exec (.metAssign r) s = .next t ∧ Answered t q 0x0604 .ok 0 [] ∧ (t.thm i).obj = o ∧ t.get (F.MET_THCFG_ASSIGNED i) = b2n (o != 0) ∧
      t.get (F.MET_THCFG_TAG i) = tag % 256 ∧ ChangesOnly (.met :: .cfgMem :: batonParts) (regsOr (answerWords q) (regsOf 6)) s t) ∧
  (∀ r s q, admitted? (.metAssign r) s = some q →
    let o := addrObj (tAddr q.tlvs)
    let i := (unitOf q).2
    (unitOf q).1 = 2 → i < s.met.pos.length → (o ≠ 0 → s.unitObj (unitOf q) = 0 ∧ (∀ x ∈ s.met.cirs, x.obj ≠ o) ∧ (∀ x ∈ s.met.thms, x.obj ≠ o) ∧ ∀ x ∈ s.met.pos, x.obj ≠ o) → (o = 0 ∨ s.get (F.MET_POCFG_EN i) = 0 ∨ s.tagOf o = s.poTag i) →
    ∃ t, exec (.metAssign r) s = .next t ∧ Answered t q 0x0604 .ok 0 [] ∧ (t.po i).obj = o ∧ (t.po i).emitted = (s.po i).emitted ∧
      ChangesOnly (.met :: .estate :: batonParts) (answerWords q) s t) ∧
  (∀ r s q, admitted? (.metThmCfg r) s = some q →
    let n := (unitOf q).2
    let b := tv q.tlvs 0x0606
    let o := (s.thm n).obj
    let tag := s.thmImplied (bitsOf (beAt b 0 4) 27 24) o
    (o = 0 ∨ s.tagOf o = tag) → s.poDiffers 1 n tag = false →
    ∃ t, exec (.metThmCfg r) s = .next t ∧ Answered t q 0x0605 .ok 0 [] ∧ t.rd (Reg.MET_THCFG n) = putBits (putBits (beAt b 0 4) 31 31 (b2n (o != 0))) 7 0 tag ∧
      t.rd (Reg.MET_THPAR n) = beAt b 4 4 ∧ t.rd (Reg.MET_VPULSE n) = beAt b 8 4 ∧ t.rd (Reg.MET_TCOOL n) = beAt b 12 4 ∧
      t.rd Reg.MET_CALCNT = (s.rd Reg.MET_CALCNT + 1) % 2 ^ 32 ∧ ChangesOnly (.cfgMem :: batonParts) (regsOr (answerWords q) (regsOf 6)) s t) ∧
  (∀ r s q, admitted? (.metPoCfg r) s = some q →
    let n := (unitOf q).2
    let b := tv q.tlvs 0x0607
    n < s.met.pos.length → ((s.po n).obj = 0 ∨ s.tagOf (s.po n).obj = (if beAt b 0 1 ≤ 7 then s.cirTag (beAt b 1 1) else s.thmTag (beAt b 1 1))) →
    ∃ t, exec (.metPoCfg r) s = .next t ∧ Answered t q 0x0606 .ok 0 [] ∧ t.rd (Reg.MET_POCFG n) = 2 ^ 31 + beAt b 0 1 * 2 ^ 24 + beAt b 1 1 * 2 ^ 20 + beAt b 2 2 ∧
      (t.po n).emitted = 0 ∧ (t.po n).weight = beAt b 8 8 ∧ (t.po n).base = s.poAcc (beAt b 0 1) (beAt b 1 1) ∧ t.poBacklog n = 0 ∧
      ChangesOnly (.met :: .estate :: .cfgMem :: batonParts) (regsOr (answerWords q) (regsOf 6)) s t) ∧
  (∀ r s q, admitted? (.metDemandReset r) s = some q → (unitOf q).2 < s.met.cirs.length →
    ∃ t, exec (.metDemandReset r) s = .next t ∧ Answered t q 0x0607 .ok 0 ([]) ∧
      (t.cir (unitOf q).2).demPk = 0 ∧ (t.cir (unitOf q).2).acc = (s.cir (unitOf q).2).acc ∧
      ChangesOnly (.met :: .estate :: batonParts) (answerWords q) s t) ∧
  (∀ r s q g, admitted? (.metGapRead r) s = some q → tv? q.tlvs 0x0005 = none → s.met.gaps[tn q.tlvs 0x0608]? = some g →
    let es := g.entries.filter fun e => q.tag == 0 || e.tag == q.tag
    es.length ≤ 10 →
    ∃ t, exec (.metGapRead r) s = .next t ∧ Answered t q 0x0608 .ok 0 (tlv 0x0609 (g.head es.length) ++ (es.map fun e => tlv 0x060A e.bytes).flatten) ∧
      ChangesOnly batonParts (answerWords q) s t) ∧
  (∀ r s q, admitted? (.metCalRead r) s = some q →
    ∃ t, exec (.metCalRead r) s = .next t ∧ Answered t q 0x0609 .ok 0 (tlv 0x0603 (natBE 4 (s.rd (Reg.MET_CHCFG (tn q.tlvs 0x0602))) ++ natBE 4 (s.rd (Reg.MET_KS (tn q.tlvs 0x0602))) ++
        natBE 4 (s.rd (Reg.MET_GAIN (tn q.tlvs 0x0602))))) ∧
      ChangesOnly (batonParts) (answerWords q) s t)

/-- From every state in which both channels are sound (a channel has a switch of an enabled OSSD pair closed only in operation, outside
CONFIG, with no lock-out on the pair and every function that names it on or in its delay), every step, whatever its command, leads to
such a state. (R344, R351, R355, R335, R20) -/
def Obligations.SafetyOutputsStaySound : Prop :=
  ∀ s t : State, s.safe.Sound → step s = .next t → t.safe.Sound

/-- A start with the channels off ends in step 6 with open switches, its lock-outs kept, and 0x23 or 0x24 added where the self-test or the
stored blocks fail. An edge at an input changes the raw level alone, and one at SRST starts its time; a level held for F counts, in its
own channel alone. A pair that differs for DISC is locked out. A delay ends OFF in both channels, or in B by its own timer. A valid
SRST edge turns free WAIT_RESET functions on, clears lock-outs whose every cause is gone and leaves them where none is; one out of 0.1
to 3 s does nothing. SKEY opens every switch; its release puts the stored block into effect from step 6. (R338, R339, R340, R343, R345,
R352, R355, R358) -/
def Obligations.SafetyInputsFunctionsAndReset : Prop :=
  (∀ (selfA selfB copyA copyB : Bool) (s : State), s.safe.a.phase = 0 → s.safe.b.phase = 0 →
    ∃ t, exec (.safetyStart selfA selfB copyA copyB) s = .next t ∧ (t.clk = s.clk + 1800 * msec) ∧ (t.safe.a.phase = 1 ∧ t.safe.b.phase = 1 ∧ t.safe.a.due = t.clk + 200 * msec) ∧ (∀ o, t.safe.a.closed o = false ∧ t.safe.b.closed o = false) ∧ (selfA = false → t.safe.a.holds 0x23 255 = true) ∧ (selfB = false → t.safe.b.holds 0x23 255 = true) ∧ (s.safe.blocksOk copyA copyB = false → t.safe.a.holds 0x24 255 = true ∧ t.safe.b.holds 0x24 255 = true) ∧ (∀ l ∈ s.safe.a.locks, t.safe.a.holds l.cause l.unit = true) ∧
      ChangesOnly [.clk, .safe] noReg s t) ∧
  (∀ (i : Fin 17) (a b : Bool) (s : State), s.safe.a.phase = 2 → s.safe.b.phase = 2 → i.val < 16 → s.safe.a.raw.length = 16 → s.safe.b.raw.length = 16 →
    ∃ t, exec (.safetyInputEdge i a b) s = .next t ∧ ((t.safe.a.rawOf i.val).1 = a ∧ (t.safe.b.rawOf i.val).1 = b) ∧ (a ≠ (s.safe.a.rawOf i.val).1 → (t.safe.a.rawOf i.val).2 = s.clk) ∧ (t.safe.a.filt = s.safe.a.filt ∧ t.safe.b.filt = s.safe.b.filt) ∧ (t.clk = s.clk) ∧
      ChangesOnly [.clk, .safe] noReg s t) ∧
  (∀ (a b : Bool) (s : State), s.safe.a.phase = 2 → s.safe.b.phase = 2 →
    ∃ t, exec (.safetyInputEdge 16 a b) s = .next t ∧ (t.safe.a.srst = a ∧ t.safe.b.srst = b) ∧ (t.safe.a.srstAt = (if a then (if s.safe.a.srst then s.safe.a.srstAt else some s.clk) else none)) ∧ (t.safe.b.srstAt = (if b then (if s.safe.b.srst then s.safe.b.srstAt else some s.clk) else none)) ∧ (t.safe.a.raw = s.safe.a.raw ∧ t.safe.b.raw = s.safe.b.raw) ∧ (t.clk = s.clk) ∧
      ChangesOnly [.clk, .safe] noReg s t) ∧
  (∀ (ch : Bool) (i : Fin 16) (s : State), s.safe.a.phase = 2 → s.safe.b.phase = 2 → ((s.safe.get ch).rawOf i.val).1 ≠ (s.safe.get ch).level i.val → (s.safe.get ch).filt.length = 16 → (s.safe.get ch).pairs.length = 8 →
    ∃ t, exec (.filterElapsed ch i) s = .next t ∧ (t.clk = max s.clk (((s.safe.get ch).rawOf i.val).2 + prmF (s.safe.get ch).prm (i.val / 2))) ∧ ((t.safe.get ch).level i.val = ((s.safe.get ch).rawOf i.val).1) ∧ (t.safe.get (!ch) = s.safe.get (!ch)) ∧ (prmType (s.safe.get ch).prm (i.val / 2) ≠ 0 → (t.safe.get ch).sides (i.val / 2) ≠ (true, true) → ((t.safe.get ch).pair (i.val / 2)).st = 1) ∧ (prmType (s.safe.get ch).prm (i.val / 2) ≠ 0 → (t.safe.get ch).sides (i.val / 2) = (true, true) → ((s.safe.get ch).pair (i.val / 2)).armed = true →
        ((t.safe.get ch).pair (i.val / 2)).st = 2) ∧ (∀ f, f < 8 → prmKind (s.safe.get ch).prm f ≠ 0 → (t.safe.get ch).free f = false → (t.safe.get ch).fn f ≠ 1) ∧
      ChangesOnly [.clk, .safe] noReg s t) ∧
  (∀ (ch : Bool) (i : Fin 16) (s : State), s.safe.a.phase = 2 → s.safe.b.phase = 2 → ((s.safe.get ch).rawOf i.val).1 = (s.safe.get ch).level i.val → exec (.filterElapsed ch i) s = .next s) ∧
  (∀ (p : Fin 8) (s : State), s.safe.a.phase = 2 → s.safe.b.phase = 2 → (∃ ch u, ((s.safe.get ch).pair p.val).diff = some u) →
    ∃ t, exec (.discrepancy p) s = .next t ∧ (∃ ch u, ((s.safe.get ch).pair p.val).diff = some u ∧ t.clk = max s.clk (u + prmDisc (s.safe.get ch).prm p.val)) ∧ (∀ ch u, ((s.safe.get ch).pair p.val).diff = some u → u + prmDisc (s.safe.get ch).prm p.val ≤ t.clk → (t.safe.get ch).holds 0x01 p.val = true) ∧
      ChangesOnly [.clk, .safe] noReg s t) ∧
  (∀ (p : Fin 8) (s : State), s.safe.a.phase = 2 → s.safe.b.phase = 2 → (∀ ch, ((s.safe.get ch).pair p.val).diff = none) → exec (.discrepancy p) s = .next s) ∧
  (∀ (f : Fin 8) (s : State), s.safe.a.phase = 2 → s.safe.b.phase = 2 → s.safe.a.fn f.val = 2 →
    ∃ t, exec (.stopDelayEnd f) s = .next t ∧ (t.clk = max s.clk (s.safe.a.delayAt f.val + prmDelay s.safe.a.prm f.val)) ∧ (t.safe.a.fn f.val ≠ 2 ∧ t.safe.b.fn f.val ≠ 2) ∧ (s.safe.a.free f.val = false → t.safe.a.fn f.val ≠ 1) ∧
      ChangesOnly [.clk, .safe] noReg s t) ∧
  (∀ (f : Fin 8) (s : State), s.safe.a.phase = 2 → s.safe.b.phase = 2 → s.safe.a.fn f.val ≠ 2 → exec (.stopDelayEnd f) s = .next s) ∧
  (∀ (f : Fin 8) (late : Fin 251) (s : State), s.safe.a.phase = 2 → s.safe.b.phase = 2 → s.safe.b.fn f.val = 2 →
    ∃ t, exec (.channelBDelayEnd f late) s = .next t ∧ (t.clk = max s.clk (s.safe.b.delayAt f.val + prmDelay s.safe.b.prm f.val * (1000 + late.val) / 1000)) ∧ (t.safe.b.fn f.val ≠ 2) ∧ (t.safe.a = s.safe.a) ∧
      ChangesOnly [.clk, .safe] noReg s t) ∧
  (∀ (f : Fin 8) (late : Fin 251) (s : State), s.safe.a.phase = 2 → s.safe.b.phase = 2 → s.safe.b.fn f.val ≠ 2 → exec (.channelBDelayEnd f late) s = .next s) ∧
  (∀ (msA msB : BitVec 16) (ossd : BitVec 4) (u : Nat) (s : State), s.safe.a.phase = 2 → s.safe.b.phase = 2 → s.safe.a.skey = false → s.safe.b.skey = false → s.safe.a.srst = true → s.safe.b.srst = true → s.safe.a.srstAt = some u → s.safe.b.srstAt.isSome = true → 100 ≤ msA.toNat → msA.toNat ≤ 3000 → 100 ≤ msB.toNat → msB.toNat ≤ 3000 →
    ∃ t, exec (.srstPulse msA msB ossd) s = .next t ∧ (t.clk = max s.clk (u + msA.toNat * msec)) ∧ (s.safe.a.locks = [] → s.safe.b.locks = [] → ∀ f, f < 8 → prmKind s.safe.a.prm f ≠ 0 → s.safe.a.fn f = 4 → s.safe.a.free f = true → t.safe.a.fn f = 1) ∧ (∀ l ∈ s.safe.a.locks ++ s.safe.b.locks, s.safe.clearable t.clk ossd.toNat l = true → t.safe.a.holds l.cause l.unit = false ∧ t.safe.b.holds l.cause l.unit = false) ∧ ((∀ l ∈ s.safe.a.locks ++ s.safe.b.locks, s.safe.clearable t.clk ossd.toNat l = false) → t.safe.a.locks = s.safe.a.locks ∧ t.safe.b.locks = s.safe.b.locks) ∧
      ChangesOnly [.clk, .safe] noReg s t) ∧
  (∀ (msA msB : BitVec 16) (ossd : BitVec 4) (s : State), s.safe.a.phase = 2 → s.safe.b.phase = 2 → (msA.toNat < 100 ∨ 3000 < msA.toNat ∨ msB.toNat < 100 ∨ 3000 < msB.toNat) →
    ∃ t, exec (.srstPulse msA msB ossd) s = .next t ∧ (t.safe = { s.safe with a := { s.safe.a with srst := false, srstAt := none }, b := { s.safe.b with srst := false, srstAt := none } }) ∧
      ChangesOnly [.clk, .safe] noReg s t) ∧
  (∀ (a b : Bool) (s : State), s.safe.a.phase = 2 → s.safe.b.phase = 2 → s.safe.a.skey = false → s.safe.b.skey = false →
    ∃ t, exec (.skeyActive a b) s = .next t ∧ (t.safe.a.skey = a ∧ t.safe.b.skey = b) ∧ (a = true → t.safe.stg = 0 ∧ ∀ o, o < 4 → t.safe.a.closed o = false) ∧ (b = true → ∀ o, o < 4 → t.safe.b.closed o = false) ∧ (t.safe.a.locks = s.safe.a.locks ∧ t.safe.a.stored = s.safe.a.stored ∧ t.safe.b.stored = s.safe.b.stored) ∧ (t.clk = s.clk) ∧
      ChangesOnly [.clk, .safe] noReg s t) ∧
  (∀  (s : State), s.safe.a.phase = 2 → s.safe.b.phase = 2 → s.safe.a.skey = true → s.safe.b.skey = true →
    ∃ t, exec (.skeyRelease true true) s = .next t ∧ (t.safe.a.skey = false ∧ t.safe.b.skey = false) ∧ (t.safe.a.phase = 1 ∧ t.safe.b.phase = 1) ∧ (t.safe.a.prm = s.safe.a.stored.getD [] ∧ t.safe.b.prm = s.safe.b.stored.getD []) ∧ (t.safe.stg = 0) ∧ (∀ o, t.safe.a.closed o = false ∧ t.safe.b.closed o = false) ∧ (t.safe.a.locks = s.safe.a.locks ∧ t.safe.b.locks = s.safe.b.locks) ∧
      ChangesOnly [.clk, .safe] noReg s t) ∧
  (∀ (a b : Bool) (s : State), s.safe.a.phase = 2 → s.safe.b.phase = 2 → s.safe.a.skey = false → s.safe.b.skey = false → exec (.skeyRelease a b) s = .next s)

/-- While both channels run: a test pulse locks out a faulty test output and a pair whose own input stays high. An off-pulse whose line
stays high locks the OSSD pair out in both channels and opens it; expected lines change nothing. Overcurrent locks out; EDM that has
not followed locks out. An exchange passes on global causes and finds clocks out of range; a missing frame is 0x21, a failed self-test
0x23, a supply fault 0x26. A supply that is gone opens every switch. The repeated checks of a lock-out mark which causes have passed
and clear none. (R336, R337, R346, R347, R348, R349, R351, R353) -/
def Obligations.SafetyTestsAndLockouts : Prop :=
  (∀ (tp : Fin 4) (inA inB : BitVec 16) (ok : Bool) (s : State), s.safe.a.phase = 2 → s.safe.b.phase = 2 → s.safe.a.stored.isSome = true → s.safe.tpNext.length = 4 →
    ∃ t, exec (.testPulse tp inA inB ok) s = .next t ∧ (t.clk = max s.clk ((s.safe.tpNext[tp.val]?).getD 0)) ∧ (t.safe.tpNext[tp.val]? = some (t.clk + prmTpPer s.safe.a.prm)) ∧ (ok = false → t.safe.a.holds 0x03 tp.val = true ∧ t.safe.b.holds 0x03 tp.val = true) ∧ (∀ i, i < 16 → prmType s.safe.a.prm (i / 2) ≠ 0 → prmTp s.safe.a.prm i = tp.val → bit1 inA.toNat i = 1 → t.safe.a.holds 0x02 (i / 2) = true) ∧ (∀ i, i < 16 → prmType s.safe.b.prm (i / 2) ≠ 0 → prmTp s.safe.b.prm i = tp.val → bit1 inB.toNat i = 1 → t.safe.b.holds 0x02 (i / 2) = true) ∧
      ChangesOnly [.clk, .safe] noReg s t) ∧
  (∀ (tp : Fin 4) (inA inB : BitVec 16) (ok : Bool) (s : State), s.safe.a.phase = 2 → s.safe.b.phase = 2 → s.safe.a.stored = none → exec (.testPulse tp inA inB ok) s = .next s) ∧
  (∀ (o j : Fin 4) (lines : Byte) (s : State), s.safe.a.phase = 2 → s.safe.b.phase = 2 → s.safe.on o.val = true → prmOpEn s.safe.a.prm o.val = true →
    ∃ t, exec (.ossdTest o j lines) s = .next t ∧ (t.clk = max s.clk (s.safe.testDue s.clk o.val j.val)) ∧ (bit1 lines.toNat (2 * o.val + j.val / 2) = 1 → t.safe.a.holds 0x10 o.val = true ∧ t.safe.b.holds 0x10 o.val = true ∧ t.safe.on o.val = false) ∧ (bit1 lines.toNat (2 * o.val + j.val / 2) = 0 → (∀ l, l < 8 → l ≠ 2 * o.val + j.val / 2 → s.safe.on (l / 2) = true → bit1 lines.toNat l = 1) →
        t.safe = { s.safe with lastTest := some (o.val, t.clk + 200 * usec) }) ∧
      ChangesOnly [.clk, .safe] noReg s t) ∧
  (∀ (o j : Fin 4) (lines : Byte) (s : State), s.safe.a.phase = 2 → s.safe.b.phase = 2 → s.safe.on o.val = false → prmOen s.safe.a.prm o.val = true → prmOpEn s.safe.a.prm o.val = false → bit1 lines.toNat (2 * o.val + j.val / 2) = 1 →
    ∃ t, exec (.ossdTest o j lines) s = .next t ∧ (t.safe.a.holds 0x10 o.val = true ∧ t.safe.b.holds 0x10 o.val = true) ∧
      ChangesOnly [.clk, .safe] noReg s t) ∧
  (∀ (o j : Fin 4) (lines : Byte) (s : State), s.safe.a.phase = 2 → s.safe.b.phase = 2 → (s.safe.on o.val = true ∧ prmOpEn s.safe.a.prm o.val = false ∨ s.safe.on o.val = false ∧
      (prmOen s.safe.a.prm o.val = false ∨ prmOpEn s.safe.a.prm o.val = true ∨ bit1 lines.toNat (2 * o.val + j.val / 2) = 0)) → exec (.ossdTest o j lines) s = .next s) ∧
  (∀ (o : Fin 4) (s : State), s.safe.a.phase = 2 → s.safe.b.phase = 2 → s.safe.on o.val = true →
    ∃ t, exec (.ossdOvercurrent o) s = .next t ∧ (t.safe.a.holds 0x11 o.val = true ∧ t.safe.b.holds 0x11 o.val = true) ∧ (t.safe.on o.val = false) ∧ (t.clk = s.clk) ∧
      ChangesOnly [.clk, .safe] noReg s t) ∧
  (∀ (o : Fin 4) (s : State), s.safe.a.phase = 2 → s.safe.b.phase = 2 → s.safe.on o.val = false → exec (.ossdOvercurrent o) s = .next s) ∧
  (∀ (o : Fin 4) (ch want : Bool) (u : Nat) (s : State), s.safe.a.phase = 2 → s.safe.b.phase = 2 → ((s.safe.get ch).edm[o.val]?).getD none = some (u, want) →
    ∃ t, exec (.edmTimeout o) s = .next t ∧ (∀ ch u want, ((s.safe.get ch).edm[o.val]?).getD none = some (u, want) → u ≤ t.clk → (t.safe.get ch).holds 0x13 o.val = true ∧ (t.safe.get ch).closed o.val = false) ∧ (∃ ch u want, ((s.safe.get ch).edm[o.val]?).getD none = some (u, want) ∧ t.clk = max s.clk u) ∧
      ChangesOnly [.clk, .safe] noReg s t) ∧
  (∀ (o : Fin 4) (s : State), s.safe.a.phase = 2 → s.safe.b.phase = 2 → (∀ ch, ((s.safe.get ch).edm[o.val]?).getD none = none) → exec (.edmTimeout o) s = .next s) ∧
  (∀ (bClk aIvl : BitVec 16) (s : State), s.safe.a.phase = 2 → s.safe.b.phase = 2 →
    ∃ t, exec (.crossExchange bClk aIvl) s = .next t ∧ (t.clk = max s.clk (s.safe.xAt + 250 * usec)) ∧ (t.safe.a.heard = t.clk ∧ t.safe.b.heard = t.clk ∧ t.safe.xAt = t.clk) ∧ (∀ l ∈ s.safe.a.locks, globalCause l.cause = true → t.safe.b.locks.any (fun m => m.cause == l.cause) = true) ∧ (∀ l ∈ s.safe.b.locks, globalCause l.cause = true → t.safe.a.locks.any (fun m => m.cause == l.cause) = true) ∧ ((bClk.toNat < 850 ∨ 1150 < bClk.toNat) → t.safe.a.holds 0x22 255 = true) ∧ ((aIvl.toNat < 750 ∨ 1250 < aIvl.toNat) → t.safe.b.holds 0x22 255 = true) ∧
      ChangesOnly [.clk, .safe] noReg s t) ∧
  (∀ (ch : Bool) (s : State), s.safe.a.phase = 2 → s.safe.b.phase = 2 →
    ∃ t, exec (.crossFrameTimeout ch) s = .next t ∧ (t.clk = max s.clk ((s.safe.get ch).heard + msec)) ∧ ((t.safe.get ch).holds 0x21 255 = true) ∧ (t.safe.get (!ch) = s.safe.get (!ch)) ∧
      ChangesOnly [.clk, .safe] noReg s t) ∧
  (∀ (ch ok : Bool) (s : State), s.safe.a.phase = 2 → s.safe.b.phase = 2 →
    ∃ t, exec (.selfTest ch ok) s = .next t ∧ (t.clk = max s.clk ((s.safe.get ch).selfAt + 60 * sec)) ∧ (ok = true → t.safe.get ch = { s.safe.get ch with selfAt := t.clk }) ∧ (ok = false → (t.safe.get ch).holds 0x23 255 = true) ∧ (t.safe.get (!ch) = s.safe.get (!ch)) ∧
      ChangesOnly [.clk, .safe] noReg s t) ∧
  (∀ (ch gone : Bool) (s : State), s.safe.a.phase = 2 → s.safe.b.phase = 2 →
    ∃ t, exec (.safetySupplyFault ch gone) s = .next t ∧ ((t.safe.get ch).holds 0x26 255 = true) ∧ (∀ o, o < 4 → (t.safe.get ch).closed o = false) ∧ ((t.safe.get ch).phase = (if gone then 0 else 2)) ∧ (t.safe.get (!ch) = s.safe.get (!ch)) ∧ (t.clk = s.clk) ∧
      ChangesOnly [.clk, .safe] noReg s t) ∧
  (∀ (ch clkOk selfOk supplyOk : Bool) (s : State), s.safe.a.phase = 2 → s.safe.b.phase = 2 → (s.safe.get ch).locked = true →
    ∃ t, exec (.lockoutRecheck ch clkOk selfOk supplyOk) s = .next t ∧ (t.clk = max s.clk ((s.safe.get ch).recheckAt + 10 * sec)) ∧ ((t.safe.get ch).locks.map (fun l => (l.cause, l.unit)) = (s.safe.get ch).locks.map (fun l => (l.cause, l.unit))) ∧ (∀ l ∈ (t.safe.get ch).locks, (l.cause = 0x22 → l.passed = clkOk) ∧ (l.cause = 0x23 → l.passed = selfOk) ∧ (l.cause = 0x26 → l.passed = supplyOk)) ∧ ((t.safe.get ch).sw = (s.safe.get ch).sw ∧ t.safe.get (!ch) = s.safe.get (!ch)) ∧
      ChangesOnly [.clk, .safe] noReg s t) ∧
  (∀ (ch clkOk selfOk supplyOk : Bool) (s : State), s.safe.a.phase = 2 → s.safe.b.phase = 2 → (s.safe.get ch).locked = false → exec (.lockoutRecheck ch clkOk selfOk supplyOk) s = .next s)

/-- A frame of a channel marks it present and is the latest one held; three missing mark it absent and its clock lost. Admitted:
SAFE_STATUS answers the sixteen words of snapshot group 0; SAFE_PARAM_WRITE stages the piece; SAFE_PARAM_CHECK answers both check
values, or ends FAILED at the first failing byte; SAFE_PARAM_READ answers up to 1,024 bytes of the echo; SAFE_CONFIRM stores the block
only where all three values agree, a third mismatch discards it, and with nothing staged it confirms the stored block after new
firmware; SAFE_VIEW_CFG creates the object in place of the unit's earlier one, gives the same object another tag, and is FAILED where
another object stands there. (R356, R357, R359, R362) -/
def Obligations.SafetyMirrorAndOpcodes : Prop :=
  (∀ (ch : Bool) (s : State), s.safe.a.phase = 2 → s.safe.b.phase = 2 → s.pdOn 0 = true → s.mirror.frames.length = 2 →
    ∃ t, exec (.mirrorFrame ch) s = .next t ∧ (t.clk = max s.clk ((s.mirror.at_[b2n ch]?).getD 0 + msec)) ∧ (t.safePresent ch = true) ∧ ((t.safe.get ch).seq = ((s.safe.get ch).seq + 1) % 2 ^ 32) ∧ ((t.safeFrame ch).map (fun f => (f.func, f.seq)) = some ((t.safe.frame t.clk ch).func, (t.safe.get ch).seq)) ∧
      Leaves [.pending, .mem, .keys, .upd, .cfgMem, .baton, .out] s t) ∧
  (∀ (ch : Bool) (s : State), s.safe.a.phase = 2 → s.safe.b.phase = 2 → s.pdOn 0 = false →
    ∃ t, exec (.mirrorFrame ch) s = .next t ∧ (t.mirror = s.mirror) ∧
      ChangesOnly [.clk, .safe] noReg s t) ∧
  (∀ (ch : Bool) (s : State), s.safe.a.phase ≠ 1 → s.safe.b.phase ≠ 1 → (s.safe.get ch).phase = 0 → exec (.mirrorFrame ch) s = .next s) ∧
  (∀ (ch : Bool) (s : State), s.safePresent ch = true →
    ∃ t, exec (.safeChannelAbsent ch) s = .next t ∧ (t.safePresent ch = false) ∧ (t.clk = max s.clk ((s.mirror.at_[b2n ch]?).getD 0 + 3 * msec)) ∧ (bit1 (t.get F.SYS_CLK_STAT_LOST) (7 + b2n ch) = 1) ∧ (bit1 (t.rd 0x380004) 0 = 1) ∧
      Leaves [.pending, .mem, .safe, .mirror, .keys, .upd, .cfgMem, .baton, .out] s t) ∧
  (∀ (ch : Bool) (s : State), s.safePresent ch = false → exec (.safeChannelAbsent ch) s = .next s) ∧
  (∀ r s q, admitted? (.safeStatus r) s = some q →
    ∃ t, exec (.safeStatus r) s = .next t ∧ Answered t q 0x0701 .ok 0 (tlv 0x0701 (s.safeSnap.map (natBE 4)).flatten) ∧
      ChangesOnly (batonParts) (answerWords q) s t) ∧
  (∀ r s q, admitted? (.safeParamWrite r) s = some q →
    ∃ t, exec (.safeParamWrite r) s = .next t ∧ Answered t q 0x0702 .ok 0 ([]) ∧
      t.safe = { s.safe with staged := padTo 2048 (s.safe.staged.take (tn q.tlvs 0x0702) ++ tv q.tlvs 0x0703 ++
        s.safe.staged.drop (tn q.tlvs 0x0702 + (tv q.tlvs 0x0703).length)), stg := 1, chkA := 0, chkB := 0 } ∧
      ChangesOnly (.safe :: batonParts) (answerWords q) s t) ∧
  (∀ r s q, admitted? (.safeParamCheck r) s = some q → blockFault s.safe.staged = none →
    ∃ t, exec (.safeParamCheck r) s = .next t ∧ Answered t q 0x0703 .ok 0 (tlv 0x0704 (natBE 4 (blockCrc s.safe.staged)) ++ tlv 0x0705 (natBE 4 (blockCrc s.safe.staged))) ∧
      t.safe.stg = 2 ∧ t.safe.echoB = s.safe.staged ∧ t.safe.a = s.safe.a ∧ t.safe.b = s.safe.b ∧
      ChangesOnly (.safe :: batonParts) (answerWords q) s t) ∧
  (∀ r s q o, admitted? (.safeParamCheck r) s = some q → blockFault s.safe.staged = some o →
    ∃ t, exec (.safeParamCheck r) s = .next t ∧ Answered t q 0x0703 .failed 0 (if 0x31 ≤ q.ver then tlv 0x000E (natBE 2 o ++ natBE 2 0x0008) else []) ∧ ChangesOnly batonParts (answerWords q) s t) ∧
  (∀ r s q, admitted? (.safeParamRead r) s = some q → slice (s.safe.echo (tn q.tlvs 0x0707 == 1)) (tn q.tlvs 0x0702) 1024 ≠ [] →
    ∃ t, exec (.safeParamRead r) s = .next t ∧ Answered t q 0x0704 .ok 0 (tlv 0x0703 (slice (s.safe.echo (tn q.tlvs 0x0707 == 1)) (tn q.tlvs 0x0702) 1024)) ∧
      ChangesOnly (batonParts) (answerWords q) s t) ∧
  (∀ r s q, admitted? (.safeParamRead r) s = some q → slice (s.safe.echo (tn q.tlvs 0x0707 == 1)) (tn q.tlvs 0x0702) 1024 = [] →
    ∃ t, exec (.safeParamRead r) s = .next t ∧ Answered t q 0x0704 .failed 0 ([]) ∧
      ChangesOnly (batonParts) (answerWords q) s t) ∧
  (∀ r s q, admitted? (.safeConfirm r) s = some q → s.safe.stg = 2 → tn q.tlvs 0x0706 = s.safe.chkA → tn q.tlvs 0x0706 = s.safe.chkB →
    ∃ t, exec (.safeConfirm r) s = .next t ∧ Answered t q 0x0705 .ok 0 ([]) ∧
      t.safe.stg = 3 ∧ t.safe.a = { s.safe.a with stored := some s.safe.staged } ∧ t.safe.b = { s.safe.b with stored := some s.safe.staged } ∧
      ChangesOnly (.safe :: batonParts) (answerWords q) s t) ∧
  (∀ r s q, admitted? (.safeConfirm r) s = some q → s.safe.stg = 2 → (tn q.tlvs 0x0706 ≠ s.safe.chkA ∨ tn q.tlvs 0x0706 ≠ s.safe.chkB) →
    ∃ t, exec (.safeConfirm r) s = .next t ∧ Answered t q 0x0705 .failed 0 ([]) ∧
      t.safe.a = s.safe.a ∧ t.safe.b = s.safe.b ∧ t.safe.stg = (if 2 ≤ s.safe.misses then 0 else 2) ∧
      ChangesOnly (.safe :: batonParts) (answerWords q) s t) ∧
  (∀ r s q, admitted? (.safeConfirm r) s = some q → s.safe.stg = 0 → s.safe.reconf = true → s.safe.a.stored.map blockChk = some (tn q.tlvs 0x0706) → s.safe.b.stored.map blockChk = some (tn q.tlvs 0x0706) →
    ∃ t, exec (.safeConfirm r) s = .next t ∧ Answered t q 0x0705 .ok 0 ([]) ∧
      t.safe.reconf = false ∧ t.safe.a.stored = s.safe.a.stored ∧ t.safe.b.stored = s.safe.b.stored ∧ t.safe.a.locks = s.safe.a.locks ∧ t.safe.b.locks = s.safe.b.locks ∧
      ChangesOnly (.safe :: batonParts) (answerWords q) s t) ∧
  (∀ r s q, admitted? (.safeConfirm r) s = some q → (s.safe.stg = 1 ∨ s.safe.stg ≠ 2 ∧ s.safe.reconf = false) →
    ∃ t, exec (.safeConfirm r) s = .next t ∧ Answered t q 0x0705 .failed 0 ([]) ∧
      ChangesOnly (batonParts) (answerWords q) s t) ∧
  (∀ r s q, admitted? (.safeViewCfg r) s = some q →
    let u := tn q.tlvs 0x0708
    let n := addrObj (tAddr q.tlvs)
    s.obj? n = none → (∀ v ∈ s.mirror.views, v.unit = u → v.obj ≠ n) →
    ∃ t, exec (.safeViewCfg r) s = .next t ∧ Answered t q 0x0706 .ok 0 [] ∧
      (t.obj? n).map (fun x => (x.typ, x.tag, x.count)) = some (tySafetyView, tn q.tlvs 0x0007, 10) ∧
      t.mirror.views = (s.mirror.views.filter fun v => v.unit != u) ++ [⟨u, n, tn q.tlvs 0x0007⟩] ∧
      (∀ v, s.mirror.views.find? (fun v => v.unit == u) = some v → t.obj? v.obj = none) ∧ t.safe = s.safe ∧
      ChangesOnly (.estate :: .mirror :: batonParts) (answerWords q) s t) ∧
  (∀ r s q v, admitted? (.safeViewCfg r) s = some q →
    let u := tn q.tlvs 0x0708
    let n := addrObj (tAddr q.tlvs)
    s.mirror.views.find? (fun v => v.unit == u) = some v → v.obj = n → (s.obj? n).isSome = true →
    ∃ t, exec (.safeViewCfg r) s = .next t ∧ Answered t q 0x0706 .ok 0 [] ∧ (t.obj? n).map (·.tag) = some (tn q.tlvs 0x0007) ∧
      t.mirror.views = s.mirror.views.map (fun v => if v.unit = u then ⟨v.unit, v.obj, tn q.tlvs 0x0007⟩ else v) ∧
      Leaves [.pending, .clk, .mem, .safe, .keys, .upd, .cfgMem] s t) ∧
  (∀ r s q, admitted? (.safeViewCfg r) s = some q →
    let n := addrObj (tAddr q.tlvs)
    (s.obj? n).isSome = true → (∀ v ∈ s.mirror.views, v.unit = tn q.tlvs 0x0708 → v.obj ≠ n) →
    ∃ t, exec (.safeViewCfg r) s = .next t ∧ Answered t q 0x0706 .failed 0 (if 0x31 ≤ q.ver then tlv 0x000E (natBE 2 0xFFFF ++ natBE 2 0x0009) else []) ∧
      ChangesOnly batonParts (answerWords q) s t)

/-- Frame k starts at the k-th multiple of PERIOD and carries k; while a frame is outstanding none is sent, SKIP counts and a ring in RUN
splits; in DISCOVER the frame is a HELLO, sent every m periods. A return writes the measured delay; one whose frame does not parse
counts an FCS fault; the third equal HELLO result within the budget leads to RUN with the excluded stations. LINKS_OK for 100 ms closes
a split ring. A port that locks leads from LINKING to DISCOVER; the loss of the last lock leads to LINKING, sets LOST of CLK_RELAY,
ends the writes in flight and discards what waits; a node loops the other port's frames back; a master in RUN that loses RL1 alone goes
to SPLIT. (R366, R368, R371, R377, R378, R383, R385) -/
def Obligations.RelayMasterFrames : Prop :=
  (∀ (lo hi : Byte) (s : State), s.relayRole = 2 → s.blkOn 8 = true → (s.rstate = rsRun ∨ s.rstate = rsDiscover ∧ s.nextPeriod.1 % max 1 (ceilDiv (8 * 2120 + s.get F.RELAY_DELAY_D) (max 1 s.relayPeriod)) = 0) → s.relay.outstanding = true →
    ∃ t, exec (.relayFrameStart lo hi) s = .next t ∧ (t.clk = max s.clk s.nextPeriod.2) ∧ (t.relay.k = s.nextPeriod.1) ∧ (t.relay.outstanding = false) ∧ (t.get F.RELAY_CNT_SKIP = satAdd (2 ^ (F.RELAY_CNT_SKIP.hi + 1 - F.RELAY_CNT_SKIP.lo) - 1) (s.get F.RELAY_CNT_SKIP) 1) ∧ (s.rstate = rsRun → s.get F.RELAY_CFG_TOPO = 0 → t.get F.RELAY_STAT_TOPO_RX = 2) ∧
      Leaves [.pending, .mem, .safe, .keys, .upd, .cfgMem, .baton, .out, .estate, .lap] s t) ∧
  (∀ (lo hi : Byte) (s : State), s.relayRole = 2 → s.blkOn 8 = true → s.rstate = rsRun → s.relay.outstanding = false →
    ∃ t, exec (.relayFrameStart lo hi) s = .next t ∧ (t.clk = max s.clk s.nextPeriod.2) ∧ (t.relay.k = s.nextPeriod.1) ∧ (t.relay.outstanding = true) ∧ (∃ bs, t.out.head? = some (.relayFrame (if s.relay.closing = true ∨ s.get F.RELAY_STAT_TOPO_RX = 2 ∨ s.get F.RELAY_CFG_TOPO = 2 then 1 else 0) bs) ∧ beAt bs 1 1 = 2 ∧
        beAt bs 4 8 = t.relay.k % 2 ^ 64) ∧
      Leaves [.pending, .mem, .safe, .keys, .upd] s t) ∧
  (∀ (lo hi : Byte) (s : State), s.relayRole = 2 → s.blkOn 8 = true → s.rstate = rsDiscover → s.relay.outstanding = false → s.nextPeriod.1 % max 1 (ceilDiv (8 * 2120 + s.get F.RELAY_DELAY_D) (max 1 s.relayPeriod)) = 0 →
    ∃ t, exec (.relayFrameStart lo hi) s = .next t ∧ (t.clk = max s.clk s.nextPeriod.2) ∧ (t.relay.outstanding = true) ∧ (∃ bs, t.out.head? = some (.relayFrame (if s.relay.closing = true ∨ s.get F.RELAY_STAT_TOPO_RX = 2 ∨ s.get F.RELAY_CFG_TOPO = 2 then 1 else 0) bs) ∧ beAt bs 1 1 = 1 ∧
        beAt bs 4 8 = t.relay.k % 2 ^ 64) ∧
      ChangesOnly [.clk, .relay, .out] noReg s t) ∧
  (∀ (lo hi : Byte) (s : State), s.relayRole = 2 → s.blkOn 8 = true → s.rstate = rsDiscover → s.nextPeriod.1 % max 1 (ceilDiv (8 * 2120 + s.get F.RELAY_DELAY_D) (max 1 s.relayPeriod)) ≠ 0 →
    ∃ t, exec (.relayFrameStart lo hi) s = .next t ∧ (t.clk = max s.clk s.nextPeriod.2) ∧ (t.relay.k = s.nextPeriod.1) ∧ (t.relay.outstanding = s.relay.outstanding ∧ t.relay.helloN = s.relay.helloN) ∧
      ChangesOnly [.clk, .relay] noReg s t) ∧
  (∀ (lo hi : Byte) (s : State), (s.relayRole ≠ 2 ∨ s.blkOn 8 = false ∨ s.rstate ≠ rsDiscover ∧ s.rstate ≠ rsRun) → exec (.relayFrameStart lo hi) s = .next s) ∧
  (∀ (d : W32) (frames : List Bytes) (bad : Option Nat) (s : State), s.relayRole = 2 → s.blkOn 8 = true → s.relay.outstanding = true →
    ∃ t, exec (.frameReturn d frames bad) s = .next t ∧ (t.rd Reg.RELAY_DELAY = d.toNat) ∧ (t.relay.outstanding = false) ∧ ((∃ b ∈ frames, parseFrame b = none) → t.get F.RELAY_CNT_FCS = satAdd (2 ^ (F.RELAY_CNT_FCS.hi + 1 - F.RELAY_CNT_FCS.lo) - 1) (s.get F.RELAY_CNT_FCS) 1) ∧
      Leaves [.pending, .mem, .safe, .keys] s t) ∧
  (∀ (d : W32) (bs : Bytes) (f : RFrame) (s : State), s.relayRole = 2 → s.blkOn 8 = true → s.relay.outstanding = true → s.rstate = rsDiscover → parseFrame bs = some f → f.typ = 1 → f.bad = false → f.fcsOk = true → helloRecs f.pay = s.relay.hello → s.relay.helloN = 2 → (s.wr Reg.RELAY_DELAY d.toNat).budgetOk s.relayL s.relayPeriod = true →
    ∃ t, exec (.frameReturn d [bs] none) s = .next t ∧ (t.rstate = rsRun) ∧ (t.relay.helloN = 0) ∧ (t.relay.excluded = ((helloRecs f.pay).map fun r => (r.addr, s.exclReason r)).filter fun p => p.2 != 0) ∧
      Leaves [.pending, .mem, .safe, .keys, .cfgMem, .baton, .out] s t) ∧
  (∀ (d : W32) (frames : List Bytes) (bad : Option Nat) (s : State), (s.relayRole ≠ 2 ∨ s.blkOn 8 = false ∨ s.relay.outstanding = false) → exec (.frameReturn d frames bad) s = .next s) ∧
  (∀ (x b : Nat) (s : State), s.relay.linksOk = some x → s.relay.splitAt = some b → s.relayRole = 2 → s.get F.RELAY_STAT_TOPO_RX = 2 →
    ∃ t, exec .ringClose s = .next t ∧ (t.clk = max s.clk (x + 100 * msec)) ∧ (t.get F.RELAY_STAT_TOPO_RX = 0) ∧ (t.relay = { s.relay with splitAt := none, linksOk := none, closing := true }) ∧ (bit1 (t.rd 0x400004) 4 = 1) ∧
      ChangesOnly [.clk, .relay, .limiters, .evr] (regsOr evWords (regsAt [Reg.RELAY_STAT, 0x400004])) s t) ∧
  (∀  (s : State), (s.relay.linksOk = none ∨ s.relay.splitAt = none ∨ s.relayRole ≠ 2 ∨ s.get F.RELAY_STAT_TOPO_RX ≠ 2) → exec .ringClose s = .next s) ∧
  (∀ (p : Fin 2) (s : State), s.blkOn 8 = true → s.relayRole ≠ 0 →
    ∃ t, exec (.relayLinkUp p) s = .next t ∧ (t.get (linkFld p.val) = 1) ∧ (t.rstate = (if s.rstate = rsLinking then rsDiscover else s.rstate)) ∧
      ChangesOnly [.limiters, .evr, .upd] (regsOr evWords (regsAt [Reg.RELAY_STAT, 0x400004])) s t) ∧
  (∀ (p : Fin 2) (s : State), (s.blkOn 8 = false ∨ s.relayRole = 0) → exec (.relayLinkUp p) s = .next s) ∧
  (∀ (p : Fin 2) (lo hi : Byte) (s : State), s.blkOn 8 = true → s.relayRole ≠ 0 → s.get (linkFld p.val) = 1 → s.get (linkFld (1 - p.val)) = 0 →
    ∃ t, exec (.portLockLost p lo hi) s = .next t ∧ (t.rstate = rsLinking) ∧ (t.get F.RELAY_STAT_LINK0 = 0 ∧ t.get F.RELAY_STAT_LINK1 = 0) ∧ (bit1 (t.get F.SYS_CLK_STAT_LOST) 4 = 1) ∧ (t.relay.writes = [] ∧ t.relay.txq = [] ∧ t.get F.RELAY_MAPGO_GO = 0) ∧
      Leaves [.pending, .mem, .safe, .keys, .cfgMem, .clk] s t) ∧
  (∀ (p : Fin 2) (lo hi : Byte) (s : State), s.blkOn 8 = true → s.relayRole ≠ 0 → (s.get (linkFld (1 - p.val)) = 1 ∨ s.get (linkFld p.val) = 0) →
    ∃ t, exec (.portLockLost p lo hi) s = .next t ∧ (t.rstate = s.rstate) ∧ (t.get (linkFld p.val) = 0) ∧ (t.relay.writes = s.relay.writes) ∧ (s.relayRole = 1 → t.relay.looped.contains p.val = true) ∧ (p = 1 → s.relayRole = 2 → s.get F.RELAY_CFG_TOPO = 0 → s.rstate = rsRun → t.get F.RELAY_STAT_TOPO_RX = 2) ∧
      ChangesOnly [.relay, .limiters, .evr] (regsOr evWords (regsAt [Reg.RELAY_STAT, 0x400004])) s t) ∧
  (∀ (p : Fin 2) (lo hi : Byte) (s : State), (s.blkOn 8 = false ∨ s.relayRole = 0) → exec (.portLockLost p lo hi) s = .next s)

/-- A node passes on a frame that does not parse and counts it, and one that is not its to process; one of its own map takes it to RUN, is
sent on from the port that the locks give, at once where no trigger entry is in use, and, if intact, makes its outputs live; a HELLO is
answered in the station's record and leads to DISCOVER; another MAP_ID, or its exclusion, leaves it EXCLUDED. Silence for LOSS_N
periods is NOFRAME and ends the writes in flight; HOLD_MS of it ends OUT_LIVE. GO commits a staged map that keeps R372. RELAY_CFG
writes the configuration and clears the counters, RELAY_MAP stages entries and is PENDING for the commit, RELAY_BIND adds the binding,
RELAY_STATION ties a station to its object, RELAY_STATUS answers the registers and the snapshot words. (R364, R369, R373, R377, R378,
R381, R382, R388, R389) -/
def Obligations.RelayNodeAndOpcodes : Prop :=
  (∀ (p : Fin 2) (bs : Bytes) (bad : Option Nat) (s : State), s.relayRole = 1 → s.blkOn 8 = true → s.rstate ≠ rsOff → parseFrame bs = none →
    ∃ t, exec (.relayFrame p bs bad) s = .next t ∧ (t.out = .relayFrame (s.outPort p.val) bs :: s.out) ∧ (t.get F.RELAY_CNT_FCS = satAdd (2 ^ (F.RELAY_CNT_FCS.hi + 1 - F.RELAY_CNT_FCS.lo) - 1) (s.get F.RELAY_CNT_FCS) 1) ∧ (t.relay = s.relay) ∧
      ChangesOnly [.out, .evr, .limiters] (regsOr evWords (regsAt [Reg.RELAY_CNT, 0x400004])) s t) ∧
  (∀ (p : Fin 2) (bs : Bytes) (bad : Option Nat) (f : RFrame) (s : State), s.relayRole = 1 → s.blkOn 8 = true → s.rstate ≠ rsOff → parseFrame bs = some f → s.nodeTakes p.val f = false →
    ∃ t, exec (.relayFrame p bs bad) s = .next t ∧ (t.out = .relayFrame (s.outPort p.val) bs :: s.out) ∧
      ChangesOnly [.out] noReg s t) ∧
  (∀ (p : Fin 2) (bs : Bytes) (bad : Option Nat) (f : RFrame) (s : State), s.relayRole = 1 → s.blkOn 8 = true → s.rstate ≠ rsOff → parseFrame bs = some f → s.nodeTakes p.val f = true → f.typ ≠ 1 → f.mapId = s.rd Reg.RELAY_MAPID → (∀ x ∈ s.relay.excluded, x.1 ≠ s.relayAddr) → (s.relay.claimed = true → f.fcsOk = true → mapBit (slice f.pay 4 32) s.relayAddr = false) →
    ∃ t, exec (.relayFrame p bs bad) s = .next t ∧ (t.rstate = rsRun) ∧ (t.relay.k = f.k ∧ t.relay.lastOk = s.clk) ∧ (t.relay.upPort = some (s.relay.upPort.getD p.val)) ∧ ((∃ b, .relayFrame (s.outPort p.val) b ∈ t.out) ∨ t.relay.passing.map (·.port) = some (s.outPort p.val)) ∧ (s.get F.RELAY_TMO_TRIG_EN = 0 → t.relay.passing = none) ∧ (f.fcsOk = true → f.bad = false → bad = none → t.relay.outLive = true) ∧
      Leaves [.pending, .mem, .safe, .keys, .clk] s t) ∧
  (∀ (p : Fin 2) (bs : Bytes) (bad : Option Nat) (f : RFrame) (s : State), s.relayRole = 1 → s.blkOn 8 = true → s.rstate ≠ rsOff → parseFrame bs = some f → s.nodeTakes p.val f = true → f.typ = 1 →
    ∃ t, exec (.relayFrame p bs bad) s = .next t ∧ (∃ b, t.out.head? = some (.relayFrame (s.outPort p.val) b) ∧ (1 ≤ s.relayAddr → s.relayAddr ≤ 254 → f.pay.length = 2048 →
        (slice f.pay (8 * (s.relayAddr - 1)) 8).all (· == 0) = true →
        slice b (32 + 8 * (s.relayAddr - 1)) 8 = natBE 1 s.relayAddr ++ [2, 2, 1] ++ natBE 4 (s.rd Reg.RELAY_MAPID) ∧ t.relay.claimed = true)) ∧ (t.relay.lastOk = s.clk) ∧ (t.rstate = rsDiscover) ∧
      ChangesOnly [.relay, .out, .limiters, .evr, .upd] (regsOr evWords (regsAt [Reg.RELAY_STAT, Reg.RELAY_PER, 0x400004])) s t) ∧
  (∀ (p : Fin 2) (bs : Bytes) (bad : Option Nat) (f : RFrame) (s : State), s.relayRole = 1 → s.blkOn 8 = true → s.rstate ≠ rsOff → parseFrame bs = some f → s.nodeTakes p.val f = true → f.typ ≠ 1 → (f.mapId ≠ s.rd Reg.RELAY_MAPID ∨ s.relay.excluded.any (fun x => x.1 == s.relayAddr) = true) →
    ∃ t, exec (.relayFrame p bs bad) s = .next t ∧ (t.rstate = rsExcluded) ∧ (t.out.head? = some (.relayFrame (s.outPort p.val) (frameBytes (bs.take 32) f.pay f.bad f.fbad))) ∧ (t.relay.inImg = s.relay.inImg ∧ t.relay.outLive = s.relay.outLive) ∧
      ChangesOnly [.relay, .out, .limiters, .evr, .upd] (regsOr evWords (regsAt [Reg.RELAY_STAT, Reg.RELAY_PER, 0x400004])) s t) ∧
  (∀ (p : Fin 2) (bs : Bytes) (bad : Option Nat) (s : State), (s.relayRole ≠ 1 ∨ s.blkOn 8 = false ∨ s.rstate = rsOff) → exec (.relayFrame p bs bad) s = .next s) ∧
  (∀  (s : State), s.relayRole = 1 → (s.rstate = rsRun ∨ s.rstate = rsExcluded) →
    ∃ t, exec .noframe s = .next t ∧ (t.rstate = rsNoframe) ∧ (t.clk = max s.clk (s.relay.lastOk + s.get F.RELAY_TMO_LOSS_N * s.relayPeriod)) ∧ (t.relay.writes = []) ∧ (t.relay.passing = none) ∧
      Leaves [.pending, .mem, .safe, .keys, .cfgMem, .baton] s t) ∧
  (∀  (s : State), (s.relayRole ≠ 1 ∨ s.rstate ≠ rsRun ∧ s.rstate ≠ rsExcluded) → exec .noframe s = .next s) ∧
  (∀  (s : State), s.relayRole = 1 → s.relay.outLive = true →
    ∃ t, exec .relayHold s = .next t ∧ (t.relay = { s.relay with outLive := false }) ∧ (t.clk = max s.clk (s.relay.lastOk + s.get F.RELAY_TMO_HOLD_MS * msec)) ∧
      Leaves [.pending, .mem, .safe, .keys, .upd, .cfgMem, .baton, .can, .lap] s t) ∧
  (∀  (s : State), (s.relayRole ≠ 1 ∨ s.relay.outLive = false) → exec .relayHold s = .next s) ∧
  (∀  (s : State), s.blkOn 8 = true → s.mapOk s.stagedMap = true →
    ∃ t, exec .relayMapgo s = .next t ∧ (t.get F.RELAY_MAPGO_GO = 1) ∧
      ChangesOnly [] (regsAt [Reg.RELAY_MAPGO]) s t) ∧
  (∀  (s : State), (s.blkOn 8 = false ∨ s.mapOk s.stagedMap = false) → exec .relayMapgo s = .next s) ∧
  (∀ r s q, admitted? (.relayCfg r) s = some q →
    ∃ t, exec (.relayCfg r) s = .next t ∧ Answered t q 0x0801 .ok 0 ([]) ∧
      t.rd Reg.RELAY_CFG = beAt (tv q.tlvs 0x0801) 0 4 ∧ t.rd Reg.RELAY_LEN = beAt (tv q.tlvs 0x0801) 8 4 ∧ t.rd Reg.RELAY_MAPID = beAt (tv q.tlvs 0x0801) 20 4 ∧
      t.rd Reg.RELAY_CNT = 0 ∧ t.relay.writes = [] ∧ t.relay.lost = [] ∧ t.relay.outstanding = false ∧
      t.rstate = (if t.relayRole = 0 then rsOff else if t.get F.RELAY_STAT_LINK0 + t.get F.RELAY_STAT_LINK1 > 0 then rsDiscover else rsLinking) ∧
      Leaves [.pending, .mem, .safe, .keys, .clk] s t) ∧
  (∀ r s q, admitted? (.relayMap r) s = some q →
    ∃ t, exec (.relayMap r) s = .next t ∧ Answered t q 0x0802 .pending 0 [] ∧ t.baton.items = s.baton.items ++ [opRelayMap.item q .relayMap (0) (0) true] ∧
      t.get F.RELAY_MAPGO_GO = 1 ∧ (∀ v ∈ tvs q.tlvs 0x0802, t.rd (Reg.RELAY_MAPS (beAt v 0 1)) = beAt v 1 4) ∧
      ChangesOnly (batonParts) (regsOr (answerWords q) (regsOf 8)) s t) ∧
  (∀ r s q v, admitted? (.relayBind r) s = some q → tvs q.tlvs 0x0803 = [v] →
    ∃ t, exec (.relayBind r) s = .next t ∧ Answered t q 0x0803 .ok 0 ([]) ∧
      t.relay.binds.getLast? = some (slotBindOf v) ∧
      ChangesOnly (.relay :: batonParts) (answerWords q) s t) ∧
  (∀ r s q, admitted? (.relayStation r) s = some q →
    ∃ t, exec (.relayStation r) s = .next t ∧ Answered t q 0x0804 .ok 0 ([]) ∧
      (t.relay.stations.find? fun x => x.addr == tn q.tlvs 0x0804).map (·.obj) = some (addrObj (tAddr q.tlvs)) ∧
      ChangesOnly (.relay :: .estate :: batonParts) (answerWords q) s t) ∧
  (∀ r s q, admitted? (.relayStatus r) s = some q →
    ∃ t, exec (.relayStatus r) s = .next t ∧ Answered t q 0x0805 .ok 0 (tlv 0x0805 ((([s.rd Reg.RELAY_STAT, s.rd Reg.RELAY_DELAY, s.rd Reg.RELAY_CNT] ++ s.relaySnap).map (natBE 4)).flatten)) ∧
      ChangesOnly (batonParts) (answerWords q) s t)

/-- A received frame enters the lowest matching RX object with NEWDAT, and no object without a match. An attempt puts the chosen object's
frame on the wire; its end clears the wire, moves TEC by −1 or +8, and, after success, ends the request. An RX object silent for
TIMEOUT sets RXTO. A cell starts at its column and is missed when no attempt can still start. TEC above 255 is bus-off, which empties
the requests, recovers when asked, and ends with both counters 0. A requested mode takes effect at bus idle. An error while receiving
counts in REC, except in LISTEN, in bus-off and for a protocol exception. GO queues the object's data, holds it in the shadow during an
attempt, and fails where the object may not send; CANCEL removes what waits, or waits for the attempt; RECOVER leaves bus-off. (R394,
R396, R398, R402, R404, R407, R410, R411, R412, R413) -/
def Obligations.CanFramesAndErrors : Prop :=
  (∀ (c : Fin 4) (f : CanFrame) (m : Nat) (s : State), c.val < s.can.length → s.blkOn 9 = true → (s.canCh c.val).mode ≠ 0 → s.get (F.CAN_STAT_STATE c.val) ∉ [0, 3, 5] → (f.fdf = false ∨ s.get (F.CAN_CTL_FDOE c.val) = 1) → s.drillOn c.val = false → s.canMatch c.val f = some m → m < (s.canCh c.val).objs.length →
    ∃ t, exec (.canFrameReceived c f) s = .next t ∧ ((t.canObj c.val m).prim.f = f) ∧ (t.get (F.CAN_OST_NEWDAT c.val m) = 1) ∧ (t.get (F.CAN_OST_RXTO c.val m) = 0) ∧ (s.get (F.CAN_OST_NEWDAT c.val m) = 1 → t.get (F.CAN_OST_MSGLOST c.val m) = 1) ∧
      Leaves [.pending, .mem, .safe, .keys, .cfgMem, .clk] s t) ∧
  (∀ (c : Fin 4) (f : CanFrame) (s : State), s.blkOn 9 = true → (s.canCh c.val).mode ≠ 0 → s.get (F.CAN_STAT_STATE c.val) ∉ [0, 3, 5] → (f.fdf = false ∨ s.get (F.CAN_CTL_FDOE c.val) = 1) → s.drillOn c.val = false → s.canMatch c.val f = none →
    ∃ t, exec (.canFrameReceived c f) s = .next t ∧ (t.can = s.can) ∧
      Leaves [.pending, .mem, .safe, .keys, .cfgMem, .clk, .baton, .out, .lap] s t) ∧
  (∀ (c : Fin 4) (f : CanFrame) (s : State), (s.blkOn 9 = false ∨ (s.canCh c.val).mode = 0 ∨ s.get (F.CAN_STAT_STATE c.val) ∈ [0, 3, 5] ∨
      f.fdf = true ∧ s.get (F.CAN_CTL_FDOE c.val) = 0) → exec (.canFrameReceived c f) s = .next s) ∧
  (∀ (c : Fin 4) (w : CanWire) (s : State), c.val < s.can.length → s.canSends c.val = true → (s.canCh c.val).wire = none → s.canChoose c.val = some w →
    ∃ t, exec (.canTxStart c) s = .next t ∧ ((t.canCh c.val).wire = some w) ∧ (t.out = .can c.val (s.canOut c.val w.m) :: s.out) ∧ (t.get (F.CAN_FIFO_WIRE c.val) = 1) ∧
      ChangesOnly [.can, .baton, .out] (regsAt [Reg.CAN_FIFO c.val, Reg.CAN_OST c.val w.m]) s t) ∧
  (∀ (c : Fin 4) (s : State), (s.canSends c.val = false ∨ (s.canCh c.val).wire.isSome = true ∨ s.canChoose c.val = none) → exec (.canTxStart c) s = .next s) ∧
  (∀ (c : Fin 4) (x : CanTxResult) (w : CanWire) (s : State), c.val < s.can.length → (s.canCh c.val).wire = some w →
    ∃ t, exec (.canTxEnd c x) s = .next t ∧ ((t.canCh c.val).wire = none) ∧ (x = .ok → (t.canCh c.val).tec = (s.canCh c.val).tec - 1) ∧ (∀ lec, x = .error lec → (t.canCh c.val).tec = (s.canCh c.val).tec + 8) ∧ (x = .lost → (t.canCh c.val).tec = (s.canCh c.val).tec) ∧ (x = .ok → w.kind ≠ .reply → (s.canObj c.val w.m).shadow = none → (t.canObj c.val w.m).req = none ∧ (w.kind = .fifo → (t.canCh c.val).fifo = (s.canCh c.val).fifo.drop 1)) ∧
      Leaves [.pending, .mem, .safe, .keys, .cfgMem, .clk] s t) ∧
  (∀ (c : Fin 4) (x : CanTxResult) (s : State), (s.canCh c.val).wire = none → exec (.canTxEnd c x) s = .next s) ∧
  (∀ (c : Fin 4) (m : Fin 64) (s : State), s.blkOn 9 = true → s.canObjOn c.val m.val 1 = true → s.get (F.CAN_OTIM_TIMEOUT c.val m.val) ≠ 0 → (s.canCh c.val).mode ≠ 0 → s.get (F.CAN_OST_RXTO c.val m.val) = 0 →
    ∃ t, exec (.canRxTimeout c m) s = .next t ∧ (t.get (F.CAN_OST_RXTO c.val m.val) = 1) ∧ (t.clk = max s.clk ((s.canObj c.val m.val).since + s.get (F.CAN_OTIM_TIMEOUT c.val m.val) * msec)) ∧
      Leaves [.pending, .mem, .safe, .keys, .cfgMem] s t) ∧
  (∀ (c : Fin 4) (m : Fin 64) (s : State), (s.blkOn 9 = false ∨ s.canObjOn c.val m.val 1 = false ∨ s.get (F.CAN_OTIM_TIMEOUT c.val m.val) = 0 ∨ (s.canCh c.val).mode = 0 ∨ s.get (F.CAN_OST_RXTO c.val m.val) = 1) → exec (.canRxTimeout c m) s = .next s) ∧
  (∀ (c : Fin 4) (i m : Nat) (s : State), c.val < s.can.length → s.get (F.CAN_TT_TT_EN c.val) ≠ 0 → s.canSends c.val = true → (s.canCh c.val).cell = none → firstBelow 1025 (fun i => (if s.sysNow % s.colNs c.val = 0 then 0 else 1) ≤ i && (s.cellObj c.val (s.colNow c.val + i)).isSome) = some i → s.cellObj c.val (s.colNow c.val + i) = some m →
    ∃ t, exec (.ttCell c) s = .next t ∧ ((t.canCh c.val).cell = (if (s.canObj c.val m).hasData then some (m, s.clk + ((((s.colNow c.val + i) * s.colNs c.val : Nat) : Int) - s.sysNow).toNat) else none)) ∧ (t.clk = s.clk + ((((s.colNow c.val + i) * s.colNs c.val : Nat) : Int) - s.sysNow).toNat) ∧
      ChangesOnly [.clk, .can] noReg s t) ∧
  (∀ (c : Fin 4) (s : State), (s.canCh c.val).cell = none → firstBelow 1025 (fun i => (if s.sysNow % s.colNs c.val = 0 then 0 else 1) ≤ i && (s.cellObj c.val (s.colNow c.val + i)).isSome) = none → exec (.ttCell c) s = .next s) ∧
  (∀ (c : Fin 4) (s : State), (s.get (F.CAN_TT_TT_EN c.val) = 0 ∨ s.canSends c.val = false) → exec (.ttCell c) s = .next s) ∧
  (∀ (c : Fin 4) (m x : Nat) (s : State), c.val < s.can.length → (s.canCh c.val).cell = some (m, x) → (s.canCh c.val).onWire m = false →
    ∃ t, exec (.canTtMiss c) s = .next t ∧ ((t.canCh c.val).cell = none) ∧ ((t.canObj c.val m).req = none) ∧ (t.get (F.CAN_CNT2_TTMISS c.val) = satAdd (2 ^ ((F.CAN_CNT2_TTMISS c.val).hi + 1 - (F.CAN_CNT2_TTMISS c.val).lo) - 1) (s.get (F.CAN_CNT2_TTMISS c.val)) 1) ∧ (t.clk = max s.clk (x + s.colNs c.val - s.canFrameNs c.val (s.canOut c.val m))) ∧
      Leaves [.pending, .mem, .safe, .keys, .cfgMem] s t) ∧
  (∀ (c : Fin 4) (s : State), ((s.canCh c.val).cell = none ∨ ∃ m x, (s.canCh c.val).cell = some (m, x) ∧ (s.canCh c.val).onWire m = true) → exec (.canTtMiss c) s = .next s) ∧
  (∀ (c : Fin 4) (s : State), c.val < s.can.length → 255 < (s.canCh c.val).tec → s.canSends c.val = true →
    ∃ t, exec (.canBusOff c) s = .next t ∧ (t.get (F.CAN_STAT_STATE c.val) = (if s.get (F.CAN_CTL_AUTO_REC c.val) = 1 then 5 else 3)) ∧ ((t.canCh c.val).offAt = s.clk) ∧ (∀ m, m < 64 → (t.canObj c.val m).req = none ∧ (t.canObj c.val m).shadow = none) ∧
      Leaves [.pending, .mem, .safe, .keys, .cfgMem, .clk] s t) ∧
  (∀ (c : Fin 4) (s : State), ((s.canCh c.val).tec ≤ 255 ∨ s.canSends c.val = false) → exec (.canBusOff c) s = .next s) ∧
  (∀ (c : Fin 4) (s : State), c.val < s.can.length → s.get (F.CAN_STAT_STATE c.val) = 5 →
    ∃ t, exec (.canRecovered c) s = .next t ∧ (t.get (F.CAN_STAT_STATE c.val) = 1) ∧ ((t.canCh c.val).tec = 0 ∧ t.canRecCtr c.val = 0 ∧ t.get (F.CAN_STAT_TEC c.val) = 0) ∧
      Leaves [.pending, .mem, .safe, .keys, .cfgMem, .clk, .baton, .out] s t) ∧
  (∀ (c : Fin 4) (s : State), s.get (F.CAN_STAT_STATE c.val) ≠ 5 → exec (.canRecovered c) s = .next s) ∧
  (∀ (c : Fin 4) (s : State), c.val < s.can.length → s.blkOn 9 = true → (s.canCh c.val).mode ≠ s.get (F.CAN_CTL_MODE c.val) → (s.canCh c.val).wire = none →
    ∃ t, exec (.canModeChange c) s = .next t ∧ ((t.canCh c.val).mode = s.get (F.CAN_CTL_MODE c.val)) ∧ (t.get (F.CAN_STAT_STATE c.val) = (if s.get (F.CAN_CTL_MODE c.val) = 0 then 0 else if s.get (F.CAN_CTL_MODE c.val) = 2 then 4
      else if 255 < (s.canCh c.val).tec then (if s.get (F.CAN_CTL_AUTO_REC c.val) = 1 then 5 else 3)
      else if 127 < (s.canCh c.val).tec ∨ 127 < s.canRecCtr c.val then 2 else 1)) ∧ (∀ i ∈ t.baton.items, i.wait = .canMode → i.a ≠ c.val) ∧
      Leaves [.pending, .mem, .safe, .keys, .clk] s t) ∧
  (∀ (c : Fin 4) (s : State), (s.blkOn 9 = false ∨ (s.canCh c.val).mode = s.get (F.CAN_CTL_MODE c.val) ∨ (s.canCh c.val).wire.isSome = true) → exec (.canModeChange c) s = .next s) ∧
  (∀ (c : Fin 4) (lec : Fin 8) (s : State), s.blkOn 9 = true → (s.canCh c.val).mode = 1 → s.get (F.CAN_STAT_STATE c.val) ∈ [1, 2] → lec ≠ 0 → (lec ≠ 7 ∨ s.get (F.CAN_CTL_PXE c.val) = 0) →
    ∃ t, exec (.canBusError c lec) s = .next t ∧ (t.canRecCtr c.val = min 255 (s.canRecCtr c.val + 1)) ∧ (t.get (F.CAN_STAT_LEC c.val) = (if lec.val = 7 ∧ s.get (F.CAN_CTL_PXE c.val) = 0 then 2 else lec.val)) ∧ (t.get (F.CAN_STAT_STATE c.val) = (if 127 < (s.canCh c.val).tec ∨ 127 < t.canRecCtr c.val then 2 else 1)) ∧
      Leaves [.pending, .mem, .safe, .keys, .cfgMem, .clk, .baton, .out, .can] s t) ∧
  (∀ (c : Fin 4) (lec : Fin 8) (s : State), s.blkOn 9 = true → (s.canCh c.val).mode ≠ 0 → lec ≠ 0 → ((s.canCh c.val).mode = 2 ∨ s.get (F.CAN_STAT_STATE c.val) ∈ [3, 5] ∨ lec = 7 ∧ s.get (F.CAN_CTL_PXE c.val) = 1) →
    ∃ t, exec (.canBusError c lec) s = .next t ∧ (t.get (F.CAN_STAT_LEC c.val) = (if lec.val = 7 ∧ s.get (F.CAN_CTL_PXE c.val) = 0 then 2 else lec.val)) ∧ (t.canRecCtr c.val = s.canRecCtr c.val) ∧
      ChangesOnly [] (regsAt [Reg.CAN_STAT c.val]) s t) ∧
  (∀ (c : Fin 4) (lec : Fin 8) (s : State), (s.blkOn 9 = false ∨ (s.canCh c.val).mode = 0 ∨ lec = 0) → exec (.canBusError c lec) s = .next s) ∧
  (∀ (c : Fin 4) (m : Nat) (s : State), c.val < s.can.length → s.blkOn 9 = true → s.get (F.CAN_TXCTL_DLEN c.val) ≤ 64 → s.get (F.CAN_TXCTL_OBJ c.val) = m → m < (s.canCh c.val).objs.length → s.canObjOn c.val m 2 = true → s.canFormatOk c.val m = true → s.canSends c.val = true → s.canTargetLost c.val m = false → s.mode ≠ modeHoldup → (s.canCh c.val).onWire m = false → s.canIsTt c.val m = false → (∀ p ∈ (s.canCh c.val).fifo, p.1 ≠ m) → (s.canCh c.val).fifo.length < 32 →
    ∃ t, exec (.canTxctlGo c) s = .next t ∧ ((t.canCh c.val).fifo = (s.canCh c.val).fifo ++ [(m, 0)]) ∧ ((t.canObj c.val m).hasData = true ∧ (t.canObj c.val m).req = some .plain) ∧ (t.get (F.CAN_OST_PEND c.val m) = 1) ∧
      ChangesOnly [.can] (regsOf 9) s t) ∧
  (∀ (c : Fin 4) (m : Nat) (s : State), c.val < s.can.length → s.blkOn 9 = true → s.get (F.CAN_TXCTL_DLEN c.val) ≤ 64 → s.get (F.CAN_TXCTL_OBJ c.val) = m → m < (s.canCh c.val).objs.length → s.canObjOn c.val m 2 = true → s.canFormatOk c.val m = true → s.canSends c.val = true → s.canTargetLost c.val m = false → s.mode ≠ modeHoldup → (s.canCh c.val).onWire m = true →
    ∃ t, exec (.canTxctlGo c) s = .next t ∧ ((t.canObj c.val m).shadow = some (((((List.range 16).map fun w => natBE 4 (s.rd (Reg.CAN_TXD c.val w))).flatten).take (s.get (F.CAN_TXCTL_DLEN c.val))), .plain)) ∧ ((t.canObj c.val m).prim = (s.canObj c.val m).prim) ∧ (t.get (F.CAN_OST_TXNEW c.val m) = 1) ∧
      Leaves [.pending, .mem, .safe, .keys, .cfgMem, .clk] s t) ∧
  (∀ (c : Fin 4) (m : Nat) (s : State), c.val < s.can.length → s.blkOn 9 = true → s.get (F.CAN_TXCTL_DLEN c.val) ≤ 64 → s.get (F.CAN_TXCTL_OBJ c.val) = m → (s.canObjOn c.val m 2 = false ∨ s.canFormatOk c.val m = false ∨ s.canSends c.val = false ∨ s.canTargetLost c.val m = true ∨ s.mode = modeHoldup) →
    ∃ t, exec (.canTxctlGo c) s = .next t ∧ ((t.canCh c.val).fifo = (s.canCh c.val).fifo ∧ (t.canCh c.val).objs = (s.canCh c.val).objs) ∧
      Leaves [.pending, .mem, .safe, .keys, .cfgMem, .clk, .baton, .out] s t) ∧
  (∀ (c : Fin 4) (s : State), (s.blkOn 9 = false ∨ 64 < s.get (F.CAN_TXCTL_DLEN c.val)) → exec (.canTxctlGo c) s = .next s) ∧
  (∀ (c : Fin 4) (m : Nat) (s : State), c.val < s.can.length → s.blkOn 9 = true → s.get (F.CAN_TXCTL_OBJ c.val) = m → m < (s.canCh c.val).objs.length → s.canObjOn c.val m 2 = true → (s.canCh c.val).onWire m = false →
    ∃ t, exec (.canTxctlCancel c) s = .next t ∧ (∀ p ∈ (t.canCh c.val).fifo, p.1 ≠ m) ∧ ((t.canObj c.val m).req = none ∧ (t.canObj c.val m).shadow = none ∧ (t.canObj c.val m).hasData = false) ∧
      Leaves [.pending, .mem, .safe, .keys, .cfgMem, .clk] s t) ∧
  (∀ (c : Fin 4) (m : Nat) (s : State), c.val < s.can.length → s.blkOn 9 = true → s.get (F.CAN_TXCTL_OBJ c.val) = m → m < (s.canCh c.val).objs.length → s.canObjOn c.val m 2 = true → (s.canCh c.val).onWire m = true →
    ∃ t, exec (.canTxctlCancel c) s = .next t ∧ ((t.canObj c.val m).cancel = true ∧ (t.canObj c.val m).shadow = none) ∧ ((t.canCh c.val).wire = (s.canCh c.val).wire ∧ (t.canCh c.val).fifo = (s.canCh c.val).fifo) ∧
      Leaves [.pending, .mem, .safe, .keys, .cfgMem, .clk] s t) ∧
  (∀ (c : Fin 4) (s : State), (s.blkOn 9 = false ∨ s.canObjOn c.val (s.get (F.CAN_TXCTL_OBJ c.val)) 2 = false) → exec (.canTxctlCancel c) s = .next s) ∧
  (∀ (c : Fin 4) (s : State), s.blkOn 9 = true → s.get (F.CAN_STAT_STATE c.val) = 3 →
    ∃ t, exec (.canTxctlRecover c) s = .next t ∧ (t.get (F.CAN_STAT_STATE c.val) = 5) ∧
      ChangesOnly [.estate] (regsOf 9) s t) ∧
  (∀ (c : Fin 4) (s : State), (s.blkOn 9 = false ∨ s.get (F.CAN_STAT_STATE c.val) ≠ 3) → exec (.canTxctlRecover c) s = .next s)

/-- Admitted: CAN_CFG, CAN_OBJ_CFG and CAN_TT_CFG write the images given, clear the counters or the object's buffer, and show TMAX;
CAN_MODE puts the mode asked for and is PENDING until it takes effect; CAN_SEND queues the object and is PENDING, revocable, or FAILED
for a lost target or a format that the channel does not allow; CAN_CANCEL_OBJ ends what the object has waiting; CAN_RECOVER leaves bus-
off; CAN_BIND and CAN_STATION enter the binding and the station; CAN_STATUS and CAN_READ answer registers and buffers. (R391, R393,
R399, R400, R405, R410, R412) -/
def Obligations.CanOpcodes : Prop :=
  (∀ r s q, admitted? (.canCfg r) s = some q →
    ∃ t, exec (.canCfg r) s = .next t ∧ Answered t q 0x0901 .ok 0 ([]) ∧
      t.rd (Reg.CAN_CTL (tn q.tlvs 0x0901)) = beAt (tv q.tlvs 0x0902) 0 4 / 4 * 4 ∧ t.rd (Reg.CAN_NBT (tn q.tlvs 0x0901)) = beAt (tv q.tlvs 0x0902) 4 4 ∧
      t.rd (Reg.CAN_DBT (tn q.tlvs 0x0901)) = beAt (tv q.tlvs 0x0902) 8 4 ∧ t.rd (Reg.CAN_TT (tn q.tlvs 0x0901)) = beAt (tv q.tlvs 0x0902) 12 4 ∧ t.rd (Reg.CAN_CNT1 (tn q.tlvs 0x0901)) = 0 ∧ t.rd (Reg.CAN_CNT2 (tn q.tlvs 0x0901)) = 0 ∧
      t.rd (Reg.CAN_TMAX (tn q.tlvs 0x0901)) = canTmaxNs (beAt (tv q.tlvs 0x0902) 0 4 / 4 * 4) (beAt (tv q.tlvs 0x0902) 4 4) (beAt (tv q.tlvs 0x0902) 8 4) ∧
      ChangesOnly (.cfgMem :: batonParts) (regsOr (answerWords q) (regsOf 9)) s t) ∧
  (∀ r s q v, admitted? (.canObjCfg r) s = some q → tvs q.tlvs 0x0903 = [v] →
    ∃ t, exec (.canObjCfg r) s = .next t ∧ Answered t q 0x0902 .ok 0 ([]) ∧
      t.rd (Reg.CAN_OCFG (tn q.tlvs 0x0901) (beAt v 0 1)) = beAt v 1 4 ∧ t.rd (Reg.CAN_OID (tn q.tlvs 0x0901) (beAt v 0 1)) = beAt v 5 4 ∧
      t.rd (Reg.CAN_OTIM (tn q.tlvs 0x0901) (beAt v 0 1)) = beAt v 9 4 ∧ t.canObj (tn q.tlvs 0x0901) (beAt v 0 1) = CanObj.zero ∧ t.rd (Reg.CAN_OST (tn q.tlvs 0x0901) (beAt v 0 1)) = 0 ∧
      ChangesOnly (.can :: .cfgMem :: batonParts) (regsOr (answerWords q) (regsOf 9)) s t) ∧
  (∀ r s q v, admitted? (.canTtCfg r) s = some q → tvs q.tlvs 0x0904 = [v] →
    ∃ t, exec (.canTtCfg r) s = .next t ∧ Answered t q 0x0903 .ok 0 ([]) ∧
      t.rd (Reg.CAN_TTCOL (tn q.tlvs 0x0901) (beAt v 0 1)) = beAt v 1 4 ∧
      ChangesOnly (.cfgMem :: batonParts) (regsOr (answerWords q) (regsOf 9)) s t) ∧
  (∀ r s q, admitted? (.canMode r) s = some q → (s.canCh (tn q.tlvs 0x0901)).mode ≠ tn q.tlvs 0x0905 →
    ∃ t, exec (.canMode r) s = .next t ∧ Answered t q 0x0904 .pending 0 [] ∧ t.baton.items = s.baton.items ++ [opCanMode.item q .canMode ((tn q.tlvs 0x0901)) (tn q.tlvs 0x0905) true] ∧
      t.get (F.CAN_CTL_MODE (tn q.tlvs 0x0901)) = tn q.tlvs 0x0905 ∧
      ChangesOnly (batonParts) (regsOr (answerWords q) (regsAt [Reg.CAN_CTL (tn q.tlvs 0x0901)])) s t) ∧
  (∀ r s q, admitted? (.canMode r) s = some q → (s.canCh (tn q.tlvs 0x0901)).mode = tn q.tlvs 0x0905 →
    ∃ t, exec (.canMode r) s = .next t ∧ Answered t q 0x0904 .ok 0 ([]) ∧
      t.get (F.CAN_CTL_MODE (tn q.tlvs 0x0901)) = tn q.tlvs 0x0905 ∧ (t.cfg (Reg.CAN_CTL (tn q.tlvs 0x0901))) % 4 = tn q.tlvs 0x0905 ∧
      Leaves [.pending, .mem, .safe, .keys, .clk, .can] s t) ∧
  (∀ r s q, admitted? (.canSend r) s = some q → s.canTargetLost (tn q.tlvs 0x0901) (tn q.tlvs 0x0906) = false → s.canFormatOk (tn q.tlvs 0x0901) (tn q.tlvs 0x0906) = true → s.mode ≠ modeHoldup → (s.canCh (tn q.tlvs 0x0901)).onWire (tn q.tlvs 0x0906) = false → s.canIsTt (tn q.tlvs 0x0901) (tn q.tlvs 0x0906) = false → (∀ p ∈ (s.canCh (tn q.tlvs 0x0901)).fifo, p.1 ≠ (tn q.tlvs 0x0906)) → (s.canCh (tn q.tlvs 0x0901)).fifo.length < 32 → (tn q.tlvs 0x0901) < s.can.length →
    ∃ t, exec (.canSend r) s = .next t ∧ Answered t q 0x0905 .pending 0 [] ∧ t.baton.items = s.baton.items ++ [opCanSend.item q .canSend ((tn q.tlvs 0x0901)) ((tn q.tlvs 0x0906)) false] ∧
      (t.canCh (tn q.tlvs 0x0901)).fifo = (s.canCh (tn q.tlvs 0x0901)).fifo ++ [((tn q.tlvs 0x0906), 0)] ∧
      ChangesOnly (.can :: batonParts) (regsOr (answerWords q) (regsOf 9)) s t) ∧
  (∀ r s q, admitted? (.canSend r) s = some q → (s.canTargetLost (tn q.tlvs 0x0901) (tn q.tlvs 0x0906) = true ∨ s.canFormatOk (tn q.tlvs 0x0901) (tn q.tlvs 0x0906) = false) →
    ∃ t, exec (.canSend r) s = .next t ∧ Answered t q 0x0905 .failed 0 ([]) ∧
      (t.canCh (tn q.tlvs 0x0901)).fifo = (s.canCh (tn q.tlvs 0x0901)).fifo ∧ (t.canCh (tn q.tlvs 0x0901)).objs = (s.canCh (tn q.tlvs 0x0901)).objs ∧
      Leaves [.pending, .mem, .safe, .keys, .cfgMem, .clk] s t) ∧
  (∀ r s q, admitted? (.canCancelObj r) s = some q → s.canObjOn (tn q.tlvs 0x0901) (tn q.tlvs 0x0906) 2 = true → (s.canCh (tn q.tlvs 0x0901)).onWire (tn q.tlvs 0x0906) = false → (tn q.tlvs 0x0901) < s.can.length →
    ∃ t, exec (.canCancelObj r) s = .next t ∧ Answered t q 0x0906 .ok 0 ([]) ∧
      (∀ p ∈ (t.canCh (tn q.tlvs 0x0901)).fifo, p.1 ≠ (tn q.tlvs 0x0906)) ∧ (t.canObj (tn q.tlvs 0x0901) (tn q.tlvs 0x0906)).shadow = none ∧ (t.canObj (tn q.tlvs 0x0901) (tn q.tlvs 0x0906)).req = none ∧
      Leaves [.pending, .mem, .safe, .keys, .cfgMem, .clk] s t) ∧
  (∀ r s q, admitted? (.canCancelObj r) s = some q → s.canObjOn (tn q.tlvs 0x0901) (tn q.tlvs 0x0906) 2 = false →
    ∃ t, exec (.canCancelObj r) s = .next t ∧ Answered t q 0x0906 .ok 0 ([]) ∧
      ChangesOnly (batonParts) (answerWords q) s t) ∧
  (∀ r s q, admitted? (.canRecover r) s = some q → s.get (F.CAN_STAT_STATE (tn q.tlvs 0x0901)) = 3 →
    ∃ t, exec (.canRecover r) s = .next t ∧ Answered t q 0x0907 .ok 0 ([]) ∧
      t.get (F.CAN_STAT_STATE (tn q.tlvs 0x0901)) = 5 ∧
      ChangesOnly (.estate :: batonParts) (regsOr (answerWords q) (regsOf 9)) s t) ∧
  (∀ r s q, admitted? (.canRecover r) s = some q → s.get (F.CAN_STAT_STATE (tn q.tlvs 0x0901)) ≠ 3 →
    ∃ t, exec (.canRecover r) s = .next t ∧ Answered t q 0x0907 .ok 0 ([]) ∧
      ChangesOnly (batonParts) (answerWords q) s t) ∧
  (∀ r s q, admitted? (.canBind r) s = some q → (tn q.tlvs 0x0901) < s.can.length →
    ∃ t, exec (.canBind r) s = .next t ∧ Answered t q 0x0908 .ok 0 ([]) ∧
      (t.canCh (tn q.tlvs 0x0901)).sigs = ((s.canCh (tn q.tlvs 0x0901)).sigs.filter fun g => !(((tvs q.tlvs 0x0908).map sigOfBytes).any (sigSame g))) ++ (tvs q.tlvs 0x0908).map sigOfBytes ∧
      ChangesOnly (.can :: batonParts) (answerWords q) s t) ∧
  (∀ r s q, admitted? (.canStation r) s = some q → (tn q.tlvs 0x0901) < s.can.length →
    ∃ t, exec (.canStation r) s = .next t ∧ Answered t q 0x0909 .ok 0 ([]) ∧
      ((t.canCh (tn q.tlvs 0x0901)).stations.find? fun x => x.no == tn q.tlvs 0x0909).map (fun x => (x.mon, x.obj)) = some ((tn q.tlvs 0x0906), addrObj (tAddr q.tlvs)) ∧
      ChangesOnly (.can :: .estate :: batonParts) (answerWords q) s t) ∧
  (∀ r s q, admitted? (.canStatus r) s = some q →
    ∃ t, exec (.canStatus r) s = .next t ∧ Answered t q 0x090A .ok 0 (tlv 0x090A (([Reg.CAN_CTL (tn q.tlvs 0x0901), Reg.CAN_STAT (tn q.tlvs 0x0901), Reg.CAN_FIFO (tn q.tlvs 0x0901), Reg.CAN_CNT1 (tn q.tlvs 0x0901), Reg.CAN_CNT2 (tn q.tlvs 0x0901), Reg.CAN_TMAX (tn q.tlvs 0x0901)].map
      fun o => natBE 4 (s.rd o)).flatten)) ∧
      ChangesOnly (batonParts) (answerWords q) s t) ∧
  (∀ r s q, admitted? (.canRead r) s = some q →
    ∃ t, exec (.canRead r) s = .next t ∧ Answered t q 0x090B .ok 0 (tlv 0x090B (((s.canSnap (tn q.tlvs 0x0901) (tn q.tlvs 0x0906)).map (natBE 4)).flatten)) ∧
      ChangesOnly (batonParts) (answerWords q) s t)

/-- A link comes up at the highest common rate, and what waited goes out; half duplex or no common rate leaves it down. The filter counts
each frame as received, filtered or errored. LLDP takes the PSE's allocation and the partner's Stride TLV, and is sent every 30 s. LPI
is entered once the egress queues have been empty for 100 µs, and only when everything R424 names allows it. A Stride request, its
answer, the marks and the lock move the port through STRIDE to the new rate; a request outside the range, between a MARK and the lock
or while Stride is barred is answered with NAK; a NAK or silence leaves the rate; a failed change drops the link and bars Stride for 60
s, and its frames of classes 1 to 3 are dropped after 1 s. A high-word write commits a filter entry from entry 2 on. The ETH
configuration opcodes are held 10 ms, and CONFIG_APPLY puts the oldest into effect. (R121, R416, R419, R420, R424, R425, R427, R428,
R445) -/
def Obligations.EthernetAndStride : Prop :=
  (∀ (p : Fin 4) (rates eee : BitVec 4) (k : Nat) (s : State), p.val < s.eth.length → s.ethOn = true → s.get (F.ETH_PCFG_EN p.val) ≠ 0 → ((s.portRates p.val).filter fun r => bit1 rates.toNat r == 1).getLast? = some k →
    ∃ t, exec (.ethLink p true rates false eee) s = .next t ∧ (t.get (F.ETH_PSTAT_LINK p.val) = 1) ∧ (t.get (F.ETH_PSTAT_RATE p.val) = k) ∧ ((t.port p.val).partner = rates.toNat ∧ (t.port p.val).eee = eee.toNat ∧ (t.port p.val).failAt = none ∧ (t.port p.val).egress = []) ∧
      ChangesOnly [.eth, .ethTx, .out, .limiters, .evr] (regsOr evWords (regsAt [Reg.ETH_PSTAT p.val, Reg.LEDGER_EFF, 0x500004])) s t) ∧
  (∀ (p : Fin 4) (up : Bool) (rates eee : BitVec 4) (half : Bool) (s : State), s.ethOn = true → (up = false ∧ s.get (F.ETH_PSTAT_LINK p.val) = 1 ∨ up = true ∧ s.get (F.ETH_PCFG_EN p.val) ≠ 0 ∧ (half = true ∨ ((s.portRates p.val).filter fun r => bit1 rates.toNat r == 1) = [])) →
    ∃ t, exec (.ethLink p up rates half eee) s = .next t ∧ (t.get (F.ETH_PSTAT_LINK p.val) = 0) ∧ (t.get (F.ETH_PSTAT_RATE p.val) = s.get (F.ETH_PSTAT_RATE p.val)) ∧
      ChangesOnly [.eth, .limiters, .evr] (regsOr evWords (regsAt [Reg.ETH_PSTAT p.val, Reg.LEDGER_EFF, 0x500004])) s t) ∧
  (∀ (p : Fin 4) (up : Bool) (rates eee : BitVec 4) (half : Bool) (s : State), (s.ethOn = false ∨ up = false ∧ s.get (F.ETH_PSTAT_LINK p.val) ≠ 1 ∨ up = true ∧ s.get (F.ETH_PCFG_EN p.val) = 0) → exec (.ethLink p up rates half eee) s = .next s) ∧
  (∀ (p : Fin 4) (f : EthFrame) (s : State), p.val < s.eth.length → s.ethOn = true → s.get (F.ETH_PCFG_EN p.val) ≠ 0 → f.pause = false →
    ∃ t, exec (.ethFrameReceived p f) s = .next t ∧ ((f.bad = true ∨ (if f.vlan then 1522 else 1518) < f.len.toNat) → t.port p.val = { s.port p.val with rxErr := ((s.port p.val).rxErr + 1) % 2 ^ 32 }) ∧ (f.bad = false → f.len.toNat ≤ (if f.vlan then 1522 else 1518) →
        t.port p.val = (if (s.port p.val).flt.any (fun e => e.2 && e.1 == f.dst.toNat) = true ∨ f.dst.toNat = bcastMac ∧ s.get (F.ETH_PCFG_BCAST p.val) = 1 ∨
            f.dst.toNat = lldpMac ∧ (s.get (F.ETH_PCFG_LLDP_EN p.val) = 1 ∨ s.get (F.ETH_PCFG_PTP_EN p.val) = 1) then
          { s.port p.val with rxf := ((s.port p.val).rxf + 1) % 2 ^ 64, c0recl := if f.c0 then ((s.port p.val).c0recl + 1) % 2 ^ 32 else (s.port p.val).c0recl }
        else { s.port p.val with rxFilt := ((s.port p.val).rxFilt + 1) % 2 ^ 32 })) ∧
      ChangesOnly [.eth] noReg s t) ∧
  (∀ (p : Fin 4) (f : EthFrame) (s : State), (s.ethOn = false ∨ s.get (F.ETH_PCFG_EN p.val) = 0 ∨ f.pause = true) → exec (.ethFrameReceived p f) s = .next s) ∧
  (∀ (p : Fin 4) (alloc : Option Byte) (stride : Option (BitVec 4)) (s : State), p.val < s.eth.length → s.ethOn = true → s.get (F.ETH_PCFG_LLDP_EN p.val) ≠ 0 → s.get (F.ETH_PSTAT_LINK p.val) ≠ 0 →
    ∃ t, exec (.lldpReceived p alloc stride) s = .next t ∧ (∀ a, alloc = some a → p = 0 → t.get F.LEDGER_SRC_PSE_ALLOC = a.toNat ∧ t.ledger.lldp = true) ∧ (∀ k, stride = some k → p.val < 2 → (t.port p.val).tlv = some k.toNat ∧ (t.port p.val).tlvAt = s.clk ∧ ((s.port p.val).tlvSent = true → t.get (F.ETH_PSTAT_LYSRIX p.val) = 1)) ∧
      ChangesOnly [.eth, .ledger] (regsAt [Reg.LEDGER_SRC, Reg.ETH_PSTAT p.val, 0x500004]) s t) ∧
  (∀ (p : Fin 4) (alloc : Option Byte) (stride : Option (BitVec 4)) (s : State), (s.ethOn = false ∨ s.get (F.ETH_PCFG_LLDP_EN p.val) = 0 ∨ s.get (F.ETH_PSTAT_LINK p.val) = 0) → exec (.lldpReceived p alloc stride) s = .next s) ∧
  (∀  (s : State), s.ethOn = true → s.eth.length = 4 →
    ∃ t, exec .lldpSend s = .next t ∧ (t.clk = (s.clk / (30 * sec) + 1) * (30 * sec)) ∧ (∀ n, n < 4 → (t.port n).txf = (if s.get (F.ETH_PCFG_LLDP_EN n) = 0 ∨ s.get (F.ETH_PSTAT_LINK n) = 0 ∨ s.portHeld n = true then (s.port n).txf else ((s.port n).txf + 1) % 2 ^ 64)) ∧
      ChangesOnly [.clk, .eth, .ethTx, .out] (regsAt [Reg.ETH_PSTAT 0, Reg.ETH_PSTAT 1, Reg.ETH_PSTAT 2, Reg.ETH_PSTAT 3, 0x500004]) s t) ∧
  (∀  (s : State), s.ethOn = false → exec .lldpSend s = .next s) ∧
  (∀ (p : Fin 4) (s : State), p.val < s.eth.length → s.get (F.ETH_PSTAT_LYSRIX p.val) ≠ 0 →
    ∃ t, exec (.lysrixTimeout p) s = .next t ∧ (t.get (F.ETH_PSTAT_LYSRIX p.val) = 0) ∧ ((t.port p.val).tlv = none) ∧ (t.clk = max s.clk ((s.port p.val).tlvAt + 120 * sec)) ∧
      ChangesOnly [.clk, .eth] (regsAt [Reg.ETH_PSTAT p.val, 0x500004]) s t) ∧
  (∀ (p : Fin 4) (s : State), s.get (F.ETH_PSTAT_LYSRIX p.val) = 0 → exec (.lysrixTimeout p) s = .next s) ∧
  (∀ (p : Fin 4) (s : State), p.val < 2 → s.ethOn = true → s.get (F.ETH_PSTAT_LINK p.val) = 1 → s.get F.LEDGER_PORT_LIM_LPI_EN = 1 → s.mode ≠ modeSprint → bit1 (s.port p.val).eee (s.get (F.ETH_PSTAT_RATE p.val)) = 1 → (s.port p.val).egress = [] → (s.port p.val).target = none → s.get (F.ETH_PSTAT_C0LOCK p.val) = 0 →
    ∃ t, exec (.lpiEntry p) s = .next t ∧ (t.get (F.ETH_PSTAT_LPI p.val) = 1) ∧ (t.clk = max s.clk ((s.port p.val).idleAt + 100 * usec)) ∧
      ChangesOnly [.clk] (regsAt [Reg.ETH_PSTAT p.val]) s t) ∧
  (∀ (p : Fin 4) (s : State), (2 ≤ p.val ∨ s.ethOn = false ∨ s.get (F.ETH_PSTAT_LINK p.val) ≠ 1 ∨ s.get F.LEDGER_PORT_LIM_LPI_EN ≠ 1 ∨ s.mode = modeSprint ∨
      bit1 (s.port p.val).eee (s.get (F.ETH_PSTAT_RATE p.val)) ≠ 1 ∨ (s.port p.val).egress ≠ [] ∨ (s.port p.val).target.isSome = true ∨ s.get (F.ETH_PSTAT_C0LOCK p.val) ≠ 0) → exec (.lpiEntry p) s = .next s) ∧
  (∀ (p : Fin 4) (load : W32) (deep led : Bool) (k : Nat) (s : State), p.val < s.eth.length → p.val < 2 → s.ethOn = true → s.get (F.ETH_PCFG_STRIDE_EN p.val) ≠ 0 → s.get (F.ETH_PSTAT_LYSRIX p.val) ≠ 0 → s.get (F.ETH_PSTAT_LINK p.val) ≠ 0 → (s.get (F.ETH_PSTAT_STRIDE p.val) = 0 ∨ s.get (F.ETH_PSTAT_STRIDE p.val) = 3) → (s.port p.val).barTill ≤ s.clk → s.strideWant p.val load.toNat deep = some (k, led) →
    ∃ t, exec (.strideTrigger p load deep) s = .next t ∧ (t.get (F.ETH_PSTAT_STRIDE p.val) = 1) ∧ (t.out = .eth p.val 0x88B5 (strideFrame 1 k (((s.port p.val).seq + 1) % 256)) :: s.out) ∧ ((t.port p.val).req = some (k, ((s.port p.val).seq + 1) % 256) ∧ (t.port p.val).reqAt = s.clk) ∧
      ChangesOnly [.eth, .ethTx, .out] (regsAt [Reg.ETH_PSTAT p.val]) s t) ∧
  (∀ (p : Fin 4) (load : W32) (deep : Bool) (s : State), s.get (F.ETH_PSTAT_STRIDE p.val) ≠ 3 → (2 ≤ p.val ∨ s.ethOn = false ∨ s.get (F.ETH_PCFG_STRIDE_EN p.val) = 0 ∨ s.get (F.ETH_PSTAT_LYSRIX p.val) = 0 ∨ s.get (F.ETH_PSTAT_LINK p.val) = 0 ∨
      s.get (F.ETH_PSTAT_STRIDE p.val) ≠ 0 ∨ s.clk < (s.port p.val).barTill ∨ s.strideWant p.val load.toNat deep = none) → exec (.strideTrigger p load deep) s = .next s) ∧
  (∀ (p : Fin 4) (k : BitVec 2) (n : Byte) (lower : Bool) (s : State), p.val < s.eth.length → p.val < 2 → s.ethOn = true → s.get (F.ETH_PCFG_STRIDE_EN p.val) ≠ 0 → s.get (F.ETH_PSTAT_LYSRIX p.val) ≠ 0 → s.get (F.ETH_PSTAT_LINK p.val) ≠ 0 → (s.get (F.ETH_PSTAT_STRIDE p.val) = 3 → (s.port p.val).barTill ≤ s.clk) → (s.port p.val).target = none → ((s.port p.val).req = none ∨ lower = true) →
    ∃ t, exec (.strideReq p k n lower) s = .next t ∧ (if (s.portRates p.val).contains k.toNat = true then t.get (F.ETH_PSTAT_STRIDE p.val) = 2 ∧ (t.port p.val).target = some k.toNat ∧
        t.out = .eth p.val 0x88B5 (strideFrame 4 k.toNat 0) :: .eth p.val 0x88B5 (strideFrame 2 k.toNat n.toNat) :: s.out
      else t.get (F.ETH_PSTAT_STRIDE p.val) = 0 ∧ (t.port p.val).target = none ∧ (t.port p.val).req = none ∧ t.out = .eth p.val 0x88B5 (strideFrame 3 k.toNat n.toNat) :: s.out) ∧
      ChangesOnly [.eth, .ethTx, .out] (regsAt [Reg.ETH_PSTAT p.val]) s t) ∧
  (∀ (p : Fin 4) (k : BitVec 2) (n : Byte) (lower : Bool) (s : State), p.val < s.eth.length → p.val < 2 → s.ethOn = true → s.get (F.ETH_PCFG_STRIDE_EN p.val) ≠ 0 → s.get (F.ETH_PSTAT_LYSRIX p.val) ≠ 0 → s.get (F.ETH_PSTAT_LINK p.val) ≠ 0 → ((s.port p.val).target.isSome = true ∨ s.get (F.ETH_PSTAT_STRIDE p.val) = 3 ∧ s.clk < (s.port p.val).barTill) →
    ∃ t, exec (.strideReq p k n lower) s = .next t ∧ (t.out = .eth p.val 0x88B5 (strideFrame 3 k.toNat n.toNat) :: s.out) ∧ ((t.port p.val).target = (s.port p.val).target ∧ (t.port p.val).req = (s.port p.val).req ∧ (t.port p.val).barTill = (s.port p.val).barTill) ∧
      ChangesOnly [.eth, .ethTx, .out] (regsAt [Reg.ETH_PSTAT p.val]) s t) ∧
  (∀ (p : Fin 4) (k : BitVec 2) (n : Byte) (lower : Bool) (s : State), s.get (F.ETH_PSTAT_STRIDE p.val) ≠ 3 → (2 ≤ p.val ∨ s.ethOn = false ∨ s.get (F.ETH_PCFG_STRIDE_EN p.val) = 0 ∨ s.get (F.ETH_PSTAT_LYSRIX p.val) = 0 ∨ s.get (F.ETH_PSTAT_LINK p.val) = 0 ∨
      (s.port p.val).target = none ∧ (s.port p.val).req.isSome = true ∧ lower = false) → exec (.strideReq p k n lower) s = .next s) ∧
  (∀ (p : Fin 4) (n : Byte) (k : Nat) (s : State), p.val < s.eth.length → (s.port p.val).req = some (k, n.toNat) →
    ∃ t, exec (.strideAck p n) s = .next t ∧ (t.get (F.ETH_PSTAT_STRIDE p.val) = 2) ∧ ((t.port p.val).target = some k ∧ (t.port p.val).req = none ∧ (t.port p.val).markTx = true) ∧ (t.out = .eth p.val 0x88B5 (strideFrame 4 k 0) :: s.out) ∧
      ChangesOnly [.eth, .ethTx, .out] (regsAt [Reg.ETH_PSTAT p.val]) s t) ∧
  (∀ (p : Fin 4) (n : Byte) (s : State), (∀ k, (s.port p.val).req ≠ some (k, n.toNat)) → exec (.strideAck p n) s = .next s) ∧
  (∀ (p : Fin 4) (n : Byte) (k : Nat) (s : State), p.val < s.eth.length → (s.port p.val).req = some (k, n.toNat) →
    ∃ t, exec (.strideNak p n) s = .next t ∧ (t.get (F.ETH_PSTAT_STRIDE p.val) = 0) ∧ (t.port p.val = { s.port p.val with req := none }) ∧
      ChangesOnly [.eth] (regsAt [Reg.ETH_PSTAT p.val]) s t) ∧
  (∀ (p : Fin 4) (n : Byte) (s : State), (∀ k, (s.port p.val).req ≠ some (k, n.toNat)) → exec (.strideNak p n) s = .next s) ∧
  (∀ (p : Fin 4) (s : State), p.val < s.eth.length → (s.port p.val).target.isSome = true →
    ∃ t, exec (.strideMark p) s = .next t ∧ (t.port p.val = { s.port p.val with markRx := true, markAt := s.clk }) ∧
      ChangesOnly [.eth] noReg s t) ∧
  (∀ (p : Fin 4) (s : State), (s.port p.val).target = none → exec (.strideMark p) s = .next s) ∧
  (∀ (p : Fin 4) (s : State), p.val < s.eth.length → (s.port p.val).req.isSome = true →
    ∃ t, exec (.strideAnswerTimeout p) s = .next t ∧ (t.get (F.ETH_PSTAT_STRIDE p.val) = 0) ∧ (t.clk = max s.clk ((s.port p.val).reqAt + msec)) ∧ (t.port p.val = { s.port p.val with req := none, barTill := t.clk + sec }) ∧
      ChangesOnly [.clk, .eth] (regsAt [Reg.ETH_PSTAT p.val]) s t) ∧
  (∀ (p : Fin 4) (s : State), (s.port p.val).req = none → exec (.strideAnswerTimeout p) s = .next s) ∧
  (∀ (p : Fin 4) (k : Nat) (s : State), p.val < s.eth.length → (s.port p.val).target = some k → k < 4 → (s.port p.val).markTx = true → (s.port p.val).markRx = true →
    ∃ t, exec (.strideLock p) s = .next t ∧ (t.get (F.ETH_PSTAT_RATE p.val) = k) ∧ (t.get (F.ETH_PSTAT_STRIDE p.val) = 0) ∧ ((t.port p.val).target = none ∧ (t.port p.val).strides = ((s.port p.val).strides + 1) % 2 ^ 32 ∧ (t.port p.val).servoAt = s.clk + 2 * sec ∧ (t.port p.val).egress = []) ∧
      ChangesOnly [.eth, .ethTx, .out, .limiters, .evr] (regsOr evWords (regsAt [Reg.ETH_PSTAT p.val, Reg.LEDGER_EFF, 0x500004])) s t) ∧
  (∀ (p : Fin 4) (s : State), ((s.port p.val).target = none ∨ (s.port p.val).markTx = false ∨ (s.port p.val).markRx = false) → exec (.strideLock p) s = .next s) ∧
  (∀ (p : Fin 4) (s : State), p.val < s.eth.length → (s.port p.val).target.isSome = true → (s.port p.val).markTx = true → (s.port p.val).markRx = true →
    ∃ t, exec (.ethStrideFail p) s = .next t ∧ (t.get (F.ETH_PSTAT_LINK p.val) = 0) ∧ (t.get (F.ETH_PSTAT_STRIDE p.val) = 3) ∧ (t.clk = max s.clk ((s.port p.val).markAt + 2 * msec)) ∧ ((t.port p.val).barTill = t.clk + 60 * sec ∧ (t.port p.val).failAt = some t.clk ∧ (t.port p.val).target = none) ∧
      ChangesOnly [.clk, .eth, .limiters, .evr] (regsOr evWords (regsAt [Reg.ETH_PSTAT p.val, Reg.LEDGER_EFF, 0x500004])) s t) ∧
  (∀ (p : Fin 4) (s : State), ((s.port p.val).target = none ∨ (s.port p.val).markTx = false ∨ (s.port p.val).markRx = false) → exec (.ethStrideFail p) s = .next s) ∧
  (∀ (p : Fin 4) (n : W32) (x : Nat) (s : State), p.val < s.eth.length → (s.port p.val).failAt = some x → s.get (F.ETH_PSTAT_LINK p.val) ≠ 1 →
    ∃ t, exec (.txDropTimeout p n) s = .next t ∧ (t.clk = max s.clk (x + sec)) ∧ ((t.port p.val).txDrop = ((s.port p.val).txDrop + ((s.port p.val).egress.filter fun y => y.cls != 0).length + n.toNat) % 2 ^ 32) ∧ ((t.port p.val).egress = (s.port p.val).egress.filter (fun y => y.cls == 0) ∧ (t.port p.val).failAt = none) ∧
      ChangesOnly [.clk, .eth, .ethTx] noReg s t) ∧
  (∀ (p : Fin 4) (n : W32) (s : State), ((s.port p.val).failAt = none ∨ s.get (F.ETH_PSTAT_LINK p.val) = 1) → exec (.txDropTimeout p n) s = .next s) ∧
  (∀ (p : Fin 4) (e : Fin 16) (v : W32) (s : State), p.val < s.eth.length → 2 ≤ e.val → s.ethOn = true → e.val < (s.port p.val).flt.length →
    ∃ t, exec (.ethFlthiWrite p e v) s = .next t ∧ ((t.port p.val).flt[e.val]? = some (bitsOf v.toNat 15 0 * 2 ^ 32 + s.rd (Reg.ETH_FLTLO p.val e.val), bit1 v.toNat 31 == 1)) ∧ (t.get (F.ETH_FLTHI_VALID p.val e.val) = bit1 v.toNat 31 ∧ t.get (F.ETH_FLTHI_MACHI p.val e.val) = bitsOf v.toNat 15 0) ∧
      ChangesOnly [.eth] (regsAt [Reg.ETH_FLTLO p.val e.val, Reg.ETH_FLTHI p.val e.val]) s t) ∧
  (∀ (p : Fin 4) (e : Fin 16) (v : W32) (s : State), (e.val < 2 ∨ s.ethOn = false) → exec (.ethFlthiWrite p e v) s = .next s) ∧
  (∀ r s q, admitted? (.ethPortCfg r) s = some q → (bit1 (beAt (tv q.tlvs 0x0A02) 0 4) 31 = 1 ∨ (s.session? r.sess.val).map (·.port) ≠ some (tn q.tlvs 0x0A01)) →
    ∃ t, exec (.ethPortCfg r) s = .next t ∧ Answered t q 0x0A01 .ok 0 ([]) ∧
      t.furun.pend = s.furun.pend ++ [⟨s.clk + 10 * msec, 0x0A01, q.tlvs.map fun x => (x.typ, x.val)⟩] ∧
      ChangesOnly (.furun :: batonParts) (answerWords q) s t) ∧
  (∀ r s q, admitted? (.ethFilterSet r) s = some q →
    ∃ t, exec (.ethFilterSet r) s = .next t ∧ Answered t q 0x0A02 .ok 0 ([]) ∧
      t.furun.pend = s.furun.pend ++ [⟨s.clk + 10 * msec, 0x0A02, q.tlvs.map fun x => (x.typ, x.val)⟩] ∧
      ChangesOnly (.furun :: batonParts) (answerWords q) s t) ∧
  (∀ r s q, admitted? (.ethIpCfg r) s = some q →
    ∃ t, exec (.ethIpCfg r) s = .next t ∧ Answered t q 0x0A03 .ok 0 ([]) ∧
      t.furun.pend = s.furun.pend ++ [⟨s.clk + 10 * msec, 0x0A03, q.tlvs.map fun x => (x.typ, x.val)⟩] ∧
      ChangesOnly (.furun :: batonParts) (answerWords q) s t) ∧
  (∀ r s q, admitted? (.ethNetCfg r) s = some q →
    ∃ t, exec (.ethNetCfg r) s = .next t ∧ Answered t q 0x0A04 .ok 0 ([]) ∧
      t.furun.pend = s.furun.pend ++ [⟨s.clk + 10 * msec, 0x0A04, q.tlvs.map fun x => (x.typ, x.val)⟩] ∧
      ChangesOnly (.furun :: batonParts) (answerWords q) s t) ∧
  (∀ r s q, admitted? (.ethStatus r) s = some q →
    ∃ t, exec (.ethStatus r) s = .next t ∧ Answered t q 0x0A05 .ok 0 (tlv 0x0A06 (natBE 4 ((s.strideUnbar (tn q.tlvs 0x0A01)).rd (Reg.ETH_PSTAT (tn q.tlvs 0x0A01))) ++ (((s.port (tn q.tlvs 0x0A01)).words).map fun w => natBE 4 w).flatten)) ∧
      ChangesOnly (batonParts) (answerWords q) s t) ∧
  (∀ (x : FPend) (rest : List FPend) (s : State), s.furun.pend = x :: rest →
    ∃ t, exec .configApply s = .next t ∧ (t.furun.pend = rest) ∧ (t.clk = max s.clk x.due) ∧ (x.opcode = 0x0A01 → beNat (x.val 0x0A01) < 4 → t.rd (Reg.ETH_PCFG (beNat (x.val 0x0A01))) = beAt (x.val 0x0A02) 0 4) ∧ (x.opcode = 0x0A04 → t.rd Reg.ETH_NET = beNat (x.val 0x0A05) % 2 ^ 32) ∧ (x.opcode = 0x0B01 → t.estate.addr = BitVec.ofNat 64 (beAt (x.val 0x0B01) 0 8)) ∧ (x.opcode = 0x0B06 → beNat (x.val 0x0B06) = 1 → addrObj (BitVec.ofNat 64 (beNat (x.val 0x0001))) ∈ t.furun.marks) ∧
      Leaves [.pending, .safe] s t) ∧
  (∀  (s : State), s.furun.pend = [] → exec .configApply s = .next s)

/-- A HELLO from a configured member with a common version opens its link at the highest one; without one, from another module or with
every link taken, it closes. Every HB_MS a heartbeat leaves on each link that is not refused, and one that arrives marks contact; a
first one that takes the modules above 4,096 is refused; three intervals without one end contact with a peer, and without an anchor
since start begin a vote. A piece that completes no message has no effect beyond its link. Messages not complete within 1 s of their
first piece are discarded. (R430, R431, R434, R435, R439, R45) -/
def Obligations.FurunLinksAndContact : Prop :=
  (∀ (p : FPiece) (s : State), s.keys.linkSlots.any (fun l => l.peer == p.peer) = true → p.len.toNat = p.body.length → ((s.link? p.peer).all fun l => seqOk l.seen p.seq.toNat) = true → s.isMember p.peer = true → ((s.link? p.peer).isSome = true ∨ s.furun.links.length < 256) → max 3 (beAt p.body 0 1) ≤ min 5 (beAt p.body 1 1) →
    ∃ t, exec (.furunHello p) s = .next t ∧ ((t.link? p.peer).map (fun l => (l.ver, l.hbMs)) = some (min 5 (beAt p.body 1 1), beAt p.body 2 2)) ∧ (∀ x, x ≠ p.peer → t.link? x = s.link? x) ∧
      Leaves [.pending, .mem, .safe, .keys, .cfgMem, .baton, .out, .clk, .pacer] s t) ∧
  (∀ (p : FPiece) (s : State), s.keys.linkSlots.any (fun l => l.peer == p.peer) = true → p.len.toNat = p.body.length → ((s.link? p.peer).all fun l => seqOk l.seen p.seq.toNat) = true → (s.isMember p.peer = false ∨ s.link? p.peer = none ∧ 256 ≤ s.furun.links.length ∨ min 5 (beAt p.body 1 1) < max 3 (beAt p.body 0 1)) →
    ∃ t, exec (.furunHello p) s = .next t ∧ (t.link? p.peer = none) ∧ (∀ l ∈ t.keys.linkSlots, l.peer ≠ p.peer) ∧
      Leaves [.pending, .safe, .cfgMem, .clk] s t) ∧
  (∀ (p : FPiece) (s : State), (s.keys.linkSlots.any (fun l => l.peer == p.peer) = false ∨ p.len.toNat ≠ p.body.length ∨ ((s.link? p.peer).any fun l => !(seqOk l.seen p.seq.toNat)) = true) → exec (.furunHello p) s = .next s) ∧
  (∀  (s : State),
    ∃ t, exec .heartbeatSend s = .next t ∧ (t.clk = max s.clk (s.furun.hbAt + s.hbNs)) ∧ (t.furun.hbAt = t.clk) ∧ (∀ l ∈ s.furun.links, l.refused = false → s.link? l.peer = some l → (5 ≤ l.ver ∨ 3 ≤ l.ver ∧ addrDepth s.own ≤ 3 ∧ addrDepth l.peer ≤ 3) →
        (∀ e, s.endOf l.peer = some e → e.kind ≠ 2 ∧ s.portHeld e.port = false) → ∃ b, .furun l.peer b ∈ t.out) ∧
      ChangesOnly [.clk, .furun, .out, .eth, .ethTx, .relay] (regsAt [Reg.ETH_PSTAT 0, Reg.ETH_PSTAT 1, Reg.ETH_PSTAT 2, Reg.ETH_PSTAT 3, 0x500004]) s t) ∧
  (∀ (p : FPiece) (s1 s : State), s.furunPiece 2 p = (s1, none) → exec (.heartbeat p) s = .next s1) ∧
  (∀ (p : FPiece) (m : Bytes) (s1 : State) (l : FLink) (s : State), s.furunPiece 2 p = (s1, some m) → s1.link? p.peer = some l → l.refused = false → (l.last.isSome = true ∨ s1.anchors 0 = false ∨ s1.modCount 0 + max 1 (beAt m 4 2) ≤ 4096) →
    ∃ t, exec (.heartbeat p) s = .next t ∧ ((t.link? p.peer).map (fun x => (x.contact, x.mode, x.elig, x.last)) = some (true, beAt m 0 1, beAt m 1 1, some s1.clk)) ∧
      Leaves [.pending, .safe, .cfgMem] s t) ∧
  (∀ (p : FPiece) (m : Bytes) (s1 : State) (l : FLink) (s : State), s.furunPiece 2 p = (s1, some m) → s1.link? p.peer = some l → l.last = none → s1.anchors 0 = true → 4096 < s1.modCount 0 + max 1 (beAt m 4 2) →
    ∃ t, exec (.heartbeat p) s = .next t ∧ ((t.link? p.peer).map (fun x => (x.refused, x.last)) = some (true, none)) ∧
      ChangesOnly [.furun, .limiters, .evr] evWords s1 t) ∧
  (∀ (u : W64) (l : FLink) (x : Nat) (s : State), s.link? u = some l → l.last = some x → l.contact = true →
    ∃ t, exec (.contactLost u) s = .next t ∧ (t.clk = max s.clk (x + 3 * l.hbMs * msec)) ∧ ((t.link? u).map (·.contact) = some false) ∧ (∀ k ∈ t.furun.replicas, k.holder = u → k.lost = true) ∧
      Leaves [.pending, .safe, .cfgMem] s t) ∧
  (∀ (u : W64) (x : FGroup) (s : State), s.link? u = none → s.fgroup? u = some x → x.anchor = none → x.noneAt = none → x.vote = none → s.takesPart u = true →
    ∃ t, exec (.contactLost u) s = .next t ∧ (t.clk = max s.clk (s.startClk + 3 * s.hbNs)) ∧ (∃ y, t.fgroup? u = some y ∧ ((∃ w, y.vote = some w ∧ w.tries = 1 ∧ w.since = t.clk) ∨ y.anchor = some (s.hopIn u))) ∧
      Leaves [.pending, .safe, .cfgMem] s t) ∧
  (∀ (u : W64) (s : State), ((∃ l, s.link? u = some l ∧ (l.last = none ∨ l.contact = false)) ∨ s.link? u = none ∧ (∀ x, s.fgroup? u = some x → x.anchor.isSome = true ∨ x.noneAt.isSome = true ∨ x.vote.isSome = true)) → exec (.contactLost u) s = .next s) ∧
  (∀ (u : W64) (l : FLink) (a : Nat) (as : List Nat) (s : State), s.link? u = some l → l.parts.map (·.since) = a :: as →
    ∃ t, exec (.reasmTimeout u) s = .next t ∧ (t.clk = max s.clk (as.foldl min a + sec)) ∧ ((t.link? u).map (·.parts) = some (l.parts.filter fun x => x.since + sec > t.clk)) ∧
      ChangesOnly [.clk, .furun] noReg s t) ∧
  (∀ (u : W64) (s : State), (s.link? u = none ∨ ∃ l, s.link? u = some l ∧ l.parts = []) → exec (.reasmTimeout u) s = .next s)

/-- A vote of an epoch above the group's and not below the running vote's is entered, or decides the group for this module; any other
changes nothing. An announcement or a hand-over of a higher epoch is adopted. An undecided vote is repeated and after its third attempt
leaves the group without an anchor, which votes again after the island timeout; one that this module did not begin lapses. An offer to
an eligible module is accepted; an accept over the member's link makes the offering anchor commit the next epoch, and its item passes
its point of no return; without one in time the item ends FAILED. Views that disagree for more than 3 heartbeat intervals mark a unit
SUSPECT, and agreement for 3 clears it. Contact lost with the anchor leads to ISLAND, contact regained with the anchor's envelope to
the base mode. (R45, R46, R48, R58, R117, R118, R436, R437) -/
def Obligations.FurunAnchorsAndViews : Prop :=
  (∀ (p : FPiece) (s1 s : State), s.furunPiece 3 p = (s1, none) → exec (.vote p) s = .next s1) ∧
  (∀ (p : FPiece) (s1 s : State), s.furunPiece 4 p = (s1, none) → exec (.anchor p) s = .next s1) ∧
  (∀ (p : FPiece) (s1 s : State), s.furunPiece 5 p = (s1, none) → exec (.handover p) s = .next s1) ∧
  (∀ (p : FPiece) (m : Bytes) (s1 : State) (x : FGroup) (s : State), s.furunPiece 3 p = (s1, some m) → s1.fgroup? (BitVec.ofNat 64 (beAt m 0 8)) = some x → s1.takesPart (BitVec.ofNat 64 (beAt m 0 8)) = true → x.epoch < beAt m 8 4 → bit1 x.members.toNat (beAt m 13 1) = 1 → (x.vote.map (·.epoch)).getD 0 ≤ beAt m 8 4 →
    ∃ t, exec (.vote p) s = .next t ∧ (∃ y, t.fgroup? (BitVec.ofNat 64 (beAt m 0 8)) = some y ∧ ((∃ v, y.vote = some v ∧ v.epoch = beAt m 8 4 ∧ (beAt m 13 1, beAt m 12 1) ∈ v.props) ∨
        (y.epoch = beAt m 8 4 ∧ y.anchor = some (s1.hopIn (BitVec.ofNat 64 (beAt m 0 8))) ∧ y.vote = none))) ∧
      Leaves [.pending, .safe, .cfgMem, .clk] s t) ∧
  (∀ (p : FPiece) (m : Bytes) (s1 : State) (s : State), s.furunPiece 3 p = (s1, some m) → (s1.fgroup? (BitVec.ofNat 64 (beAt m 0 8)) = none ∨ s1.takesPart (BitVec.ofNat 64 (beAt m 0 8)) = false ∨ ∃ x, s1.fgroup? (BitVec.ofNat 64 (beAt m 0 8)) = some x ∧ (beAt m 8 4 ≤ x.epoch ∨ bit1 x.members.toNat (beAt m 13 1) = 0 ∨ beAt m 8 4 < (x.vote.map (·.epoch)).getD 0)) → exec (.vote p) s = .next s1) ∧
  (∀ (p : FPiece) (m : Bytes) (s1 : State) (x : FGroup) (s : State), s.furunPiece 4 p = (s1, some m) → s1.fgroup? (BitVec.ofNat 64 (beAt m 0 8)) = some x → x.epoch < beAt m 8 4 → beAt m 12 1 ≠ 0 →
    ∃ t, exec (.anchor p) s = .next t ∧ (∃ y, t.fgroup? (BitVec.ofNat 64 (beAt m 0 8)) = some y ∧ y.epoch = beAt m 8 4 ∧ y.anchor = some (beAt m 12 1) ∧ y.vote = none) ∧
      Leaves [.pending, .safe, .cfgMem, .clk] s t) ∧
  (∀ (p : FPiece) (m : Bytes) (s1 : State) (s : State), s.furunPiece 4 p = (s1, some m) → (s1.fgroup? (BitVec.ofNat 64 (beAt m 0 8)) = none ∨ beAt m 12 1 = 0 ∨ ∃ x, s1.fgroup? (BitVec.ofNat 64 (beAt m 0 8)) = some x ∧ beAt m 8 4 ≤ x.epoch) → exec (.anchor p) s = .next s1) ∧
  (∀ (g : W64) (x : FGroup) (v : FVote) (s : State), s.fgroup? g = some x → x.vote = some v → 3 ≤ v.tries →
    ∃ t, exec (.voteTimeout g) s = .next t ∧ (t.clk = max s.clk (v.since + 2 * s.hbNs)) ∧ (∃ y, t.fgroup? g = some y ∧ y.vote = none ∧ y.anchor = none ∧ y.noneAt = some (x.noneAt.getD t.clk) ∧ y.epoch = x.epoch) ∧
      Leaves [.pending, .safe, .cfgMem] s t) ∧
  (∀ (g : W64) (x : FGroup) (v : FVote) (s : State), s.fgroup? g = some x → x.vote = some v → v.tries ∈ [1, 2] →
    ∃ t, exec (.voteTimeout g) s = .next t ∧ (t.clk = max s.clk (v.since + 2 * s.hbNs)) ∧ (∃ y, t.fgroup? g = some y ∧ ((∃ w, y.vote = some w ∧ w.tries = v.tries + 1 ∧ w.since = t.clk) ∨ y.anchor = some (s.hopIn g))) ∧
      Leaves [.pending, .safe, .cfgMem] s t) ∧
  (∀ (g : W64) (x : FGroup) (v : FVote) (s : State), s.fgroup? g = some x → x.vote = some v → v.tries = 0 →
    ∃ t, exec (.voteTimeout g) s = .next t ∧ (t.clk = max s.clk (v.since + 2 * s.hbNs)) ∧ (t.fgroup? g = some { x with vote := none }) ∧
      ChangesOnly [.clk, .furun] noReg s t) ∧
  (∀ (g : W64) (s : State), (s.fgroup? g = none ∨ ∃ x, s.fgroup? g = some x ∧ x.vote = none) → exec (.voteTimeout g) s = .next s) ∧
  (∀ (g : W64) (x : FGroup) (k : Nat) (s : State), s.fgroup? g = some x → x.noneAt = some k → x.vote = none → s.takesPart g = true →
    ∃ t, exec (.islandRevote g) s = .next t ∧ (t.clk = max s.clk (k + s.get F.LEDGER_MODE_CFG_ISL_TO * sec)) ∧ (∃ y, t.fgroup? g = some y ∧ ((∃ w, y.vote = some w ∧ w.tries = 1 ∧ w.since = t.clk) ∨ y.anchor = some (s.hopIn g))) ∧
      Leaves [.pending, .safe, .cfgMem] s t) ∧
  (∀ (g : W64) (s : State), (s.fgroup? g = none ∨ ∃ x, s.fgroup? g = some x ∧ (x.noneAt = none ∨ x.vote.isSome = true)) → exec (.islandRevote g) s = .next s) ∧
  (∀ (p : FPiece) (m : Bytes) (s1 : State) (x : FGroup) (s : State), s.furunPiece 5 p = (s1, some m) → s1.fgroup? (BitVec.ofNat 64 (beAt m 0 8)) = some x → beAt m 13 1 = 0 → x.epoch ≤ beAt m 8 4 → beAt m 12 1 = s1.hopIn (BitVec.ofNat 64 (beAt m 0 8)) →
    s1.ownEligible (BitVec.ofNat 64 (beAt m 0 8)) = true → exec (.handover p) s = .next (s1.furunSend p.peer 5 2 p.src (handBody (BitVec.ofNat 64 (beAt m 0 8)) (beAt m 8 4) (beAt m 12 1) 1))) ∧
  (∀ (p : FPiece) (m : Bytes) (s1 : State) (x : FGroup) (h : FHand) (s : State), s.furunPiece 5 p = (s1, some m) → s1.fgroup? (BitVec.ofNat 64 (beAt m 0 8)) = some x → beAt m 13 1 = 1 → s1.furun.hands.find? (fun h => h.grp == (BitVec.ofNat 64 (beAt m 0 8)) && h.hop == beAt m 12 1 && !h.committed) = some h → beAt m 8 4 = x.epoch → s1.anchors (BitVec.ofNat 64 (beAt m 0 8)) = true → (s1.linkTo (BitVec.ofNat 64 (beAt m 0 8)) (beAt m 12 1)).map (·.peer) = some p.peer →
    ∃ t, exec (.handover p) s = .next t ∧ (∃ y, t.fgroup? (BitVec.ofNat 64 (beAt m 0 8)) = some y ∧ y.epoch = x.epoch + 1 ∧ y.anchor = some (beAt m 12 1) ∧ y.vote = none) ∧ (∀ i, t.item? h.owner h.item = some i → i.ponr = true) ∧
      Leaves [.pending, .safe, .cfgMem, .clk] s t) ∧
  (∀ (p : FPiece) (m : Bytes) (s1 : State) (x : FGroup) (s : State), s.furunPiece 5 p = (s1, some m) → s1.fgroup? (BitVec.ofNat 64 (beAt m 0 8)) = some x → beAt m 13 1 = 2 → x.epoch < beAt m 8 4 →
    ∃ t, exec (.handover p) s = .next t ∧ (∃ y, t.fgroup? (BitVec.ofNat 64 (beAt m 0 8)) = some y ∧ y.epoch = beAt m 8 4 ∧ y.anchor = some (beAt m 12 1) ∧ y.vote = none) ∧
      Leaves [.pending, .safe, .cfgMem, .clk] s t) ∧
  (∀ (p : FPiece) (m : Bytes) (s1 : State) (s : State), s.furunPiece 5 p = (s1, some m) → (s1.fgroup? (BitVec.ofNat 64 (beAt m 0 8)) = none ∨ 3 ≤ beAt m 13 1 ∨ beAt m 13 1 = 0 ∧ (beAt m 12 1 ≠ s1.hopIn (BitVec.ofNat 64 (beAt m 0 8)) ∨ s1.ownEligible (BitVec.ofNat 64 (beAt m 0 8)) = false) ∨
      beAt m 13 1 = 1 ∧ (s1.anchors (BitVec.ofNat 64 (beAt m 0 8)) = false ∨ (s1.linkTo (BitVec.ofNat 64 (beAt m 0 8)) (beAt m 12 1)).map (·.peer) ≠ some p.peer ∨ ∀ h ∈ s1.furun.hands, h.grp = (BitVec.ofNat 64 (beAt m 0 8)) → h.hop = beAt m 12 1 → h.committed = true) ∨
      ∃ x, s1.fgroup? (BitVec.ofNat 64 (beAt m 0 8)) = some x ∧ (beAt m 13 1 = 0 ∧ beAt m 8 4 < x.epoch ∨ beAt m 13 1 = 1 ∧ beAt m 8 4 ≠ x.epoch ∨ beAt m 13 1 = 2 ∧ beAt m 8 4 ≤ x.epoch)) → exec (.handover p) s = .next s1) ∧
  (∀ (g : W64) (h : FHand) (s : State), s.furun.hands.find? (fun h => h.grp == g) = some h →
    ∃ t, exec (.handoverTimeout g) s = .next t ∧ (t.clk = max s.clk (h.since + 2 * s.hbNs)) ∧ (t.furun.hands = s.furun.hands.filter fun y => y.grp != g) ∧ (t.item? h.owner h.item = none) ∧
      Leaves [.pending, .mem, .safe, .keys, .cfgMem] s t) ∧
  (∀ (g : W64) (s : State), s.furun.hands.find? (fun h => h.grp == g) = none → exec (.handoverTimeout g) s = .next s) ∧
  (∀ (u : W64) (k : Fin 5) (s : State), s.furun.suspects.contains (addrOf u 0 0) = false → (k = 1 ∧ (s.furunView (addrOf u 0 0)).1 = true ∧ ((s.dataView? (addrOf u 0 0)).map (·.1)).getD false = false ∨ k = 2 ∧ (s.furunView (addrOf u 0 0)).1 = false ∧ ((s.dataView? (addrOf u 0 0)).map (·.1)).getD true = true) →
    ∃ t, exec (.splitView u k) s = .next t ∧ (t.furun = { s.furun with suspects := s.furun.suspects ++ [addrOf u 0 0] }) ∧ (t.clk = max s.clk (max (s.furunView (addrOf u 0 0)).2 (((s.dataView? (addrOf u 0 0)).map (·.2)).getD 0) + s.hb3 (addrOf u 0 0) + 1)) ∧
      ChangesOnly [.clk, .furun, .limiters, .evr] evWords s t) ∧
  (∀ (u : W64) (k : Fin 5) (s : State), s.furun.suspects.contains (addrOf u 0 0) = false → 3 ≤ k.val → (s.furunView (addrOf u 0 0)).1 = true →
    ∃ t, exec (.splitView u k) s = .next t ∧ (t.furun = { s.furun with suspects := s.furun.suspects ++ [addrOf u 0 0] }) ∧
      ChangesOnly [.furun, .limiters, .evr] evWords s t) ∧
  (∀ (u : W64) (k : Fin 5) (s : State), (k = 0 ∨ s.furun.suspects.contains (addrOf u 0 0) = true ∨ k ≠ 2 ∧ (s.furunView (addrOf u 0 0)).1 = false ∨ k = 2 ∧ (s.furunView (addrOf u 0 0)).1 = true ∨ k = 1 ∧ ((s.dataView? (addrOf u 0 0)).map (·.1)) = some true ∨ k = 2 ∧ ((s.dataView? (addrOf u 0 0)).map (·.1)) = some false) → exec (.splitView u k) s = .next s) ∧
  (∀ (u : W64) (s : State), s.furun.suspects.contains (addrOf u 0 0) = true → ((s.dataView? (addrOf u 0 0)).map (·.1)).getD (s.furunView (addrOf u 0 0)).1 = (s.furunView (addrOf u 0 0)).1 →
    ∃ t, exec (.viewAgreed u) s = .next t ∧ (t.furun = { s.furun with suspects := s.furun.suspects.filter fun x => x != addrOf u 0 0 }) ∧ (t.clk = max s.clk (max (s.furunView (addrOf u 0 0)).2 (((s.dataView? (addrOf u 0 0)).map (·.2)).getD 0) + s.hb3 (addrOf u 0 0))) ∧
      ChangesOnly [.clk, .furun, .limiters, .evr] evWords s t) ∧
  (∀ (u : W64) (s : State), (s.furun.suspects.contains (addrOf u 0 0) = false ∨ ((s.dataView? (addrOf u 0 0)).map (·.1)) = some (!(s.furunView (addrOf u 0 0)).1)) → exec (.viewAgreed u) s = .next s) ∧
  (∀ (x : Nat) (s : State), s.furun.noAnchor = some x → isRunMode s.mode = true → s.upGroup.isSome = true → s.start.phase = .running →
    ∃ t, exec .islandEntry s = .next t ∧ (t.mode = modeIsland) ∧ (t.clk = max s.clk (x + s.get F.LEDGER_MODE_CFG_ISL_TO * sec)) ∧ (t.get F.LEDGER_MODE_CAUSE = 3 ∧ t.get F.LEDGER_MODE_BASE = s.get F.LEDGER_MODE_BASE) ∧
      Leaves [.pending, .safe, .keys] s t) ∧
  (∀  (s : State), (s.furun.noAnchor = none ∨ isRunMode s.mode = false ∨ s.upGroup = none ∨ s.start.phase ≠ .running) → exec .islandEntry s = .next s) ∧
  (∀ (x a : Nat) (s : State), s.furun.regained = some x → s.pacer.heard = some a → x ≤ a → s.mode = modeIsland →
    ∃ t, exec .islandExit s = .next t ∧ (t.mode = s.get F.LEDGER_MODE_BASE) ∧ (t.clk = max s.clk (x + 3 * s.hbNs)) ∧ (t.get F.LEDGER_MODE_CAUSE = 4) ∧
      Leaves [.pending, .safe, .keys] s t) ∧
  (∀  (s : State), (s.furun.regained = none ∨ s.mode ≠ modeIsland ∨ s.pacer.heard = none ∨ ∃ x a, s.furun.regained = some x ∧ s.pacer.heard = some a ∧ a < x) → exec .islandExit s = .next s)

/-- Every REPL_S the replicated objects go to the anchor. The anchor of the holder's group stores a replica from the link that speaks for
it, reports a full table, and a withdrawal deletes it. The mirror goes to every subscriber, and a received one is only held. A generic
object request for another unit in contact is admitted, forwarded and PENDING; a request that arrives for another unit is passed on,
and one that cannot be is answered FAILED; a reply to a relayed request ends its item here or goes back where it came from. The
configuration opcodes are held 10 ms; FURUN_HANDOVER of the anchor offers the role and is PENDING; FURUN_MEMBERS and FURUN_REPLICA_READ
(of an element, or of an object of up to 52) answer what is held. (R90, R91, R438, R439, R440, R441, R442, R445) -/
def Obligations.FurunReplicasAndOpcodes : Prop :=
  (∀ (p : FPiece) (s1 s : State), s.furunPiece 8 p = (s1, none) → exec (.replica p) s = .next s1) ∧
  (∀ (p : FPiece) (s1 s : State), s.furunPiece 9 p = (s1, none) → exec (.withdraw p) s = .next s1) ∧
  (∀ (p : FPiece) (s1 s : State), s.furunPiece 11 p = (s1, none) → exec (.mirror p) s = .next s1) ∧
  (∀ (p : FPiece) (s1 s : State), s.furunPiece 6 p = (s1, none) → exec (.baton p) s = .next s1) ∧
  (∀  (s : State),
    ∃ t, exec .replicaSend s = .next t ∧ (t.clk = max s.clk (s.furun.replAt + s.get F.FURUN_CFG_REPL_S * sec)) ∧ (t.furun.replAt = t.clk) ∧ (s.furun.links = [] → t.out = s.out) ∧ (t.furun.replicas = s.furun.replicas ∧ t.furun.groups = s.furun.groups) ∧ (∀ x ∈ s.estate.objs, ∀ l, s.anchorLink (addrParent s.own) = some l → s.replicated x.num = true → s.anchors (addrParent s.own) = false → s.link? l.peer = some l → 5 ≤ l.ver →
        x.tag = 0 → x.elems.length ≤ 3000 → s.endOf l.peer = none → ∃ b, .furun l.peer b ∈ t.out) ∧
      Leaves [.pending, .mem, .safe, .cfgMem, .baton, .lap, .ledger, .met, .pacer, .estate] s t) ∧
  (∀ (p : FPiece) (m : Bytes) (s1 : State) (l : FLink) (s : State), s.furunPiece 8 p = (s1, some m) → s1.anchors (addrParent (addrOf (BitVec.ofNat 64 (beAt m 0 8) : W64) 0 0)) = true → s1.link? p.peer = some l → l.speaksFor (addrParent (addrOf (BitVec.ofNat 64 (beAt m 0 8) : W64) 0 0)) (addrLast (addrOf (BitVec.ofNat 64 (beAt m 0 8) : W64) 0 0)) = true → (5 ≤ l.ver ∨ beAt m 8 1 = 0) → addrObj (BitVec.ofNat 64 (beAt m 0 8) : W64) ≠ 0 → (s1.furun.replicas.any (fun x => x.obj == (BitVec.ofNat 64 (beAt m 0 8) : W64)) = true ∨ s1.furun.replicas.length < 16384) → (beAt m 8 1 = 0 ∨ (s1.groupRoot (addrParent (addrOf (BitVec.ofNat 64 (beAt m 0 8) : W64) 0 0))).isSome = true) →
    ∃ t, exec (.replica p) s = .next t ∧ (⟨(BitVec.ofNat 64 (beAt m 0 8) : W64), beAt m 8 1, beAt m 12 4, m.drop 16, p.peer, false⟩ ∈ t.furun.replicas) ∧ ((∀ x ∈ t.furun.replicas, x.obj ≠ (BitVec.ofNat 64 (beAt m 0 8) : W64) → x ∈ s1.furun.replicas) ∧ (∀ x ∈ s1.furun.replicas, x.obj ≠ (BitVec.ofNat 64 (beAt m 0 8) : W64) → x ∈ t.furun.replicas)) ∧
      ChangesOnly [.furun, .upd] (regsAt [Reg.FURUN_STAT]) s1 t) ∧
  (∀ (p : FPiece) (m : Bytes) (s1 : State) (l : FLink) (s : State), s.furunPiece 8 p = (s1, some m) → s1.anchors (addrParent (addrOf (BitVec.ofNat 64 (beAt m 0 8) : W64) 0 0)) = true → s1.link? p.peer = some l → l.speaksFor (addrParent (addrOf (BitVec.ofNat 64 (beAt m 0 8) : W64) 0 0)) (addrLast (addrOf (BitVec.ofNat 64 (beAt m 0 8) : W64) 0 0)) = true → 5 ≤ l.ver → addrObj (BitVec.ofNat 64 (beAt m 0 8) : W64) ≠ 0 → (s1.furun.replicas.any (fun x => x.obj == (BitVec.ofNat 64 (beAt m 0 8) : W64)) = true ∨ s1.furun.replicas.length < 16384) → beAt m 8 1 ≠ 0 → s1.groupRoot (addrParent (addrOf (BitVec.ofNat 64 (beAt m 0 8) : W64) 0 0)) = none →
    ∃ t, exec (.replica p) s = .next t ∧ (⟨(BitVec.ofNat 64 (beAt m 0 8) : W64), beAt m 8 1, beAt m 12 4, m.drop 16, p.peer, false⟩ ∈ t.furun.replicas) ∧ (t.keys.noRoot.contains (addrParent (addrOf (BitVec.ofNat 64 (beAt m 0 8) : W64) 0 0)) = true) ∧
      ChangesOnly [.furun, .upd, .keys, .limiters, .evr] (regsOr evWords (regsAt [Reg.FURUN_STAT])) s1 t) ∧
  (∀ (p : FPiece) (m : Bytes) (s1 : State) (l : FLink) (s : State), s.furunPiece 8 p = (s1, some m) → s1.anchors (addrParent (addrOf (BitVec.ofNat 64 (beAt m 0 8) : W64) 0 0)) = true → s1.link? p.peer = some l → l.speaksFor (addrParent (addrOf (BitVec.ofNat 64 (beAt m 0 8) : W64) 0 0)) (addrLast (addrOf (BitVec.ofNat 64 (beAt m 0 8) : W64) 0 0)) = true → (5 ≤ l.ver ∨ beAt m 8 1 = 0) → addrObj (BitVec.ofNat 64 (beAt m 0 8) : W64) ≠ 0 → (∀ x ∈ s1.furun.replicas, x.obj ≠ (BitVec.ofNat 64 (beAt m 0 8) : W64)) → 16384 ≤ s1.furun.replicas.length →
    ∃ t, exec (.replica p) s = .next t ∧ (t.furun = s1.furun) ∧
      ChangesOnly [.limiters, .evr] evWords s1 t) ∧
  (∀ (p : FPiece) (m : Bytes) (s1 : State) (s : State), s.furunPiece 8 p = (s1, some m) → (s1.anchors (addrParent (addrOf (BitVec.ofNat 64 (beAt m 0 8) : W64) 0 0)) = false ∨ s1.link? p.peer = none ∨ addrObj (BitVec.ofNat 64 (beAt m 0 8) : W64) = 0 ∨ ∃ l, s1.link? p.peer = some l ∧ (l.speaksFor (addrParent (addrOf (BitVec.ofNat 64 (beAt m 0 8) : W64) 0 0)) (addrLast (addrOf (BitVec.ofNat 64 (beAt m 0 8) : W64) 0 0)) = false ∨ l.ver < 5 ∧ beAt m 8 1 ≠ 0)) → exec (.replica p) s = .next s1) ∧
  (∀ (p : FPiece) (m : Bytes) (s1 : State)  (s : State), s.furunPiece 9 p = (s1, some m) →
    ∃ t, exec (.withdraw p) s = .next t ∧ (t.furun.replicas = s1.furun.replicas.filter fun x => !(x.obj == (BitVec.ofNat 64 (beAt m 0 8) : W64) && x.tag == beAt m 8 1 && x.holder == p.peer)) ∧
      ChangesOnly [.furun, .upd] (regsAt [Reg.FURUN_STAT]) s1 t) ∧
  (∀ (e : FEndpoint) (l : FLink) (s : State), s.furun.pubs.any Option.isSome = true →
    ∃ t, exec .mirrorPublish s = .next t ∧ (t.clk = (if s.mirror.frames = s.mirror.pubSeen then max s.clk (s.mirror.pubAt + 10 * msec) else s.clk)) ∧ (t.mirror = { s.mirror with pubAt := t.clk, pubSeen := s.mirror.frames }) ∧ (some e ∈ s.furun.pubs → s.link? (addrMember e.grp e.hop) = some l → 5 ≤ l.ver → e.kind ≠ 2 → s.portHeld e.port = false →
        ∃ b, .furun (addrMember e.grp e.hop) b ∈ t.out) ∧ (e.kind = 2 → some e ∈ s.furun.pubs → s.link? (addrMember e.grp e.hop) = some l → 5 ≤ l.ver → ∃ c ∈ t.relay.txq, c.dst = e.port ∧ c.cls = 1) ∧
      ChangesOnly [.clk, .mirror, .furun, .out, .relay, .eth, .ethTx] (regsAt [Reg.ETH_PSTAT 0, Reg.ETH_PSTAT 1, Reg.ETH_PSTAT 2, Reg.ETH_PSTAT 3, 0x500004]) s t) ∧
  (∀  (s : State), (∀ e ∈ s.furun.pubs, e = none) → exec .mirrorPublish s = .next s) ∧
  (∀ (p : FPiece) (m : Bytes) (s1 : State) (s : State), s.furunPiece 11 p = (s1, some m) → exec (.mirror p) s = .next { s1 with furun := { s1.furun with mirrorRx := some (p.src, m) } }) ∧
  (∀ (c : Instr) (d : OpDef) (r : Req) (z : Q) (l : FLink) (s : State), genericOf c = some (d, r) → asked d r s = some z → s.start.phase ≠ .recovery → s.mode ≠ modeHoldup →
    s.serves (tAddr z.tlvs) = false → (d.code = 0x0109 → s.furun.suspects.contains (addrOf (tAddr z.tlvs) 0 0) = false) → s.noAnchorAt (tAddr z.tlvs) = false → s.pathTo (addrOf (tAddr z.tlvs) 0 0) = some l →
    ∃ t, exec c s = .next t ∧ Answered t z d.code .pending 0 [] ∧
      t.furun.relayed = s.furun.relayed ++ [⟨z.owner, r.item.toNat, none, l.peer, s.own, z.tag, carriedClass r.cls.toNat, z.ver, d.code⟩] ∧
      t.baton.items = s.baton.items ++ [⟨z.owner, r.item.toNat, r.sess.val, d.code, z.tag, carriedClass r.cls.toNat, true, .relayed, l.peer.toNat, (tAddr z.tlvs).toNat, [], false⟩] ∧
      ChangesOnly (.furun :: .relay :: .eth :: batonParts) (regsAt [Reg.ETH_PSTAT 0, Reg.ETH_PSTAT 1, Reg.ETH_PSTAT 2, Reg.ETH_PSTAT 3, 0x500004]) s t) ∧
  (∀ (p : FPiece) (m : Bytes) (s1 : State) (x : FRelayed) (s : State), s.furunPiece 6 p = (s1, some m) → bit1 (beAt (m.drop 36) 1 1) 0 = 1 → s1.furun.relayed.find? (fun x => x.owner == (BitVec.ofNat 256 (beAt m 0 32)) && x.item == (beAt (m.drop 36) 4 4) && x.fwd == p.peer) = some x → x.back = none →
    ∃ t, exec (.baton p) s = .next t ∧ (t.item? (BitVec.ofNat 256 (beAt m 0 32)) (beAt (m.drop 36) 4 4) = none) ∧ (t.furun.relayed = s1.furun.relayed.filter fun y => !(y.owner == (BitVec.ofNat 256 (beAt m 0 32)) && y.item == (beAt (m.drop 36) 4 4))) ∧
      Leaves [.pending, .mem, .safe, .keys, .cfgMem, .clk] s t) ∧
  (∀ (p : FPiece) (m : Bytes) (s1 : State) (x : FRelayed) (b : W64) (s : State), s.furunPiece 6 p = (s1, some m) → bit1 (beAt (m.drop 36) 1 1) 0 = 1 → s1.furun.relayed.find? (fun x => x.owner == (BitVec.ofNat 256 (beAt m 0 32)) && x.item == (beAt (m.drop 36) 4 4) && x.fwd == p.peer) = some x → x.back = some b →
    ∃ t, exec (.baton p) s = .next t ∧ (t.furun.relayed = s1.furun.relayed.filter fun y => !(y.owner == (BitVec.ofNat 256 (beAt m 0 32)) && y.item == (beAt (m.drop 36) 4 4))) ∧ (∀ l, s1.link? b = some l → 5 ≤ l.ver → (∀ e, s1.endOf b = some e → e.kind ≠ 2 ∧ s1.portHeld e.port = false) → ∃ y, .furun b y ∈ t.out) ∧
      ChangesOnly [.furun, .out, .relay, .eth, .ethTx] (regsAt [Reg.ETH_PSTAT 0, Reg.ETH_PSTAT 1, Reg.ETH_PSTAT 2, Reg.ETH_PSTAT 3, 0x500004]) s1 t) ∧
  (∀ (p : FPiece) (m : Bytes) (s1 : State) (s : State), s.furunPiece 6 p = (s1, some m) → bit1 (beAt (m.drop 36) 1 1) 0 = 1 → s1.furun.relayed.find? (fun x => x.owner == (BitVec.ofNat 256 (beAt m 0 32)) && x.item == (beAt (m.drop 36) 4 4) && x.fwd == p.peer) = none → exec (.baton p) s = .next s1) ∧
  (∀ (p : FPiece) (m : Bytes) (s1 : State) (s : State), s.furunPiece 6 p = (s1, some m) → bit1 (beAt (m.drop 36) 1 1) 0 = 0 → beAt (m.drop 36) 8 2 = 4 → (s1.serves p.dst = true ∨ s1.noAnchorAt p.dst = true ∨ s1.pathTo p.dst = none) → exec (.baton p) s = .next s1) ∧
  (∀ (p : FPiece) (m : Bytes) (s1 : State) (s : State), s.furunPiece 6 p = (s1, some m) → bit1 (beAt (m.drop 36) 1 1) 0 = 0 → beAt (m.drop 36) 8 2 ≠ 4 → s1.serves p.dst = true →
    exec (.baton p) s = .next (s1.relayServe p (BitVec.ofNat 256 (beAt m 0 32)) (beAt m 32 1) (m.drop 36))) ∧
  (∀ (p : FPiece) (m : Bytes) (s1 : State) (l : FLink) (s : State), s.furunPiece 6 p = (s1, some m) → bit1 (beAt (m.drop 36) 1 1) 0 = 0 → s1.serves p.dst = false → s1.noAnchorAt p.dst = false → s1.pathTo p.dst = some l →
    ∃ t, exec (.baton p) s = .next t ∧ (t.furun.relayed = s1.furun.relayed ++ (if beAt (m.drop 36) 8 2 = 4 then [] else [⟨(BitVec.ofNat 256 (beAt m 0 32)), (beAt (m.drop 36) 4 4), some p.peer, l.peer, p.src, beAt m 32 1, beAt (m.drop 36) 3 1, beAt (m.drop 36) 0 1, beAt (m.drop 36) 8 2⟩])) ∧ (s1.link? l.peer = some l → 5 ≤ l.ver → (∀ e, s1.endOf l.peer = some e → e.kind ≠ 2 ∧ s1.portHeld e.port = false) → ∃ y, .furun l.peer y ∈ t.out) ∧
      ChangesOnly [.furun, .out, .relay, .eth, .ethTx] (regsAt [Reg.ETH_PSTAT 0, Reg.ETH_PSTAT 1, Reg.ETH_PSTAT 2, Reg.ETH_PSTAT 3, 0x500004]) s1 t) ∧
  (∀ (p : FPiece) (m : Bytes) (s1 : State) (s : State), s.furunPiece 6 p = (s1, some m) → bit1 (beAt (m.drop 36) 1 1) 0 = 0 → beAt (m.drop 36) 8 2 ≠ 4 → s1.serves p.dst = false → (s1.noAnchorAt p.dst = true ∨ s1.pathTo p.dst = none) →
    exec (.baton p) s = .next (s1.relayBack p.peer p.src (BitVec.ofNat 256 (beAt m 0 32)) (beAt m 32 1) (beAt (m.drop 36) 3 1) (beAt (m.drop 36) 0 1) (beAt (m.drop 36) 4 4) (beAt (m.drop 36) 8 2) Status.failed.code [])) ∧
  (∀ r s q, admitted? (.furunCfg r) s = some q →
    ∃ t, exec (.furunCfg r) s = .next t ∧ Answered t q 0x0B01 .ok 0 ([]) ∧
      t.furun.pend = s.furun.pend ++ [⟨s.clk + 10 * msec, 0x0B01, q.tlvs.map fun x => (x.typ, x.val)⟩] ∧
      ChangesOnly (.furun :: batonParts) (answerWords q) s t) ∧
  (∀ r s q, admitted? (.furunGroupCfg r) s = some q →
    ∃ t, exec (.furunGroupCfg r) s = .next t ∧ Answered t q 0x0B02 .ok 0 ([]) ∧
      t.furun.pend = s.furun.pend ++ [⟨s.clk + 10 * msec, 0x0B02, q.tlvs.map fun x => (x.typ, x.val)⟩] ∧
      ChangesOnly (.furun :: batonParts) (answerWords q) s t) ∧
  (∀ r s q, admitted? (.furunEndpointSet r) s = some q →
    ∃ t, exec (.furunEndpointSet r) s = .next t ∧ Answered t q 0x0B03 .ok 0 ([]) ∧
      t.furun.pend = s.furun.pend ++ [⟨s.clk + 10 * msec, 0x0B03, q.tlvs.map fun x => (x.typ, x.val)⟩] ∧
      ChangesOnly (.furun :: batonParts) (answerWords q) s t) ∧
  (∀ r s q, admitted? (.furunPubCfg r) s = some q →
    ∃ t, exec (.furunPubCfg r) s = .next t ∧ Answered t q 0x0B08 .ok 0 ([]) ∧
      t.furun.pend = s.furun.pend ++ [⟨s.clk + 10 * msec, 0x0B08, q.tlvs.map fun x => (x.typ, x.val)⟩] ∧
      ChangesOnly (.furun :: batonParts) (answerWords q) s t) ∧
  (∀ r s q, admitted? (.furunReplCfg r) s = some q → (s.furun.marks.length < 512 ∨ tn q.tlvs 0x0B06 = 0 ∨ s.furun.marks.contains (addrObj (tAddr q.tlvs)) = true) →
    ∃ t, exec (.furunReplCfg r) s = .next t ∧ Answered t q 0x0B06 .ok 0 ([]) ∧
      t.furun.pend = s.furun.pend ++ [⟨s.clk + 10 * msec, 0x0B06, q.tlvs.map fun x => (x.typ, x.val)⟩] ∧
      ChangesOnly (.furun :: batonParts) (answerWords q) s t) ∧
  (∀ r s q, admitted? (.furunHandover r) s = some q → (∀ h ∈ s.furun.hands, h.grp ≠ tAddr q.tlvs) → s.anchors (tAddr q.tlvs) = true → (s.fgroup? (tAddr q.tlvs)).bind (·.anchor) ≠ some (tn q.tlvs 0x0B04) →
    ∃ t, exec (.furunHandover r) s = .next t ∧ Answered t q 0x0B04 .pending 0 [] ∧ t.baton.items = s.baton.items ++ [opFurunHandover.item q .handover ((tAddr q.tlvs).toNat) (tn q.tlvs 0x0B04) false] ∧
      t.furun.hands = s.furun.hands ++ [⟨tAddr q.tlvs, q.owner, q.r.item.toNat, tn q.tlvs 0x0B04, false, s.clk⟩] ∧
      ChangesOnly (.furun :: .relay :: .eth :: batonParts) (regsOr (answerWords q) (regsAt [Reg.ETH_PSTAT 0, Reg.ETH_PSTAT 1, Reg.ETH_PSTAT 2, Reg.ETH_PSTAT 3, 0x500004])) s t) ∧
  (∀ r s q, admitted? (.furunHandover r) s = some q → (∀ h ∈ s.furun.hands, h.grp ≠ tAddr q.tlvs) → s.anchors (tAddr q.tlvs) = false →
    ∃ t, exec (.furunHandover r) s = .next t ∧ Answered t q 0x0B04 .failed 0 ([]) ∧
      ChangesOnly (batonParts) (answerWords q) s t) ∧
  (∀ r s q, admitted? (.furunHandover r) s = some q → (∀ h ∈ s.furun.hands, h.grp ≠ tAddr q.tlvs) → s.anchors (tAddr q.tlvs) = true → (s.fgroup? (tAddr q.tlvs)).bind (·.anchor) = some (tn q.tlvs 0x0B04) →
    ∃ t, exec (.furunHandover r) s = .next t ∧ Answered t q 0x0B04 .ok 0 ([]) ∧
      ChangesOnly (batonParts) (answerWords q) s t) ∧
  (∀ r s q x, admitted? (.furunMembers r) s = some q → s.fgroup? (tAddr q.tlvs) = some x →
    ∃ t, exec (.furunMembers r) s = .next t ∧ Answered t q 0x0B05 .ok 0 ((memberHops x.members).map fun h => s.memberTlv x h).flatten ∧ ChangesOnly batonParts (answerWords q) s t) ∧
  (∀ r s q h vs v, admitted? (.furunReplicaRead r) s = some q → s.replicaRead q.tag (tAddr q.tlvs) = some (h, vs) →
    addrElem (tAddr q.tlvs) ≠ 0 → vs[addrElem (tAddr q.tlvs) - 1]? = some v →
    ∃ t, exec (.furunReplicaRead r) s = .next t ∧ Answered t q 0x0B07 .ok 0 (elemTlv (addrElem (tAddr q.tlvs)) v) ∧ ChangesOnly batonParts (answerWords q) s t) ∧
  (∀ r s q h vs, admitted? (.furunReplicaRead r) s = some q → s.replicaRead q.tag (tAddr q.tlvs) = some (h, vs) →
    addrElem (tAddr q.tlvs) = 0 → vs.length ≤ 52 →
    ∃ t, exec (.furunReplicaRead r) s = .next t ∧ Answered t q 0x0B07 .ok 0 (tlv 0x0003 h ++ (((List.range vs.length).zip vs).map fun p => elemTlv (p.1 + 1) p.2).flatten) ∧
      ChangesOnly batonParts (answerWords q) s t) ∧
  (∀ r s q, admitted? (.furunReplicaRead r) s = some q → s.replicaRead q.tag (tAddr q.tlvs) = none →
    ∃ t, exec (.furunReplicaRead r) s = .next t ∧ Answered t q 0x0B07 .failed 0 ([]) ∧
      ChangesOnly (batonParts) (answerWords q) s t)

/-- A Sync of the best master slews the system time within 200 ppm or steps it; ten good ones lead to LOCKED; three announce intervals
without one to HOLDOVER. Each second, as long as TRIM makes it, counts TAI and fires alarms that match. GO loads the staging set at the
edge, is discarded with STGERR in LOCKED, and an invalid calendar sets STGERR and leaves the time. The best master clock algorithm
makes this module or the sender grandmaster, and leaves a worse master than the best one out. The rail and VBAK select the supply of
PD_RTC, and below 1.6 V both the content is lost. A zone change takes the earliest entry; a local minute sets the schedules, which show
DEFAULT and STALE while the time is not valid. The RTC opcodes stage, arm and set what they name. (R448, R450, R451, R456, R457, R458,
R459, R461, R462, R463, R464) -/
def Obligations.RealTimeClock : Prop :=
  (∀ (p : Fin 4) (ofs : W64) (s : State), s.ptpPort p.val = true → (s.rtc.best.all fun b => b.2 == p.val) = true → s.get F.RTC_STAT_SYNC ∉ [1, 3] → (s.port p.val).servoAt ≤ s.clk → (sgn 64 ofs.toNat).natAbs ≤ s.get F.RTC_STEP_STEP_US * 1000 → (1000 ≤ (sgn 64 ofs.toNat).natAbs ∨ s.rtc.good < 9) →
    ∃ t, exec (.ptpSync p ofs) s = .next t ∧ (t.sysOfs = s.sysOfs + clampI (-(slewMax (s.clk - s.rtc.syncAt))) (slewMax (s.clk - s.rtc.syncAt)) (sgn 64 ofs.toNat)) ∧ (t.rtc = { s.rtc with good := if (sgn 64 ofs.toNat).natAbs < 1000 then s.rtc.good + 1 else 0, syncAt := s.clk }) ∧
      ChangesOnly [.sysOfs, .rtc] noReg s t) ∧
  (∀ (p : Fin 4) (ofs : W64) (s : State), s.ptpPort p.val = true → (s.rtc.best.all fun b => b.2 == p.val) = true → s.get F.RTC_STAT_SYNC ∉ [1, 3] → (s.port p.val).servoAt ≤ s.clk → s.get F.RTC_STEP_STEP_US * 1000 < (sgn 64 ofs.toNat).natAbs → 1000 ≤ (sgn 64 ofs.toNat).natAbs →
    ∃ t, exec (.ptpSync p ofs) s = .next t ∧ (t.sysNow = s.sysNow + (sgn 64 ofs.toNat)) ∧ (t.rtc.tai = ((s.sysNow + (sgn 64 ofs.toNat)) / (sec : Int)).toNat % 2 ^ 40) ∧ (t.rtc.good = 0 ∧ t.get F.RTC_STAT_VALID = 1) ∧
      Leaves [.pending, .mem, .safe, .keys, .clk] s t) ∧
  (∀ (p : Fin 4) (ofs : W64) (s : State), s.ptpPort p.val = true → (s.rtc.best.all fun b => b.2 == p.val) = true → s.get F.RTC_STAT_SYNC ∉ [1, 3] → (s.port p.val).servoAt ≤ s.clk → (sgn 64 ofs.toNat).natAbs ≤ s.get F.RTC_STEP_STEP_US * 1000 → (sgn 64 ofs.toNat).natAbs < 1000 → 9 ≤ s.rtc.good →
    ∃ t, exec (.ptpSync p ofs) s = .next t ∧ (t.get F.RTC_STAT_SYNC = 1 ∧ t.get F.RTC_STAT_VALID = 1) ∧ (t.rtc.good = 10) ∧
      Leaves [.pending, .mem, .safe, .keys, .clk] s t) ∧
  (∀ (p : Fin 4) (ofs : W64) (s : State), s.ptpPort p.val = true → (s.rtc.best.all fun b => b.2 == p.val) = true → s.get F.RTC_STAT_SYNC = 1 → (s.port p.val).servoAt ≤ s.clk → (sgn 64 ofs.toNat).natAbs ≤ s.get F.RTC_STEP_STEP_US * 1000 →
    ∃ t, exec (.ptpSync p ofs) s = .next t ∧ (t.sysOfs = s.sysOfs + clampI (-(slewMax (s.clk - s.rtc.syncAt))) (slewMax (s.clk - s.rtc.syncAt)) (sgn 64 ofs.toNat)) ∧ (t.get F.RTC_STAT_SYNC = 1) ∧ (t.rtc.syncAt = s.clk) ∧
      Leaves [.pending, .mem, .safe, .keys, .clk, .cfgMem, .baton] s t) ∧
  (∀ (p : Fin 4) (ofs : W64) (s : State), s.ptpPort p.val = true → (s.rtc.best.all fun b => b.2 == p.val) = true → s.get F.RTC_STAT_SYNC = 1 → (s.port p.val).servoAt ≤ s.clk → s.get F.RTC_STEP_STEP_US * 1000 < (sgn 64 ofs.toNat).natAbs →
    ∃ t, exec (.ptpSync p ofs) s = .next t ∧ (t.sysNow = s.sysNow + (sgn 64 ofs.toNat)) ∧ (t.get F.RTC_STAT_SYNC = 1) ∧ (t.rtc.syncAt = s.clk) ∧
      Leaves [.pending, .mem, .safe, .keys, .clk] s t) ∧
  (∀ (p : Fin 4) (ofs : W64) (s : State), (s.ptpPort p.val = false ∨ s.rtc.best.any (fun b => b.2 != p.val) = true ∨ s.get F.RTC_STAT_SYNC = 3 ∨ s.clk < (s.port p.val).servoAt) → exec (.ptpSync p ofs) s = .next s) ∧
  (∀  (s : State), s.get F.RTC_STAT_SYNC = 1 →
    ∃ t, exec .syncHoldover s = .next t ∧ (t.get F.RTC_STAT_SYNC = 2) ∧ (t.rtc = { s.rtc with good := 0 }) ∧ (t.clk = max s.clk (s.rtc.syncAt + 3 * s.rtc.annIv)) ∧
      ChangesOnly [.clk, .rtc, .limiters, .evr] (regsOr evWords (regsAt [Reg.RTC_STAT, 0x600004])) s t) ∧
  (∀  (s : State), s.get F.RTC_STAT_SYNC ≠ 1 → exec .syncHoldover s = .next s) ∧
  (∀ (p : Fin 4) (s : State), p.val < s.eth.length →
    ∃ t, exec (.servoHoldEnd p) s = .next t ∧ (t.port p.val = { s.port p.val with servoAt := 0 }) ∧ (t.clk = max s.clk (s.port p.val).servoAt) ∧
      ChangesOnly [.clk, .eth] noReg s t) ∧
  (∀  (s : State),
    ∃ t, exec .rtcSecond s = .next t ∧ (t.rtc.tai = (s.rtc.tai + 1) % 2 ^ 40) ∧ (t.rtc.secAt = s.rtc.secAt + s.rtcSecNs) ∧ (t.clk = max s.clk (s.rtc.secAt + s.rtcSecNs)) ∧ (t.rd Reg.RTC_TAI_LO = t.rtc.tai % 2 ^ 32) ∧ (∀ a, a < 4 → s.get (F.RTC_ALMHI_ARM a) = 1 → s.alarmAt a = (t.rtc.tai, false) → t.get (F.RTC_ALMHI_FIRED a) = 1 ∧ t.get (F.RTC_ALMHI_SKIPPED a) = 0) ∧
      ChangesOnly [.clk, .rtc, .limiters, .evr, .estate, .freeCtr] (regsOr evWords (regsOf 12)) s t) ∧
  (∀ (w : W32) (s : State), bit1 w.toNat 31 = 1 → bit1 w.toNat 0 = 0 → s.get F.RTC_STAT_SYNC ≠ 1 →
    ∃ t, exec (.rtcCommit (some w)) s = .next t ∧ (t.rtc.tai = (s.rd Reg.RTC_STG_TAI_LO + bitsOf (s.rd Reg.RTC_STG_TAI_HI) 7 0 * 2 ^ 32) % 2 ^ 40) ∧ (t.rd Reg.RTC_OFS = s.rd Reg.RTC_STG_OFS % 2 ^ 16) ∧ (t.sysNow = ((t.rtc.tai * sec : Nat) : Int)) ∧ (t.get F.RTC_COMMIT_GO = 0 ∧ t.get F.RTC_STAT_VALID = 1) ∧
      Leaves [.pending, .mem, .safe, .keys, .clk] s t) ∧
  (∀ (w : W32) (s : State), bit1 w.toNat 31 = 1 → s.get F.RTC_STAT_SYNC = 1 → s.get F.RTC_COMMIT_GO = 0 →
    ∃ t, exec (.rtcCommit (some w)) s = .next t ∧ (t.get F.RTC_STAT_STGERR = 1) ∧
      ChangesOnly [] (regsAt [Reg.RTC_STAT, Reg.RTC_COMMIT]) s t) ∧
  (∀ (w : W32) (s : State), bit1 w.toNat 31 = 1 → bit1 w.toNat 0 = 1 → s.get F.RTC_STAT_SYNC ≠ 1 → s.stagedOk = false →
    ∃ t, exec (.rtcCommit (some w)) s = .next t ∧ (t.get F.RTC_STAT_STGERR = 1) ∧ (t.get F.RTC_COMMIT_GO = 0) ∧ (t.rtc = s.rtc ∧ t.sysOfs = s.sysOfs) ∧
      Leaves [.pending, .mem, .safe, .keys, .clk, .can] s t) ∧
  (∀ (w : W32) (s : State), bit1 w.toNat 31 = 1 → bit1 w.toNat 0 = 1 → s.get F.RTC_STAT_SYNC ≠ 1 → s.stagedOk = true →
    ∃ t, exec (.rtcCommit (some w)) s = .next t ∧ (t.rtc.tai = (s.put F.RTC_COMMIT_FORM 1).stagedTai % 2 ^ 40) ∧ (t.sysNow = ((t.rtc.tai * sec : Nat) : Int)) ∧ (t.rd Reg.RTC_OFS = s.rd Reg.RTC_STG_OFS % 2 ^ 16) ∧ (t.get F.RTC_COMMIT_GO = 0 ∧ t.get F.RTC_STAT_VALID = 1) ∧
      Leaves [.pending, .mem, .safe, .keys, .clk] s t) ∧
  (∀ (w : W32) (s : State), bit1 w.toNat 31 = 0 → s.get F.RTC_COMMIT_GO = 0 →
    ∃ t, exec (.rtcCommit (some w)) s = .next t ∧ (t.get F.RTC_COMMIT_FORM = bit1 w.toNat 0 ∧ t.get F.RTC_COMMIT_GO = 0) ∧
      ChangesOnly [] (regsAt [Reg.RTC_COMMIT]) s t) ∧
  (∀  (s : State), s.get F.RTC_COMMIT_GO = 1 → (s.get F.RTC_COMMIT_FORM = 0 ∨ s.stagedOk = true) →
    ∃ t, exec (.rtcCommit none) s = .next t ∧ (t.rtc.tai = s.stagedTai % 2 ^ 40) ∧ (t.rd Reg.RTC_OFS = s.rd Reg.RTC_STG_OFS % 2 ^ 16) ∧ (t.get F.RTC_COMMIT_GO = 0 ∧ t.get F.RTC_STAT_VALID = 1) ∧
      Leaves [.pending, .mem, .safe, .keys, .clk] s t) ∧
  (∀  (s : State), s.get F.RTC_COMMIT_GO = 0 → exec (.rtcCommit none) s = .next s) ∧
  (∀ (a : Fin 4) (hi : W32) (s : State), s.rtc.alarms.length = 4 →
    ∃ t, exec (.alarmCommit a hi) s = .next t ∧ (t.alarmAt a.val = (bitsOf hi.toNat 7 0 * 2 ^ 32 + s.rd (Reg.RTC_ALMLO a.val), bit1 hi.toNat 31 == 1 && decide (bitsOf hi.toNat 7 0 * 2 ^ 32 + s.rd (Reg.RTC_ALMLO a.val) ≤ s.rtc.tai))) ∧ (t.get (F.RTC_ALMHI_ARM a.val) = bit1 hi.toNat 31 ∧ t.get (F.RTC_ALMHI_REARM a.val) = bit1 hi.toNat 30) ∧ (bit1 hi.toNat 29 = 1 → t.get (F.RTC_ALMHI_FIRED a.val) = 0) ∧
      ChangesOnly [.rtc] (regsAt [Reg.RTC_ALMHI a.val]) s t) ∧
  (∀ (rail mv : BitVec 16) (s : State),
    ∃ t, exec (.vbakChangeover rail mv) s = .next t ∧ (t.get F.RTC_STAT_ON_VBAK = b2n (vbakFeeds (s.get F.RTC_STAT_ON_VBAK == 1) rail.toNat mv.toNat)) ∧ (t.get F.RTC_STAT_VBAK_LOW = b2n ((vbakFeeds (s.get F.RTC_STAT_ON_VBAK == 1) rail.toNat mv.toNat) && decide (mv.toNat < 2000))) ∧ (t.rtc = { s.rtc with lost := s.rtc.lost || (decide (rail.toNat < 1600) && decide (mv.toNat < 1600)) }) ∧
      ChangesOnly [.rtc, .limiters, .evr] (regsOr evWords (regsAt [Reg.RTC_STAT, 0x600004])) s t) ∧
  (∀  (s : State), s.rtc.zones ≠ [] →
    ∃ t, exec .zoneChange s = .next t ∧ (∃ z ∈ s.rtc.zones, (∀ y ∈ s.rtc.zones, z.1.toNat ≤ y.1.toNat) ∧ t.rtc.zones = (s.rtc.zones.filter fun x => x != z) ∧ t.rd Reg.RTC_LOCAL = (BitVec.ofInt 16 z.2).toNat ∧ t.clk = max s.clk (nsOfTs z.1 - s.sysOfs).toNat) ∧
      ChangesOnly [.clk, .rtc, .limiters, .evr, .estate, .freeCtr] (regsOr evWords (regsAt [Reg.RTC_LOCAL])) s t) ∧
  (∀  (s : State), s.rtc.zones = [] → exec .zoneChange s = .next s) ∧
  (∀  (s : State), s.rtc.schedMin ≠ some s.localMin →
    ∃ t, exec .scheduleMinute s = .next t ∧ (t.rtc = { s.rtc with schedMin := some s.localMin }) ∧ (s.get F.RTC_STAT_VALID = 0 → ∀ x ∈ s.estate.objs, x.typ = tySchedule → (s.elem? x.num 1).isSome = true → (t.elem? x.num 1).map (fun e => (e.value, e.src)) = some (((s.elem? x.num 2).map (·.value)).getD 0, qStale)) ∧
      ChangesOnly [.rtc, .estate, .freeCtr] noReg s t) ∧
  (∀  (s : State), s.rtc.schedMin = some s.localMin → exec .scheduleMinute s = .next s) ∧
  (∀ (p : Fin 4) (a : Announce) (s : State), s.ptpPort p.val = true → a.dom.toNat = s.get F.RTC_PTP_DOMAIN → s.get F.RTC_PTP_GM_CAP = 1 → clockRank (s.get F.RTC_PTP_PRIO1) 248 Config.clockQuality (s.get F.RTC_PTP_PRIO2) Config.clockIdent < clockRank a.prio1.toNat a.cls.toNat a.qual a.prio2.toNat a.ident → s.worseMaster (clockRank a.prio1.toNat a.cls.toNat a.qual a.prio2.toNat a.ident) = false →
    ∃ t, exec (.ptpAnnounce p a) s = .next t ∧ (t.rtc.gm = Config.clockIdent ∧ t.rtc.best = none) ∧ (t.get F.RTC_STAT_SYNC = 3) ∧
      ChangesOnly [.rtc, .limiters, .evr] (regsOr evWords (regsAt [Reg.RTC_STAT, 0x600004])) s t) ∧
  (∀ (p : Fin 4) (a : Announce) (s : State), s.ptpPort p.val = true → a.dom.toNat = s.get F.RTC_PTP_DOMAIN → (s.get F.RTC_PTP_GM_CAP = 0 ∨ clockRank a.prio1.toNat a.cls.toNat a.qual a.prio2.toNat a.ident ≤ clockRank (s.get F.RTC_PTP_PRIO1) 248 Config.clockQuality (s.get F.RTC_PTP_PRIO2) Config.clockIdent) → s.worseMaster (clockRank a.prio1.toNat a.cls.toNat a.qual a.prio2.toNat a.ident) = false →
    ∃ t, exec (.ptpAnnounce p a) s = .next t ∧ (t.rtc.best = some (clockRank a.prio1.toNat a.cls.toNat a.qual a.prio2.toNat a.ident, p.val) ∧ t.rtc.bestAt = s.clk) ∧ (t.rtc.gm = a.ident ∧ t.rtc.utcValid = a.utcOk ∧ t.rtc.annIv = max 1 a.ivMs.toNat * msec) ∧ (t.get F.RTC_STAT_SYNC = (if s.get F.RTC_STAT_SYNC = 3 then 0 else s.get F.RTC_STAT_SYNC)) ∧ (s.get F.RTC_STAT_SYNC = 1 → a.utcOk = true → t.rd Reg.RTC_OFS = a.utc.toNat) ∧
      ChangesOnly [.rtc, .limiters, .evr, .estate, .freeCtr] (regsOr evWords (regsOf 12)) s t) ∧
  (∀ (p : Fin 4) (a : Announce) (s : State), (s.worseMaster (clockRank a.prio1.toNat a.cls.toNat a.qual a.prio2.toNat a.ident) = true ∨ s.ptpPort p.val = false ∨ a.dom.toNat ≠ s.get F.RTC_PTP_DOMAIN) → exec (.ptpAnnounce p a) s = .next s) ∧
  (∀ r s q, admitted? (.rtcSet r) s = some q →
    ∃ t, exec (.rtcSet r) s = .next t ∧ Answered t q 0x0C01 .pending 0 [] ∧ t.baton.items = s.baton.items ++ [opRtcSet.item q .rtcSet (0) (0) false] ∧
      (∀ x ∈ timeImgs (tv q.tlvs 0x0C01), t.rd x.1 = x.2) ∧ t.get F.RTC_COMMIT_GO = 1 ∧ t.get F.RTC_COMMIT_FORM = beAt (tv q.tlvs 0x0C01) 0 1 ∧
      ChangesOnly (batonParts) (regsOr (answerWords q) (regsOf 12)) s t) ∧
  (∀ r s q, admitted? (.rtcRead r) s = some q →
    ∃ t, exec (.rtcRead r) s = .next t ∧ Answered t q 0x0C02 .ok 0 (tlv 0x0C02 ((s.rd Reg.RTC_STAT :: s.rtcSnap).map (natBE 4)).flatten) ∧
      ChangesOnly (batonParts) (answerWords q) s t) ∧
  (∀ r s q, admitted? (.rtcAlarmSet r) s = some q → s.rtc.alarms.length = 4 →
    ∃ t, exec (.rtcAlarmSet r) s = .next t ∧ Answered t q 0x0C03 .ok 0 ([]) ∧
      (t.alarmAt (beAt (tv q.tlvs 0x0C03) 0 1)).1 = bitsOf (beAt (tv q.tlvs 0x0C03) 5 4) 7 0 * 2 ^ 32 + beAt (tv q.tlvs 0x0C03) 1 4 ∧ t.get (F.RTC_ALMHI_ARM (beAt (tv q.tlvs 0x0C03) 0 1)) = bit1 (beAt (tv q.tlvs 0x0C03) 5 4) 31 ∧
      ChangesOnly (.rtc :: batonParts) (regsOr (answerWords q) (regsOf 12)) s t) ∧
  (∀ r s q, admitted? (.rtcLeapSet r) s = some q →
    ∃ t, exec (.rtcLeapSet r) s = .next t ∧ Answered t q 0x0C04 .ok 0 ([]) ∧
      t.rd Reg.RTC_LEAP = putBits (beAt (tv q.tlvs 0x0C04) 0 4) 29 29 0 ∧
      ChangesOnly (batonParts) (regsOr (answerWords q) (regsOf 12)) s t) ∧
  (∀ r s q, admitted? (.rtcZoneSet r) s = some q →
    ∃ t, exec (.rtcZoneSet r) s = .next t ∧ Answered t q 0x0C05 .ok 0 ([]) ∧
      t.rtc = { s.rtc with zones := (tvs q.tlvs 0x0C05).map zoneOf } ∧
      ChangesOnly (.rtc :: batonParts) (answerWords q) s t) ∧
  (∀ r s q, admitted? (.rtcPtpCfg r) s = some q →
    ∃ t, exec (.rtcPtpCfg r) s = .next t ∧ Answered t q 0x0C06 .ok 0 ([]) ∧
      t.rd Reg.RTC_PTP = beAt (tv q.tlvs 0x0C06) 0 4 ∧ t.rd Reg.RTC_STEP = beAt (tv q.tlvs 0x0C06) 4 4 ∧ t.rd Reg.RTC_TRIM = beAt (tv q.tlvs 0x0C06) 8 4 ∧
      ChangesOnly (.cfgMem :: batonParts) (regsOr (answerWords q) (regsOf 12)) s t)

/-- CSR answers the public key of its generation; a certificate for it is stored and the generation recorded; a trust anchor is set;
revocation replaces a slot's list and closes the sessions that a newly revoked certificate carries. An import puts the unwrapped root
in its slot, FAILED when it does not open; erasing empties slots. DERIVE and KEY_IMPORT put a new handle in the table, FREE takes it
out, EXPORT answers the wrapped key under a fresh nonce. Lifecycle burns two fuses a step, and RETIRED empties the vault. An armed
tamper cause (a mesh loop outside 200 Ω to 50 kΩ, the case switch, or a debug attach) empties vault, handles and links and closes every
session, on VBAK alone it empties the vault and waits to be reported; an unarmed one shows in LIVE alone. (R466, R468, R470, R471,
R472, R473, R474, R475, R479, R485, R487, R490) -/
def Obligations.KeysOpcodesAndTamper : Prop :=
  (∀ r s q, admitted? (.keysStatus r) s = some q →
    ∃ t, exec (.keysStatus r) s = .next t ∧ Answered t q 0x0D01 .ok 0 (tlv 0x0D01 (([Reg.KEYS_STAT, Reg.KEYS_ROLLBACK, Reg.KEYS_TAMPER_CFG, Reg.KEYS_TAMPER_STAT, Reg.KEYS_EPOCH,
      Reg.KEYS_CERT_GEN].map fun x => natBE 4 (s.rd x)).flatten)) ∧
      ChangesOnly (batonParts) (answerWords q) s t) ∧
  (∀ r s q, admitted? (.keysCsr r) s = some q →
    ∃ t, exec (.keysCsr r) s = .next t ∧ Answered t q 0x0D02 .ok 0 (tlv 0x0D03 (oprkPub (tn q.tlvs 0x0D02))) ∧
      t.keys = { s.keys with csrGen := some (tn q.tlvs 0x0D02) } ∧
      ChangesOnly (.keys :: batonParts) (answerWords q) s t) ∧
  (∀ r s q, admitted? (.keysCertSet r) s = some q →
    ∃ t, exec (.keysCertSet r) s = .next t ∧ Answered t q 0x0D03 .ok 0 ([]) ∧
      t.get F.KEYS_CERT_GEN_GEN = s.certGen % 256 ∧ t.get F.KEYS_CERT_GEN_CERT = 1 ∧ t.keys = { s.keys with csrGen := none, cert := (tv q.tlvs 0x0D04) } ∧
      ChangesOnly (.keys :: batonParts) (regsOr (answerWords q) (regsAt [Reg.KEYS_CERT_GEN, 0x680004])) s t) ∧
  (∀ r s q, admitted? (.keysTrustSet r) s = some q →
    ∃ t, exec (.keysTrustSet r) s = .next t ∧ Answered t q 0x0D04 .ok 0 ([]) ∧
      t.keys = { s.keys with trust := setNth s.keys.trust (tn q.tlvs 0x0D05) (tv? q.tlvs 0x0D03) } ∧
      ChangesOnly (.keys :: batonParts) (regsOr (answerWords q) (regsAt [0x680004])) s t) ∧
  (∀ r s q, admitted? (.keysRevoke r) s = some q → (∀ k ∈ (tvs q.tlvs 0x0D06).map beNat, k ∈ (s.keys.revoked[tn q.tlvs 0x0D05]?).getD []) →
    ∃ t, exec (.keysRevoke r) s = .next t ∧ Answered t q 0x0D05 .ok 0 ([]) ∧
      t.keys = { s.keys with revoked := setNth s.keys.revoked (tn q.tlvs 0x0D05) ((tvs q.tlvs 0x0D06).map beNat) } ∧
      ChangesOnly (.keys :: batonParts) (regsOr (answerWords q) (regsAt [0x680004])) s t) ∧
  (∀ r s q, admitted? (.keysRevoke r) s = some q →
    ∃ t, exec (.keysRevoke r) s = .next t ∧ Answered t q 0x0D05 .ok 0 ([]) ∧
      t.keys.revoked = setNth s.keys.revoked (tn q.tlvs 0x0D05) ((tvs q.tlvs 0x0D06).map beNat) ∧
      (∀ x ∈ t.baton.sessions, x.trust = (tn q.tlvs 0x0D05) → ∀ k ∈ x.serials, k ∈ (tvs q.tlvs 0x0D06).map beNat →
        k ∈ (s.keys.revoked[tn q.tlvs 0x0D05]?).getD []) ∧
      Leaves [.pending, .safe, .cfgMem, .clk] s t) ∧
  (∀ r s q, admitted? (.keysImport r) s = some q → s.keys.vault.length = 5 →
    ∃ t, exec (.keysImport r) s = .next t ∧
      (∀ root, Config.sm4Open (importKey (tv q.tlvs 0x0D03) (tn q.tlvs 0x0D07)) (((tv q.tlvs 0x0D08)).take 12) (natBE 1 (tn q.tlvs 0x0D07) ++ natBE 8 (tAddr q.tlvs).toNat ++ natBE 32 deviceId.toNat) (((tv q.tlvs 0x0D08)).drop 12) = some root →
        Answered t q 0x0D06 .ok 0 [] ∧ (t.keys.vault[tn q.tlvs 0x0D07]?) = some (some (BitVec.ofNat 256 (beNat (root.take 32)), tAddr q.tlvs)) ∧
          ChangesOnly (.keys :: batonParts) (regsOr (answerWords q) (regsAt [Reg.KEYS_STAT, 0x680004])) s t) ∧
      (Config.sm4Open (importKey (tv q.tlvs 0x0D03) (tn q.tlvs 0x0D07)) (((tv q.tlvs 0x0D08)).take 12) (natBE 1 (tn q.tlvs 0x0D07) ++ natBE 8 (tAddr q.tlvs).toNat ++ natBE 32 deviceId.toNat) (((tv q.tlvs 0x0D08)).drop 12) = none → Answered t q 0x0D06 .failed 0 [] ∧ ChangesOnly batonParts (answerWords q) s t)) ∧
  (∀ r s q, admitted? (.keysErase r) s = some q →
    ∃ t, exec (.keysErase r) s = .next t ∧ Answered t q 0x0D07 .ok 0 ([]) ∧
      (∀ k, k < 5 → ((tn q.tlvs 0x0D07) = k ∨ (tn q.tlvs 0x0D07) = 255) → t.root? k = none) ∧ (∀ k, k < 5 → (tn q.tlvs 0x0D07) ≠ k → (tn q.tlvs 0x0D07) ≠ 255 → t.root? k = s.root? k) ∧
      ChangesOnly (.keys :: .furun :: .upd :: batonParts) (regsOr (answerWords q) (regsAt [Reg.KEYS_STAT, 0x680004, Reg.FURUN_STAT])) s t) ∧
  (∀ r s q, admitted? (.keysAttest r) s = some q →
    ∃ t, exec (.keysAttest r) s = .next t ∧ Answered t q 0x0D08 .ok 0 (tlv 0x0D0A (s.attestBody (tv q.tlvs 0x0D09) ++ padTo 64 (Config.sm2Sign didk (s.attestBody (tv q.tlvs 0x0D09))))) ∧
      ChangesOnly (batonParts) (answerWords q) s t) ∧
  (∀ r s q, admitted? (.keysTamperArm r) s = some q →
    ∃ t, exec (.keysTamperArm r) s = .next t ∧ Answered t q 0x0D09 .ok 0 ([]) ∧
      t.rd Reg.KEYS_TAMPER_CFG = (tn q.tlvs 0x0D0B) ∧
      ChangesOnly (batonParts) (regsOr (answerWords q) (regsAt [Reg.KEYS_TAMPER_CFG])) s t) ∧
  (∀ r s q, admitted? (.keysTamperClear r) s = some q → s.armedIntact = true →
    ∃ t, exec (.keysTamperClear r) s = .next t ∧ Answered t q 0x0D0A .ok 0 ([]) ∧
      t.get F.KEYS_TAMPER_STAT_CAUSE = 0 ∧ t.get F.KEYS_STAT_TAMPER = 0 ∧
      ChangesOnly (batonParts) (regsOr (answerWords q) (regsAt [Reg.KEYS_TAMPER_STAT, Reg.KEYS_STAT])) s t) ∧
  (∀ r s q, admitted? (.keysTamperClear r) s = some q → s.armedIntact = false →
    ∃ t, exec (.keysTamperClear r) s = .next t ∧ Answered t q 0x0D0A .failed 0 ([]) ∧
      ChangesOnly (batonParts) (answerWords q) s t) ∧
  (∀ r s q root, admitted? (.keysDerive r) s = some q → isAppk q = true → s.root? 0 = some root →
    ∃ t, exec (.keysDerive r) s = .next t ∧ Answered t q 0x0D0B .ok 0 (tlv 0x0D10 (natBE 1 (freeHandle s.keys.handles))) ∧
      t.keys.handles = s.keys.handles ++ [⟨freeHandle s.keys.handles, 0, 1, bit1 (tn q.tlvs 0x0D0F) 5 == 1, some q.owner, 1, derive root (ascii "APPK") 1 (tv q.tlvs 0x0D0E)⟩] ∧
      ChangesOnly (.keys :: batonParts) (regsOr (answerWords q) (regsAt [Reg.KEYS_STAT])) s t) ∧
  (∀ r s q h, admitted? (.keysDerive r) s = some q → isAppk q = false → s.handle? (tn q.tlvs 0x0D0C) = some h →
    ∃ t, exec (.keysDerive r) s = .next t ∧ Answered t q 0x0D0B .ok 0 (tlv 0x0D10 (natBE 1 (freeHandle s.keys.handles))) ∧
      t.keys.handles = s.keys.handles ++ [⟨freeHandle s.keys.handles, (tn q.tlvs 0x0D0F) / 256, (tn q.tlvs 0x0D0F) % 32, bit1 (tn q.tlvs 0x0D0F) 5 == 1, some q.owner, h.level + 1,
        derive h.val (tv q.tlvs 0x0D0D) (h.level + 1) (tv q.tlvs 0x0D0E)⟩] ∧
      ChangesOnly (.keys :: batonParts) (regsOr (answerWords q) (regsAt [Reg.KEYS_STAT])) s t) ∧
  (∀ r s q, admitted? (.keysDerive r) s = some q → isAppk q = true ∧ s.root? 0 = none →
    ∃ t, exec (.keysDerive r) s = .next t ∧ Answered t q 0x0D0B .failed 0 ([]) ∧
      ChangesOnly (batonParts) (answerWords q) s t) ∧
  (∀ r s q h root, admitted? (.keysExport r) s = some q → s.handle? (tn q.tlvs 0x0D10) = some h → s.root? 0 = some root →
    let nonce := natBE 8 (Config.freeValue s.freeCtr).toNat ++ (natBE 8 (Config.freeValue (s.freeCtr + 1)).toNat).take 4
    ∃ t, exec (.keysExport r) s = .next t ∧ Answered t q 0x0D0C .ok 0
        (tlv 0x0D11 (nonce ++ natBE 1 h.typ ++ padTo 48 (Config.sm4Seal (exportKey root) nonce [] (natBE 32 h.val.toNat)))) ∧
      ChangesOnly (.freeCtr :: batonParts) (answerWords q) s t) ∧
  (∀ r s q, admitted? (.keysExport r) s = some q → s.root? 0 = none →
    ∃ t, exec (.keysExport r) s = .next t ∧ Answered t q 0x0D0C .failed 0 ([]) ∧
      ChangesOnly (batonParts) (answerWords q) s t) ∧
  (∀ r s q, admitted? (.keysKeyImport r) s = some q →
    ∃ t, exec (.keysKeyImport r) s = .next t ∧
      (∀ x, ((s.root? 0).bind fun root => Config.sm4Open (exportKey root) (((tv q.tlvs 0x0D11)).take 12) [] (((tv q.tlvs 0x0D11)).drop 13)) = some x →
        Answered t q 0x0D0D .ok 0 (tlv 0x0D10 (natBE 1 (freeHandle s.keys.handles))) ∧
          t.keys.handles = s.keys.handles ++ [⟨freeHandle s.keys.handles, (tn q.tlvs 0x0D0F) / 256, (tn q.tlvs 0x0D0F) % 32, bit1 (tn q.tlvs 0x0D0F) 5 == 1, some q.owner, 1, BitVec.ofNat 256 (beNat (x.take 32))⟩] ∧
          ChangesOnly (.keys :: batonParts) (regsOr (answerWords q) (regsAt [Reg.KEYS_STAT])) s t) ∧
      (((s.root? 0).bind fun root => Config.sm4Open (exportKey root) (((tv q.tlvs 0x0D11)).take 12) [] (((tv q.tlvs 0x0D11)).drop 13)) = none → Answered t q 0x0D0D .failed 0 [] ∧ ChangesOnly batonParts (answerWords q) s t)) ∧
  (∀ r s q, admitted? (.keysFree r) s = some q →
    ∃ t, exec (.keysFree r) s = .next t ∧ Answered t q 0x0D0E .ok 0 ([]) ∧
      t.keys.handles = s.keys.handles.filter (fun h => h.no != (tn q.tlvs 0x0D10)) ∧ t.keys.vault = s.keys.vault ∧
      ChangesOnly (.keys :: batonParts) (regsOr (answerWords q) (regsAt [Reg.KEYS_STAT])) s t) ∧
  (∀ r s q, admitted? (.keysLifecycle r) s = some q →
    ∃ t, exec (.keysLifecycle r) s = .next t ∧ Answered t q 0x0D0F .ok 0 ([]) ∧
      t.keys.lifeFuses = 2 * (tn q.tlvs 0x0D12) ∧ t.get F.KEYS_STAT_LIFECYCLE = (tn q.tlvs 0x0D12) ∧ ((tn q.tlvs 0x0D12) = 2 → t.keys.vault = List.replicate 5 none) ∧ ((tn q.tlvs 0x0D12) ≠ 2 → t.keys.vault = s.keys.vault) ∧
      ChangesOnly (.keys :: batonParts) (regsOr (answerWords q) (regsAt [Reg.KEYS_STAT])) s t) ∧
  (∀ (loop : W32) (tmp1 debug : Bool) (s : State), (b2n (s.get F.KEYS_TAMPER_CFG_ARM0 == 1 && !(meshIntact loop.toNat)) + 2 * b2n (s.get F.KEYS_TAMPER_CFG_ARM1 == 1 && !tmp1) + 4 * b2n (debug && s.lifecycle == 0 && s.vaultHolds)) = 0 →
    ∃ t, exec (.tamper loop tmp1 debug) s = .next t ∧ (t.get F.KEYS_TAMPER_STAT_LIVE0 = b2n (meshIntact loop.toNat)) ∧ (t.get F.KEYS_TAMPER_STAT_LIVE1 = b2n tmp1) ∧
      ChangesOnly [] (regsAt [Reg.KEYS_TAMPER_STAT]) s t) ∧
  (∀ (loop : W32) (tmp1 debug : Bool) (s : State), (b2n (s.get F.KEYS_TAMPER_CFG_ARM0 == 1 && !(meshIntact loop.toNat)) + 2 * b2n (s.get F.KEYS_TAMPER_CFG_ARM1 == 1 && !tmp1) + 4 * b2n (debug && s.lifecycle == 0 && s.vaultHolds)) ≠ 0 → s.pdOn 0 = true →
    ∃ t, exec (.tamper loop tmp1 debug) s = .next t ∧ (t.keys.vault = List.replicate 5 none) ∧ (t.keys.handles = []) ∧ (t.keys.linkSlots = []) ∧ (t.baton.sessions = []) ∧ (t.furun.links = []) ∧ (t.get F.KEYS_TAMPER_STAT_CAUSE = s.get F.KEYS_TAMPER_STAT_CAUSE ||| (b2n (s.get F.KEYS_TAMPER_CFG_ARM0 == 1 && !(meshIntact loop.toNat)) + 2 * b2n (s.get F.KEYS_TAMPER_CFG_ARM1 == 1 && !tmp1) + 4 * b2n (debug && s.lifecycle == 0 && s.vaultHolds))) ∧ (t.get F.KEYS_STAT_TAMPER = 1) ∧ (t.get F.KEYS_TAMPER_STAT_COUNT = satAdd (2 ^ (F.KEYS_TAMPER_STAT_COUNT.hi + 1 - F.KEYS_TAMPER_STAT_COUNT.lo) - 1) (s.get F.KEYS_TAMPER_STAT_COUNT) 1) ∧ (t.keys.tampTime = s.tsNow) ∧
      Leaves [.pending, .safe, .cfgMem, .clk] s t) ∧
  (∀ (loop : W32) (tmp1 debug : Bool) (s : State), (b2n (s.get F.KEYS_TAMPER_CFG_ARM0 == 1 && !(meshIntact loop.toNat)) + 2 * b2n (s.get F.KEYS_TAMPER_CFG_ARM1 == 1 && !tmp1) + 4 * b2n (debug && s.lifecycle == 0 && s.vaultHolds)) ≠ 0 → s.pdOn 0 = false →
    ∃ t, exec (.tamper loop tmp1 debug) s = .next t ∧ (t.keys.vault = List.replicate 5 none) ∧ (t.keys.tampOff = s.keys.tampOff ++ [((b2n (s.get F.KEYS_TAMPER_CFG_ARM0 == 1 && !(meshIntact loop.toNat)) + 2 * b2n (s.get F.KEYS_TAMPER_CFG_ARM1 == 1 && !tmp1) + 4 * b2n (debug && s.lifecycle == 0 && s.vaultHolds)), s.tsNow, t.get F.KEYS_TAMPER_STAT_COUNT)]) ∧ (t.get F.KEYS_TAMPER_STAT_COUNT = satAdd (2 ^ (F.KEYS_TAMPER_STAT_COUNT.hi + 1 - F.KEYS_TAMPER_STAT_COUNT.lo) - 1) (s.get F.KEYS_TAMPER_STAT_COUNT) 1) ∧ (t.get F.KEYS_STAT_TAMPER = 1) ∧ (t.get F.KEYS_TAMPER_STAT_CAUSE = s.get F.KEYS_TAMPER_STAT_CAUSE ||| (b2n (s.get F.KEYS_TAMPER_CFG_ARM0 == 1 && !(meshIntact loop.toNat)) + 2 * b2n (s.get F.KEYS_TAMPER_CFG_ARM1 == 1 && !tmp1) + 4 * b2n (debug && s.lifecycle == 0 && s.vaultHolds))) ∧
      ChangesOnly [.keys] (regsAt [Reg.KEYS_TAMPER_STAT, Reg.KEYS_STAT]) s t)

/-- An accepted manifest begins a staging, with a copy for every part it does not list; the same manifest again changes nothing. A chunk is
staged; the last one missing brings the digest check, which passes the part or clears it. A copy done passes its part where the digest
of the active set fits. Abandoning ends the staging and its fetch. UPD_FETCH is PENDING, cancellable, and asks for the manifest; a
PIECE that was asked for is staged, and the manifest begins the staging or, when it is refused, ends the fetch; a NONE for one, or 60 s
without one, ends the fetch; chunks not received within 2 s are asked for again; a WANT is answered chunk by chunk. (R493, R494, R495,
R497, R434) -/
def Obligations.UpdateStagingAndFetch : Prop :=
  (∀ r s q, admitted? (.updBegin r) s = some q → s.stageSame (tv q.tlvs 0x0E01) = false → (s.updState = usIdle ∨ s.updState = usRecovery ∧ (s.upd.staging = false ∨ Config.sm3 (s.fwSet s.stageSet).man ≠ Config.sm3 (tv q.tlvs 0x0E01))) →
    ∃ t, exec (.updBegin r) s = .next t ∧ Answered t q 0x0E01 .ok 0 (tlv 0x0E05 (s.stageBegin (tv q.tlvs 0x0E01)).updBlock) ∧
      t.updState = usStaging ∧ t.upd.staging = true ∧ (t.fwSet s.stageSet).man = (tv q.tlvs 0x0E01) ∧ t.upd.copies = ((List.range 8).map (· + 1)).filter (fun p => !manListed (tv q.tlvs 0x0E01) p) ∧
      ChangesOnly (.upd :: batonParts) (regsOr (answerWords q) (regsOf 14)) s t) ∧
  (∀ r s q, admitted? (.updBegin r) s = some q → s.stageSame (tv q.tlvs 0x0E01) = true →
    ∃ t, exec (.updBegin r) s = .next t ∧ Answered t q 0x0E01 .ok 0 (tlv 0x0E05 s.updBlock) ∧
      ChangesOnly (batonParts) (answerWords q) s t) ∧
  (∀ r s q, admitted? (.updBegin r) s = some q → s.updState = usRecovery → s.upd.staging = true → (s.fwSet s.stageSet).man = (tv q.tlvs 0x0E01) →
    ∃ t, exec (.updBegin r) s = .next t ∧ Answered t q 0x0E01 .ok 0 (tlv 0x0E05 ((s.updTo usStaging).stageCheck).updBlock) ∧
      (t.updState = usStaging ∨ t.updState = usStaged) ∧ t.fwSet s.stageSet = s.fwSet s.stageSet ∧
      ChangesOnly (.upd :: batonParts) (regsOr (answerWords q) (regsOr (regsOf 14) (regsAt [Reg.ETH_PSTAT 0, Reg.ETH_PSTAT 1, Reg.ETH_PSTAT 2, Reg.ETH_PSTAT 3, 0x500004]))) s t) ∧
  (∀ r s q, admitted? (.updPut r) s = some q → (s.fwSet s.stageSet).parts.length = 8 → ((((s.fwSet s.stageSet).part ((tn q.tlvs 0x0E02) - 1)).chunks.filter fun y => y.1 != (tn q.tlvs 0x0E03)) ++ [((tn q.tlvs 0x0E03), (tv q.tlvs 0x0E04))]).length < partChunks ((s.fwSet s.stageSet).part ((tn q.tlvs 0x0E02) - 1)) →
    ∃ t, exec (.updPut r) s = .next t ∧ Answered t q 0x0E02 .ok 0 ([]) ∧
      ((t.fwSet s.stageSet).part ((tn q.tlvs 0x0E02) - 1)).chunks = (((s.fwSet s.stageSet).part ((tn q.tlvs 0x0E02) - 1)).chunks.filter fun y => y.1 != (tn q.tlvs 0x0E03)) ++ [((tn q.tlvs 0x0E03), (tv q.tlvs 0x0E04))] ∧ ((t.fwSet s.stageSet).part ((tn q.tlvs 0x0E02) - 1)).ok = false ∧ t.updState = s.updState ∧
      ChangesOnly (.upd :: batonParts) (regsOr (answerWords q) (regsOf 14)) s t) ∧
  (∀ r s q, admitted? (.updPut r) s = some q → (s.fwSet s.stageSet).parts.length = 8 → partChunks ((s.fwSet s.stageSet).part ((tn q.tlvs 0x0E02) - 1)) ≤ ((((s.fwSet s.stageSet).part ((tn q.tlvs 0x0E02) - 1)).chunks.filter fun y => y.1 != (tn q.tlvs 0x0E03)) ++ [((tn q.tlvs 0x0E03), (tv q.tlvs 0x0E04))]).length →
    ∃ t, exec (.updPut r) s = .next t ∧ Answered t q 0x0E02 .ok 0 ([]) ∧
      (Config.sm3 (partBytes { (s.fwSet s.stageSet).part ((tn q.tlvs 0x0E02) - 1) with chunks := (((s.fwSet s.stageSet).part ((tn q.tlvs 0x0E02) - 1)).chunks.filter fun y => y.1 != (tn q.tlvs 0x0E03)) ++ [((tn q.tlvs 0x0E03), (tv q.tlvs 0x0E04))] }) = ((s.fwSet s.stageSet).part ((tn q.tlvs 0x0E02) - 1)).digest → ((t.fwSet s.stageSet).part ((tn q.tlvs 0x0E02) - 1)).ok = true ∧ ((t.fwSet s.stageSet).part ((tn q.tlvs 0x0E02) - 1)).chunks = (((s.fwSet s.stageSet).part ((tn q.tlvs 0x0E02) - 1)).chunks.filter fun y => y.1 != (tn q.tlvs 0x0E03)) ++ [((tn q.tlvs 0x0E03), (tv q.tlvs 0x0E04))]) ∧
      (Config.sm3 (partBytes { (s.fwSet s.stageSet).part ((tn q.tlvs 0x0E02) - 1) with chunks := (((s.fwSet s.stageSet).part ((tn q.tlvs 0x0E02) - 1)).chunks.filter fun y => y.1 != (tn q.tlvs 0x0E03)) ++ [((tn q.tlvs 0x0E03), (tv q.tlvs 0x0E04))] }) ≠ ((s.fwSet s.stageSet).part ((tn q.tlvs 0x0E02) - 1)).digest → ((t.fwSet s.stageSet).part ((tn q.tlvs 0x0E02) - 1)).ok = false ∧ ((t.fwSet s.stageSet).part ((tn q.tlvs 0x0E02) - 1)).chunks = [] ∧ t.updState = usStaging) ∧
      ChangesOnly (.upd :: batonParts) (regsOr (answerWords q) (regsOr (regsOf 14) (regsAt [Reg.ETH_PSTAT 0, Reg.ETH_PSTAT 1, Reg.ETH_PSTAT 2, Reg.ETH_PSTAT 3, 0x500004]))) s t) ∧
  (∀ r s q, admitted? (.updStatus r) s = some q →
    ∃ t, exec (.updStatus r) s = .next t ∧ Answered t q 0x0E03 .ok 0 (tlv 0x0E05 s.updBlock) ∧
      ChangesOnly (batonParts) (answerWords q) s t) ∧
  (∀ r s q, admitted? (.updAbandon r) s = some q → s.upd.staging = true →
    ∃ t, exec (.updAbandon r) s = .next t ∧ Answered t q 0x0E04 .ok 0 ([]) ∧
      t.updState = usIdle ∧ t.upd.staging = false ∧ t.upd.copies = [] ∧ t.upd.fetch = none ∧ (t.fwSet s.stageSet).man = [] ∧
      ChangesOnly (.upd :: batonParts) (regsOr (answerWords q) (regsOr (regsOf 14) (regsAt [Reg.ETH_PSTAT 0, Reg.ETH_PSTAT 1, Reg.ETH_PSTAT 2, Reg.ETH_PSTAT 3, 0x500004]))) s t) ∧
  (∀ r s q, admitted? (.updAbandon r) s = some q → s.upd.staging = false →
    ∃ t, exec (.updAbandon r) s = .next t ∧ Answered t q 0x0E04 .ok 0 ([]) ∧
      ChangesOnly (batonParts) (answerWords q) s t) ∧
  (∀ (p : Nat) (rest : List Nat) (s : State), s.upd.copies = p :: rest → 1 ≤ p → p ≤ 8 → (s.fwSet s.stageSet).parts.length = 8 → (s.activeSet.part (p - 1)).ok = true → (s.activeSet.part (p - 1)).digest = ((s.fwSet s.stageSet).part (p - 1)).digest →
    ∃ t, exec .partCopyDone s = .next t ∧ (t.upd.copies = rest) ∧ (((t.fwSet s.stageSet).part (p - 1)).ok = true) ∧
      ChangesOnly (.upd :: batonParts) (regsOr evWords (regsOr (regsOf 14) (regsAt [Reg.ETH_PSTAT 0, Reg.ETH_PSTAT 1, Reg.ETH_PSTAT 2, Reg.ETH_PSTAT 3, 0x500004]))) s t) ∧
  (∀  (s : State), (s.upd.copies = [] ∨ ∃ p rest, s.upd.copies = p :: rest ∧ ((s.activeSet.part (p - 1)).ok = false ∨ (s.activeSet.part (p - 1)).digest ≠ ((s.fwSet s.stageSet).part (p - 1)).digest)) → exec .partCopyDone s = .next s) ∧
  (∀ r s q, admitted? (.updFetch r) s = some q →
    ∃ t, exec (.updFetch r) s = .next t ∧ Answered t q 0x0E08 .pending 0 [] ∧ t.baton.items = s.baton.items ++ [opUpdFetch.item q .updFetch (0) (0) false] ∧
      t.upd.fetch.map (fun f => (f.owner, f.item, f.src, f.ident, f.asked.map fun a => (a.1, a.2.1))) = some (q.owner, q.r.item.toNat, tAddr q.tlvs, BitVec.ofNat 256 (tn q.tlvs 0x0E06), [(0, 0)]) ∧
      ChangesOnly (.upd :: .furun :: .relay :: .eth :: batonParts) (regsOr (answerWords q) (regsAt [Reg.ETH_PSTAT 0, Reg.ETH_PSTAT 1, Reg.ETH_PSTAT 2, Reg.ETH_PSTAT 3, 0x500004])) s t) ∧
  (∀ (p : FPiece) (s1 s : State), s.furunPiece 10 p = (s1, none) → exec (.want p) s = .next s1) ∧
  (∀ (p : FPiece) (s1 s : State), s.furunPiece 10 p = (s1, none) → exec (.piece p) s = .next s1) ∧
  (∀ (p : FPiece) (s1 s : State), s.furunPiece 10 p = (s1, none) → exec (.noneMsg p) s = .next s1) ∧
  (∀ (p : FPiece) (m : Bytes) (s1 : State)  (s : State), s.furunPiece 10 p = (s1, some m) →
    ∃ t, exec (.want p) s = .next t ∧
      Leaves [.pending, .safe, .cfgMem, .keys, .clk] s t) ∧
  (∀ (p : FPiece) (m : Bytes) (s1 s : State), s.furunPiece 10 p = (s1, some m) → beAt m 20 2 = 1 →
    exec (.want p) s = .next (match s1.serve (beAt m 4 8) (beAt m 12 1) (beAt m 16 4) with
      | some bs => s1.sendTo p.src 10 3 (natBE 1 2 ++ natBE 3 0 ++ natBE 8 (beAt m 4 8) ++ natBE 1 (beAt m 12 1) ++ natBE 3 0 ++ natBE 4 (beAt m 16 4 + 0) ++ natBE 2 bs.length ++ natBE 2 0 ++ bs)
      | none => s1.sendTo p.src 10 3 (natBE 1 3 ++ natBE 3 0 ++ natBE 8 (beAt m 4 8) ++ natBE 1 (beAt m 12 1) ++ natBE 3 0 ++ natBE 4 (beAt m 16 4 + 0)))) ∧
  (∀ (p : FPiece) (m : Bytes) (s1 s : State), s.furunPiece 10 p = (s1, some m) → s1.fetchAsked p.src m = none → exec (.piece p) s = .next s1) ∧
  (∀ (p : FPiece) (m : Bytes) (s1 s : State), s.furunPiece 10 p = (s1, some m) → s1.fetchAsked p.src m = none → exec (.noneMsg p) s = .next s1) ∧
  (∀ (p : FPiece) (m : Bytes) (s1 : State) (f : FetchJob) (s : State), s.furunPiece 10 p = (s1, some m) → s1.fetchAsked p.src m = some f → 1 ≤ beAt m 12 1 → beAt m 12 1 ≤ 8 → s1.updState = usStaging → (s1.fwSet s1.stageSet).parts.length = 8 → ((m.drop 24).take (beAt m 20 2)).length = chunkLen ((s1.fwSet s1.stageSet).part (beAt m 12 1 - 1)) (beAt m 16 4) → ((((s1.fwSet s1.stageSet).part (beAt m 12 1 - 1)).chunks.filter fun y => y.1 != beAt m 16 4) ++ [(beAt m 16 4, ((m.drop 24).take (beAt m 20 2)))]).length < partChunks ((s1.fwSet s1.stageSet).part (beAt m 12 1 - 1)) →
    ∃ t, exec (.piece p) s = .next t ∧ (((t.fwSet s1.stageSet).part (beAt m 12 1 - 1)).chunks = (((s1.fwSet s1.stageSet).part (beAt m 12 1 - 1)).chunks.filter fun y => y.1 != beAt m 16 4) ++ [(beAt m 16 4, ((m.drop 24).take (beAt m 20 2)))]) ∧ (t.upd.fetch.map (·.pieceAt) = some s1.clk) ∧
      Leaves [.pending, .safe, .cfgMem, .keys, .clk] s t) ∧
  (∀ (p : FPiece) (m : Bytes) (s1 : State) (f : FetchJob) (s : State), s.furunPiece 10 p = (s1, some m) → s1.fetchAsked p.src m = some f → 1 ≤ beAt m 12 1 → beAt m 12 1 ≤ 8 → s1.updState = usStaging → (s1.fwSet s1.stageSet).parts.length = 8 → ((m.drop 24).take (beAt m 20 2)).length = chunkLen ((s1.fwSet s1.stageSet).part (beAt m 12 1 - 1)) (beAt m 16 4) → partChunks ((s1.fwSet s1.stageSet).part (beAt m 12 1 - 1)) ≤ (((((s1.fwSet s1.stageSet).part (beAt m 12 1 - 1)).chunks.filter fun y => y.1 != beAt m 16 4) ++ [(beAt m 16 4, ((m.drop 24).take (beAt m 20 2)))])).length →
    ∃ t, exec (.piece p) s = .next t ∧ (((t.fwSet s1.stageSet).part (beAt m 12 1 - 1)).ok = (Config.sm3 (partBytes { ((s1.fwSet s1.stageSet).part (beAt m 12 1 - 1)) with chunks := ((((s1.fwSet s1.stageSet).part (beAt m 12 1 - 1)).chunks.filter fun y => y.1 != beAt m 16 4) ++ [(beAt m 16 4, ((m.drop 24).take (beAt m 20 2)))]) }) == ((s1.fwSet s1.stageSet).part (beAt m 12 1 - 1)).digest)) ∧
      Leaves [.pending, .safe, .cfgMem, .keys, .clk] s t) ∧
  (∀ (p : FPiece) (m : Bytes) (s1 : State) (f : FetchJob) (s : State), s.furunPiece 10 p = (s1, some m) → s1.fetchAsked p.src m = some f → beAt m 12 1 ≠ 0 → (s1.updState ≠ usStaging ∨ ((m.drop 24).take (beAt m 20 2)).length ≠ chunkLen ((s1.fwSet s1.stageSet).part (beAt m 12 1 - 1)) (beAt m 16 4)) →
    ∃ t, exec (.piece p) s = .next t ∧ (t.upd.setA = s1.upd.setA ∧ t.upd.setB = s1.upd.setB) ∧ (t.upd.fetch.map (·.pieceAt) = some s1.clk) ∧
      Leaves [.pending, .safe, .cfgMem, .keys, .clk] s t) ∧
  (∀ (p : FPiece) (m : Bytes) (s1 : State) (f : FetchJob) (s : State), s.furunPiece 10 p = (s1, some m) → s1.fetchAsked p.src m = some f → beAt m 12 1 = 0 → (s1.manBad ((m.drop 24).take (beAt m 20 2)) = true ∨ s1.updState ∉ [usIdle, usRecovery, usStaging, usStaged]) →
    ∃ t, exec (.piece p) s = .next t ∧ (t.upd.fetch = none) ∧ (t.item? f.owner f.item = none) ∧ (t.upd.setA = s1.upd.setA ∧ t.upd.setB = s1.upd.setB) ∧
      Leaves [.pending, .safe, .cfgMem, .keys, .clk] s t) ∧
  (∀ (p : FPiece) (m : Bytes) (s1 : State) (f : FetchJob) (s : State), s.furunPiece 10 p = (s1, some m) → s1.fetchAsked p.src m = some f → beAt m 12 1 = 0 → Config.sm3 ((m.drop 24).take (beAt m 20 2)) = f.ident → s1.manBad ((m.drop 24).take (beAt m 20 2)) = false → s1.updState = usIdle →
    ∃ t, exec (.piece p) s = .next t ∧ (t.updState = usStaging ∧ t.upd.staging = true) ∧ ((t.fwSet s1.stageSet).man = ((m.drop 24).take (beAt m 20 2))) ∧ (t.upd.fetch.map (·.man) = some none) ∧
      Leaves [.pending, .safe, .cfgMem, .keys, .clk] s t) ∧
  (∀ (p : FPiece) (m : Bytes) (s1 : State) (f : FetchJob) (s : State), s.furunPiece 10 p = (s1, some m) → s1.fetchAsked p.src m = some f →
    ∃ t, exec (.noneMsg p) s = .next t ∧ (t.upd.fetch = none) ∧ (t.item? f.owner f.item = none) ∧ (t.upd.staging = s1.upd.staging) ∧
      Leaves [.pending, .safe, .cfgMem, .keys, .clk] s t) ∧
  (∀ (f : FetchJob) (a : Nat) (as : List Nat) (s : State), s.upd.fetch = some f → f.asked.map (·.2.2) = a :: as →
    ∃ t, exec .fetchRetry s = .next t ∧ (t.clk = max s.clk (as.foldl min a + 2 * sec)) ∧ (∃ g, t.upd.fetch = some g ∧ ∀ x ∈ f.asked, x.2.2 + 2 * sec ≤ t.clk → (x.1, x.2.1, t.clk) ∈ g.asked) ∧
      ChangesOnly [.clk, .upd, .furun, .relay, .out, .eth, .ethTx] (regsAt [Reg.ETH_PSTAT 0, Reg.ETH_PSTAT 1, Reg.ETH_PSTAT 2, Reg.ETH_PSTAT 3, 0x500004]) s t) ∧
  (∀  (s : State), (s.upd.fetch = none ∨ ∃ f, s.upd.fetch = some f ∧ f.asked = []) → exec .fetchRetry s = .next s) ∧
  (∀ (f : FetchJob) (s : State), s.upd.fetch = some f →
    ∃ t, exec .fetchTimeout s = .next t ∧ (t.clk = max s.clk (f.pieceAt + 60 * sec)) ∧ (t.upd.fetch = none) ∧ (t.item? f.owner f.item = none) ∧
      ChangesOnly (.clk :: .upd :: batonParts) (regsOr evWords (regsAt [Reg.ETH_PSTAT 0, Reg.ETH_PSTAT 1, Reg.ETH_PSTAT 2, Reg.ETH_PSTAT 3, 0x500004])) s t) ∧
  (∀  (s : State), s.upd.fetch = none → exec .fetchTimeout s = .next s)

/-- An activation whose parts all pass writes the commit record for a trial of the staged set, or on a revert of the prior set, and begins
the restart; with a part that fails it ends FAILED, an activation back in STAGING. UPD_CONFIRM counts in a trial alone. A trial whose
conditions hold for HEALTH_S confirms the set, ends the trial and raises the rollback count to the set's; one that reaches HEALTH_TO
falls back to the prior set and restarts. A safety firmware transfer while SKEY is active awaits SAFE_CONFIRM. (R499, R500, R501, R502,
R503, R358, R507) -/
def Obligations.UpdateActivationAndTrial : Prop :=
  (∀ r s q, admitted? (.updActivate r) s = some q → badParts (s.fwSet s.stageSet) = [] →
    ∃ t, exec (.updActivate r) s = .next t ∧ Answered t q 0x0E05 .ok 0 ([]) ∧
      t.commit?.map (fun c => (c.set, c.trial, c.attempts, c.prior)) = some (s.stageSet, true, 0, if s.start.phase = .recovery then 1 - s.stageSet else s.get F.UPD_STAT_SET) ∧ t.updState = usTrial ∧ t.start.phase = .restarting ∧ t.start.restartKind = some (if tn q.tlvs 0x0E07 = 1 then 3 else 4) ∧
      ChangesOnly (.upd :: batonParts) (regsOr (answerWords q) (regsOf 14)) s t) ∧
  (∀ r s q, admitted? (.updActivate r) s = some q → badParts (s.fwSet s.stageSet) ≠ [] →
    ∃ t, exec (.updActivate r) s = .next t ∧ Answered t q 0x0E05 .failed 0 ([]) ∧
      t.updState = usStaging ∧ (∀ k ∈ badParts (s.fwSet s.stageSet), ((t.fwSet s.stageSet).part k).ok = false) ∧ t.upd.recs = s.upd.recs ∧
      ChangesOnly (.upd :: batonParts) (regsOr (answerWords q) (regsOf 14)) s t) ∧
  (∀ r s q, admitted? (.updRevert r) s = some q → badParts (s.fwSet ((s.commit?.map (·.prior)).getD 1)) = [] → s.start.phase ≠ .recovery →
    ∃ t, exec (.updRevert r) s = .next t ∧ Answered t q 0x0E07 .ok 0 ([]) ∧
      t.commit?.map (fun c => (c.set, c.trial, c.attempts, c.prior)) = some (((s.commit?.map (·.prior)).getD 1), true, 0, s.get F.UPD_STAT_SET) ∧ t.updState = usTrial ∧ t.start.phase = .restarting ∧ t.start.restartKind = some (if tn q.tlvs 0x0E07 = 1 then 3 else 4) ∧
      ChangesOnly (.upd :: batonParts) (regsOr (answerWords q) (regsOf 14)) s t) ∧
  (∀ r s q, admitted? (.updRevert r) s = some q → badParts (s.fwSet ((s.commit?.map (·.prior)).getD 1)) ≠ [] →
    ∃ t, exec (.updRevert r) s = .next t ∧ Answered t q 0x0E07 .failed 0 ([]) ∧
      ChangesOnly (batonParts) (answerWords q) s t) ∧
  (∀ r s q, admitted? (.updConfirm r) s = some q →
    ∃ t, exec (.updConfirm r) s = .next t ∧ Answered t q 0x0E06 .ok 0 ([]) ∧
      t.upd.confirmRx = (s.upd.confirmRx || s.updState == usTrial) ∧ t.upd.recs = s.upd.recs ∧
      ChangesOnly (.upd :: batonParts) (answerWords q) s t) ∧
  (∀ r s q, admitted? (.updCfgSet r) s = some q →
    ∃ t, exec (.updCfgSet r) s = .next t ∧ Answered t q 0x0E09 .ok 0 ([]) ∧
      t.rd Reg.UPD_CFG = tn q.tlvs 0x0E08 ∧
      ChangesOnly (.cfgMem :: .upd :: batonParts) (regsOr (answerWords q) (regsAt [Reg.UPD_CFG])) s t) ∧
  (∀ (x : Nat) (c : CommitRec) (s : State), s.upd.heldAt = some x → s.commit? = some c → s.updState = usTrial → s.healthOk = true →
    ∃ t, exec .trialHealthy s = .next t ∧ (t.clk = max s.clk (x + s.get F.UPD_CFG_HEALTH_S * sec)) ∧ (t.commit?.map (fun d => (d.set, d.trial)) = some (c.set, false)) ∧ ((t.fwSet c.set).confirmed = true) ∧ (t.updState = usIdle) ∧ (t.upd.trialAt = none) ∧ (t.get F.KEYS_ROLLBACK_COUNT = if c.svn ≤ 128 then max (s.get F.KEYS_ROLLBACK_COUNT) c.svn else s.get F.KEYS_ROLLBACK_COUNT) ∧
      ChangesOnly [.clk, .upd, .limiters, .evr] (regsOr evWords (regsOr (regsOf 14) (regsAt [Reg.KEYS_ROLLBACK, 0x680004]))) s t) ∧
  (∀  (s : State), (s.upd.heldAt = none ∨ s.updState ≠ usTrial ∨ s.healthOk = false) → exec .trialHealthy s = .next s) ∧
  (∀ (x : Nat) (c : CommitRec) (s : State), s.upd.trialAt = some x → s.commit? = some c → s.updState = usTrial → s.closing = false →
    ∃ t, exec .healthTimeout s = .next t ∧ (t.clk = max s.clk (x + s.get F.UPD_CFG_HEALTH_TO * sec)) ∧ (t.commit?.map (fun d => (d.set, d.trial, d.prior)) = some (c.prior, false, c.set)) ∧ (t.updState = usIdle) ∧ (t.upd.trialAt = none) ∧ (t.start.phase = .restarting) ∧ (t.start.restartKind = some 4) ∧
      ChangesOnly (.clk :: .upd :: batonParts) (regsOr evWords (regsOf 14)) s t) ∧
  (∀  (s : State), (s.upd.trialAt = none ∨ s.updState ≠ usTrial ∨ s.closing = true) → exec .healthTimeout s = .next s) ∧
  (∀  (s : State), s.safe.a.skey = true → s.safe.fw ≠ some (s.activeSet.part 4).digest →
    ∃ t, exec .safetyFwTransfer s = .next t ∧ (t.safe = { s.safe with fw := some (s.activeSet.part 4).digest, reconf := true }) ∧
      ChangesOnly [.safe, .upd] noReg s t) ∧
  (∀  (s : State), (s.safe.a.skey = false ∨ s.safe.fw = some (s.activeSet.part 4).digest) → exec .safetyFwTransfer s = .next s)

/-- An event is queued at the present time, waiting for a bound drill, or counted in DROP when 256 wait; the head of the queue is stored
under the next sequence number, in a full store in the place of the oldest record that gives way, or dropped; it is merged as a repeat,
begins a trigger span, or counts in one. Windows open on the lowest free place, read what passes them and move on ADV and ACK. GO and a
trigger queue an idle channel; the QUEUED channel of the lowest class is activated; its first descriptor runs, ends FAILED or the chain
when it is not valid, and halts the channel where it cannot be read; a descriptor that ends moves its bytes, writes its status word
back, touches no other byte of memory, and the chain goes on or a bound drill decides; a bus error halts the channel, ABORT returns it
to IDLE, RECOVER does so from halted. (R511, R512, R513, R514, R516, R517, R520, R522, R523, R525, R526, R528) -/
def Obligations.RecorderAndDma : Prop :=
  (∀ (e : EvSpec) (s : State), s.evr.queue.length < 256 → s.drillOn 37 = false →
    ∃ t, exec (.eventIngest e) s = .next t ∧ (t.evr = { s.evr with queue := s.evr.queue ++ [⟨⟨s.tsNow, e.code.toNat, e.sev.val, e.tenant.toNat, e.obj.toNat, e.elem.toNat, padTo 12 e.data⟩, .none⟩] }) ∧
      ChangesOnly [.limiters, .evr] noReg s t) ∧
  (∀ (e : EvSpec) (s : State), s.evr.queue.length < 256 → s.drillOn 37 = true → (s.evr.queue.filter fun x => x.dv == .waiting).length < 8 →
    ∃ t, exec (.eventIngest e) s = .next t ∧ (t.evr = { s.evr with queue := s.evr.queue ++ [⟨⟨s.tsNow, e.code.toNat, e.sev.val, e.tenant.toNat, e.obj.toNat, e.elem.toNat, padTo 12 e.data⟩, .waiting⟩] }) ∧
      ChangesOnly [.limiters, .evr] noReg s t) ∧
  (∀ (e : EvSpec) (s : State), s.evr.queue.length < 256 → s.drillOn 37 = true → 8 ≤ (s.evr.queue.filter fun x => x.dv == .waiting).length →
    ∃ t, exec (.eventIngest e) s = .next t ∧ (t.evr.queue.take (s.evr.queue.length + 1) = s.evr.queue ++ [⟨⟨s.tsNow, e.code.toNat, e.sev.val, e.tenant.toNat, e.obj.toNat, e.elem.toNat, padTo 12 e.data⟩, .verdict 0⟩]) ∧ (s.get (F.DRILL_CNT_OVERRUN 37) ≤ t.get (F.DRILL_CNT_OVERRUN 37)) ∧
      ChangesOnly [.limiters, .evr] evWords s t) ∧
  (∀ (e : EvSpec) (s : State), 256 ≤ s.evr.queue.length →
    ∃ t, exec (.eventIngest e) s = .next t ∧ (t.get F.EVR_DROP_COUNT = satAdd (2 ^ (F.EVR_DROP_COUNT.hi + 1 - F.EVR_DROP_COUNT.lo) - 1) (s.get F.EVR_DROP_COUNT) 1) ∧
      ChangesOnly [] (regsAt [Reg.EVR_DROP, 0x780004]) s t) ∧
  (∀ (i : Ingest) (rest : List Ingest) (s : State), s.evr.queue = i :: rest → (i.dv ≠ .waiting ∨ s.drillOn 37 = false) → s.repeats i.ev = false → s.evr.recs.length < 131072 → i.dv ≠ .verdict 1 → s.evr.span = none →
    ∃ t, exec .eventStore s = .next t ∧ (t.evr = { s.evr with queue := rest, recs := s.evr.recs ++ [⟨s.evr.nextSeq, i.ev, 0, false⟩], nextSeq := s.evr.nextSeq + 1 }) ∧
      ChangesOnly [.limiters, .evr] (regsAt [Reg.EVR_STAT, 0x780004]) s t) ∧
  (∀ (i : Ingest) (rest : List Ingest) (s : State), s.evr.queue = i :: rest → (i.dv ≠ .waiting ∨ s.drillOn 37 = false) → s.repeats i.ev = true → i.dv ≠ .verdict 1 →
    ∃ t, exec .eventStore s = .next t ∧ (t.evr = { s.evr with queue := rest, recs := s.evr.recs.map fun x => if x.seq = s.newestSeq then { x with rep := x.rep + 1 } else x }) ∧
      ChangesOnly [.limiters, .evr] noReg s t) ∧
  (∀ (i : Ingest) (rest : List Ingest) (s : State), s.evr.queue = i :: rest → (i.dv ≠ .waiting ∨ s.drillOn 37 = false) → s.repeats i.ev = false → s.evr.recs.length < 131072 → i.dv = .verdict 1 → s.evr.span = none →
    ∃ t, exec .eventStore s = .next t ∧ (t.evr.span.map (·.seq) = some s.evr.nextSeq) ∧ (t.get F.EVR_STAT_TRIG_HELD = 1) ∧
      ChangesOnly [.limiters, .evr] (regsOr evWords (regsAt [Reg.EVR_STAT, 0x780004])) s t) ∧
  (∀ (i : Ingest) (rest : List Ingest) (p : Span) (s : State), s.evr.queue = i :: rest → (i.dv ≠ .waiting ∨ s.drillOn 37 = false) → s.repeats i.ev = false → s.evr.recs.length < 131072 → i.dv ≠ .verdict 1 → s.evr.span = some p →
    ∃ t, exec .eventStore s = .next t ∧ (t.evr.recs = s.evr.recs ++ [⟨s.evr.nextSeq, i.ev, 0, false⟩] ∧ t.evr.nextSeq = s.evr.nextSeq + 1) ∧ (t.evr.span = some { p with left := p.left - 1 }) ∧ (p.left = 1 → t.get F.EVR_STAT_TRIG_DONE = 1) ∧
      ChangesOnly [.limiters, .evr] (regsOr evWords (regsAt [Reg.EVR_STAT, 0x780004])) s t) ∧
  (∀ (i : Ingest) (rest : List Ingest) (s : State), s.evr.queue = i :: rest → (i.dv ≠ .waiting ∨ s.drillOn 37 = false) → i.dv = .verdict 1 → s.repeats i.ev = false → s.evr.recs.length < 131072 → s.evr.span.isSome = true →
    ∃ t, exec .eventStore s = .next t ∧ (t.evr.recs = s.evr.recs ++ [⟨s.evr.nextSeq, i.ev, 0, false⟩]) ∧ (t.get F.EVR_OVW_TRIG_MISSED = satAdd (2 ^ (F.EVR_OVW_TRIG_MISSED.hi + 1 - F.EVR_OVW_TRIG_MISSED.lo) - 1) (s.get F.EVR_OVW_TRIG_MISSED) 1) ∧ (t.evr.span.map (·.seq) = s.evr.span.map (·.seq)) ∧
      ChangesOnly [.limiters, .evr] (regsOr evWords (regsAt [Reg.EVR_STAT, Reg.EVR_OVW, 0x780004])) s t) ∧
  (∀ (i : Ingest) (rest : List Ingest) (s : State), s.evr.queue = i :: rest → (i.dv ≠ .waiting ∨ s.drillOn 37 = false) → s.repeats i.ev = true → i.dv = .verdict 1 → s.evr.span = none →
    ∃ t, exec .eventStore s = .next t ∧ (t.evr.recs = s.evr.recs.map (fun x => if x.seq = s.newestSeq then { x with rep := x.rep + 1 } else x)) ∧ (t.evr.span.map (·.seq) = some s.newestSeq) ∧
      ChangesOnly [.limiters, .evr] (regsOr evWords (regsAt [Reg.EVR_STAT, 0x780004])) s t) ∧
  (∀ (i : Ingest) (rest : List Ingest) (s : State), s.evr.queue = i :: rest → (i.dv ≠ .waiting ∨ s.drillOn 37 = false) → s.repeats i.ev = false → 131072 ≤ s.evr.recs.length → s.evr.recs.find? (fun x => decide (x.ev.sev ≥ i.ev.sev) && !s.inSpan x.seq) = none →
    ∃ t, exec .eventStore s = .next t ∧ (t.evr = { s.evr with queue := rest }) ∧ (t.get F.EVR_DROP_COUNT = satAdd (2 ^ (F.EVR_DROP_COUNT.hi + 1 - F.EVR_DROP_COUNT.lo) - 1) (s.get F.EVR_DROP_COUNT) 1) ∧
      ChangesOnly [.limiters, .evr] (regsAt [Reg.EVR_DROP, 0x780004]) s t) ∧
  (∀ (i : Ingest) (rest : List Ingest) (x : Rec) (s : State), s.evr.queue = i :: rest → (i.dv ≠ .waiting ∨ s.drillOn 37 = false) → s.repeats i.ev = false → 131072 ≤ s.evr.recs.length → s.evr.recs.find? (fun x => decide (x.ev.sev ≥ i.ev.sev) && !s.inSpan x.seq) = some x → i.dv ≠ .verdict 1 → s.evr.span = none →
    ∃ t, exec .eventStore s = .next t ∧ (t.evr.recs = (s.evr.recs.filter fun y => y.seq != x.seq) ++ [⟨s.evr.nextSeq, i.ev, 0, false⟩]) ∧ (t.get (⟨Reg.EVR_OVWCNT, 31, 0⟩ : Fld) = satAdd (2 ^ ((⟨Reg.EVR_OVWCNT, 31, 0⟩ : Fld).hi + 1 - (⟨Reg.EVR_OVWCNT, 31, 0⟩ : Fld).lo) - 1) (s.get (⟨Reg.EVR_OVWCNT, 31, 0⟩ : Fld)) 1) ∧
      Leaves [.pending, .clk, .mem, .safe, .keys, .upd, .cfgMem, .baton, .out] s t) ∧
  (∀  (s : State), (s.evr.queue = [] ∨ ∃ i rest, s.evr.queue = i :: rest ∧ i.dv = .waiting ∧ s.drillOn 37 = true) → exec .eventStore s = .next s) ∧
  (∀  (s : State),
    ∃ t, exec .evrTrigctlRel s = .next t ∧ (t.evr = { s.evr with span := none }) ∧ (t.get F.EVR_STAT_TRIG_HELD = 0) ∧ (t.get F.EVR_STAT_TRIG_DONE = 0) ∧
      ChangesOnly [.limiters, .evr] (regsAt [Reg.EVR_STAT]) s t) ∧
  (∀ (w : Fin 16) (s : State), s.evr.wins.length = 16 → s.winOpen w.val = true → bitsOf (s.rd 0x780014) 15 8 = 1 + w.val → (s.win w.val).latched ≠ 0 →
    ∃ t, exec (.evrWctlAdv w) s = .next t ∧ (t.win w.val = { s.win w.val with cursor := max (s.win w.val).cursor ((s.win w.val).latched + 1) }) ∧ (∀ k, k ≠ w.val → t.win k = s.win k) ∧
      ChangesOnly [.limiters, .evr] noReg s t) ∧
  (∀ (w : Fin 16) (s : State), (s.winOpen w.val = false ∨ bitsOf (s.rd 0x780014) 15 8 ≠ 1 + w.val ∨ (s.win w.val).latched = 0) → exec (.evrWctlAdv w) s = .next s) ∧
  (∀ r s q w, admitted? (.evrOpen r) s = some q → s.evr.wins.length = 16 → w < 16 → s.winOpen w = false → (∀ k, k < w → s.winOpen k = true) →
    ∃ t, exec (.evrOpen r) s = .next t ∧ Answered t q 0x0F01 .ok 0 (tlv 0x0F02 (natBE 1 w)) ∧ t.winOpen w = true ∧ t.get (F.EVR_WCFG_TAG w) = q.tag % 256 ∧
      t.get (F.EVR_WCFG_SEVMAX w) = beAt (tv q.tlvs 0x0F01) 0 1 ∧ t.rd (Reg.EVR_WMASK w) = beAt (tv q.tlvs 0x0F01) 4 4 ∧ t.rd (Reg.EVR_WLOST w) = 0 ∧
      t.win w = ⟨q.owner, if s.evr.recs = [] then s.evr.nextSeq else s.oldestSeq, 0⟩ ∧
      ChangesOnly batonParts (regsOr (answerWords q) (regsAt [Reg.EVR_WCFG w, Reg.EVR_WMASK w, Reg.EVR_WLOST w])) s t) ∧
  (∀ r s q, admitted? (.evrOpen r) s = some q → (∀ k, k < 16 → s.winOpen k = true) →
    ∃ t, exec (.evrOpen r) s = .next t ∧ Answered t q 0x0F01 .busy 0 ([]) ∧
      ChangesOnly (batonParts) (answerWords q) s t) ∧
  (∀ r s q, admitted? (.evrClose r) s = some q →
    ∃ t, exec (.evrClose r) s = .next t ∧ Answered t q 0x0F02 .ok 0 ([]) ∧
      t.winOpen (tn q.tlvs 0x0F02) = false ∧ t.evr.recs = s.evr.recs ∧
      ChangesOnly (batonParts) (regsOr (answerWords q) (regsAt [Reg.EVR_WCFG (tn q.tlvs 0x0F02), Reg.EVR_WMASK (tn q.tlvs 0x0F02), Reg.EVR_WLOST (tn q.tlvs 0x0F02)])) s t) ∧
  (∀ r s q, admitted? (.evrRead r) s = some q →
    ∃ t, exec (.evrRead r) s = .next t ∧ Answered t q 0x0F03 .ok 0 ((((s.winRecs (tn q.tlvs 0x0F02) (max (s.win (tn q.tlvs 0x0F02)).cursor (tn q.tlvs 0x0F03))).take 30).map fun x => tlv 0x0F05 (natBE 8 x.seq ++ x.bytes)).flatten ++ tlv 0x0F06 (natBE 8 (s.win (tn q.tlvs 0x0F02)).cursor ++ natBE 4 (s.rd (Reg.EVR_WLOST (tn q.tlvs 0x0F02))) ++ natBE 8 s.newestSeq ++ natBE 8 s.oldestSeq)) ∧
      t.evr.wins = s.evr.wins ∧ t.evr.recs = s.evr.recs.map (fun x => if (((s.winRecs (tn q.tlvs 0x0F02) (max (s.win (tn q.tlvs 0x0F02)).cursor (tn q.tlvs 0x0F03))).take 30).map (·.seq)).contains x.seq then { x with shown := true } else x) ∧
      ChangesOnly (batonParts) (answerWords q) s t) ∧
  (∀ r s q, admitted? (.evrAck r) s = some q → s.evr.wins.length = 16 →
    ∃ t, exec (.evrAck r) s = .next t ∧ Answered t q 0x0F04 .ok 0 ([]) ∧
      (t.win (tn q.tlvs 0x0F02)).cursor = max (s.win (tn q.tlvs 0x0F02)).cursor (tn q.tlvs 0x0F04 + 1) ∧
      ChangesOnly (batonParts) (answerWords q) s t) ∧
  (∀ r s q, admitted? (.evrCfg r) s = some q →
    ∃ t, exec (.evrCfg r) s = .next t ∧ Answered t q 0x0F05 .ok 0 ([]) ∧
      t.rd Reg.EVR_CFG = beAt (tv q.tlvs 0x0F07) 0 4 ∧ t.rd Reg.EVR_TRIG = beAt (tv q.tlvs 0x0F07) 4 4 ∧
      ChangesOnly (.cfgMem :: batonParts) (regsOr (answerWords q) (regsAt [Reg.EVR_CFG, Reg.EVR_TRIG])) s t) ∧
  (∀ r s q, admitted? (.evrTrigRelease r) s = some q →
    ∃ t, exec (.evrTrigRelease r) s = .next t ∧ Answered t q 0x0F06 .ok 0 ([]) ∧
      t.evr.span = none ∧ t.get F.EVR_STAT_TRIG_HELD = 0 ∧
      ChangesOnly (batonParts) (regsOr (answerWords q) (regsAt [Reg.EVR_STAT])) s t) ∧
  (∀ (c : Fin 32) (s : State), s.dmaState c.val = dIdle → s.mode ≠ modeHoldup →
    ∃ t, exec (.dmaGo c) s = .next t ∧ (t.dmaState c.val = dQueued) ∧
      ChangesOnly [] (regsAt [Reg.DMA_CHSTAT c.val, Reg.DMA_GSTAT, Reg.DMA_HALT]) s t) ∧
  (∀ (c : Fin 32) (s : State), (s.dmaState c.val ≠ dIdle ∨ s.mode = modeHoldup) → exec (.dmaGo c) s = .next s) ∧
  (∀ (src : Fin 4) (s : State), src.val ≠ 0 → s.mode ≠ modeHoldup → s.blkOn 16 = true →
    ∃ t, exec (.dmaTrigger src) s = .next t ∧ (∀ c, c < 32 → (s.get (F.DMA_CHCTL_TRIG c) ≠ src.val ∨ s.dmaState c = dHalted → t.rd (Reg.DMA_CHSTAT c) = s.rd (Reg.DMA_CHSTAT c)) ∧
      (s.get (F.DMA_CHCTL_TRIG c) = src.val → s.dmaState c = dIdle → t.dmaState c = dQueued) ∧
      (s.get (F.DMA_CHCTL_TRIG c) = src.val → (s.dmaState c = dQueued ∨ s.dmaState c = dActive) → t.dmaState c = s.dmaState c ∧ t.get (F.DMA_CHSTAT_TRIG_OVR c) = satAdd (2 ^ ((F.DMA_CHSTAT_TRIG_OVR c).hi + 1 - (F.DMA_CHSTAT_TRIG_OVR c).lo) - 1) (s.get (F.DMA_CHSTAT_TRIG_OVR c)) 1)) ∧
      ChangesOnly [] (regsOf 16) s t) ∧
  (∀ (src : Fin 4) (s : State), (src.val = 0 ∨ s.mode = modeHoldup ∨ s.blkOn 16 = false) → exec (.dmaTrigger src) s = .next s) ∧
  (∀ (c : Fin 32) (s : State), s.dma.length = 32 → s.dmaCount dActive < 16 → s.blkOn 16 = true → s.dmaState c.val = dQueued → (∀ k : Fin 32, s.dmaState k.val = dQueued → (fetchDesc s (s.dmaCh c.val).first.toNat).cls < (fetchDesc s (s.dmaCh k.val).first.toNat).cls ∨
      (fetchDesc s (s.dmaCh c.val).first.toNat).cls = (fetchDesc s (s.dmaCh k.val).first.toNat).cls ∧ c.val ≤ k.val) → dmaRange (s.dmaCh c.val).first.toNat 32 = true → (inSram (s.dmaCh c.val).first.toNat = false ∨ s.pdOn 2 = true) → bit1 (fetchDesc s (s.dmaCh c.val).first.toNat).w0.toNat 31 = 1 → s.descBad (fetchDesc s (s.dmaCh c.val).first.toNat) = false →
    ∃ t, exec .dmaActivate s = .next t ∧ (t.dmaCh c.val = { s.dmaCh c.val with addr := BitVec.ofNat 64 (s.dmaCh c.val).first.toNat, desc := some (fetchDesc s (s.dmaCh c.val).first.toNat), since := s.clk, await := false, bytes := 0 }) ∧ (t.dmaState c.val = dActive) ∧
      ChangesOnly [.dma, .start] (regsAt [Reg.DMA_CHSTAT c.val, Reg.DMA_GSTAT, Reg.DMA_HALT]) s t) ∧
  (∀ (c : Fin 32) (s : State), s.dma.length = 32 → s.dmaCount dActive < 16 → s.blkOn 16 = true → s.dmaState c.val = dQueued → (∀ k : Fin 32, s.dmaState k.val = dQueued → (fetchDesc s (s.dmaCh c.val).first.toNat).cls < (fetchDesc s (s.dmaCh k.val).first.toNat).cls ∨
      (fetchDesc s (s.dmaCh c.val).first.toNat).cls = (fetchDesc s (s.dmaCh k.val).first.toNat).cls ∧ c.val ≤ k.val) → dmaRange (s.dmaCh c.val).first.toNat 32 = true → (inSram (s.dmaCh c.val).first.toNat = false ∨ s.pdOn 2 = true) → bit1 (fetchDesc s (s.dmaCh c.val).first.toNat).w0.toNat 31 = 1 → s.descBad (fetchDesc s (s.dmaCh c.val).first.toNat) = true →
    ∃ t, exec .dmaActivate s = .next t ∧ ((t.dmaCh c.val).desc = none ∧ t.dmaState c.val = dIdle) ∧ ((∀ i, i < 4 → (inSram ((s.dmaCh c.val).first.toNat + i) = false ∨ s.pdOn 2 = true ∧ (inSramDW ((s.dmaCh c.val).first.toNat + i) = false ∨ s.get F.PACER_STAT_STATE ∉ [2, 3]))) → t.memLdWord (s.dmaCh c.val).first.toNat = putBits (putBits (fetchDesc s (s.dmaCh c.val).first.toNat).w0.toNat 31 31 0) 7 4 2) ∧
      ChangesOnly [.dma, .mem, .start, .ledger] (regsAt [Reg.DMA_CHSTAT c.val, Reg.DMA_GSTAT, Reg.DMA_HALT, 0x800004]) s t) ∧
  (∀ (c : Fin 32) (s : State), s.dma.length = 32 → s.dmaCount dActive < 16 → s.blkOn 16 = true → s.dmaState c.val = dQueued → (∀ k : Fin 32, s.dmaState k.val = dQueued → (fetchDesc s (s.dmaCh c.val).first.toNat).cls < (fetchDesc s (s.dmaCh k.val).first.toNat).cls ∨
      (fetchDesc s (s.dmaCh c.val).first.toNat).cls = (fetchDesc s (s.dmaCh k.val).first.toNat).cls ∧ c.val ≤ k.val) → dmaRange (s.dmaCh c.val).first.toNat 32 = true → (inSram (s.dmaCh c.val).first.toNat = false ∨ s.pdOn 2 = true) → bit1 (fetchDesc s (s.dmaCh c.val).first.toNat).w0.toNat 31 = 0 →
    ∃ t, exec .dmaActivate s = .next t ∧ ((t.dmaCh c.val).desc = none ∧ t.dmaState c.val = dIdle) ∧
      ChangesOnly [.dma] (regsAt [Reg.DMA_CHSTAT c.val, Reg.DMA_GSTAT, Reg.DMA_HALT]) s t) ∧
  (∀ (c : Fin 32) (s : State), s.dma.length = 32 → s.dmaCount dActive < 16 → s.blkOn 16 = true → s.dmaState c.val = dQueued → (∀ k : Fin 32, s.dmaState k.val = dQueued → (fetchDesc s (s.dmaCh c.val).first.toNat).cls < (fetchDesc s (s.dmaCh k.val).first.toNat).cls ∨
      (fetchDesc s (s.dmaCh c.val).first.toNat).cls = (fetchDesc s (s.dmaCh k.val).first.toNat).cls ∧ c.val ≤ k.val) → (dmaRange (s.dmaCh c.val).first.toNat 32 = false ∨ inSram (s.dmaCh c.val).first.toNat = true ∧ s.pdOn 2 = false) →
    ∃ t, exec .dmaActivate s = .next t ∧ (t.dmaState c.val = dHalted) ∧ (t.get (F.DMA_CHSTAT_ERRDIR c.val) = 0 ∧ t.get (F.DMA_CHSTAT_ERRCAUSE c.val) = if dmaRange (s.dmaCh c.val).first.toNat 32 = false then 1 else 3) ∧
      ChangesOnly [.dma, .limiters, .evr] (regsOr evWords (regsAt [Reg.DMA_CHSTAT c.val, Reg.DMA_GSTAT, Reg.DMA_HALT, 0x800004])) s t) ∧
  (∀  (s : State), (16 ≤ s.dmaCount dActive ∨ s.blkOn 16 = false ∨ ∀ c, c < 32 → s.dmaState c ≠ dQueued) → exec .dmaActivate s = .next s) ∧
  (∀ (c : Fin 32) (d : Desc) (s : State), s.dma.length = 32 → s.dmaState c.val = dActive → (s.dmaCh c.val).desc = some d → (s.dmaCh c.val).await = false → s.drillOn (4 + c.val) = false → d.next = 0 →
    ∃ t, exec (.descriptorDone c) s = .next t ∧ (t.dmaState c.val = dIdle) ∧ ((t.dmaCh c.val).desc = none) ∧ ((∀ i, i < 4 → (inSram ((s.dmaCh c.val).addr.toNat + i) = false ∨ s.pdOn 2 = true ∧ (inSramDW ((s.dmaCh c.val).addr.toNat + i) = false ∨ s.get F.PACER_STAT_STATE ∉ [2, 3]))) → t.memLdWord (s.dmaCh c.val).addr.toNat = putBits (putBits d.w0.toNat 31 31 0) 7 4 1) ∧ (∀ x, (x < (s.dmaCh c.val).addr.toNat ∨ (s.dmaCh c.val).addr.toNat + 4 ≤ x) → (x < d.dst.toNat ∨ d.dst.toNat + spanOf d.dstFix d.len.toNat ≤ x) → t.memLd x = s.memLd x) ∧ (d.srcFix = false → d.dstFix = false → (d.src.toNat + d.len.toNat ≤ d.dst.toNat ∨ d.dst.toNat + d.len.toNat ≤ d.src.toNat) → ∀ i, i < d.len.toNat → (inSram (d.dst.toNat + i) = false ∨ s.pdOn 2 = true ∧ (inSramDW (d.dst.toNat + i) = false ∨ s.get F.PACER_STAT_STATE ∉ [2, 3])) → (d.dst.toNat + i < (s.dmaCh c.val).addr.toNat ∨ (s.dmaCh c.val).addr.toNat + 4 ≤ d.dst.toNat + i) → t.memLd (d.dst.toNat + i) = s.memLd (d.src.toNat + i)) ∧
      ChangesOnly [.dma, .mem, .start, .ledger] (regsAt [Reg.DMA_CHSTAT c.val, Reg.DMA_GSTAT, Reg.DMA_HALT, 0x800004]) s t) ∧
  (∀ (c : Fin 32) (d : Desc) (s : State), s.dma.length = 32 → s.dmaState c.val = dActive → (s.dmaCh c.val).desc = some d → (s.dmaCh c.val).await = false → s.drillOn (4 + c.val) = false → s.closing = false → d.next ≠ 0 → dmaRange d.next.toNat 32 = true → (inSram d.next.toNat = false ∨ s.pdOn 2 = true) → (d.next.toNat + 32 ≤ d.dst.toNat ∨ d.dst.toNat + spanOf d.dstFix d.len.toNat ≤ d.next.toNat) → (d.next.toNat + 32 ≤ (s.dmaCh c.val).addr.toNat ∨ (s.dmaCh c.val).addr.toNat + 4 ≤ d.next.toNat) → bit1 (fetchDesc s d.next.toNat).w0.toNat 31 = 1 → s.descBad (fetchDesc s d.next.toNat) = false →
    ∃ t, exec (.descriptorDone c) s = .next t ∧ (t.dmaCh c.val = { s.dmaCh c.val with addr := d.next, desc := some (fetchDesc s d.next.toNat), since := s.clk, await := false, bytes := 0 }) ∧ (t.dmaState c.val = dActive) ∧ ((∀ i, i < 4 → (inSram ((s.dmaCh c.val).addr.toNat + i) = false ∨ s.pdOn 2 = true ∧ (inSramDW ((s.dmaCh c.val).addr.toNat + i) = false ∨ s.get F.PACER_STAT_STATE ∉ [2, 3]))) → t.memLdWord (s.dmaCh c.val).addr.toNat = putBits (putBits d.w0.toNat 31 31 0) 7 4 1) ∧ (∀ x, (x < (s.dmaCh c.val).addr.toNat ∨ (s.dmaCh c.val).addr.toNat + 4 ≤ x) → (x < d.dst.toNat ∨ d.dst.toNat + spanOf d.dstFix d.len.toNat ≤ x) → t.memLd x = s.memLd x) ∧
      ChangesOnly [.dma, .mem, .start, .ledger] (regsAt [Reg.DMA_CHSTAT c.val, Reg.DMA_GSTAT, Reg.DMA_HALT, 0x800004]) s t) ∧
  (∀ (c : Fin 32) (d : Desc) (s : State), s.dma.length = 32 → s.dmaState c.val = dActive → (s.dmaCh c.val).desc = some d → (s.dmaCh c.val).await = false → s.drillOn (4 + c.val) = true → s.closing = false → (s.inst (4 + c.val)).queue.length < 8 →
    ∃ t, exec (.descriptorDone c) s = .next t ∧ (t.dmaState c.val = dActive) ∧ ((t.dmaCh c.val).desc = some d ∧ (t.dmaCh c.val).await = true) ∧ ((∀ i, i < 4 → (inSram ((s.dmaCh c.val).addr.toNat + i) = false ∨ s.pdOn 2 = true ∧ (inSramDW ((s.dmaCh c.val).addr.toNat + i) = false ∨ s.get F.PACER_STAT_STATE ∉ [2, 3]))) → t.memLdWord (s.dmaCh c.val).addr.toNat = putBits (putBits d.w0.toNat 31 31 0) 7 4 1) ∧ (∀ x, (x < (s.dmaCh c.val).addr.toNat ∨ (s.dmaCh c.val).addr.toNat + 4 ≤ x) → (x < d.dst.toNat ∨ d.dst.toNat + spanOf d.dstFix d.len.toNat ≤ x) → t.memLd x = s.memLd x) ∧
      ChangesOnly [.dma, .mem, .start, .ledger, .drill] (regsAt [0x800004]) s t) ∧
  (∀ (c : Fin 32) (s : State), (s.dmaState c.val ≠ dActive ∨ (s.dmaCh c.val).desc = none ∨ (s.dmaCh c.val).await = true) → exec (.descriptorDone c) s = .next s) ∧
  (∀ (c : Fin 32) (moved : Nat) (addr : W64) (write : Bool) (cause : DmaCause) (d : Desc) (s : State), s.dma.length = 32 → s.dmaState c.val = dActive → (s.dmaCh c.val).desc = some d → (s.dmaCh c.val).await = false →
    ∃ t, exec (.dmaBusError c moved addr write cause) s = .next t ∧ (t.dmaState c.val = dHalted) ∧ ((t.dmaCh c.val).desc = none) ∧ (t.get (F.DMA_CHSTAT_ERRDIR c.val) = b2n write) ∧ (t.get (F.DMA_CHSTAT_ERRCAUSE c.val) = (match cause with | .noTarget => 1 | .ecc => 2 | .gated => 3)) ∧ ((∀ i, i < 4 → (inSram ((s.dmaCh c.val).addr.toNat + i) = false ∨ s.pdOn 2 = true ∧ (inSramDW ((s.dmaCh c.val).addr.toNat + i) = false ∨ s.get F.PACER_STAT_STATE ∉ [2, 3]))) → t.memLdWord (s.dmaCh c.val).addr.toNat = putBits (putBits d.w0.toNat 31 31 0) 7 4 2) ∧ (∀ x, (x < (s.dmaCh c.val).addr.toNat ∨ (s.dmaCh c.val).addr.toNat + 4 ≤ x) → (x < d.dst.toNat ∨ d.dst.toNat + spanOf d.dstFix d.len.toNat ≤ x) → t.memLd x = s.memLd x) ∧ (d.srcFix = false → d.dstFix = false → (d.src.toNat + d.len.toNat ≤ d.dst.toNat ∨ d.dst.toNat + d.len.toNat ≤ d.src.toNat) → ∀ i, i < min moved (d.len.toNat - 1) → (inSram (d.dst.toNat + i) = false ∨ s.pdOn 2 = true ∧ (inSramDW (d.dst.toNat + i) = false ∨ s.get F.PACER_STAT_STATE ∉ [2, 3])) → (d.dst.toNat + i < (s.dmaCh c.val).addr.toNat ∨ (s.dmaCh c.val).addr.toNat + 4 ≤ d.dst.toNat + i) → t.memLd (d.dst.toNat + i) = s.memLd (d.src.toNat + i)) ∧
      ChangesOnly [.dma, .mem, .start, .ledger, .limiters, .evr] (regsOr evWords (regsAt [Reg.DMA_CHSTAT c.val, Reg.DMA_GSTAT, Reg.DMA_HALT, 0x800004])) s t) ∧
  (∀ (c : Fin 32) (moved : Nat) (addr : W64) (write : Bool) (cause : DmaCause) (s : State), (s.dmaState c.val ≠ dActive ∨ (s.dmaCh c.val).desc = none ∨ (s.dmaCh c.val).await = true) → exec (.dmaBusError c moved addr write cause) s = .next s) ∧
  (∀ (c : Fin 32) (moved : Nat) (ack : Bool) (s : State), s.dmaState c.val = dQueued →
    ∃ t, exec (.dmaAbort c moved ack) s = .next t ∧ (t.dmaState c.val = dIdle) ∧
      ChangesOnly [] (regsAt [Reg.DMA_CHSTAT c.val, Reg.DMA_GSTAT, Reg.DMA_HALT]) s t) ∧
  (∀ (c : Fin 32) (moved : Nat) (d : Desc) (s : State), s.dma.length = 32 → s.dmaState c.val = dActive → (s.dmaCh c.val).desc = some d → (s.dmaCh c.val).await = false →
    ∃ t, exec (.dmaAbort c moved false) s = .next t ∧ (t.dmaState c.val = dIdle) ∧ ((t.dmaCh c.val).desc = none) ∧ ((∀ i, i < 4 → (inSram ((s.dmaCh c.val).addr.toNat + i) = false ∨ s.pdOn 2 = true ∧ (inSramDW ((s.dmaCh c.val).addr.toNat + i) = false ∨ s.get F.PACER_STAT_STATE ∉ [2, 3]))) → t.memLdWord (s.dmaCh c.val).addr.toNat = putBits (putBits d.w0.toNat 31 31 0) 7 4 2) ∧ (∀ x, (x < (s.dmaCh c.val).addr.toNat ∨ (s.dmaCh c.val).addr.toNat + 4 ≤ x) → (x < d.dst.toNat ∨ d.dst.toNat + spanOf d.dstFix d.len.toNat ≤ x) → t.memLd x = s.memLd x) ∧ (d.srcFix = false → d.dstFix = false → (d.src.toNat + d.len.toNat ≤ d.dst.toNat ∨ d.dst.toNat + d.len.toNat ≤ d.src.toNat) → ∀ i, i < min moved (d.len.toNat - 1) → (inSram (d.dst.toNat + i) = false ∨ s.pdOn 2 = true ∧ (inSramDW (d.dst.toNat + i) = false ∨ s.get F.PACER_STAT_STATE ∉ [2, 3])) → (d.dst.toNat + i < (s.dmaCh c.val).addr.toNat ∨ (s.dmaCh c.val).addr.toNat + 4 ≤ d.dst.toNat + i) → t.memLd (d.dst.toNat + i) = s.memLd (d.src.toNat + i)) ∧
      ChangesOnly [.dma, .mem, .start, .ledger] (regsAt [Reg.DMA_CHSTAT c.val, Reg.DMA_GSTAT, Reg.DMA_HALT, 0x800004]) s t) ∧
  (∀ (c : Fin 32) (moved : Nat) (d : Desc) (s : State), s.dma.length = 32 → s.dmaState c.val = dActive → (s.dmaCh c.val).desc = some d → (s.dmaCh c.val).await = false →
    ∃ t, exec (.dmaAbort c moved true) s = .next t ∧ (t.dmaState c.val = dIdle) ∧ ((t.dmaCh c.val).desc = none) ∧ ((∀ i, i < 4 → (inSram ((s.dmaCh c.val).addr.toNat + i) = false ∨ s.pdOn 2 = true ∧ (inSramDW ((s.dmaCh c.val).addr.toNat + i) = false ∨ s.get F.PACER_STAT_STATE ∉ [2, 3]))) → t.memLdWord (s.dmaCh c.val).addr.toNat = putBits (putBits d.w0.toNat 31 31 0) 7 4 1) ∧ (∀ x, (x < (s.dmaCh c.val).addr.toNat ∨ (s.dmaCh c.val).addr.toNat + 4 ≤ x) → (x < d.dst.toNat ∨ d.dst.toNat + spanOf d.dstFix d.len.toNat ≤ x) → t.memLd x = s.memLd x) ∧ (d.srcFix = false → d.dstFix = false → (d.src.toNat + d.len.toNat ≤ d.dst.toNat ∨ d.dst.toNat + d.len.toNat ≤ d.src.toNat) → ∀ i, i < d.len.toNat → (inSram (d.dst.toNat + i) = false ∨ s.pdOn 2 = true ∧ (inSramDW (d.dst.toNat + i) = false ∨ s.get F.PACER_STAT_STATE ∉ [2, 3])) → (d.dst.toNat + i < (s.dmaCh c.val).addr.toNat ∨ (s.dmaCh c.val).addr.toNat + 4 ≤ d.dst.toNat + i) → t.memLd (d.dst.toNat + i) = s.memLd (d.src.toNat + i)) ∧
      ChangesOnly [.dma, .mem, .start, .ledger] (regsAt [Reg.DMA_CHSTAT c.val, Reg.DMA_GSTAT, Reg.DMA_HALT, 0x800004]) s t) ∧
  (∀ (c : Fin 32) (moved : Nat) (ack : Bool) (s : State), s.dma.length = 32 → s.dmaState c.val = dActive → ((s.dmaCh c.val).desc = none ∨ (s.dmaCh c.val).await = true) →
    ∃ t, exec (.dmaAbort c moved ack) s = .next t ∧ (t.dmaState c.val = dIdle) ∧ ((t.dmaCh c.val).desc = none) ∧
      ChangesOnly [.dma] (regsAt [Reg.DMA_CHSTAT c.val, Reg.DMA_GSTAT, Reg.DMA_HALT]) s t) ∧
  (∀ (c : Fin 32) (moved : Nat) (ack : Bool) (s : State), (s.dmaState c.val = dIdle ∨ s.dmaState c.val = dHalted) → exec (.dmaAbort c moved ack) s = .next s) ∧
  (∀ (c : Fin 32) (s : State), s.dmaState c.val = dHalted →
    ∃ t, exec (.dmaChctlRecover c) s = .next t ∧ (t.dmaState c.val = dIdle) ∧
      ChangesOnly [.limiters, .evr] (regsOr evWords (regsAt [Reg.DMA_CHSTAT c.val, Reg.DMA_GSTAT, Reg.DMA_HALT])) s t) ∧
  (∀ (c : Fin 32) (s : State), s.dmaState c.val ≠ dHalted → exec (.dmaChctlRecover c) s = .next s) ∧
  (∀ r s q, admitted? (.dmaStatus r) s = some q →
    ∃ t, exec (.dmaStatus r) s = .next t ∧ Answered t q 0x1001 .ok 0 (tlv 0x1002 (natBE 4 (s.rd (Reg.DMA_CHSTAT (tn q.tlvs 0x1001))) ++ ((s.dmaSnap (tn q.tlvs 0x1001)).map (natBE 4)).flatten)) ∧
      ChangesOnly (batonParts) (answerWords q) s t) ∧
  (∀ r s q, admitted? (.dmaRecover r) s = some q → s.dmaState (tn q.tlvs 0x1001) = dHalted →
    ∃ t, exec (.dmaRecover r) s = .next t ∧ Answered t q 0x1002 .ok 0 ([]) ∧
      t.dmaState (tn q.tlvs 0x1001) = dIdle ∧
      ChangesOnly (batonParts) (regsOr (answerWords q) (regsAt [Reg.DMA_CHSTAT (tn q.tlvs 0x1001), Reg.DMA_GSTAT, Reg.DMA_HALT])) s t)

/-- A conversion in an analog input mode gives UIO_VAL, the time, and element 1 of the assigned object its value, and in mode 6 UIO_VAL is
the number of pulses of the last second; a sample out of range sets the fault bits, with one event, and leaves the value. A DI level
counts once it has held for its filter. A filtered pulse counts. When the field supply is lost every driver is at high impedance and
every output channel shows NOFLD and OVERLOAD; both clear when it returns. A DO channel at its limit for 10 ms switches off and tries
again 1 s later. NOFLD sets below 17.0 V and clears above it. UIO_CFG writes the channel's two registers, UIO_ASSIGN its object. (R541,
R542, R543, R544, R545, R546) -/
def Obligations.UniversalIo : Prop :=
  (∀ (n : Fin 16) (x : UioSample) (s : State), n.val < s.uio.length → s.blkOn 18 = true → s.uioMode n.val ∈ [1, 2, 3, 4] → uioFault (s.uioMode n.val) x = (false, false, false) → s.get (F.UIO_STAT_OPEN n.val) + s.get (F.UIO_STAT_SHORT n.val) + s.get (F.UIO_STAT_OVERRANGE n.val) = 0 →
    ∃ t, exec (.uioConversion n x) s = .next t ∧ (t.rd (Reg.UIO_VAL n.val) = (s.uioReading n.val x).toNat) ∧ (t.get (F.UIO_STAT_COLD n.val) = 0) ∧ ((t.uioCh n.val).tconv = s.tsNow) ∧ (∀ e, s.elem? (s.uioCh n.val).obj 1 = some e → (t.elem? (s.uioCh n.val).obj 1).map (fun y => (y.value, y.ts, y.src)) = some (BitVec.ofNat 64 (s.uioReading n.val x).toNat, s.tsNow, qGood)) ∧
      ChangesOnly [.estate, .uio] (regsAt [Reg.UIO_STAT n.val, Reg.UIO_VAL n.val]) s t) ∧
  (∀ (n : Fin 16) (x : UioSample) (op sh ov : Bool) (s : State), n.val < s.uio.length → s.blkOn 18 = true → s.uioMode n.val ∈ [2, 3] → uioFault (s.uioMode n.val) x = (op, sh, ov) → (op || sh || ov) = true → s.get (F.UIO_STAT_OPEN n.val) + s.get (F.UIO_STAT_SHORT n.val) + s.get (F.UIO_STAT_OVERRANGE n.val) = 0 →
    ∃ t, exec (.uioConversion n x) s = .next t ∧ (t.get (F.UIO_STAT_OPEN n.val) = b2n op) ∧ (t.get (F.UIO_STAT_SHORT n.val) = b2n sh) ∧ (t.get (F.UIO_STAT_OVERRANGE n.val) = b2n ov) ∧ ((t.uioCh n.val).fault = some s.clk) ∧
      ChangesOnly [.estate, .uio, .limiters, .evr] (regsOr evWords (regsAt [Reg.UIO_STAT n.val, 0x900004])) s t) ∧
  (∀ (n : Fin 16) (x : UioSample) (s : State), n.val < s.uio.length → s.blkOn 18 = true → s.uioMode n.val ∈ [2, 3] → uioFault (s.uioMode n.val) x = (false, false, false) → s.get (F.UIO_STAT_OPEN n.val) + s.get (F.UIO_STAT_SHORT n.val) + s.get (F.UIO_STAT_OVERRANGE n.val) > 0 →
    ∃ t, exec (.uioConversion n x) s = .next t ∧ (t.get (F.UIO_STAT_OPEN n.val) = 0 ∧ t.get (F.UIO_STAT_SHORT n.val) = 0 ∧ t.get (F.UIO_STAT_OVERRANGE n.val) = 0) ∧ ((t.uioCh n.val).fault = none) ∧ (t.rd (Reg.UIO_VAL n.val) = (s.uioReading n.val x).toNat) ∧
      ChangesOnly [.estate, .uio, .limiters, .evr] (regsOr evWords (regsAt [Reg.UIO_STAT n.val, Reg.UIO_VAL n.val, 0x900004])) s t) ∧
  (∀ (n : Fin 16) (x : UioSample) (s : State), n.val < s.uio.length → s.blkOn 18 = true → s.uioMode n.val = 5 → (s.get (F.UIO_STAT_COLD n.val) = 1 ∨ s.get (F.UIO_CFG_FILT n.val) = 0) → s.get (F.UIO_STAT_OPEN n.val) + s.get (F.UIO_STAT_SHORT n.val) + s.get (F.UIO_STAT_OVERRANGE n.val) = 0 →
    ∃ t, exec (.uioConversion n x) s = .next t ∧ ((t.uioCh n.val).level = diLevel (s.uioCh n.val).level x.mv) ∧ (t.rd (Reg.UIO_VAL n.val) = (if diLevel (s.uioCh n.val).level x.mv then 0x3F800000 else 0)) ∧ (t.get (F.UIO_STAT_COLD n.val) = 0) ∧
      ChangesOnly [.estate, .uio] (regsAt [Reg.UIO_STAT n.val, Reg.UIO_VAL n.val]) s t) ∧
  (∀ (n : Fin 16) (x : UioSample) (s : State), n.val < s.uio.length → s.blkOn 18 = true → s.uioMode n.val = 5 → s.get (F.UIO_STAT_COLD n.val) = 0 → s.get (F.UIO_CFG_FILT n.val) ≠ 0 → (s.uioCh n.val).cand = none → diLevel (s.uioCh n.val).level x.mv ≠ (s.uioCh n.val).level → s.get (F.UIO_STAT_OPEN n.val) + s.get (F.UIO_STAT_SHORT n.val) + s.get (F.UIO_STAT_OVERRANGE n.val) = 0 →
    ∃ t, exec (.uioConversion n x) s = .next t ∧ ((t.uioCh n.val).level = (s.uioCh n.val).level) ∧ ((t.uioCh n.val).cand = some (diLevel (s.uioCh n.val).level x.mv, s.clk)) ∧
      ChangesOnly [.estate, .uio] (regsAt [Reg.UIO_STAT n.val, Reg.UIO_VAL n.val]) s t) ∧
  (∀ (n : Fin 16) (x : UioSample) (b : Bool) (since : Nat) (s : State), n.val < s.uio.length → s.blkOn 18 = true → s.uioMode n.val = 5 → s.get (F.UIO_STAT_COLD n.val) = 0 → (s.uioCh n.val).cand = some (b, since) → s.clk - since ≥ filtNs (s.get (F.UIO_CFG_FILT n.val)) → diLevel (s.uioCh n.val).level x.mv ≠ (s.uioCh n.val).level → s.get (F.UIO_STAT_OPEN n.val) + s.get (F.UIO_STAT_SHORT n.val) + s.get (F.UIO_STAT_OVERRANGE n.val) = 0 →
    ∃ t, exec (.uioConversion n x) s = .next t ∧ ((t.uioCh n.val).level = (!(s.uioCh n.val).level)) ∧ ((t.uioCh n.val).cand = none) ∧ ((t.uioCh n.val).changes = (s.uioCh n.val).changes + 1) ∧
      ChangesOnly [.estate, .uio] (regsAt [Reg.UIO_STAT n.val, Reg.UIO_VAL n.val]) s t) ∧
  (∀ (n : Fin 16) (x : UioSample) (s : State), n.val < s.uio.length → s.blkOn 18 = true → s.uioMode n.val = 6 → s.get (F.UIO_STAT_OPEN n.val) + s.get (F.UIO_STAT_SHORT n.val) + s.get (F.UIO_STAT_OVERRANGE n.val) = 0 →
    ∃ t, exec (.uioConversion n x) s = .next t ∧ (t.rd (Reg.UIO_VAL n.val) = bits32 (.ofInt ((s.uioCh n.val).edges.filter fun e => e + sec > s.clk).length)) ∧ ((t.uioCh n.val).cnt = (s.uioCh n.val).cnt) ∧
      ChangesOnly [.estate, .uio] (regsAt [Reg.UIO_STAT n.val, Reg.UIO_VAL n.val]) s t) ∧
  (∀ (n : Fin 16) (x : UioSample) (s : State), (s.uioMode n.val = 0 ∨ uioIsOut (s.uioMode n.val) = true ∨ s.blkOn 18 = false) → exec (.uioConversion n x) s = .next s) ∧
  (∀ (n : Fin 16) (s : State), n.val < s.uio.length → s.blkOn 18 = true → s.uioMode n.val = 6 →
    ∃ t, exec (.uioPulseEdge n) s = .next t ∧ ((t.uioCh n.val) = { (s.uioCh n.val) with cnt := (s.uioCh n.val).cnt + 1, edges := s.clk :: (s.uioCh n.val).edges }) ∧
      ChangesOnly [.estate, .uio] noReg s t) ∧
  (∀ (n : Fin 16) (s : State), (s.uioMode n.val ≠ 6 ∨ s.blkOn 18 = false) → exec (.uioPulseEdge n) s = .next s) ∧
  (∀ (mv : BitVec 16) (lost : Bool) (s : State), s.blkOn 18 = true → lost = (if s.get F.UIO_GSTAT_NOFLD = 1 then decide (mv.toNat ≤ 17000) else decide (mv.toNat < 17000)) → b2n lost ≠ s.get F.UIO_GSTAT_NOFLD →
    ∃ t, exec (.nofld mv) s = .next t ∧ (t.get F.UIO_GSTAT_NOFLD = b2n lost) ∧ (∀ n, n < 16 → uioIsOut (s.uioMode n) = true → t.get (F.UIO_STAT_NOFLD n) = b2n lost ∧ t.get (F.UIO_STAT_OVERLOAD n) = b2n lost) ∧ (∀ n, n < 16 → uioIsOut (s.uioMode n) = false → t.rd (Reg.UIO_STAT n) = s.rd (Reg.UIO_STAT n)) ∧ (lost = true → ∀ n, t.uioPin n = none) ∧
      ChangesOnly [.estate, .out, .limiters, .evr] (regsOr evWords (regsOf 18)) s t) ∧
  (∀ (mv : BitVec 16) (s : State), (s.blkOn 18 = false ∨ s.get F.UIO_GSTAT_NOFLD = 0 ∧ 17000 ≤ mv.toNat ∨ s.get F.UIO_GSTAT_NOFLD = 1 ∧ mv.toNat ≤ 17000) → exec (.nofld mv) s = .next s) ∧
  (∀ (n : Fin 16) (s : State), uioIsOut (s.uioMode n.val) = true → s.blkOn 18 = true →
    ∃ t, exec (.overload n) s = .next t ∧ (t.get (F.UIO_STAT_OVERLOAD n.val) = 1) ∧ (n.val < s.uio.length → (t.uioCh n.val).limAt = some ((s.uioCh n.val).limAt.getD s.clk)) ∧
      ChangesOnly [.estate, .uio] (regsAt [Reg.UIO_STAT n.val, 0x900004]) s t) ∧
  (∀ (n : Fin 16) (s : State), (uioIsOut (s.uioMode n.val) = false ∨ s.blkOn 18 = false) → exec (.overload n) s = .next s) ∧
  (∀ (n : Fin 16) (x : Nat) (s : State), n.val < s.uio.length → s.blkOn 18 = true → s.uioMode n.val = 8 → (s.uioCh n.val).limAt = some x → (s.uioCh n.val).off = none →
    ∃ t, exec (.doSwitchOff n) s = .next t ∧ (t.clk = max s.clk (x + 10 * msec)) ∧ ((t.uioCh n.val).off = some t.clk) ∧ (s.start.phase = .running → s.get F.UIO_GSTAT_NOFLD = 0 → t.uioPin n.val = some 0) ∧
      ChangesOnly [.clk, .uio, .out] noReg s t) ∧
  (∀ (n : Fin 16) (s : State), (s.uioMode n.val ≠ 8 ∨ s.blkOn 18 = false ∨ (s.uioCh n.val).limAt = none ∨ (s.uioCh n.val).off.isSome = true) → exec (.doSwitchOff n) s = .next s) ∧
  (∀ (n : Fin 16) (x : Nat) (s : State), n.val < s.uio.length → (s.uioCh n.val).off = some x →
    ∃ t, exec (.doRetry n) s = .next t ∧ (t.clk = max s.clk (x + sec)) ∧ ((t.uioCh n.val).off = none ∧ (t.uioCh n.val).limAt = none) ∧ (t.get (F.UIO_STAT_OVERLOAD n.val) = s.get F.UIO_GSTAT_NOFLD) ∧
      ChangesOnly [.clk, .estate, .uio, .out] (regsAt [Reg.UIO_STAT n.val]) s t) ∧
  (∀ (n : Fin 16) (s : State), (s.uioCh n.val).off = none → exec (.doRetry n) s = .next s) ∧
  (∀ r s q, admitted? (.uioCfg r) s = some q → ((bitsOf (beAt (tv q.tlvs 0x1202) 0 4) 31 28) = s.uioMode (tn q.tlvs 0x1201) ∨ s.thermalNames (tn q.tlvs 0x1201) = false ∧ ((s.uioCh (tn q.tlvs 0x1201)).obj = 0 ∨ uioFits (bitsOf (beAt (tv q.tlvs 0x1202) 0 4) 31 28) (s.typOf (s.uioCh (tn q.tlvs 0x1201)).obj) (((s.obj? (s.uioCh (tn q.tlvs 0x1201)).obj).map Obj.count).getD 0) = true)) →
    ∃ t, exec (.uioCfg r) s = .next t ∧ Answered t q 0x1201 .ok 0 ([]) ∧
      t.rd (Reg.UIO_CFG (tn q.tlvs 0x1201)) = beAt (tv q.tlvs 0x1202) 0 4 ∧ t.rd (Reg.UIO_BETA (tn q.tlvs 0x1201)) = beAt (tv q.tlvs 0x1202) 4 4 ∧
      ChangesOnly (.estate :: .uio :: .cfgMem :: batonParts) (regsOr (answerWords q) (regsAt [Reg.UIO_CFG (tn q.tlvs 0x1201), Reg.UIO_BETA (tn q.tlvs 0x1201), Reg.UIO_STAT (tn q.tlvs 0x1201), Reg.UIO_VAL (tn q.tlvs 0x1201), Reg.UIO_OUT (tn q.tlvs 0x1201)])) s t) ∧
  (∀ r s q, admitted? (.uioCfg r) s = some q → (bitsOf (beAt (tv q.tlvs 0x1202) 0 4) 31 28) ≠ s.uioMode (tn q.tlvs 0x1201) → (s.thermalNames (tn q.tlvs 0x1201) = true ∨ (s.uioCh (tn q.tlvs 0x1201)).obj ≠ 0 ∧ uioFits (bitsOf (beAt (tv q.tlvs 0x1202) 0 4) 31 28) (s.typOf (s.uioCh (tn q.tlvs 0x1201)).obj) (((s.obj? (s.uioCh (tn q.tlvs 0x1201)).obj).map Obj.count).getD 0) = false) →
    ∃ t, exec (.uioCfg r) s = .next t ∧ Answered t q 0x1201 .busy 0 (if 0x31 ≤ q.ver then tlv 0x000E (natBE 2 0xFFFF ++ natBE 2 0x000A) else []) ∧
      ChangesOnly (batonParts) (answerWords q) s t) ∧
  (∀ r s q, admitted? (.uioAssign r) s = some q → s.uio.length = 16 → (addrObj (tAddr q.tlvs)) = 0 →
    ∃ t, exec (.uioAssign r) s = .next t ∧ Answered t q 0x1202 .ok 0 ([]) ∧
      (t.uioCh (tn q.tlvs 0x1201)).obj = 0 ∧
      ChangesOnly (.estate :: .uio :: batonParts) (regsOr (answerWords q) (regsAt [Reg.UIO_VAL (tn q.tlvs 0x1201), Reg.UIO_OUT (tn q.tlvs 0x1201)])) s t) ∧
  (∀ r s q, admitted? (.uioAssign r) s = some q → s.uio.length = 16 → (addrObj (tAddr q.tlvs)) ≠ 0 → (s.uioCh (tn q.tlvs 0x1201)).obj = 0 → s.uioOfObj (addrObj (tAddr q.tlvs)) = none →
    ∃ t, exec (.uioAssign r) s = .next t ∧ Answered t q 0x1202 .ok 0 ([]) ∧
      (t.uioCh (tn q.tlvs 0x1201)).obj = (addrObj (tAddr q.tlvs)) ∧
      ChangesOnly (.estate :: .uio :: batonParts) (regsOr (answerWords q) (regsAt [Reg.UIO_VAL (tn q.tlvs 0x1201), Reg.UIO_OUT (tn q.tlvs 0x1201)])) s t) ∧
  (∀ r s q, admitted? (.uioAssign r) s = some q → (addrObj (tAddr q.tlvs)) ≠ 0 → ((s.uioCh (tn q.tlvs 0x1201)).obj ≠ 0 ∨ (s.uioOfObj (addrObj (tAddr q.tlvs))).isSome = true) →
    ∃ t, exec (.uioAssign r) s = .next t ∧ Answered t q 0x1202 .busy 0 ([]) ∧
      ChangesOnly (batonParts) (answerWords q) s t) ∧
  (∀ r s q, admitted? (.uioStatus r) s = some q →
    ∃ t, exec (.uioStatus r) s = .next t ∧ Answered t q 0x1203 .ok 0 (tlv 0x1203 (natBE 4 (s.rd (Reg.UIO_STAT (tn q.tlvs 0x1201))) ++ ((s.uioSnap (tn q.tlvs 0x1201)).map (natBE 4)).flatten)) ∧
      ChangesOnly (batonParts) (answerWords q) s t)
end

