-- ==== Sys2Proof/Laws/State.lean ====
section
/-! SUPPORT. Laws/State.lean: what each update of one part of the state leaves in the other parts: one lemma a field and update. -/

namespace Sys2Proof.Machine

@[simp] theorem State.wr_pending (s : State) (off v : Nat) : (s.wr off v).pending = s.pending := rfl
@[simp] theorem State.wr_clk (s : State) (off v : Nat) : (s.wr off v).clk = s.clk := rfl
@[simp] theorem State.wr_sysOfs (s : State) (off v : Nat) : (s.wr off v).sysOfs = s.sysOfs := rfl
@[simp] theorem State.wr_startClk (s : State) (off v : Nat) : (s.wr off v).startClk = s.startClk := rfl
@[simp] theorem State.wr_cfgMem (s : State) (off v : Nat) : (s.wr off v).cfgMem = s.cfgMem := rfl
@[simp] theorem State.wr_mem (s : State) (off v : Nat) : (s.wr off v).mem = s.mem := rfl
@[simp] theorem State.wr_out (s : State) (off v : Nat) : (s.wr off v).out = s.out := rfl
@[simp] theorem State.wr_freeCtr (s : State) (off v : Nat) : (s.wr off v).freeCtr = s.freeCtr := rfl
@[simp] theorem State.wr_limiters (s : State) (off v : Nat) : (s.wr off v).limiters = s.limiters := rfl
@[simp] theorem State.wr_sys (s : State) (off v : Nat) : (s.wr off v).sys = s.sys := rfl
@[simp] theorem State.wr_start (s : State) (off v : Nat) : (s.wr off v).start = s.start := rfl
@[simp] theorem State.wr_baton (s : State) (off v : Nat) : (s.wr off v).baton = s.baton := rfl
@[simp] theorem State.wr_estate (s : State) (off v : Nat) : (s.wr off v).estate = s.estate := rfl
@[simp] theorem State.wr_drill (s : State) (off v : Nat) : (s.wr off v).drill = s.drill := rfl
@[simp] theorem State.wr_ledger (s : State) (off v : Nat) : (s.wr off v).ledger = s.ledger := rfl
@[simp] theorem State.wr_evr (s : State) (off v : Nat) : (s.wr off v).evr = s.evr := rfl
@[simp] theorem State.wr_dma (s : State) (off v : Nat) : (s.wr off v).dma = s.dma := rfl
@[simp] theorem State.wr_uio (s : State) (off v : Nat) : (s.wr off v).uio = s.uio := rfl
@[simp] theorem State.wr_relay (s : State) (off v : Nat) : (s.wr off v).relay = s.relay := rfl
@[simp] theorem State.wr_can (s : State) (off v : Nat) : (s.wr off v).can = s.can := rfl
@[simp] theorem State.wr_engine (s : State) (off v : Nat) : (s.wr off v).engine = s.engine := rfl
@[simp] theorem State.wr_lap (s : State) (off v : Nat) : (s.wr off v).lap = s.lap := rfl
@[simp] theorem State.wr_furun (s : State) (off v : Nat) : (s.wr off v).furun = s.furun := rfl
@[simp] theorem State.wr_eth (s : State) (off v : Nat) : (s.wr off v).eth = s.eth := rfl
@[simp] theorem State.wr_pacer (s : State) (off v : Nat) : (s.wr off v).pacer = s.pacer := rfl
@[simp] theorem State.wr_met (s : State) (off v : Nat) : (s.wr off v).met = s.met := rfl
@[simp] theorem State.wr_safe (s : State) (off v : Nat) : (s.wr off v).safe = s.safe := rfl
@[simp] theorem State.wr_mirror (s : State) (off v : Nat) : (s.wr off v).mirror = s.mirror := rfl
@[simp] theorem State.wr_rtc (s : State) (off v : Nat) : (s.wr off v).rtc = s.rtc := rfl
@[simp] theorem State.wr_keys (s : State) (off v : Nat) : (s.wr off v).keys = s.keys := rfl
@[simp] theorem State.wr_upd (s : State) (off v : Nat) : (s.wr off v).upd = s.upd := rfl

@[simp] theorem State.store_pending (s : State) (off : Nat) : (s.store off).pending = s.pending := rfl
@[simp] theorem State.store_clk (s : State) (off : Nat) : (s.store off).clk = s.clk := rfl
@[simp] theorem State.store_sysOfs (s : State) (off : Nat) : (s.store off).sysOfs = s.sysOfs := rfl
@[simp] theorem State.store_startClk (s : State) (off : Nat) : (s.store off).startClk = s.startClk := rfl
@[simp] theorem State.store_regs (s : State) (off : Nat) : (s.store off).regs = s.regs := rfl
@[simp] theorem State.store_mem (s : State) (off : Nat) : (s.store off).mem = s.mem := rfl
@[simp] theorem State.store_out (s : State) (off : Nat) : (s.store off).out = s.out := rfl
@[simp] theorem State.store_freeCtr (s : State) (off : Nat) : (s.store off).freeCtr = s.freeCtr := rfl
@[simp] theorem State.store_limiters (s : State) (off : Nat) : (s.store off).limiters = s.limiters := rfl
@[simp] theorem State.store_sys (s : State) (off : Nat) : (s.store off).sys = s.sys := rfl
@[simp] theorem State.store_start (s : State) (off : Nat) : (s.store off).start = s.start := rfl
@[simp] theorem State.store_baton (s : State) (off : Nat) : (s.store off).baton = s.baton := rfl
@[simp] theorem State.store_estate (s : State) (off : Nat) : (s.store off).estate = s.estate := rfl
@[simp] theorem State.store_drill (s : State) (off : Nat) : (s.store off).drill = s.drill := rfl
@[simp] theorem State.store_ledger (s : State) (off : Nat) : (s.store off).ledger = s.ledger := rfl
@[simp] theorem State.store_evr (s : State) (off : Nat) : (s.store off).evr = s.evr := rfl
@[simp] theorem State.store_dma (s : State) (off : Nat) : (s.store off).dma = s.dma := rfl
@[simp] theorem State.store_uio (s : State) (off : Nat) : (s.store off).uio = s.uio := rfl
@[simp] theorem State.store_relay (s : State) (off : Nat) : (s.store off).relay = s.relay := rfl
@[simp] theorem State.store_can (s : State) (off : Nat) : (s.store off).can = s.can := rfl
@[simp] theorem State.store_engine (s : State) (off : Nat) : (s.store off).engine = s.engine := rfl
@[simp] theorem State.store_lap (s : State) (off : Nat) : (s.store off).lap = s.lap := rfl
@[simp] theorem State.store_furun (s : State) (off : Nat) : (s.store off).furun = s.furun := rfl
@[simp] theorem State.store_eth (s : State) (off : Nat) : (s.store off).eth = s.eth := rfl
@[simp] theorem State.store_pacer (s : State) (off : Nat) : (s.store off).pacer = s.pacer := rfl
@[simp] theorem State.store_met (s : State) (off : Nat) : (s.store off).met = s.met := rfl
@[simp] theorem State.store_safe (s : State) (off : Nat) : (s.store off).safe = s.safe := rfl
@[simp] theorem State.store_mirror (s : State) (off : Nat) : (s.store off).mirror = s.mirror := rfl
@[simp] theorem State.store_rtc (s : State) (off : Nat) : (s.store off).rtc = s.rtc := rfl
@[simp] theorem State.store_keys (s : State) (off : Nat) : (s.store off).keys = s.keys := rfl
@[simp] theorem State.store_upd (s : State) (off : Nat) : (s.store off).upd = s.upd := rfl

@[simp] theorem State.reach_pending (s : State) (t : Nat) : (s.reach t).pending = s.pending := rfl
@[simp] theorem State.reach_sysOfs (s : State) (t : Nat) : (s.reach t).sysOfs = s.sysOfs := rfl
@[simp] theorem State.reach_startClk (s : State) (t : Nat) : (s.reach t).startClk = s.startClk := rfl
@[simp] theorem State.reach_regs (s : State) (t : Nat) : (s.reach t).regs = s.regs := rfl
@[simp] theorem State.reach_cfgMem (s : State) (t : Nat) : (s.reach t).cfgMem = s.cfgMem := rfl
@[simp] theorem State.reach_mem (s : State) (t : Nat) : (s.reach t).mem = s.mem := rfl
@[simp] theorem State.reach_out (s : State) (t : Nat) : (s.reach t).out = s.out := rfl
@[simp] theorem State.reach_freeCtr (s : State) (t : Nat) : (s.reach t).freeCtr = s.freeCtr := rfl
@[simp] theorem State.reach_limiters (s : State) (t : Nat) : (s.reach t).limiters = s.limiters := rfl
@[simp] theorem State.reach_sys (s : State) (t : Nat) : (s.reach t).sys = s.sys := rfl
@[simp] theorem State.reach_start (s : State) (t : Nat) : (s.reach t).start = s.start := rfl
@[simp] theorem State.reach_baton (s : State) (t : Nat) : (s.reach t).baton = s.baton := rfl
@[simp] theorem State.reach_estate (s : State) (t : Nat) : (s.reach t).estate = s.estate := rfl
@[simp] theorem State.reach_drill (s : State) (t : Nat) : (s.reach t).drill = s.drill := rfl
@[simp] theorem State.reach_ledger (s : State) (t : Nat) : (s.reach t).ledger = s.ledger := rfl
@[simp] theorem State.reach_evr (s : State) (t : Nat) : (s.reach t).evr = s.evr := rfl
@[simp] theorem State.reach_dma (s : State) (t : Nat) : (s.reach t).dma = s.dma := rfl
@[simp] theorem State.reach_uio (s : State) (t : Nat) : (s.reach t).uio = s.uio := rfl
@[simp] theorem State.reach_relay (s : State) (t : Nat) : (s.reach t).relay = s.relay := rfl
@[simp] theorem State.reach_can (s : State) (t : Nat) : (s.reach t).can = s.can := rfl
@[simp] theorem State.reach_engine (s : State) (t : Nat) : (s.reach t).engine = s.engine := rfl
@[simp] theorem State.reach_lap (s : State) (t : Nat) : (s.reach t).lap = s.lap := rfl
@[simp] theorem State.reach_furun (s : State) (t : Nat) : (s.reach t).furun = s.furun := rfl
@[simp] theorem State.reach_eth (s : State) (t : Nat) : (s.reach t).eth = s.eth := rfl
@[simp] theorem State.reach_pacer (s : State) (t : Nat) : (s.reach t).pacer = s.pacer := rfl
@[simp] theorem State.reach_met (s : State) (t : Nat) : (s.reach t).met = s.met := rfl
@[simp] theorem State.reach_safe (s : State) (t : Nat) : (s.reach t).safe = s.safe := rfl
@[simp] theorem State.reach_mirror (s : State) (t : Nat) : (s.reach t).mirror = s.mirror := rfl
@[simp] theorem State.reach_rtc (s : State) (t : Nat) : (s.reach t).rtc = s.rtc := rfl
@[simp] theorem State.reach_keys (s : State) (t : Nat) : (s.reach t).keys = s.keys := rfl
@[simp] theorem State.reach_upd (s : State) (t : Nat) : (s.reach t).upd = s.upd := rfl

@[simp] theorem State.emit_pending (s : State) (o : Out) : (s.emit o).pending = s.pending := rfl
@[simp] theorem State.emit_clk (s : State) (o : Out) : (s.emit o).clk = s.clk := rfl
@[simp] theorem State.emit_sysOfs (s : State) (o : Out) : (s.emit o).sysOfs = s.sysOfs := rfl
@[simp] theorem State.emit_startClk (s : State) (o : Out) : (s.emit o).startClk = s.startClk := rfl
@[simp] theorem State.emit_regs (s : State) (o : Out) : (s.emit o).regs = s.regs := rfl
@[simp] theorem State.emit_cfgMem (s : State) (o : Out) : (s.emit o).cfgMem = s.cfgMem := rfl
@[simp] theorem State.emit_mem (s : State) (o : Out) : (s.emit o).mem = s.mem := rfl
@[simp] theorem State.emit_freeCtr (s : State) (o : Out) : (s.emit o).freeCtr = s.freeCtr := rfl
@[simp] theorem State.emit_limiters (s : State) (o : Out) : (s.emit o).limiters = s.limiters := rfl
@[simp] theorem State.emit_sys (s : State) (o : Out) : (s.emit o).sys = s.sys := rfl
@[simp] theorem State.emit_start (s : State) (o : Out) : (s.emit o).start = s.start := rfl
@[simp] theorem State.emit_baton (s : State) (o : Out) : (s.emit o).baton = s.baton := rfl
@[simp] theorem State.emit_estate (s : State) (o : Out) : (s.emit o).estate = s.estate := rfl
@[simp] theorem State.emit_drill (s : State) (o : Out) : (s.emit o).drill = s.drill := rfl
@[simp] theorem State.emit_ledger (s : State) (o : Out) : (s.emit o).ledger = s.ledger := rfl
@[simp] theorem State.emit_evr (s : State) (o : Out) : (s.emit o).evr = s.evr := rfl
@[simp] theorem State.emit_dma (s : State) (o : Out) : (s.emit o).dma = s.dma := rfl
@[simp] theorem State.emit_uio (s : State) (o : Out) : (s.emit o).uio = s.uio := rfl
@[simp] theorem State.emit_relay (s : State) (o : Out) : (s.emit o).relay = s.relay := rfl
@[simp] theorem State.emit_can (s : State) (o : Out) : (s.emit o).can = s.can := rfl
@[simp] theorem State.emit_engine (s : State) (o : Out) : (s.emit o).engine = s.engine := rfl
@[simp] theorem State.emit_lap (s : State) (o : Out) : (s.emit o).lap = s.lap := rfl
@[simp] theorem State.emit_furun (s : State) (o : Out) : (s.emit o).furun = s.furun := rfl
@[simp] theorem State.emit_eth (s : State) (o : Out) : (s.emit o).eth = s.eth := rfl
@[simp] theorem State.emit_pacer (s : State) (o : Out) : (s.emit o).pacer = s.pacer := rfl
@[simp] theorem State.emit_met (s : State) (o : Out) : (s.emit o).met = s.met := rfl
@[simp] theorem State.emit_safe (s : State) (o : Out) : (s.emit o).safe = s.safe := rfl
@[simp] theorem State.emit_mirror (s : State) (o : Out) : (s.emit o).mirror = s.mirror := rfl
@[simp] theorem State.emit_rtc (s : State) (o : Out) : (s.emit o).rtc = s.rtc := rfl
@[simp] theorem State.emit_keys (s : State) (o : Out) : (s.emit o).keys = s.keys := rfl
@[simp] theorem State.emit_upd (s : State) (o : Out) : (s.emit o).upd = s.upd := rfl

@[simp] theorem State.mirrorAdd_pending (s : State) (a b c d : Nat) : (s.mirrorAdd a b c d).pending = s.pending := rfl
@[simp] theorem State.mirrorAdd_clk (s : State) (a b c d : Nat) : (s.mirrorAdd a b c d).clk = s.clk := rfl
@[simp] theorem State.mirrorAdd_sysOfs (s : State) (a b c d : Nat) : (s.mirrorAdd a b c d).sysOfs = s.sysOfs := rfl
@[simp] theorem State.mirrorAdd_startClk (s : State) (a b c d : Nat) : (s.mirrorAdd a b c d).startClk = s.startClk := rfl
@[simp] theorem State.mirrorAdd_regs (s : State) (a b c d : Nat) : (s.mirrorAdd a b c d).regs = s.regs := rfl
@[simp] theorem State.mirrorAdd_cfgMem (s : State) (a b c d : Nat) : (s.mirrorAdd a b c d).cfgMem = s.cfgMem := rfl
@[simp] theorem State.mirrorAdd_mem (s : State) (a b c d : Nat) : (s.mirrorAdd a b c d).mem = s.mem := rfl
@[simp] theorem State.mirrorAdd_out (s : State) (a b c d : Nat) : (s.mirrorAdd a b c d).out = s.out := rfl
@[simp] theorem State.mirrorAdd_freeCtr (s : State) (a b c d : Nat) : (s.mirrorAdd a b c d).freeCtr = s.freeCtr := rfl
@[simp] theorem State.mirrorAdd_limiters (s : State) (a b c d : Nat) : (s.mirrorAdd a b c d).limiters = s.limiters := rfl
@[simp] theorem State.mirrorAdd_sys (s : State) (a b c d : Nat) : (s.mirrorAdd a b c d).sys = s.sys := rfl
@[simp] theorem State.mirrorAdd_baton (s : State) (a b c d : Nat) : (s.mirrorAdd a b c d).baton = s.baton := rfl
@[simp] theorem State.mirrorAdd_estate (s : State) (a b c d : Nat) : (s.mirrorAdd a b c d).estate = s.estate := rfl
@[simp] theorem State.mirrorAdd_drill (s : State) (a b c d : Nat) : (s.mirrorAdd a b c d).drill = s.drill := rfl
@[simp] theorem State.mirrorAdd_ledger (s : State) (a b c d : Nat) : (s.mirrorAdd a b c d).ledger = s.ledger := rfl
@[simp] theorem State.mirrorAdd_evr (s : State) (a b c d : Nat) : (s.mirrorAdd a b c d).evr = s.evr := rfl
@[simp] theorem State.mirrorAdd_dma (s : State) (a b c d : Nat) : (s.mirrorAdd a b c d).dma = s.dma := rfl
@[simp] theorem State.mirrorAdd_uio (s : State) (a b c d : Nat) : (s.mirrorAdd a b c d).uio = s.uio := rfl
@[simp] theorem State.mirrorAdd_relay (s : State) (a b c d : Nat) : (s.mirrorAdd a b c d).relay = s.relay := rfl
@[simp] theorem State.mirrorAdd_can (s : State) (a b c d : Nat) : (s.mirrorAdd a b c d).can = s.can := rfl
@[simp] theorem State.mirrorAdd_engine (s : State) (a b c d : Nat) : (s.mirrorAdd a b c d).engine = s.engine := rfl
@[simp] theorem State.mirrorAdd_lap (s : State) (a b c d : Nat) : (s.mirrorAdd a b c d).lap = s.lap := rfl
@[simp] theorem State.mirrorAdd_furun (s : State) (a b c d : Nat) : (s.mirrorAdd a b c d).furun = s.furun := rfl
@[simp] theorem State.mirrorAdd_eth (s : State) (a b c d : Nat) : (s.mirrorAdd a b c d).eth = s.eth := rfl
@[simp] theorem State.mirrorAdd_pacer (s : State) (a b c d : Nat) : (s.mirrorAdd a b c d).pacer = s.pacer := rfl
@[simp] theorem State.mirrorAdd_met (s : State) (a b c d : Nat) : (s.mirrorAdd a b c d).met = s.met := rfl
@[simp] theorem State.mirrorAdd_safe (s : State) (a b c d : Nat) : (s.mirrorAdd a b c d).safe = s.safe := rfl
@[simp] theorem State.mirrorAdd_mirror (s : State) (a b c d : Nat) : (s.mirrorAdd a b c d).mirror = s.mirror := rfl
@[simp] theorem State.mirrorAdd_rtc (s : State) (a b c d : Nat) : (s.mirrorAdd a b c d).rtc = s.rtc := rfl
@[simp] theorem State.mirrorAdd_keys (s : State) (a b c d : Nat) : (s.mirrorAdd a b c d).keys = s.keys := rfl
@[simp] theorem State.mirrorAdd_upd (s : State) (a b c d : Nat) : (s.mirrorAdd a b c d).upd = s.upd := rfl

@[simp] theorem State.modSession_pending (s : State) (k : Nat) (f : Session → Session) : (s.modSession k f).pending = s.pending := rfl
@[simp] theorem State.modSession_clk (s : State) (k : Nat) (f : Session → Session) : (s.modSession k f).clk = s.clk := rfl
@[simp] theorem State.modSession_sysOfs (s : State) (k : Nat) (f : Session → Session) : (s.modSession k f).sysOfs = s.sysOfs := rfl
@[simp] theorem State.modSession_startClk (s : State) (k : Nat) (f : Session → Session) : (s.modSession k f).startClk = s.startClk := rfl
@[simp] theorem State.modSession_regs (s : State) (k : Nat) (f : Session → Session) : (s.modSession k f).regs = s.regs := rfl
@[simp] theorem State.modSession_cfgMem (s : State) (k : Nat) (f : Session → Session) : (s.modSession k f).cfgMem = s.cfgMem := rfl
@[simp] theorem State.modSession_mem (s : State) (k : Nat) (f : Session → Session) : (s.modSession k f).mem = s.mem := rfl
@[simp] theorem State.modSession_out (s : State) (k : Nat) (f : Session → Session) : (s.modSession k f).out = s.out := rfl
@[simp] theorem State.modSession_freeCtr (s : State) (k : Nat) (f : Session → Session) : (s.modSession k f).freeCtr = s.freeCtr := rfl
@[simp] theorem State.modSession_limiters (s : State) (k : Nat) (f : Session → Session) : (s.modSession k f).limiters = s.limiters := rfl
@[simp] theorem State.modSession_sys (s : State) (k : Nat) (f : Session → Session) : (s.modSession k f).sys = s.sys := rfl
@[simp] theorem State.modSession_start (s : State) (k : Nat) (f : Session → Session) : (s.modSession k f).start = s.start := rfl
@[simp] theorem State.modSession_estate (s : State) (k : Nat) (f : Session → Session) : (s.modSession k f).estate = s.estate := rfl
@[simp] theorem State.modSession_drill (s : State) (k : Nat) (f : Session → Session) : (s.modSession k f).drill = s.drill := rfl
@[simp] theorem State.modSession_ledger (s : State) (k : Nat) (f : Session → Session) : (s.modSession k f).ledger = s.ledger := rfl
@[simp] theorem State.modSession_evr (s : State) (k : Nat) (f : Session → Session) : (s.modSession k f).evr = s.evr := rfl
@[simp] theorem State.modSession_dma (s : State) (k : Nat) (f : Session → Session) : (s.modSession k f).dma = s.dma := rfl
@[simp] theorem State.modSession_uio (s : State) (k : Nat) (f : Session → Session) : (s.modSession k f).uio = s.uio := rfl
@[simp] theorem State.modSession_relay (s : State) (k : Nat) (f : Session → Session) : (s.modSession k f).relay = s.relay := rfl
@[simp] theorem State.modSession_can (s : State) (k : Nat) (f : Session → Session) : (s.modSession k f).can = s.can := rfl
@[simp] theorem State.modSession_engine (s : State) (k : Nat) (f : Session → Session) : (s.modSession k f).engine = s.engine := rfl
@[simp] theorem State.modSession_lap (s : State) (k : Nat) (f : Session → Session) : (s.modSession k f).lap = s.lap := rfl
@[simp] theorem State.modSession_furun (s : State) (k : Nat) (f : Session → Session) : (s.modSession k f).furun = s.furun := rfl
@[simp] theorem State.modSession_eth (s : State) (k : Nat) (f : Session → Session) : (s.modSession k f).eth = s.eth := rfl
@[simp] theorem State.modSession_pacer (s : State) (k : Nat) (f : Session → Session) : (s.modSession k f).pacer = s.pacer := rfl
@[simp] theorem State.modSession_met (s : State) (k : Nat) (f : Session → Session) : (s.modSession k f).met = s.met := rfl
@[simp] theorem State.modSession_safe (s : State) (k : Nat) (f : Session → Session) : (s.modSession k f).safe = s.safe := rfl
@[simp] theorem State.modSession_mirror (s : State) (k : Nat) (f : Session → Session) : (s.modSession k f).mirror = s.mirror := rfl
@[simp] theorem State.modSession_rtc (s : State) (k : Nat) (f : Session → Session) : (s.modSession k f).rtc = s.rtc := rfl
@[simp] theorem State.modSession_keys (s : State) (k : Nat) (f : Session → Session) : (s.modSession k f).keys = s.keys := rfl
@[simp] theorem State.modSession_upd (s : State) (k : Nat) (f : Session → Session) : (s.modSession k f).upd = s.upd := rfl

@[simp] theorem State.journalAdd_pending (s : State) (o : BitVec 256) (a b c : Nat) : (s.journalAdd o a b c).pending = s.pending := rfl
@[simp] theorem State.journalAdd_clk (s : State) (o : BitVec 256) (a b c : Nat) : (s.journalAdd o a b c).clk = s.clk := rfl
@[simp] theorem State.journalAdd_sysOfs (s : State) (o : BitVec 256) (a b c : Nat) : (s.journalAdd o a b c).sysOfs = s.sysOfs := rfl
@[simp] theorem State.journalAdd_startClk (s : State) (o : BitVec 256) (a b c : Nat) : (s.journalAdd o a b c).startClk = s.startClk := rfl
@[simp] theorem State.journalAdd_regs (s : State) (o : BitVec 256) (a b c : Nat) : (s.journalAdd o a b c).regs = s.regs := rfl
@[simp] theorem State.journalAdd_cfgMem (s : State) (o : BitVec 256) (a b c : Nat) : (s.journalAdd o a b c).cfgMem = s.cfgMem := rfl
@[simp] theorem State.journalAdd_mem (s : State) (o : BitVec 256) (a b c : Nat) : (s.journalAdd o a b c).mem = s.mem := rfl
@[simp] theorem State.journalAdd_out (s : State) (o : BitVec 256) (a b c : Nat) : (s.journalAdd o a b c).out = s.out := rfl
@[simp] theorem State.journalAdd_freeCtr (s : State) (o : BitVec 256) (a b c : Nat) : (s.journalAdd o a b c).freeCtr = s.freeCtr := rfl
@[simp] theorem State.journalAdd_limiters (s : State) (o : BitVec 256) (a b c : Nat) : (s.journalAdd o a b c).limiters = s.limiters := rfl
@[simp] theorem State.journalAdd_sys (s : State) (o : BitVec 256) (a b c : Nat) : (s.journalAdd o a b c).sys = s.sys := rfl
@[simp] theorem State.journalAdd_baton (s : State) (o : BitVec 256) (a b c : Nat) : (s.journalAdd o a b c).baton = s.baton := rfl
@[simp] theorem State.journalAdd_estate (s : State) (o : BitVec 256) (a b c : Nat) : (s.journalAdd o a b c).estate = s.estate := rfl
@[simp] theorem State.journalAdd_drill (s : State) (o : BitVec 256) (a b c : Nat) : (s.journalAdd o a b c).drill = s.drill := rfl
@[simp] theorem State.journalAdd_ledger (s : State) (o : BitVec 256) (a b c : Nat) : (s.journalAdd o a b c).ledger = s.ledger := rfl
@[simp] theorem State.journalAdd_evr (s : State) (o : BitVec 256) (a b c : Nat) : (s.journalAdd o a b c).evr = s.evr := rfl
@[simp] theorem State.journalAdd_dma (s : State) (o : BitVec 256) (a b c : Nat) : (s.journalAdd o a b c).dma = s.dma := rfl
@[simp] theorem State.journalAdd_uio (s : State) (o : BitVec 256) (a b c : Nat) : (s.journalAdd o a b c).uio = s.uio := rfl
@[simp] theorem State.journalAdd_relay (s : State) (o : BitVec 256) (a b c : Nat) : (s.journalAdd o a b c).relay = s.relay := rfl
@[simp] theorem State.journalAdd_can (s : State) (o : BitVec 256) (a b c : Nat) : (s.journalAdd o a b c).can = s.can := rfl
@[simp] theorem State.journalAdd_engine (s : State) (o : BitVec 256) (a b c : Nat) : (s.journalAdd o a b c).engine = s.engine := rfl
@[simp] theorem State.journalAdd_lap (s : State) (o : BitVec 256) (a b c : Nat) : (s.journalAdd o a b c).lap = s.lap := rfl
@[simp] theorem State.journalAdd_furun (s : State) (o : BitVec 256) (a b c : Nat) : (s.journalAdd o a b c).furun = s.furun := rfl
@[simp] theorem State.journalAdd_eth (s : State) (o : BitVec 256) (a b c : Nat) : (s.journalAdd o a b c).eth = s.eth := rfl
@[simp] theorem State.journalAdd_pacer (s : State) (o : BitVec 256) (a b c : Nat) : (s.journalAdd o a b c).pacer = s.pacer := rfl
@[simp] theorem State.journalAdd_met (s : State) (o : BitVec 256) (a b c : Nat) : (s.journalAdd o a b c).met = s.met := rfl
@[simp] theorem State.journalAdd_safe (s : State) (o : BitVec 256) (a b c : Nat) : (s.journalAdd o a b c).safe = s.safe := rfl
@[simp] theorem State.journalAdd_mirror (s : State) (o : BitVec 256) (a b c : Nat) : (s.journalAdd o a b c).mirror = s.mirror := rfl
@[simp] theorem State.journalAdd_rtc (s : State) (o : BitVec 256) (a b c : Nat) : (s.journalAdd o a b c).rtc = s.rtc := rfl
@[simp] theorem State.journalAdd_keys (s : State) (o : BitVec 256) (a b c : Nat) : (s.journalAdd o a b c).keys = s.keys := rfl
@[simp] theorem State.journalAdd_upd (s : State) (o : BitVec 256) (a b c : Nat) : (s.journalAdd o a b c).upd = s.upd := rfl

@[simp] theorem State.journalEnd_pending (s : State) (o : BitVec 256) (a b : Nat) : (s.journalEnd o a b).pending = s.pending := rfl
@[simp] theorem State.journalEnd_clk (s : State) (o : BitVec 256) (a b : Nat) : (s.journalEnd o a b).clk = s.clk := rfl
@[simp] theorem State.journalEnd_sysOfs (s : State) (o : BitVec 256) (a b : Nat) : (s.journalEnd o a b).sysOfs = s.sysOfs := rfl
@[simp] theorem State.journalEnd_startClk (s : State) (o : BitVec 256) (a b : Nat) : (s.journalEnd o a b).startClk = s.startClk := rfl
@[simp] theorem State.journalEnd_regs (s : State) (o : BitVec 256) (a b : Nat) : (s.journalEnd o a b).regs = s.regs := rfl
@[simp] theorem State.journalEnd_cfgMem (s : State) (o : BitVec 256) (a b : Nat) : (s.journalEnd o a b).cfgMem = s.cfgMem := rfl
@[simp] theorem State.journalEnd_mem (s : State) (o : BitVec 256) (a b : Nat) : (s.journalEnd o a b).mem = s.mem := rfl
@[simp] theorem State.journalEnd_out (s : State) (o : BitVec 256) (a b : Nat) : (s.journalEnd o a b).out = s.out := rfl
@[simp] theorem State.journalEnd_freeCtr (s : State) (o : BitVec 256) (a b : Nat) : (s.journalEnd o a b).freeCtr = s.freeCtr := rfl
@[simp] theorem State.journalEnd_limiters (s : State) (o : BitVec 256) (a b : Nat) : (s.journalEnd o a b).limiters = s.limiters := rfl
@[simp] theorem State.journalEnd_sys (s : State) (o : BitVec 256) (a b : Nat) : (s.journalEnd o a b).sys = s.sys := rfl
@[simp] theorem State.journalEnd_baton (s : State) (o : BitVec 256) (a b : Nat) : (s.journalEnd o a b).baton = s.baton := rfl
@[simp] theorem State.journalEnd_estate (s : State) (o : BitVec 256) (a b : Nat) : (s.journalEnd o a b).estate = s.estate := rfl
@[simp] theorem State.journalEnd_drill (s : State) (o : BitVec 256) (a b : Nat) : (s.journalEnd o a b).drill = s.drill := rfl
@[simp] theorem State.journalEnd_ledger (s : State) (o : BitVec 256) (a b : Nat) : (s.journalEnd o a b).ledger = s.ledger := rfl
@[simp] theorem State.journalEnd_evr (s : State) (o : BitVec 256) (a b : Nat) : (s.journalEnd o a b).evr = s.evr := rfl
@[simp] theorem State.journalEnd_dma (s : State) (o : BitVec 256) (a b : Nat) : (s.journalEnd o a b).dma = s.dma := rfl
@[simp] theorem State.journalEnd_uio (s : State) (o : BitVec 256) (a b : Nat) : (s.journalEnd o a b).uio = s.uio := rfl
@[simp] theorem State.journalEnd_relay (s : State) (o : BitVec 256) (a b : Nat) : (s.journalEnd o a b).relay = s.relay := rfl
@[simp] theorem State.journalEnd_can (s : State) (o : BitVec 256) (a b : Nat) : (s.journalEnd o a b).can = s.can := rfl
@[simp] theorem State.journalEnd_engine (s : State) (o : BitVec 256) (a b : Nat) : (s.journalEnd o a b).engine = s.engine := rfl
@[simp] theorem State.journalEnd_lap (s : State) (o : BitVec 256) (a b : Nat) : (s.journalEnd o a b).lap = s.lap := rfl
@[simp] theorem State.journalEnd_furun (s : State) (o : BitVec 256) (a b : Nat) : (s.journalEnd o a b).furun = s.furun := rfl
@[simp] theorem State.journalEnd_eth (s : State) (o : BitVec 256) (a b : Nat) : (s.journalEnd o a b).eth = s.eth := rfl
@[simp] theorem State.journalEnd_pacer (s : State) (o : BitVec 256) (a b : Nat) : (s.journalEnd o a b).pacer = s.pacer := rfl
@[simp] theorem State.journalEnd_met (s : State) (o : BitVec 256) (a b : Nat) : (s.journalEnd o a b).met = s.met := rfl
@[simp] theorem State.journalEnd_safe (s : State) (o : BitVec 256) (a b : Nat) : (s.journalEnd o a b).safe = s.safe := rfl
@[simp] theorem State.journalEnd_mirror (s : State) (o : BitVec 256) (a b : Nat) : (s.journalEnd o a b).mirror = s.mirror := rfl
@[simp] theorem State.journalEnd_rtc (s : State) (o : BitVec 256) (a b : Nat) : (s.journalEnd o a b).rtc = s.rtc := rfl
@[simp] theorem State.journalEnd_keys (s : State) (o : BitVec 256) (a b : Nat) : (s.journalEnd o a b).keys = s.keys := rfl
@[simp] theorem State.journalEnd_upd (s : State) (o : BitVec 256) (a b : Nat) : (s.journalEnd o a b).upd = s.upd := rfl

@[simp] theorem State.setInst_pending (s : State) (h : Nat) (f : DrillInst → DrillInst) : (s.setInst h f).pending = s.pending := rfl
@[simp] theorem State.setInst_clk (s : State) (h : Nat) (f : DrillInst → DrillInst) : (s.setInst h f).clk = s.clk := rfl
@[simp] theorem State.setInst_sysOfs (s : State) (h : Nat) (f : DrillInst → DrillInst) : (s.setInst h f).sysOfs = s.sysOfs := rfl
@[simp] theorem State.setInst_startClk (s : State) (h : Nat) (f : DrillInst → DrillInst) : (s.setInst h f).startClk = s.startClk := rfl
@[simp] theorem State.setInst_regs (s : State) (h : Nat) (f : DrillInst → DrillInst) : (s.setInst h f).regs = s.regs := rfl
@[simp] theorem State.setInst_cfgMem (s : State) (h : Nat) (f : DrillInst → DrillInst) : (s.setInst h f).cfgMem = s.cfgMem := rfl
@[simp] theorem State.setInst_mem (s : State) (h : Nat) (f : DrillInst → DrillInst) : (s.setInst h f).mem = s.mem := rfl
@[simp] theorem State.setInst_out (s : State) (h : Nat) (f : DrillInst → DrillInst) : (s.setInst h f).out = s.out := rfl
@[simp] theorem State.setInst_freeCtr (s : State) (h : Nat) (f : DrillInst → DrillInst) : (s.setInst h f).freeCtr = s.freeCtr := rfl
@[simp] theorem State.setInst_limiters (s : State) (h : Nat) (f : DrillInst → DrillInst) : (s.setInst h f).limiters = s.limiters := rfl
@[simp] theorem State.setInst_sys (s : State) (h : Nat) (f : DrillInst → DrillInst) : (s.setInst h f).sys = s.sys := rfl
@[simp] theorem State.setInst_start (s : State) (h : Nat) (f : DrillInst → DrillInst) : (s.setInst h f).start = s.start := rfl
@[simp] theorem State.setInst_baton (s : State) (h : Nat) (f : DrillInst → DrillInst) : (s.setInst h f).baton = s.baton := rfl
@[simp] theorem State.setInst_estate (s : State) (h : Nat) (f : DrillInst → DrillInst) : (s.setInst h f).estate = s.estate := rfl
@[simp] theorem State.setInst_ledger (s : State) (h : Nat) (f : DrillInst → DrillInst) : (s.setInst h f).ledger = s.ledger := rfl
@[simp] theorem State.setInst_evr (s : State) (h : Nat) (f : DrillInst → DrillInst) : (s.setInst h f).evr = s.evr := rfl
@[simp] theorem State.setInst_dma (s : State) (h : Nat) (f : DrillInst → DrillInst) : (s.setInst h f).dma = s.dma := rfl
@[simp] theorem State.setInst_uio (s : State) (h : Nat) (f : DrillInst → DrillInst) : (s.setInst h f).uio = s.uio := rfl
@[simp] theorem State.setInst_relay (s : State) (h : Nat) (f : DrillInst → DrillInst) : (s.setInst h f).relay = s.relay := rfl
@[simp] theorem State.setInst_can (s : State) (h : Nat) (f : DrillInst → DrillInst) : (s.setInst h f).can = s.can := rfl
@[simp] theorem State.setInst_engine (s : State) (h : Nat) (f : DrillInst → DrillInst) : (s.setInst h f).engine = s.engine := rfl
@[simp] theorem State.setInst_lap (s : State) (h : Nat) (f : DrillInst → DrillInst) : (s.setInst h f).lap = s.lap := rfl
@[simp] theorem State.setInst_furun (s : State) (h : Nat) (f : DrillInst → DrillInst) : (s.setInst h f).furun = s.furun := rfl
@[simp] theorem State.setInst_eth (s : State) (h : Nat) (f : DrillInst → DrillInst) : (s.setInst h f).eth = s.eth := rfl
@[simp] theorem State.setInst_pacer (s : State) (h : Nat) (f : DrillInst → DrillInst) : (s.setInst h f).pacer = s.pacer := rfl
@[simp] theorem State.setInst_met (s : State) (h : Nat) (f : DrillInst → DrillInst) : (s.setInst h f).met = s.met := rfl
@[simp] theorem State.setInst_safe (s : State) (h : Nat) (f : DrillInst → DrillInst) : (s.setInst h f).safe = s.safe := rfl
@[simp] theorem State.setInst_mirror (s : State) (h : Nat) (f : DrillInst → DrillInst) : (s.setInst h f).mirror = s.mirror := rfl
@[simp] theorem State.setInst_rtc (s : State) (h : Nat) (f : DrillInst → DrillInst) : (s.setInst h f).rtc = s.rtc := rfl
@[simp] theorem State.setInst_keys (s : State) (h : Nat) (f : DrillInst → DrillInst) : (s.setInst h f).keys = s.keys := rfl
@[simp] theorem State.setInst_upd (s : State) (h : Nat) (f : DrillInst → DrillInst) : (s.setInst h f).upd = s.upd := rfl

@[simp] theorem State.setWin_pending (s : State) (w : Nat) (f : Window → Window) : (s.setWin w f).pending = s.pending := rfl
@[simp] theorem State.setWin_clk (s : State) (w : Nat) (f : Window → Window) : (s.setWin w f).clk = s.clk := rfl
@[simp] theorem State.setWin_sysOfs (s : State) (w : Nat) (f : Window → Window) : (s.setWin w f).sysOfs = s.sysOfs := rfl
@[simp] theorem State.setWin_startClk (s : State) (w : Nat) (f : Window → Window) : (s.setWin w f).startClk = s.startClk := rfl
@[simp] theorem State.setWin_regs (s : State) (w : Nat) (f : Window → Window) : (s.setWin w f).regs = s.regs := rfl
@[simp] theorem State.setWin_cfgMem (s : State) (w : Nat) (f : Window → Window) : (s.setWin w f).cfgMem = s.cfgMem := rfl
@[simp] theorem State.setWin_mem (s : State) (w : Nat) (f : Window → Window) : (s.setWin w f).mem = s.mem := rfl
@[simp] theorem State.setWin_out (s : State) (w : Nat) (f : Window → Window) : (s.setWin w f).out = s.out := rfl
@[simp] theorem State.setWin_freeCtr (s : State) (w : Nat) (f : Window → Window) : (s.setWin w f).freeCtr = s.freeCtr := rfl
@[simp] theorem State.setWin_limiters (s : State) (w : Nat) (f : Window → Window) : (s.setWin w f).limiters = s.limiters := rfl
@[simp] theorem State.setWin_sys (s : State) (w : Nat) (f : Window → Window) : (s.setWin w f).sys = s.sys := rfl
@[simp] theorem State.setWin_start (s : State) (w : Nat) (f : Window → Window) : (s.setWin w f).start = s.start := rfl
@[simp] theorem State.setWin_baton (s : State) (w : Nat) (f : Window → Window) : (s.setWin w f).baton = s.baton := rfl
@[simp] theorem State.setWin_estate (s : State) (w : Nat) (f : Window → Window) : (s.setWin w f).estate = s.estate := rfl
@[simp] theorem State.setWin_drill (s : State) (w : Nat) (f : Window → Window) : (s.setWin w f).drill = s.drill := rfl
@[simp] theorem State.setWin_ledger (s : State) (w : Nat) (f : Window → Window) : (s.setWin w f).ledger = s.ledger := rfl
@[simp] theorem State.setWin_dma (s : State) (w : Nat) (f : Window → Window) : (s.setWin w f).dma = s.dma := rfl
@[simp] theorem State.setWin_uio (s : State) (w : Nat) (f : Window → Window) : (s.setWin w f).uio = s.uio := rfl
@[simp] theorem State.setWin_relay (s : State) (w : Nat) (f : Window → Window) : (s.setWin w f).relay = s.relay := rfl
@[simp] theorem State.setWin_can (s : State) (w : Nat) (f : Window → Window) : (s.setWin w f).can = s.can := rfl
@[simp] theorem State.setWin_engine (s : State) (w : Nat) (f : Window → Window) : (s.setWin w f).engine = s.engine := rfl
@[simp] theorem State.setWin_lap (s : State) (w : Nat) (f : Window → Window) : (s.setWin w f).lap = s.lap := rfl
@[simp] theorem State.setWin_furun (s : State) (w : Nat) (f : Window → Window) : (s.setWin w f).furun = s.furun := rfl
@[simp] theorem State.setWin_eth (s : State) (w : Nat) (f : Window → Window) : (s.setWin w f).eth = s.eth := rfl
@[simp] theorem State.setWin_pacer (s : State) (w : Nat) (f : Window → Window) : (s.setWin w f).pacer = s.pacer := rfl
@[simp] theorem State.setWin_met (s : State) (w : Nat) (f : Window → Window) : (s.setWin w f).met = s.met := rfl
@[simp] theorem State.setWin_safe (s : State) (w : Nat) (f : Window → Window) : (s.setWin w f).safe = s.safe := rfl
@[simp] theorem State.setWin_mirror (s : State) (w : Nat) (f : Window → Window) : (s.setWin w f).mirror = s.mirror := rfl
@[simp] theorem State.setWin_rtc (s : State) (w : Nat) (f : Window → Window) : (s.setWin w f).rtc = s.rtc := rfl
@[simp] theorem State.setWin_keys (s : State) (w : Nat) (f : Window → Window) : (s.setWin w f).keys = s.keys := rfl
@[simp] theorem State.setWin_upd (s : State) (w : Nat) (f : Window → Window) : (s.setWin w f).upd = s.upd := rfl

@[simp] theorem State.markShown_pending (s : State) (q : List Nat) : (s.markShown q).pending = s.pending := rfl
@[simp] theorem State.markShown_clk (s : State) (q : List Nat) : (s.markShown q).clk = s.clk := rfl
@[simp] theorem State.markShown_sysOfs (s : State) (q : List Nat) : (s.markShown q).sysOfs = s.sysOfs := rfl
@[simp] theorem State.markShown_startClk (s : State) (q : List Nat) : (s.markShown q).startClk = s.startClk := rfl
@[simp] theorem State.markShown_regs (s : State) (q : List Nat) : (s.markShown q).regs = s.regs := rfl
@[simp] theorem State.markShown_cfgMem (s : State) (q : List Nat) : (s.markShown q).cfgMem = s.cfgMem := rfl
@[simp] theorem State.markShown_mem (s : State) (q : List Nat) : (s.markShown q).mem = s.mem := rfl
@[simp] theorem State.markShown_out (s : State) (q : List Nat) : (s.markShown q).out = s.out := rfl
@[simp] theorem State.markShown_freeCtr (s : State) (q : List Nat) : (s.markShown q).freeCtr = s.freeCtr := rfl
@[simp] theorem State.markShown_limiters (s : State) (q : List Nat) : (s.markShown q).limiters = s.limiters := rfl
@[simp] theorem State.markShown_sys (s : State) (q : List Nat) : (s.markShown q).sys = s.sys := rfl
@[simp] theorem State.markShown_start (s : State) (q : List Nat) : (s.markShown q).start = s.start := rfl
@[simp] theorem State.markShown_baton (s : State) (q : List Nat) : (s.markShown q).baton = s.baton := rfl
@[simp] theorem State.markShown_estate (s : State) (q : List Nat) : (s.markShown q).estate = s.estate := rfl
@[simp] theorem State.markShown_drill (s : State) (q : List Nat) : (s.markShown q).drill = s.drill := rfl
@[simp] theorem State.markShown_ledger (s : State) (q : List Nat) : (s.markShown q).ledger = s.ledger := rfl
@[simp] theorem State.markShown_dma (s : State) (q : List Nat) : (s.markShown q).dma = s.dma := rfl
@[simp] theorem State.markShown_uio (s : State) (q : List Nat) : (s.markShown q).uio = s.uio := rfl
@[simp] theorem State.markShown_relay (s : State) (q : List Nat) : (s.markShown q).relay = s.relay := rfl
@[simp] theorem State.markShown_can (s : State) (q : List Nat) : (s.markShown q).can = s.can := rfl
@[simp] theorem State.markShown_engine (s : State) (q : List Nat) : (s.markShown q).engine = s.engine := rfl
@[simp] theorem State.markShown_lap (s : State) (q : List Nat) : (s.markShown q).lap = s.lap := rfl
@[simp] theorem State.markShown_furun (s : State) (q : List Nat) : (s.markShown q).furun = s.furun := rfl
@[simp] theorem State.markShown_eth (s : State) (q : List Nat) : (s.markShown q).eth = s.eth := rfl
@[simp] theorem State.markShown_pacer (s : State) (q : List Nat) : (s.markShown q).pacer = s.pacer := rfl
@[simp] theorem State.markShown_met (s : State) (q : List Nat) : (s.markShown q).met = s.met := rfl
@[simp] theorem State.markShown_safe (s : State) (q : List Nat) : (s.markShown q).safe = s.safe := rfl
@[simp] theorem State.markShown_mirror (s : State) (q : List Nat) : (s.markShown q).mirror = s.mirror := rfl
@[simp] theorem State.markShown_rtc (s : State) (q : List Nat) : (s.markShown q).rtc = s.rtc := rfl
@[simp] theorem State.markShown_keys (s : State) (q : List Nat) : (s.markShown q).keys = s.keys := rfl
@[simp] theorem State.markShown_upd (s : State) (q : List Nat) : (s.markShown q).upd = s.upd := rfl

@[simp] theorem State.setDma_pending (s : State) (c : Nat) (f : DmaCh → DmaCh) : (s.setDma c f).pending = s.pending := rfl
@[simp] theorem State.setDma_clk (s : State) (c : Nat) (f : DmaCh → DmaCh) : (s.setDma c f).clk = s.clk := rfl
@[simp] theorem State.setDma_sysOfs (s : State) (c : Nat) (f : DmaCh → DmaCh) : (s.setDma c f).sysOfs = s.sysOfs := rfl
@[simp] theorem State.setDma_startClk (s : State) (c : Nat) (f : DmaCh → DmaCh) : (s.setDma c f).startClk = s.startClk := rfl
@[simp] theorem State.setDma_regs (s : State) (c : Nat) (f : DmaCh → DmaCh) : (s.setDma c f).regs = s.regs := rfl
@[simp] theorem State.setDma_cfgMem (s : State) (c : Nat) (f : DmaCh → DmaCh) : (s.setDma c f).cfgMem = s.cfgMem := rfl
@[simp] theorem State.setDma_mem (s : State) (c : Nat) (f : DmaCh → DmaCh) : (s.setDma c f).mem = s.mem := rfl
@[simp] theorem State.setDma_out (s : State) (c : Nat) (f : DmaCh → DmaCh) : (s.setDma c f).out = s.out := rfl
@[simp] theorem State.setDma_freeCtr (s : State) (c : Nat) (f : DmaCh → DmaCh) : (s.setDma c f).freeCtr = s.freeCtr := rfl
@[simp] theorem State.setDma_limiters (s : State) (c : Nat) (f : DmaCh → DmaCh) : (s.setDma c f).limiters = s.limiters := rfl
@[simp] theorem State.setDma_sys (s : State) (c : Nat) (f : DmaCh → DmaCh) : (s.setDma c f).sys = s.sys := rfl
@[simp] theorem State.setDma_start (s : State) (c : Nat) (f : DmaCh → DmaCh) : (s.setDma c f).start = s.start := rfl
@[simp] theorem State.setDma_baton (s : State) (c : Nat) (f : DmaCh → DmaCh) : (s.setDma c f).baton = s.baton := rfl
@[simp] theorem State.setDma_estate (s : State) (c : Nat) (f : DmaCh → DmaCh) : (s.setDma c f).estate = s.estate := rfl
@[simp] theorem State.setDma_drill (s : State) (c : Nat) (f : DmaCh → DmaCh) : (s.setDma c f).drill = s.drill := rfl
@[simp] theorem State.setDma_ledger (s : State) (c : Nat) (f : DmaCh → DmaCh) : (s.setDma c f).ledger = s.ledger := rfl
@[simp] theorem State.setDma_evr (s : State) (c : Nat) (f : DmaCh → DmaCh) : (s.setDma c f).evr = s.evr := rfl
@[simp] theorem State.setDma_uio (s : State) (c : Nat) (f : DmaCh → DmaCh) : (s.setDma c f).uio = s.uio := rfl
@[simp] theorem State.setDma_relay (s : State) (c : Nat) (f : DmaCh → DmaCh) : (s.setDma c f).relay = s.relay := rfl
@[simp] theorem State.setDma_can (s : State) (c : Nat) (f : DmaCh → DmaCh) : (s.setDma c f).can = s.can := rfl
@[simp] theorem State.setDma_engine (s : State) (c : Nat) (f : DmaCh → DmaCh) : (s.setDma c f).engine = s.engine := rfl
@[simp] theorem State.setDma_lap (s : State) (c : Nat) (f : DmaCh → DmaCh) : (s.setDma c f).lap = s.lap := rfl
@[simp] theorem State.setDma_furun (s : State) (c : Nat) (f : DmaCh → DmaCh) : (s.setDma c f).furun = s.furun := rfl
@[simp] theorem State.setDma_eth (s : State) (c : Nat) (f : DmaCh → DmaCh) : (s.setDma c f).eth = s.eth := rfl
@[simp] theorem State.setDma_pacer (s : State) (c : Nat) (f : DmaCh → DmaCh) : (s.setDma c f).pacer = s.pacer := rfl
@[simp] theorem State.setDma_met (s : State) (c : Nat) (f : DmaCh → DmaCh) : (s.setDma c f).met = s.met := rfl
@[simp] theorem State.setDma_safe (s : State) (c : Nat) (f : DmaCh → DmaCh) : (s.setDma c f).safe = s.safe := rfl
@[simp] theorem State.setDma_mirror (s : State) (c : Nat) (f : DmaCh → DmaCh) : (s.setDma c f).mirror = s.mirror := rfl
@[simp] theorem State.setDma_rtc (s : State) (c : Nat) (f : DmaCh → DmaCh) : (s.setDma c f).rtc = s.rtc := rfl
@[simp] theorem State.setDma_keys (s : State) (c : Nat) (f : DmaCh → DmaCh) : (s.setDma c f).keys = s.keys := rfl
@[simp] theorem State.setDma_upd (s : State) (c : Nat) (f : DmaCh → DmaCh) : (s.setDma c f).upd = s.upd := rfl

@[simp] theorem State.setUio_pending (s : State) (n : Nat) (f : UioCh → UioCh) : (s.setUio n f).pending = s.pending := rfl
@[simp] theorem State.setUio_clk (s : State) (n : Nat) (f : UioCh → UioCh) : (s.setUio n f).clk = s.clk := rfl
@[simp] theorem State.setUio_sysOfs (s : State) (n : Nat) (f : UioCh → UioCh) : (s.setUio n f).sysOfs = s.sysOfs := rfl
@[simp] theorem State.setUio_startClk (s : State) (n : Nat) (f : UioCh → UioCh) : (s.setUio n f).startClk = s.startClk := rfl
@[simp] theorem State.setUio_regs (s : State) (n : Nat) (f : UioCh → UioCh) : (s.setUio n f).regs = s.regs := rfl
@[simp] theorem State.setUio_cfgMem (s : State) (n : Nat) (f : UioCh → UioCh) : (s.setUio n f).cfgMem = s.cfgMem := rfl
@[simp] theorem State.setUio_mem (s : State) (n : Nat) (f : UioCh → UioCh) : (s.setUio n f).mem = s.mem := rfl
@[simp] theorem State.setUio_out (s : State) (n : Nat) (f : UioCh → UioCh) : (s.setUio n f).out = s.out := rfl
@[simp] theorem State.setUio_freeCtr (s : State) (n : Nat) (f : UioCh → UioCh) : (s.setUio n f).freeCtr = s.freeCtr := rfl
@[simp] theorem State.setUio_limiters (s : State) (n : Nat) (f : UioCh → UioCh) : (s.setUio n f).limiters = s.limiters := rfl
@[simp] theorem State.setUio_sys (s : State) (n : Nat) (f : UioCh → UioCh) : (s.setUio n f).sys = s.sys := rfl
@[simp] theorem State.setUio_start (s : State) (n : Nat) (f : UioCh → UioCh) : (s.setUio n f).start = s.start := rfl
@[simp] theorem State.setUio_baton (s : State) (n : Nat) (f : UioCh → UioCh) : (s.setUio n f).baton = s.baton := rfl
@[simp] theorem State.setUio_estate (s : State) (n : Nat) (f : UioCh → UioCh) : (s.setUio n f).estate = s.estate := rfl
@[simp] theorem State.setUio_drill (s : State) (n : Nat) (f : UioCh → UioCh) : (s.setUio n f).drill = s.drill := rfl
@[simp] theorem State.setUio_ledger (s : State) (n : Nat) (f : UioCh → UioCh) : (s.setUio n f).ledger = s.ledger := rfl
@[simp] theorem State.setUio_evr (s : State) (n : Nat) (f : UioCh → UioCh) : (s.setUio n f).evr = s.evr := rfl
@[simp] theorem State.setUio_dma (s : State) (n : Nat) (f : UioCh → UioCh) : (s.setUio n f).dma = s.dma := rfl
@[simp] theorem State.setUio_relay (s : State) (n : Nat) (f : UioCh → UioCh) : (s.setUio n f).relay = s.relay := rfl
@[simp] theorem State.setUio_can (s : State) (n : Nat) (f : UioCh → UioCh) : (s.setUio n f).can = s.can := rfl
@[simp] theorem State.setUio_engine (s : State) (n : Nat) (f : UioCh → UioCh) : (s.setUio n f).engine = s.engine := rfl
@[simp] theorem State.setUio_lap (s : State) (n : Nat) (f : UioCh → UioCh) : (s.setUio n f).lap = s.lap := rfl
@[simp] theorem State.setUio_furun (s : State) (n : Nat) (f : UioCh → UioCh) : (s.setUio n f).furun = s.furun := rfl
@[simp] theorem State.setUio_eth (s : State) (n : Nat) (f : UioCh → UioCh) : (s.setUio n f).eth = s.eth := rfl
@[simp] theorem State.setUio_pacer (s : State) (n : Nat) (f : UioCh → UioCh) : (s.setUio n f).pacer = s.pacer := rfl
@[simp] theorem State.setUio_met (s : State) (n : Nat) (f : UioCh → UioCh) : (s.setUio n f).met = s.met := rfl
@[simp] theorem State.setUio_safe (s : State) (n : Nat) (f : UioCh → UioCh) : (s.setUio n f).safe = s.safe := rfl
@[simp] theorem State.setUio_mirror (s : State) (n : Nat) (f : UioCh → UioCh) : (s.setUio n f).mirror = s.mirror := rfl
@[simp] theorem State.setUio_rtc (s : State) (n : Nat) (f : UioCh → UioCh) : (s.setUio n f).rtc = s.rtc := rfl
@[simp] theorem State.setUio_keys (s : State) (n : Nat) (f : UioCh → UioCh) : (s.setUio n f).keys = s.keys := rfl
@[simp] theorem State.setUio_upd (s : State) (n : Nat) (f : UioCh → UioCh) : (s.setUio n f).upd = s.upd := rfl

@[simp] theorem State.setRelay_pending (s : State) (f : RelaySt → RelaySt) : (s.setRelay f).pending = s.pending := rfl
@[simp] theorem State.setRelay_clk (s : State) (f : RelaySt → RelaySt) : (s.setRelay f).clk = s.clk := rfl
@[simp] theorem State.setRelay_sysOfs (s : State) (f : RelaySt → RelaySt) : (s.setRelay f).sysOfs = s.sysOfs := rfl
@[simp] theorem State.setRelay_startClk (s : State) (f : RelaySt → RelaySt) : (s.setRelay f).startClk = s.startClk := rfl
@[simp] theorem State.setRelay_regs (s : State) (f : RelaySt → RelaySt) : (s.setRelay f).regs = s.regs := rfl
@[simp] theorem State.setRelay_cfgMem (s : State) (f : RelaySt → RelaySt) : (s.setRelay f).cfgMem = s.cfgMem := rfl
@[simp] theorem State.setRelay_mem (s : State) (f : RelaySt → RelaySt) : (s.setRelay f).mem = s.mem := rfl
@[simp] theorem State.setRelay_out (s : State) (f : RelaySt → RelaySt) : (s.setRelay f).out = s.out := rfl
@[simp] theorem State.setRelay_freeCtr (s : State) (f : RelaySt → RelaySt) : (s.setRelay f).freeCtr = s.freeCtr := rfl
@[simp] theorem State.setRelay_limiters (s : State) (f : RelaySt → RelaySt) : (s.setRelay f).limiters = s.limiters := rfl
@[simp] theorem State.setRelay_sys (s : State) (f : RelaySt → RelaySt) : (s.setRelay f).sys = s.sys := rfl
@[simp] theorem State.setRelay_start (s : State) (f : RelaySt → RelaySt) : (s.setRelay f).start = s.start := rfl
@[simp] theorem State.setRelay_baton (s : State) (f : RelaySt → RelaySt) : (s.setRelay f).baton = s.baton := rfl
@[simp] theorem State.setRelay_estate (s : State) (f : RelaySt → RelaySt) : (s.setRelay f).estate = s.estate := rfl
@[simp] theorem State.setRelay_drill (s : State) (f : RelaySt → RelaySt) : (s.setRelay f).drill = s.drill := rfl
@[simp] theorem State.setRelay_ledger (s : State) (f : RelaySt → RelaySt) : (s.setRelay f).ledger = s.ledger := rfl
@[simp] theorem State.setRelay_evr (s : State) (f : RelaySt → RelaySt) : (s.setRelay f).evr = s.evr := rfl
@[simp] theorem State.setRelay_dma (s : State) (f : RelaySt → RelaySt) : (s.setRelay f).dma = s.dma := rfl
@[simp] theorem State.setRelay_uio (s : State) (f : RelaySt → RelaySt) : (s.setRelay f).uio = s.uio := rfl
@[simp] theorem State.setRelay_can (s : State) (f : RelaySt → RelaySt) : (s.setRelay f).can = s.can := rfl
@[simp] theorem State.setRelay_engine (s : State) (f : RelaySt → RelaySt) : (s.setRelay f).engine = s.engine := rfl
@[simp] theorem State.setRelay_lap (s : State) (f : RelaySt → RelaySt) : (s.setRelay f).lap = s.lap := rfl
@[simp] theorem State.setRelay_furun (s : State) (f : RelaySt → RelaySt) : (s.setRelay f).furun = s.furun := rfl
@[simp] theorem State.setRelay_eth (s : State) (f : RelaySt → RelaySt) : (s.setRelay f).eth = s.eth := rfl
@[simp] theorem State.setRelay_pacer (s : State) (f : RelaySt → RelaySt) : (s.setRelay f).pacer = s.pacer := rfl
@[simp] theorem State.setRelay_met (s : State) (f : RelaySt → RelaySt) : (s.setRelay f).met = s.met := rfl
@[simp] theorem State.setRelay_safe (s : State) (f : RelaySt → RelaySt) : (s.setRelay f).safe = s.safe := rfl
@[simp] theorem State.setRelay_mirror (s : State) (f : RelaySt → RelaySt) : (s.setRelay f).mirror = s.mirror := rfl
@[simp] theorem State.setRelay_rtc (s : State) (f : RelaySt → RelaySt) : (s.setRelay f).rtc = s.rtc := rfl
@[simp] theorem State.setRelay_keys (s : State) (f : RelaySt → RelaySt) : (s.setRelay f).keys = s.keys := rfl
@[simp] theorem State.setRelay_upd (s : State) (f : RelaySt → RelaySt) : (s.setRelay f).upd = s.upd := rfl

@[simp] theorem State.setCan_pending (s : State) (c : Nat) (f : CanCh → CanCh) : (s.setCan c f).pending = s.pending := rfl
@[simp] theorem State.setCan_clk (s : State) (c : Nat) (f : CanCh → CanCh) : (s.setCan c f).clk = s.clk := rfl
@[simp] theorem State.setCan_sysOfs (s : State) (c : Nat) (f : CanCh → CanCh) : (s.setCan c f).sysOfs = s.sysOfs := rfl
@[simp] theorem State.setCan_startClk (s : State) (c : Nat) (f : CanCh → CanCh) : (s.setCan c f).startClk = s.startClk := rfl
@[simp] theorem State.setCan_regs (s : State) (c : Nat) (f : CanCh → CanCh) : (s.setCan c f).regs = s.regs := rfl
@[simp] theorem State.setCan_cfgMem (s : State) (c : Nat) (f : CanCh → CanCh) : (s.setCan c f).cfgMem = s.cfgMem := rfl
@[simp] theorem State.setCan_mem (s : State) (c : Nat) (f : CanCh → CanCh) : (s.setCan c f).mem = s.mem := rfl
@[simp] theorem State.setCan_out (s : State) (c : Nat) (f : CanCh → CanCh) : (s.setCan c f).out = s.out := rfl
@[simp] theorem State.setCan_freeCtr (s : State) (c : Nat) (f : CanCh → CanCh) : (s.setCan c f).freeCtr = s.freeCtr := rfl
@[simp] theorem State.setCan_limiters (s : State) (c : Nat) (f : CanCh → CanCh) : (s.setCan c f).limiters = s.limiters := rfl
@[simp] theorem State.setCan_sys (s : State) (c : Nat) (f : CanCh → CanCh) : (s.setCan c f).sys = s.sys := rfl
@[simp] theorem State.setCan_start (s : State) (c : Nat) (f : CanCh → CanCh) : (s.setCan c f).start = s.start := rfl
@[simp] theorem State.setCan_baton (s : State) (c : Nat) (f : CanCh → CanCh) : (s.setCan c f).baton = s.baton := rfl
@[simp] theorem State.setCan_estate (s : State) (c : Nat) (f : CanCh → CanCh) : (s.setCan c f).estate = s.estate := rfl
@[simp] theorem State.setCan_drill (s : State) (c : Nat) (f : CanCh → CanCh) : (s.setCan c f).drill = s.drill := rfl
@[simp] theorem State.setCan_ledger (s : State) (c : Nat) (f : CanCh → CanCh) : (s.setCan c f).ledger = s.ledger := rfl
@[simp] theorem State.setCan_evr (s : State) (c : Nat) (f : CanCh → CanCh) : (s.setCan c f).evr = s.evr := rfl
@[simp] theorem State.setCan_dma (s : State) (c : Nat) (f : CanCh → CanCh) : (s.setCan c f).dma = s.dma := rfl
@[simp] theorem State.setCan_uio (s : State) (c : Nat) (f : CanCh → CanCh) : (s.setCan c f).uio = s.uio := rfl
@[simp] theorem State.setCan_relay (s : State) (c : Nat) (f : CanCh → CanCh) : (s.setCan c f).relay = s.relay := rfl
@[simp] theorem State.setCan_engine (s : State) (c : Nat) (f : CanCh → CanCh) : (s.setCan c f).engine = s.engine := rfl
@[simp] theorem State.setCan_lap (s : State) (c : Nat) (f : CanCh → CanCh) : (s.setCan c f).lap = s.lap := rfl
@[simp] theorem State.setCan_furun (s : State) (c : Nat) (f : CanCh → CanCh) : (s.setCan c f).furun = s.furun := rfl
@[simp] theorem State.setCan_eth (s : State) (c : Nat) (f : CanCh → CanCh) : (s.setCan c f).eth = s.eth := rfl
@[simp] theorem State.setCan_pacer (s : State) (c : Nat) (f : CanCh → CanCh) : (s.setCan c f).pacer = s.pacer := rfl
@[simp] theorem State.setCan_met (s : State) (c : Nat) (f : CanCh → CanCh) : (s.setCan c f).met = s.met := rfl
@[simp] theorem State.setCan_safe (s : State) (c : Nat) (f : CanCh → CanCh) : (s.setCan c f).safe = s.safe := rfl
@[simp] theorem State.setCan_mirror (s : State) (c : Nat) (f : CanCh → CanCh) : (s.setCan c f).mirror = s.mirror := rfl
@[simp] theorem State.setCan_rtc (s : State) (c : Nat) (f : CanCh → CanCh) : (s.setCan c f).rtc = s.rtc := rfl
@[simp] theorem State.setCan_keys (s : State) (c : Nat) (f : CanCh → CanCh) : (s.setCan c f).keys = s.keys := rfl
@[simp] theorem State.setCan_upd (s : State) (c : Nat) (f : CanCh → CanCh) : (s.setCan c f).upd = s.upd := rfl

@[simp] theorem State.setLoop_pending (s : State) (n : Nat) (f : LoopSt → LoopSt) : (s.setLoop n f).pending = s.pending := rfl
@[simp] theorem State.setLoop_clk (s : State) (n : Nat) (f : LoopSt → LoopSt) : (s.setLoop n f).clk = s.clk := rfl
@[simp] theorem State.setLoop_sysOfs (s : State) (n : Nat) (f : LoopSt → LoopSt) : (s.setLoop n f).sysOfs = s.sysOfs := rfl
@[simp] theorem State.setLoop_startClk (s : State) (n : Nat) (f : LoopSt → LoopSt) : (s.setLoop n f).startClk = s.startClk := rfl
@[simp] theorem State.setLoop_regs (s : State) (n : Nat) (f : LoopSt → LoopSt) : (s.setLoop n f).regs = s.regs := rfl
@[simp] theorem State.setLoop_cfgMem (s : State) (n : Nat) (f : LoopSt → LoopSt) : (s.setLoop n f).cfgMem = s.cfgMem := rfl
@[simp] theorem State.setLoop_mem (s : State) (n : Nat) (f : LoopSt → LoopSt) : (s.setLoop n f).mem = s.mem := rfl
@[simp] theorem State.setLoop_out (s : State) (n : Nat) (f : LoopSt → LoopSt) : (s.setLoop n f).out = s.out := rfl
@[simp] theorem State.setLoop_freeCtr (s : State) (n : Nat) (f : LoopSt → LoopSt) : (s.setLoop n f).freeCtr = s.freeCtr := rfl
@[simp] theorem State.setLoop_limiters (s : State) (n : Nat) (f : LoopSt → LoopSt) : (s.setLoop n f).limiters = s.limiters := rfl
@[simp] theorem State.setLoop_sys (s : State) (n : Nat) (f : LoopSt → LoopSt) : (s.setLoop n f).sys = s.sys := rfl
@[simp] theorem State.setLoop_start (s : State) (n : Nat) (f : LoopSt → LoopSt) : (s.setLoop n f).start = s.start := rfl
@[simp] theorem State.setLoop_baton (s : State) (n : Nat) (f : LoopSt → LoopSt) : (s.setLoop n f).baton = s.baton := rfl
@[simp] theorem State.setLoop_estate (s : State) (n : Nat) (f : LoopSt → LoopSt) : (s.setLoop n f).estate = s.estate := rfl
@[simp] theorem State.setLoop_drill (s : State) (n : Nat) (f : LoopSt → LoopSt) : (s.setLoop n f).drill = s.drill := rfl
@[simp] theorem State.setLoop_ledger (s : State) (n : Nat) (f : LoopSt → LoopSt) : (s.setLoop n f).ledger = s.ledger := rfl
@[simp] theorem State.setLoop_evr (s : State) (n : Nat) (f : LoopSt → LoopSt) : (s.setLoop n f).evr = s.evr := rfl
@[simp] theorem State.setLoop_dma (s : State) (n : Nat) (f : LoopSt → LoopSt) : (s.setLoop n f).dma = s.dma := rfl
@[simp] theorem State.setLoop_uio (s : State) (n : Nat) (f : LoopSt → LoopSt) : (s.setLoop n f).uio = s.uio := rfl
@[simp] theorem State.setLoop_relay (s : State) (n : Nat) (f : LoopSt → LoopSt) : (s.setLoop n f).relay = s.relay := rfl
@[simp] theorem State.setLoop_can (s : State) (n : Nat) (f : LoopSt → LoopSt) : (s.setLoop n f).can = s.can := rfl
@[simp] theorem State.setLoop_lap (s : State) (n : Nat) (f : LoopSt → LoopSt) : (s.setLoop n f).lap = s.lap := rfl
@[simp] theorem State.setLoop_furun (s : State) (n : Nat) (f : LoopSt → LoopSt) : (s.setLoop n f).furun = s.furun := rfl
@[simp] theorem State.setLoop_eth (s : State) (n : Nat) (f : LoopSt → LoopSt) : (s.setLoop n f).eth = s.eth := rfl
@[simp] theorem State.setLoop_pacer (s : State) (n : Nat) (f : LoopSt → LoopSt) : (s.setLoop n f).pacer = s.pacer := rfl
@[simp] theorem State.setLoop_met (s : State) (n : Nat) (f : LoopSt → LoopSt) : (s.setLoop n f).met = s.met := rfl
@[simp] theorem State.setLoop_safe (s : State) (n : Nat) (f : LoopSt → LoopSt) : (s.setLoop n f).safe = s.safe := rfl
@[simp] theorem State.setLoop_mirror (s : State) (n : Nat) (f : LoopSt → LoopSt) : (s.setLoop n f).mirror = s.mirror := rfl
@[simp] theorem State.setLoop_rtc (s : State) (n : Nat) (f : LoopSt → LoopSt) : (s.setLoop n f).rtc = s.rtc := rfl
@[simp] theorem State.setLoop_keys (s : State) (n : Nat) (f : LoopSt → LoopSt) : (s.setLoop n f).keys = s.keys := rfl
@[simp] theorem State.setLoop_upd (s : State) (n : Nat) (f : LoopSt → LoopSt) : (s.setLoop n f).upd = s.upd := rfl

@[simp] theorem State.setTask_pending (s : State) (n : Nat) (f : LapTask → LapTask) : (s.setTask n f).pending = s.pending := rfl
@[simp] theorem State.setTask_clk (s : State) (n : Nat) (f : LapTask → LapTask) : (s.setTask n f).clk = s.clk := rfl
@[simp] theorem State.setTask_sysOfs (s : State) (n : Nat) (f : LapTask → LapTask) : (s.setTask n f).sysOfs = s.sysOfs := rfl
@[simp] theorem State.setTask_startClk (s : State) (n : Nat) (f : LapTask → LapTask) : (s.setTask n f).startClk = s.startClk := rfl
@[simp] theorem State.setTask_regs (s : State) (n : Nat) (f : LapTask → LapTask) : (s.setTask n f).regs = s.regs := rfl
@[simp] theorem State.setTask_cfgMem (s : State) (n : Nat) (f : LapTask → LapTask) : (s.setTask n f).cfgMem = s.cfgMem := rfl
@[simp] theorem State.setTask_mem (s : State) (n : Nat) (f : LapTask → LapTask) : (s.setTask n f).mem = s.mem := rfl
@[simp] theorem State.setTask_out (s : State) (n : Nat) (f : LapTask → LapTask) : (s.setTask n f).out = s.out := rfl
@[simp] theorem State.setTask_freeCtr (s : State) (n : Nat) (f : LapTask → LapTask) : (s.setTask n f).freeCtr = s.freeCtr := rfl
@[simp] theorem State.setTask_limiters (s : State) (n : Nat) (f : LapTask → LapTask) : (s.setTask n f).limiters = s.limiters := rfl
@[simp] theorem State.setTask_sys (s : State) (n : Nat) (f : LapTask → LapTask) : (s.setTask n f).sys = s.sys := rfl
@[simp] theorem State.setTask_start (s : State) (n : Nat) (f : LapTask → LapTask) : (s.setTask n f).start = s.start := rfl
@[simp] theorem State.setTask_baton (s : State) (n : Nat) (f : LapTask → LapTask) : (s.setTask n f).baton = s.baton := rfl
@[simp] theorem State.setTask_estate (s : State) (n : Nat) (f : LapTask → LapTask) : (s.setTask n f).estate = s.estate := rfl
@[simp] theorem State.setTask_drill (s : State) (n : Nat) (f : LapTask → LapTask) : (s.setTask n f).drill = s.drill := rfl
@[simp] theorem State.setTask_ledger (s : State) (n : Nat) (f : LapTask → LapTask) : (s.setTask n f).ledger = s.ledger := rfl
@[simp] theorem State.setTask_evr (s : State) (n : Nat) (f : LapTask → LapTask) : (s.setTask n f).evr = s.evr := rfl
@[simp] theorem State.setTask_dma (s : State) (n : Nat) (f : LapTask → LapTask) : (s.setTask n f).dma = s.dma := rfl
@[simp] theorem State.setTask_uio (s : State) (n : Nat) (f : LapTask → LapTask) : (s.setTask n f).uio = s.uio := rfl
@[simp] theorem State.setTask_relay (s : State) (n : Nat) (f : LapTask → LapTask) : (s.setTask n f).relay = s.relay := rfl
@[simp] theorem State.setTask_can (s : State) (n : Nat) (f : LapTask → LapTask) : (s.setTask n f).can = s.can := rfl
@[simp] theorem State.setTask_engine (s : State) (n : Nat) (f : LapTask → LapTask) : (s.setTask n f).engine = s.engine := rfl
@[simp] theorem State.setTask_furun (s : State) (n : Nat) (f : LapTask → LapTask) : (s.setTask n f).furun = s.furun := rfl
@[simp] theorem State.setTask_eth (s : State) (n : Nat) (f : LapTask → LapTask) : (s.setTask n f).eth = s.eth := rfl
@[simp] theorem State.setTask_pacer (s : State) (n : Nat) (f : LapTask → LapTask) : (s.setTask n f).pacer = s.pacer := rfl
@[simp] theorem State.setTask_met (s : State) (n : Nat) (f : LapTask → LapTask) : (s.setTask n f).met = s.met := rfl
@[simp] theorem State.setTask_safe (s : State) (n : Nat) (f : LapTask → LapTask) : (s.setTask n f).safe = s.safe := rfl
@[simp] theorem State.setTask_mirror (s : State) (n : Nat) (f : LapTask → LapTask) : (s.setTask n f).mirror = s.mirror := rfl
@[simp] theorem State.setTask_rtc (s : State) (n : Nat) (f : LapTask → LapTask) : (s.setTask n f).rtc = s.rtc := rfl
@[simp] theorem State.setTask_keys (s : State) (n : Nat) (f : LapTask → LapTask) : (s.setTask n f).keys = s.keys := rfl
@[simp] theorem State.setTask_upd (s : State) (n : Nat) (f : LapTask → LapTask) : (s.setTask n f).upd = s.upd := rfl

@[simp] theorem State.setLap_pending (s : State) (f : LapSt → LapSt) : (s.setLap f).pending = s.pending := rfl
@[simp] theorem State.setLap_clk (s : State) (f : LapSt → LapSt) : (s.setLap f).clk = s.clk := rfl
@[simp] theorem State.setLap_sysOfs (s : State) (f : LapSt → LapSt) : (s.setLap f).sysOfs = s.sysOfs := rfl
@[simp] theorem State.setLap_startClk (s : State) (f : LapSt → LapSt) : (s.setLap f).startClk = s.startClk := rfl
@[simp] theorem State.setLap_regs (s : State) (f : LapSt → LapSt) : (s.setLap f).regs = s.regs := rfl
@[simp] theorem State.setLap_cfgMem (s : State) (f : LapSt → LapSt) : (s.setLap f).cfgMem = s.cfgMem := rfl
@[simp] theorem State.setLap_mem (s : State) (f : LapSt → LapSt) : (s.setLap f).mem = s.mem := rfl
@[simp] theorem State.setLap_out (s : State) (f : LapSt → LapSt) : (s.setLap f).out = s.out := rfl
@[simp] theorem State.setLap_freeCtr (s : State) (f : LapSt → LapSt) : (s.setLap f).freeCtr = s.freeCtr := rfl
@[simp] theorem State.setLap_limiters (s : State) (f : LapSt → LapSt) : (s.setLap f).limiters = s.limiters := rfl
@[simp] theorem State.setLap_sys (s : State) (f : LapSt → LapSt) : (s.setLap f).sys = s.sys := rfl
@[simp] theorem State.setLap_start (s : State) (f : LapSt → LapSt) : (s.setLap f).start = s.start := rfl
@[simp] theorem State.setLap_baton (s : State) (f : LapSt → LapSt) : (s.setLap f).baton = s.baton := rfl
@[simp] theorem State.setLap_estate (s : State) (f : LapSt → LapSt) : (s.setLap f).estate = s.estate := rfl
@[simp] theorem State.setLap_drill (s : State) (f : LapSt → LapSt) : (s.setLap f).drill = s.drill := rfl
@[simp] theorem State.setLap_ledger (s : State) (f : LapSt → LapSt) : (s.setLap f).ledger = s.ledger := rfl
@[simp] theorem State.setLap_evr (s : State) (f : LapSt → LapSt) : (s.setLap f).evr = s.evr := rfl
@[simp] theorem State.setLap_dma (s : State) (f : LapSt → LapSt) : (s.setLap f).dma = s.dma := rfl
@[simp] theorem State.setLap_uio (s : State) (f : LapSt → LapSt) : (s.setLap f).uio = s.uio := rfl
@[simp] theorem State.setLap_relay (s : State) (f : LapSt → LapSt) : (s.setLap f).relay = s.relay := rfl
@[simp] theorem State.setLap_can (s : State) (f : LapSt → LapSt) : (s.setLap f).can = s.can := rfl
@[simp] theorem State.setLap_engine (s : State) (f : LapSt → LapSt) : (s.setLap f).engine = s.engine := rfl
@[simp] theorem State.setLap_furun (s : State) (f : LapSt → LapSt) : (s.setLap f).furun = s.furun := rfl
@[simp] theorem State.setLap_eth (s : State) (f : LapSt → LapSt) : (s.setLap f).eth = s.eth := rfl
@[simp] theorem State.setLap_pacer (s : State) (f : LapSt → LapSt) : (s.setLap f).pacer = s.pacer := rfl
@[simp] theorem State.setLap_met (s : State) (f : LapSt → LapSt) : (s.setLap f).met = s.met := rfl
@[simp] theorem State.setLap_safe (s : State) (f : LapSt → LapSt) : (s.setLap f).safe = s.safe := rfl
@[simp] theorem State.setLap_mirror (s : State) (f : LapSt → LapSt) : (s.setLap f).mirror = s.mirror := rfl
@[simp] theorem State.setLap_rtc (s : State) (f : LapSt → LapSt) : (s.setLap f).rtc = s.rtc := rfl
@[simp] theorem State.setLap_keys (s : State) (f : LapSt → LapSt) : (s.setLap f).keys = s.keys := rfl
@[simp] theorem State.setLap_upd (s : State) (f : LapSt → LapSt) : (s.setLap f).upd = s.upd := rfl

@[simp] theorem State.modGroup_pending (s : State) (g : W64) (f : FGroup → FGroup) : (s.modGroup g f).pending = s.pending := rfl
@[simp] theorem State.modGroup_clk (s : State) (g : W64) (f : FGroup → FGroup) : (s.modGroup g f).clk = s.clk := rfl
@[simp] theorem State.modGroup_sysOfs (s : State) (g : W64) (f : FGroup → FGroup) : (s.modGroup g f).sysOfs = s.sysOfs := rfl
@[simp] theorem State.modGroup_startClk (s : State) (g : W64) (f : FGroup → FGroup) : (s.modGroup g f).startClk = s.startClk := rfl
@[simp] theorem State.modGroup_regs (s : State) (g : W64) (f : FGroup → FGroup) : (s.modGroup g f).regs = s.regs := rfl
@[simp] theorem State.modGroup_cfgMem (s : State) (g : W64) (f : FGroup → FGroup) : (s.modGroup g f).cfgMem = s.cfgMem := rfl
@[simp] theorem State.modGroup_mem (s : State) (g : W64) (f : FGroup → FGroup) : (s.modGroup g f).mem = s.mem := rfl
@[simp] theorem State.modGroup_out (s : State) (g : W64) (f : FGroup → FGroup) : (s.modGroup g f).out = s.out := rfl
@[simp] theorem State.modGroup_freeCtr (s : State) (g : W64) (f : FGroup → FGroup) : (s.modGroup g f).freeCtr = s.freeCtr := rfl
@[simp] theorem State.modGroup_limiters (s : State) (g : W64) (f : FGroup → FGroup) : (s.modGroup g f).limiters = s.limiters := rfl
@[simp] theorem State.modGroup_sys (s : State) (g : W64) (f : FGroup → FGroup) : (s.modGroup g f).sys = s.sys := rfl
@[simp] theorem State.modGroup_start (s : State) (g : W64) (f : FGroup → FGroup) : (s.modGroup g f).start = s.start := rfl
@[simp] theorem State.modGroup_baton (s : State) (g : W64) (f : FGroup → FGroup) : (s.modGroup g f).baton = s.baton := rfl
@[simp] theorem State.modGroup_estate (s : State) (g : W64) (f : FGroup → FGroup) : (s.modGroup g f).estate = s.estate := rfl
@[simp] theorem State.modGroup_drill (s : State) (g : W64) (f : FGroup → FGroup) : (s.modGroup g f).drill = s.drill := rfl
@[simp] theorem State.modGroup_ledger (s : State) (g : W64) (f : FGroup → FGroup) : (s.modGroup g f).ledger = s.ledger := rfl
@[simp] theorem State.modGroup_evr (s : State) (g : W64) (f : FGroup → FGroup) : (s.modGroup g f).evr = s.evr := rfl
@[simp] theorem State.modGroup_dma (s : State) (g : W64) (f : FGroup → FGroup) : (s.modGroup g f).dma = s.dma := rfl
@[simp] theorem State.modGroup_uio (s : State) (g : W64) (f : FGroup → FGroup) : (s.modGroup g f).uio = s.uio := rfl
@[simp] theorem State.modGroup_relay (s : State) (g : W64) (f : FGroup → FGroup) : (s.modGroup g f).relay = s.relay := rfl
@[simp] theorem State.modGroup_can (s : State) (g : W64) (f : FGroup → FGroup) : (s.modGroup g f).can = s.can := rfl
@[simp] theorem State.modGroup_engine (s : State) (g : W64) (f : FGroup → FGroup) : (s.modGroup g f).engine = s.engine := rfl
@[simp] theorem State.modGroup_lap (s : State) (g : W64) (f : FGroup → FGroup) : (s.modGroup g f).lap = s.lap := rfl
@[simp] theorem State.modGroup_eth (s : State) (g : W64) (f : FGroup → FGroup) : (s.modGroup g f).eth = s.eth := rfl
@[simp] theorem State.modGroup_pacer (s : State) (g : W64) (f : FGroup → FGroup) : (s.modGroup g f).pacer = s.pacer := rfl
@[simp] theorem State.modGroup_met (s : State) (g : W64) (f : FGroup → FGroup) : (s.modGroup g f).met = s.met := rfl
@[simp] theorem State.modGroup_safe (s : State) (g : W64) (f : FGroup → FGroup) : (s.modGroup g f).safe = s.safe := rfl
@[simp] theorem State.modGroup_mirror (s : State) (g : W64) (f : FGroup → FGroup) : (s.modGroup g f).mirror = s.mirror := rfl
@[simp] theorem State.modGroup_rtc (s : State) (g : W64) (f : FGroup → FGroup) : (s.modGroup g f).rtc = s.rtc := rfl
@[simp] theorem State.modGroup_keys (s : State) (g : W64) (f : FGroup → FGroup) : (s.modGroup g f).keys = s.keys := rfl
@[simp] theorem State.modGroup_upd (s : State) (g : W64) (f : FGroup → FGroup) : (s.modGroup g f).upd = s.upd := rfl

@[simp] theorem State.modLink_pending (s : State) (a : W64) (f : FLink → FLink) : (s.modLink a f).pending = s.pending := rfl
@[simp] theorem State.modLink_clk (s : State) (a : W64) (f : FLink → FLink) : (s.modLink a f).clk = s.clk := rfl
@[simp] theorem State.modLink_sysOfs (s : State) (a : W64) (f : FLink → FLink) : (s.modLink a f).sysOfs = s.sysOfs := rfl
@[simp] theorem State.modLink_startClk (s : State) (a : W64) (f : FLink → FLink) : (s.modLink a f).startClk = s.startClk := rfl
@[simp] theorem State.modLink_regs (s : State) (a : W64) (f : FLink → FLink) : (s.modLink a f).regs = s.regs := rfl
@[simp] theorem State.modLink_cfgMem (s : State) (a : W64) (f : FLink → FLink) : (s.modLink a f).cfgMem = s.cfgMem := rfl
@[simp] theorem State.modLink_mem (s : State) (a : W64) (f : FLink → FLink) : (s.modLink a f).mem = s.mem := rfl
@[simp] theorem State.modLink_out (s : State) (a : W64) (f : FLink → FLink) : (s.modLink a f).out = s.out := rfl
@[simp] theorem State.modLink_freeCtr (s : State) (a : W64) (f : FLink → FLink) : (s.modLink a f).freeCtr = s.freeCtr := rfl
@[simp] theorem State.modLink_limiters (s : State) (a : W64) (f : FLink → FLink) : (s.modLink a f).limiters = s.limiters := rfl
@[simp] theorem State.modLink_sys (s : State) (a : W64) (f : FLink → FLink) : (s.modLink a f).sys = s.sys := rfl
@[simp] theorem State.modLink_start (s : State) (a : W64) (f : FLink → FLink) : (s.modLink a f).start = s.start := rfl
@[simp] theorem State.modLink_baton (s : State) (a : W64) (f : FLink → FLink) : (s.modLink a f).baton = s.baton := rfl
@[simp] theorem State.modLink_estate (s : State) (a : W64) (f : FLink → FLink) : (s.modLink a f).estate = s.estate := rfl
@[simp] theorem State.modLink_drill (s : State) (a : W64) (f : FLink → FLink) : (s.modLink a f).drill = s.drill := rfl
@[simp] theorem State.modLink_ledger (s : State) (a : W64) (f : FLink → FLink) : (s.modLink a f).ledger = s.ledger := rfl
@[simp] theorem State.modLink_evr (s : State) (a : W64) (f : FLink → FLink) : (s.modLink a f).evr = s.evr := rfl
@[simp] theorem State.modLink_dma (s : State) (a : W64) (f : FLink → FLink) : (s.modLink a f).dma = s.dma := rfl
@[simp] theorem State.modLink_uio (s : State) (a : W64) (f : FLink → FLink) : (s.modLink a f).uio = s.uio := rfl
@[simp] theorem State.modLink_relay (s : State) (a : W64) (f : FLink → FLink) : (s.modLink a f).relay = s.relay := rfl
@[simp] theorem State.modLink_can (s : State) (a : W64) (f : FLink → FLink) : (s.modLink a f).can = s.can := rfl
@[simp] theorem State.modLink_engine (s : State) (a : W64) (f : FLink → FLink) : (s.modLink a f).engine = s.engine := rfl
@[simp] theorem State.modLink_lap (s : State) (a : W64) (f : FLink → FLink) : (s.modLink a f).lap = s.lap := rfl
@[simp] theorem State.modLink_eth (s : State) (a : W64) (f : FLink → FLink) : (s.modLink a f).eth = s.eth := rfl
@[simp] theorem State.modLink_pacer (s : State) (a : W64) (f : FLink → FLink) : (s.modLink a f).pacer = s.pacer := rfl
@[simp] theorem State.modLink_met (s : State) (a : W64) (f : FLink → FLink) : (s.modLink a f).met = s.met := rfl
@[simp] theorem State.modLink_safe (s : State) (a : W64) (f : FLink → FLink) : (s.modLink a f).safe = s.safe := rfl
@[simp] theorem State.modLink_mirror (s : State) (a : W64) (f : FLink → FLink) : (s.modLink a f).mirror = s.mirror := rfl
@[simp] theorem State.modLink_rtc (s : State) (a : W64) (f : FLink → FLink) : (s.modLink a f).rtc = s.rtc := rfl
@[simp] theorem State.modLink_keys (s : State) (a : W64) (f : FLink → FLink) : (s.modLink a f).keys = s.keys := rfl
@[simp] theorem State.modLink_upd (s : State) (a : W64) (f : FLink → FLink) : (s.modLink a f).upd = s.upd := rfl

@[simp] theorem State.modPort_pending (s : State) (p : Nat) (f : EthPort → EthPort) : (s.modPort p f).pending = s.pending := rfl
@[simp] theorem State.modPort_clk (s : State) (p : Nat) (f : EthPort → EthPort) : (s.modPort p f).clk = s.clk := rfl
@[simp] theorem State.modPort_sysOfs (s : State) (p : Nat) (f : EthPort → EthPort) : (s.modPort p f).sysOfs = s.sysOfs := rfl
@[simp] theorem State.modPort_startClk (s : State) (p : Nat) (f : EthPort → EthPort) : (s.modPort p f).startClk = s.startClk := rfl
@[simp] theorem State.modPort_regs (s : State) (p : Nat) (f : EthPort → EthPort) : (s.modPort p f).regs = s.regs := rfl
@[simp] theorem State.modPort_cfgMem (s : State) (p : Nat) (f : EthPort → EthPort) : (s.modPort p f).cfgMem = s.cfgMem := rfl
@[simp] theorem State.modPort_mem (s : State) (p : Nat) (f : EthPort → EthPort) : (s.modPort p f).mem = s.mem := rfl
@[simp] theorem State.modPort_out (s : State) (p : Nat) (f : EthPort → EthPort) : (s.modPort p f).out = s.out := rfl
@[simp] theorem State.modPort_freeCtr (s : State) (p : Nat) (f : EthPort → EthPort) : (s.modPort p f).freeCtr = s.freeCtr := rfl
@[simp] theorem State.modPort_limiters (s : State) (p : Nat) (f : EthPort → EthPort) : (s.modPort p f).limiters = s.limiters := rfl
@[simp] theorem State.modPort_sys (s : State) (p : Nat) (f : EthPort → EthPort) : (s.modPort p f).sys = s.sys := rfl
@[simp] theorem State.modPort_start (s : State) (p : Nat) (f : EthPort → EthPort) : (s.modPort p f).start = s.start := rfl
@[simp] theorem State.modPort_baton (s : State) (p : Nat) (f : EthPort → EthPort) : (s.modPort p f).baton = s.baton := rfl
@[simp] theorem State.modPort_estate (s : State) (p : Nat) (f : EthPort → EthPort) : (s.modPort p f).estate = s.estate := rfl
@[simp] theorem State.modPort_drill (s : State) (p : Nat) (f : EthPort → EthPort) : (s.modPort p f).drill = s.drill := rfl
@[simp] theorem State.modPort_ledger (s : State) (p : Nat) (f : EthPort → EthPort) : (s.modPort p f).ledger = s.ledger := rfl
@[simp] theorem State.modPort_evr (s : State) (p : Nat) (f : EthPort → EthPort) : (s.modPort p f).evr = s.evr := rfl
@[simp] theorem State.modPort_dma (s : State) (p : Nat) (f : EthPort → EthPort) : (s.modPort p f).dma = s.dma := rfl
@[simp] theorem State.modPort_uio (s : State) (p : Nat) (f : EthPort → EthPort) : (s.modPort p f).uio = s.uio := rfl
@[simp] theorem State.modPort_relay (s : State) (p : Nat) (f : EthPort → EthPort) : (s.modPort p f).relay = s.relay := rfl
@[simp] theorem State.modPort_can (s : State) (p : Nat) (f : EthPort → EthPort) : (s.modPort p f).can = s.can := rfl
@[simp] theorem State.modPort_engine (s : State) (p : Nat) (f : EthPort → EthPort) : (s.modPort p f).engine = s.engine := rfl
@[simp] theorem State.modPort_lap (s : State) (p : Nat) (f : EthPort → EthPort) : (s.modPort p f).lap = s.lap := rfl
@[simp] theorem State.modPort_furun (s : State) (p : Nat) (f : EthPort → EthPort) : (s.modPort p f).furun = s.furun := rfl
@[simp] theorem State.modPort_pacer (s : State) (p : Nat) (f : EthPort → EthPort) : (s.modPort p f).pacer = s.pacer := rfl
@[simp] theorem State.modPort_met (s : State) (p : Nat) (f : EthPort → EthPort) : (s.modPort p f).met = s.met := rfl
@[simp] theorem State.modPort_safe (s : State) (p : Nat) (f : EthPort → EthPort) : (s.modPort p f).safe = s.safe := rfl
@[simp] theorem State.modPort_mirror (s : State) (p : Nat) (f : EthPort → EthPort) : (s.modPort p f).mirror = s.mirror := rfl
@[simp] theorem State.modPort_rtc (s : State) (p : Nat) (f : EthPort → EthPort) : (s.modPort p f).rtc = s.rtc := rfl
@[simp] theorem State.modPort_keys (s : State) (p : Nat) (f : EthPort → EthPort) : (s.modPort p f).keys = s.keys := rfl
@[simp] theorem State.modPort_upd (s : State) (p : Nat) (f : EthPort → EthPort) : (s.modPort p f).upd = s.upd := rfl

@[simp] theorem State.modPlan_pending (s : State) (f : PPlan → PPlan) : (s.modPlan f).pending = s.pending := rfl
@[simp] theorem State.modPlan_clk (s : State) (f : PPlan → PPlan) : (s.modPlan f).clk = s.clk := rfl
@[simp] theorem State.modPlan_sysOfs (s : State) (f : PPlan → PPlan) : (s.modPlan f).sysOfs = s.sysOfs := rfl
@[simp] theorem State.modPlan_startClk (s : State) (f : PPlan → PPlan) : (s.modPlan f).startClk = s.startClk := rfl
@[simp] theorem State.modPlan_regs (s : State) (f : PPlan → PPlan) : (s.modPlan f).regs = s.regs := rfl
@[simp] theorem State.modPlan_cfgMem (s : State) (f : PPlan → PPlan) : (s.modPlan f).cfgMem = s.cfgMem := rfl
@[simp] theorem State.modPlan_mem (s : State) (f : PPlan → PPlan) : (s.modPlan f).mem = s.mem := rfl
@[simp] theorem State.modPlan_out (s : State) (f : PPlan → PPlan) : (s.modPlan f).out = s.out := rfl
@[simp] theorem State.modPlan_freeCtr (s : State) (f : PPlan → PPlan) : (s.modPlan f).freeCtr = s.freeCtr := rfl
@[simp] theorem State.modPlan_limiters (s : State) (f : PPlan → PPlan) : (s.modPlan f).limiters = s.limiters := rfl
@[simp] theorem State.modPlan_sys (s : State) (f : PPlan → PPlan) : (s.modPlan f).sys = s.sys := rfl
@[simp] theorem State.modPlan_start (s : State) (f : PPlan → PPlan) : (s.modPlan f).start = s.start := rfl
@[simp] theorem State.modPlan_baton (s : State) (f : PPlan → PPlan) : (s.modPlan f).baton = s.baton := rfl
@[simp] theorem State.modPlan_estate (s : State) (f : PPlan → PPlan) : (s.modPlan f).estate = s.estate := rfl
@[simp] theorem State.modPlan_drill (s : State) (f : PPlan → PPlan) : (s.modPlan f).drill = s.drill := rfl
@[simp] theorem State.modPlan_ledger (s : State) (f : PPlan → PPlan) : (s.modPlan f).ledger = s.ledger := rfl
@[simp] theorem State.modPlan_evr (s : State) (f : PPlan → PPlan) : (s.modPlan f).evr = s.evr := rfl
@[simp] theorem State.modPlan_dma (s : State) (f : PPlan → PPlan) : (s.modPlan f).dma = s.dma := rfl
@[simp] theorem State.modPlan_uio (s : State) (f : PPlan → PPlan) : (s.modPlan f).uio = s.uio := rfl
@[simp] theorem State.modPlan_relay (s : State) (f : PPlan → PPlan) : (s.modPlan f).relay = s.relay := rfl
@[simp] theorem State.modPlan_can (s : State) (f : PPlan → PPlan) : (s.modPlan f).can = s.can := rfl
@[simp] theorem State.modPlan_engine (s : State) (f : PPlan → PPlan) : (s.modPlan f).engine = s.engine := rfl
@[simp] theorem State.modPlan_lap (s : State) (f : PPlan → PPlan) : (s.modPlan f).lap = s.lap := rfl
@[simp] theorem State.modPlan_furun (s : State) (f : PPlan → PPlan) : (s.modPlan f).furun = s.furun := rfl
@[simp] theorem State.modPlan_eth (s : State) (f : PPlan → PPlan) : (s.modPlan f).eth = s.eth := rfl
@[simp] theorem State.modPlan_met (s : State) (f : PPlan → PPlan) : (s.modPlan f).met = s.met := rfl
@[simp] theorem State.modPlan_safe (s : State) (f : PPlan → PPlan) : (s.modPlan f).safe = s.safe := rfl
@[simp] theorem State.modPlan_mirror (s : State) (f : PPlan → PPlan) : (s.modPlan f).mirror = s.mirror := rfl
@[simp] theorem State.modPlan_rtc (s : State) (f : PPlan → PPlan) : (s.modPlan f).rtc = s.rtc := rfl
@[simp] theorem State.modPlan_keys (s : State) (f : PPlan → PPlan) : (s.modPlan f).keys = s.keys := rfl
@[simp] theorem State.modPlan_upd (s : State) (f : PPlan → PPlan) : (s.modPlan f).upd = s.upd := rfl

@[simp] theorem State.modMet_pending (s : State) (f : MetSt → MetSt) : (s.modMet f).pending = s.pending := rfl
@[simp] theorem State.modMet_clk (s : State) (f : MetSt → MetSt) : (s.modMet f).clk = s.clk := rfl
@[simp] theorem State.modMet_sysOfs (s : State) (f : MetSt → MetSt) : (s.modMet f).sysOfs = s.sysOfs := rfl
@[simp] theorem State.modMet_startClk (s : State) (f : MetSt → MetSt) : (s.modMet f).startClk = s.startClk := rfl
@[simp] theorem State.modMet_regs (s : State) (f : MetSt → MetSt) : (s.modMet f).regs = s.regs := rfl
@[simp] theorem State.modMet_cfgMem (s : State) (f : MetSt → MetSt) : (s.modMet f).cfgMem = s.cfgMem := rfl
@[simp] theorem State.modMet_mem (s : State) (f : MetSt → MetSt) : (s.modMet f).mem = s.mem := rfl
@[simp] theorem State.modMet_out (s : State) (f : MetSt → MetSt) : (s.modMet f).out = s.out := rfl
@[simp] theorem State.modMet_freeCtr (s : State) (f : MetSt → MetSt) : (s.modMet f).freeCtr = s.freeCtr := rfl
@[simp] theorem State.modMet_limiters (s : State) (f : MetSt → MetSt) : (s.modMet f).limiters = s.limiters := rfl
@[simp] theorem State.modMet_sys (s : State) (f : MetSt → MetSt) : (s.modMet f).sys = s.sys := rfl
@[simp] theorem State.modMet_start (s : State) (f : MetSt → MetSt) : (s.modMet f).start = s.start := rfl
@[simp] theorem State.modMet_baton (s : State) (f : MetSt → MetSt) : (s.modMet f).baton = s.baton := rfl
@[simp] theorem State.modMet_estate (s : State) (f : MetSt → MetSt) : (s.modMet f).estate = s.estate := rfl
@[simp] theorem State.modMet_drill (s : State) (f : MetSt → MetSt) : (s.modMet f).drill = s.drill := rfl
@[simp] theorem State.modMet_ledger (s : State) (f : MetSt → MetSt) : (s.modMet f).ledger = s.ledger := rfl
@[simp] theorem State.modMet_evr (s : State) (f : MetSt → MetSt) : (s.modMet f).evr = s.evr := rfl
@[simp] theorem State.modMet_dma (s : State) (f : MetSt → MetSt) : (s.modMet f).dma = s.dma := rfl
@[simp] theorem State.modMet_uio (s : State) (f : MetSt → MetSt) : (s.modMet f).uio = s.uio := rfl
@[simp] theorem State.modMet_relay (s : State) (f : MetSt → MetSt) : (s.modMet f).relay = s.relay := rfl
@[simp] theorem State.modMet_can (s : State) (f : MetSt → MetSt) : (s.modMet f).can = s.can := rfl
@[simp] theorem State.modMet_engine (s : State) (f : MetSt → MetSt) : (s.modMet f).engine = s.engine := rfl
@[simp] theorem State.modMet_lap (s : State) (f : MetSt → MetSt) : (s.modMet f).lap = s.lap := rfl
@[simp] theorem State.modMet_furun (s : State) (f : MetSt → MetSt) : (s.modMet f).furun = s.furun := rfl
@[simp] theorem State.modMet_eth (s : State) (f : MetSt → MetSt) : (s.modMet f).eth = s.eth := rfl
@[simp] theorem State.modMet_pacer (s : State) (f : MetSt → MetSt) : (s.modMet f).pacer = s.pacer := rfl
@[simp] theorem State.modMet_safe (s : State) (f : MetSt → MetSt) : (s.modMet f).safe = s.safe := rfl
@[simp] theorem State.modMet_mirror (s : State) (f : MetSt → MetSt) : (s.modMet f).mirror = s.mirror := rfl
@[simp] theorem State.modMet_rtc (s : State) (f : MetSt → MetSt) : (s.modMet f).rtc = s.rtc := rfl
@[simp] theorem State.modMet_keys (s : State) (f : MetSt → MetSt) : (s.modMet f).keys = s.keys := rfl
@[simp] theorem State.modMet_upd (s : State) (f : MetSt → MetSt) : (s.modMet f).upd = s.upd := rfl

@[simp] theorem State.setMirror_pending (s : State) (f : SafeMirrorSt → SafeMirrorSt) : (s.setMirror f).pending = s.pending := rfl
@[simp] theorem State.setMirror_clk (s : State) (f : SafeMirrorSt → SafeMirrorSt) : (s.setMirror f).clk = s.clk := rfl
@[simp] theorem State.setMirror_sysOfs (s : State) (f : SafeMirrorSt → SafeMirrorSt) : (s.setMirror f).sysOfs = s.sysOfs := rfl
@[simp] theorem State.setMirror_startClk (s : State) (f : SafeMirrorSt → SafeMirrorSt) : (s.setMirror f).startClk = s.startClk := rfl
@[simp] theorem State.setMirror_regs (s : State) (f : SafeMirrorSt → SafeMirrorSt) : (s.setMirror f).regs = s.regs := rfl
@[simp] theorem State.setMirror_cfgMem (s : State) (f : SafeMirrorSt → SafeMirrorSt) : (s.setMirror f).cfgMem = s.cfgMem := rfl
@[simp] theorem State.setMirror_mem (s : State) (f : SafeMirrorSt → SafeMirrorSt) : (s.setMirror f).mem = s.mem := rfl
@[simp] theorem State.setMirror_out (s : State) (f : SafeMirrorSt → SafeMirrorSt) : (s.setMirror f).out = s.out := rfl
@[simp] theorem State.setMirror_freeCtr (s : State) (f : SafeMirrorSt → SafeMirrorSt) : (s.setMirror f).freeCtr = s.freeCtr := rfl
@[simp] theorem State.setMirror_limiters (s : State) (f : SafeMirrorSt → SafeMirrorSt) : (s.setMirror f).limiters = s.limiters := rfl
@[simp] theorem State.setMirror_sys (s : State) (f : SafeMirrorSt → SafeMirrorSt) : (s.setMirror f).sys = s.sys := rfl
@[simp] theorem State.setMirror_start (s : State) (f : SafeMirrorSt → SafeMirrorSt) : (s.setMirror f).start = s.start := rfl
@[simp] theorem State.setMirror_baton (s : State) (f : SafeMirrorSt → SafeMirrorSt) : (s.setMirror f).baton = s.baton := rfl
@[simp] theorem State.setMirror_estate (s : State) (f : SafeMirrorSt → SafeMirrorSt) : (s.setMirror f).estate = s.estate := rfl
@[simp] theorem State.setMirror_drill (s : State) (f : SafeMirrorSt → SafeMirrorSt) : (s.setMirror f).drill = s.drill := rfl
@[simp] theorem State.setMirror_ledger (s : State) (f : SafeMirrorSt → SafeMirrorSt) : (s.setMirror f).ledger = s.ledger := rfl
@[simp] theorem State.setMirror_evr (s : State) (f : SafeMirrorSt → SafeMirrorSt) : (s.setMirror f).evr = s.evr := rfl
@[simp] theorem State.setMirror_dma (s : State) (f : SafeMirrorSt → SafeMirrorSt) : (s.setMirror f).dma = s.dma := rfl
@[simp] theorem State.setMirror_uio (s : State) (f : SafeMirrorSt → SafeMirrorSt) : (s.setMirror f).uio = s.uio := rfl
@[simp] theorem State.setMirror_relay (s : State) (f : SafeMirrorSt → SafeMirrorSt) : (s.setMirror f).relay = s.relay := rfl
@[simp] theorem State.setMirror_can (s : State) (f : SafeMirrorSt → SafeMirrorSt) : (s.setMirror f).can = s.can := rfl
@[simp] theorem State.setMirror_engine (s : State) (f : SafeMirrorSt → SafeMirrorSt) : (s.setMirror f).engine = s.engine := rfl
@[simp] theorem State.setMirror_lap (s : State) (f : SafeMirrorSt → SafeMirrorSt) : (s.setMirror f).lap = s.lap := rfl
@[simp] theorem State.setMirror_furun (s : State) (f : SafeMirrorSt → SafeMirrorSt) : (s.setMirror f).furun = s.furun := rfl
@[simp] theorem State.setMirror_eth (s : State) (f : SafeMirrorSt → SafeMirrorSt) : (s.setMirror f).eth = s.eth := rfl
@[simp] theorem State.setMirror_pacer (s : State) (f : SafeMirrorSt → SafeMirrorSt) : (s.setMirror f).pacer = s.pacer := rfl
@[simp] theorem State.setMirror_met (s : State) (f : SafeMirrorSt → SafeMirrorSt) : (s.setMirror f).met = s.met := rfl
@[simp] theorem State.setMirror_safe (s : State) (f : SafeMirrorSt → SafeMirrorSt) : (s.setMirror f).safe = s.safe := rfl
@[simp] theorem State.setMirror_rtc (s : State) (f : SafeMirrorSt → SafeMirrorSt) : (s.setMirror f).rtc = s.rtc := rfl
@[simp] theorem State.setMirror_keys (s : State) (f : SafeMirrorSt → SafeMirrorSt) : (s.setMirror f).keys = s.keys := rfl
@[simp] theorem State.setMirror_upd (s : State) (f : SafeMirrorSt → SafeMirrorSt) : (s.setMirror f).upd = s.upd := rfl

@[simp] theorem State.setRtc_pending (s : State) (f : RtcSt → RtcSt) : (s.setRtc f).pending = s.pending := rfl
@[simp] theorem State.setRtc_clk (s : State) (f : RtcSt → RtcSt) : (s.setRtc f).clk = s.clk := rfl
@[simp] theorem State.setRtc_sysOfs (s : State) (f : RtcSt → RtcSt) : (s.setRtc f).sysOfs = s.sysOfs := rfl
@[simp] theorem State.setRtc_startClk (s : State) (f : RtcSt → RtcSt) : (s.setRtc f).startClk = s.startClk := rfl
@[simp] theorem State.setRtc_regs (s : State) (f : RtcSt → RtcSt) : (s.setRtc f).regs = s.regs := rfl
@[simp] theorem State.setRtc_cfgMem (s : State) (f : RtcSt → RtcSt) : (s.setRtc f).cfgMem = s.cfgMem := rfl
@[simp] theorem State.setRtc_mem (s : State) (f : RtcSt → RtcSt) : (s.setRtc f).mem = s.mem := rfl
@[simp] theorem State.setRtc_out (s : State) (f : RtcSt → RtcSt) : (s.setRtc f).out = s.out := rfl
@[simp] theorem State.setRtc_freeCtr (s : State) (f : RtcSt → RtcSt) : (s.setRtc f).freeCtr = s.freeCtr := rfl
@[simp] theorem State.setRtc_limiters (s : State) (f : RtcSt → RtcSt) : (s.setRtc f).limiters = s.limiters := rfl
@[simp] theorem State.setRtc_sys (s : State) (f : RtcSt → RtcSt) : (s.setRtc f).sys = s.sys := rfl
@[simp] theorem State.setRtc_start (s : State) (f : RtcSt → RtcSt) : (s.setRtc f).start = s.start := rfl
@[simp] theorem State.setRtc_baton (s : State) (f : RtcSt → RtcSt) : (s.setRtc f).baton = s.baton := rfl
@[simp] theorem State.setRtc_estate (s : State) (f : RtcSt → RtcSt) : (s.setRtc f).estate = s.estate := rfl
@[simp] theorem State.setRtc_drill (s : State) (f : RtcSt → RtcSt) : (s.setRtc f).drill = s.drill := rfl
@[simp] theorem State.setRtc_ledger (s : State) (f : RtcSt → RtcSt) : (s.setRtc f).ledger = s.ledger := rfl
@[simp] theorem State.setRtc_evr (s : State) (f : RtcSt → RtcSt) : (s.setRtc f).evr = s.evr := rfl
@[simp] theorem State.setRtc_dma (s : State) (f : RtcSt → RtcSt) : (s.setRtc f).dma = s.dma := rfl
@[simp] theorem State.setRtc_uio (s : State) (f : RtcSt → RtcSt) : (s.setRtc f).uio = s.uio := rfl
@[simp] theorem State.setRtc_relay (s : State) (f : RtcSt → RtcSt) : (s.setRtc f).relay = s.relay := rfl
@[simp] theorem State.setRtc_can (s : State) (f : RtcSt → RtcSt) : (s.setRtc f).can = s.can := rfl
@[simp] theorem State.setRtc_engine (s : State) (f : RtcSt → RtcSt) : (s.setRtc f).engine = s.engine := rfl
@[simp] theorem State.setRtc_lap (s : State) (f : RtcSt → RtcSt) : (s.setRtc f).lap = s.lap := rfl
@[simp] theorem State.setRtc_furun (s : State) (f : RtcSt → RtcSt) : (s.setRtc f).furun = s.furun := rfl
@[simp] theorem State.setRtc_eth (s : State) (f : RtcSt → RtcSt) : (s.setRtc f).eth = s.eth := rfl
@[simp] theorem State.setRtc_pacer (s : State) (f : RtcSt → RtcSt) : (s.setRtc f).pacer = s.pacer := rfl
@[simp] theorem State.setRtc_met (s : State) (f : RtcSt → RtcSt) : (s.setRtc f).met = s.met := rfl
@[simp] theorem State.setRtc_safe (s : State) (f : RtcSt → RtcSt) : (s.setRtc f).safe = s.safe := rfl
@[simp] theorem State.setRtc_mirror (s : State) (f : RtcSt → RtcSt) : (s.setRtc f).mirror = s.mirror := rfl
@[simp] theorem State.setRtc_keys (s : State) (f : RtcSt → RtcSt) : (s.setRtc f).keys = s.keys := rfl
@[simp] theorem State.setRtc_upd (s : State) (f : RtcSt → RtcSt) : (s.setRtc f).upd = s.upd := rfl

@[simp] theorem State.setKeys_pending (s : State) (f : KeysSt → KeysSt) : (s.setKeys f).pending = s.pending := rfl
@[simp] theorem State.setKeys_clk (s : State) (f : KeysSt → KeysSt) : (s.setKeys f).clk = s.clk := rfl
@[simp] theorem State.setKeys_sysOfs (s : State) (f : KeysSt → KeysSt) : (s.setKeys f).sysOfs = s.sysOfs := rfl
@[simp] theorem State.setKeys_startClk (s : State) (f : KeysSt → KeysSt) : (s.setKeys f).startClk = s.startClk := rfl
@[simp] theorem State.setKeys_regs (s : State) (f : KeysSt → KeysSt) : (s.setKeys f).regs = s.regs := rfl
@[simp] theorem State.setKeys_cfgMem (s : State) (f : KeysSt → KeysSt) : (s.setKeys f).cfgMem = s.cfgMem := rfl
@[simp] theorem State.setKeys_mem (s : State) (f : KeysSt → KeysSt) : (s.setKeys f).mem = s.mem := rfl
@[simp] theorem State.setKeys_out (s : State) (f : KeysSt → KeysSt) : (s.setKeys f).out = s.out := rfl
@[simp] theorem State.setKeys_freeCtr (s : State) (f : KeysSt → KeysSt) : (s.setKeys f).freeCtr = s.freeCtr := rfl
@[simp] theorem State.setKeys_limiters (s : State) (f : KeysSt → KeysSt) : (s.setKeys f).limiters = s.limiters := rfl
@[simp] theorem State.setKeys_sys (s : State) (f : KeysSt → KeysSt) : (s.setKeys f).sys = s.sys := rfl
@[simp] theorem State.setKeys_start (s : State) (f : KeysSt → KeysSt) : (s.setKeys f).start = s.start := rfl
@[simp] theorem State.setKeys_baton (s : State) (f : KeysSt → KeysSt) : (s.setKeys f).baton = s.baton := rfl
@[simp] theorem State.setKeys_estate (s : State) (f : KeysSt → KeysSt) : (s.setKeys f).estate = s.estate := rfl
@[simp] theorem State.setKeys_drill (s : State) (f : KeysSt → KeysSt) : (s.setKeys f).drill = s.drill := rfl
@[simp] theorem State.setKeys_ledger (s : State) (f : KeysSt → KeysSt) : (s.setKeys f).ledger = s.ledger := rfl
@[simp] theorem State.setKeys_evr (s : State) (f : KeysSt → KeysSt) : (s.setKeys f).evr = s.evr := rfl
@[simp] theorem State.setKeys_dma (s : State) (f : KeysSt → KeysSt) : (s.setKeys f).dma = s.dma := rfl
@[simp] theorem State.setKeys_uio (s : State) (f : KeysSt → KeysSt) : (s.setKeys f).uio = s.uio := rfl
@[simp] theorem State.setKeys_relay (s : State) (f : KeysSt → KeysSt) : (s.setKeys f).relay = s.relay := rfl
@[simp] theorem State.setKeys_can (s : State) (f : KeysSt → KeysSt) : (s.setKeys f).can = s.can := rfl
@[simp] theorem State.setKeys_engine (s : State) (f : KeysSt → KeysSt) : (s.setKeys f).engine = s.engine := rfl
@[simp] theorem State.setKeys_lap (s : State) (f : KeysSt → KeysSt) : (s.setKeys f).lap = s.lap := rfl
@[simp] theorem State.setKeys_furun (s : State) (f : KeysSt → KeysSt) : (s.setKeys f).furun = s.furun := rfl
@[simp] theorem State.setKeys_eth (s : State) (f : KeysSt → KeysSt) : (s.setKeys f).eth = s.eth := rfl
@[simp] theorem State.setKeys_pacer (s : State) (f : KeysSt → KeysSt) : (s.setKeys f).pacer = s.pacer := rfl
@[simp] theorem State.setKeys_met (s : State) (f : KeysSt → KeysSt) : (s.setKeys f).met = s.met := rfl
@[simp] theorem State.setKeys_safe (s : State) (f : KeysSt → KeysSt) : (s.setKeys f).safe = s.safe := rfl
@[simp] theorem State.setKeys_mirror (s : State) (f : KeysSt → KeysSt) : (s.setKeys f).mirror = s.mirror := rfl
@[simp] theorem State.setKeys_rtc (s : State) (f : KeysSt → KeysSt) : (s.setKeys f).rtc = s.rtc := rfl
@[simp] theorem State.setKeys_upd (s : State) (f : KeysSt → KeysSt) : (s.setKeys f).upd = s.upd := rfl

@[simp] theorem State.setUpd_pending (s : State) (f : UpdSt → UpdSt) : (s.setUpd f).pending = s.pending := rfl
@[simp] theorem State.setUpd_clk (s : State) (f : UpdSt → UpdSt) : (s.setUpd f).clk = s.clk := rfl
@[simp] theorem State.setUpd_sysOfs (s : State) (f : UpdSt → UpdSt) : (s.setUpd f).sysOfs = s.sysOfs := rfl
@[simp] theorem State.setUpd_startClk (s : State) (f : UpdSt → UpdSt) : (s.setUpd f).startClk = s.startClk := rfl
@[simp] theorem State.setUpd_regs (s : State) (f : UpdSt → UpdSt) : (s.setUpd f).regs = s.regs := rfl
@[simp] theorem State.setUpd_cfgMem (s : State) (f : UpdSt → UpdSt) : (s.setUpd f).cfgMem = s.cfgMem := rfl
@[simp] theorem State.setUpd_mem (s : State) (f : UpdSt → UpdSt) : (s.setUpd f).mem = s.mem := rfl
@[simp] theorem State.setUpd_out (s : State) (f : UpdSt → UpdSt) : (s.setUpd f).out = s.out := rfl
@[simp] theorem State.setUpd_freeCtr (s : State) (f : UpdSt → UpdSt) : (s.setUpd f).freeCtr = s.freeCtr := rfl
@[simp] theorem State.setUpd_limiters (s : State) (f : UpdSt → UpdSt) : (s.setUpd f).limiters = s.limiters := rfl
@[simp] theorem State.setUpd_sys (s : State) (f : UpdSt → UpdSt) : (s.setUpd f).sys = s.sys := rfl
@[simp] theorem State.setUpd_start (s : State) (f : UpdSt → UpdSt) : (s.setUpd f).start = s.start := rfl
@[simp] theorem State.setUpd_baton (s : State) (f : UpdSt → UpdSt) : (s.setUpd f).baton = s.baton := rfl
@[simp] theorem State.setUpd_estate (s : State) (f : UpdSt → UpdSt) : (s.setUpd f).estate = s.estate := rfl
@[simp] theorem State.setUpd_drill (s : State) (f : UpdSt → UpdSt) : (s.setUpd f).drill = s.drill := rfl
@[simp] theorem State.setUpd_ledger (s : State) (f : UpdSt → UpdSt) : (s.setUpd f).ledger = s.ledger := rfl
@[simp] theorem State.setUpd_evr (s : State) (f : UpdSt → UpdSt) : (s.setUpd f).evr = s.evr := rfl
@[simp] theorem State.setUpd_dma (s : State) (f : UpdSt → UpdSt) : (s.setUpd f).dma = s.dma := rfl
@[simp] theorem State.setUpd_uio (s : State) (f : UpdSt → UpdSt) : (s.setUpd f).uio = s.uio := rfl
@[simp] theorem State.setUpd_relay (s : State) (f : UpdSt → UpdSt) : (s.setUpd f).relay = s.relay := rfl
@[simp] theorem State.setUpd_can (s : State) (f : UpdSt → UpdSt) : (s.setUpd f).can = s.can := rfl
@[simp] theorem State.setUpd_engine (s : State) (f : UpdSt → UpdSt) : (s.setUpd f).engine = s.engine := rfl
@[simp] theorem State.setUpd_lap (s : State) (f : UpdSt → UpdSt) : (s.setUpd f).lap = s.lap := rfl
@[simp] theorem State.setUpd_furun (s : State) (f : UpdSt → UpdSt) : (s.setUpd f).furun = s.furun := rfl
@[simp] theorem State.setUpd_eth (s : State) (f : UpdSt → UpdSt) : (s.setUpd f).eth = s.eth := rfl
@[simp] theorem State.setUpd_pacer (s : State) (f : UpdSt → UpdSt) : (s.setUpd f).pacer = s.pacer := rfl
@[simp] theorem State.setUpd_met (s : State) (f : UpdSt → UpdSt) : (s.setUpd f).met = s.met := rfl
@[simp] theorem State.setUpd_safe (s : State) (f : UpdSt → UpdSt) : (s.setUpd f).safe = s.safe := rfl
@[simp] theorem State.setUpd_mirror (s : State) (f : UpdSt → UpdSt) : (s.setUpd f).mirror = s.mirror := rfl
@[simp] theorem State.setUpd_rtc (s : State) (f : UpdSt → UpdSt) : (s.setUpd f).rtc = s.rtc := rfl
@[simp] theorem State.setUpd_keys (s : State) (f : UpdSt → UpdSt) : (s.setUpd f).keys = s.keys := rfl

@[simp] theorem State.setLedger_pending (s : State) (f : LedgerSt → LedgerSt) : (s.setLedger f).pending = s.pending := rfl
@[simp] theorem State.setLedger_clk (s : State) (f : LedgerSt → LedgerSt) : (s.setLedger f).clk = s.clk := rfl
@[simp] theorem State.setLedger_sysOfs (s : State) (f : LedgerSt → LedgerSt) : (s.setLedger f).sysOfs = s.sysOfs := rfl
@[simp] theorem State.setLedger_startClk (s : State) (f : LedgerSt → LedgerSt) : (s.setLedger f).startClk = s.startClk := rfl
@[simp] theorem State.setLedger_regs (s : State) (f : LedgerSt → LedgerSt) : (s.setLedger f).regs = s.regs := rfl
@[simp] theorem State.setLedger_cfgMem (s : State) (f : LedgerSt → LedgerSt) : (s.setLedger f).cfgMem = s.cfgMem := rfl
@[simp] theorem State.setLedger_mem (s : State) (f : LedgerSt → LedgerSt) : (s.setLedger f).mem = s.mem := rfl
@[simp] theorem State.setLedger_out (s : State) (f : LedgerSt → LedgerSt) : (s.setLedger f).out = s.out := rfl
@[simp] theorem State.setLedger_freeCtr (s : State) (f : LedgerSt → LedgerSt) : (s.setLedger f).freeCtr = s.freeCtr := rfl
@[simp] theorem State.setLedger_limiters (s : State) (f : LedgerSt → LedgerSt) : (s.setLedger f).limiters = s.limiters := rfl
@[simp] theorem State.setLedger_sys (s : State) (f : LedgerSt → LedgerSt) : (s.setLedger f).sys = s.sys := rfl
@[simp] theorem State.setLedger_start (s : State) (f : LedgerSt → LedgerSt) : (s.setLedger f).start = s.start := rfl
@[simp] theorem State.setLedger_baton (s : State) (f : LedgerSt → LedgerSt) : (s.setLedger f).baton = s.baton := rfl
@[simp] theorem State.setLedger_estate (s : State) (f : LedgerSt → LedgerSt) : (s.setLedger f).estate = s.estate := rfl
@[simp] theorem State.setLedger_drill (s : State) (f : LedgerSt → LedgerSt) : (s.setLedger f).drill = s.drill := rfl
@[simp] theorem State.setLedger_evr (s : State) (f : LedgerSt → LedgerSt) : (s.setLedger f).evr = s.evr := rfl
@[simp] theorem State.setLedger_dma (s : State) (f : LedgerSt → LedgerSt) : (s.setLedger f).dma = s.dma := rfl
@[simp] theorem State.setLedger_uio (s : State) (f : LedgerSt → LedgerSt) : (s.setLedger f).uio = s.uio := rfl
@[simp] theorem State.setLedger_relay (s : State) (f : LedgerSt → LedgerSt) : (s.setLedger f).relay = s.relay := rfl
@[simp] theorem State.setLedger_can (s : State) (f : LedgerSt → LedgerSt) : (s.setLedger f).can = s.can := rfl
@[simp] theorem State.setLedger_engine (s : State) (f : LedgerSt → LedgerSt) : (s.setLedger f).engine = s.engine := rfl
@[simp] theorem State.setLedger_lap (s : State) (f : LedgerSt → LedgerSt) : (s.setLedger f).lap = s.lap := rfl
@[simp] theorem State.setLedger_furun (s : State) (f : LedgerSt → LedgerSt) : (s.setLedger f).furun = s.furun := rfl
@[simp] theorem State.setLedger_eth (s : State) (f : LedgerSt → LedgerSt) : (s.setLedger f).eth = s.eth := rfl
@[simp] theorem State.setLedger_pacer (s : State) (f : LedgerSt → LedgerSt) : (s.setLedger f).pacer = s.pacer := rfl
@[simp] theorem State.setLedger_met (s : State) (f : LedgerSt → LedgerSt) : (s.setLedger f).met = s.met := rfl
@[simp] theorem State.setLedger_safe (s : State) (f : LedgerSt → LedgerSt) : (s.setLedger f).safe = s.safe := rfl
@[simp] theorem State.setLedger_mirror (s : State) (f : LedgerSt → LedgerSt) : (s.setLedger f).mirror = s.mirror := rfl
@[simp] theorem State.setLedger_rtc (s : State) (f : LedgerSt → LedgerSt) : (s.setLedger f).rtc = s.rtc := rfl
@[simp] theorem State.setLedger_keys (s : State) (f : LedgerSt → LedgerSt) : (s.setLedger f).keys = s.keys := rfl
@[simp] theorem State.setLedger_upd (s : State) (f : LedgerSt → LedgerSt) : (s.setLedger f).upd = s.upd := rfl

@[simp] theorem State.modObj_pending (s : State) (n : Nat) (f : Obj → Obj) : (s.modObj n f).pending = s.pending := rfl
@[simp] theorem State.modObj_clk (s : State) (n : Nat) (f : Obj → Obj) : (s.modObj n f).clk = s.clk := rfl
@[simp] theorem State.modObj_sysOfs (s : State) (n : Nat) (f : Obj → Obj) : (s.modObj n f).sysOfs = s.sysOfs := rfl
@[simp] theorem State.modObj_startClk (s : State) (n : Nat) (f : Obj → Obj) : (s.modObj n f).startClk = s.startClk := rfl
@[simp] theorem State.modObj_regs (s : State) (n : Nat) (f : Obj → Obj) : (s.modObj n f).regs = s.regs := rfl
@[simp] theorem State.modObj_cfgMem (s : State) (n : Nat) (f : Obj → Obj) : (s.modObj n f).cfgMem = s.cfgMem := rfl
@[simp] theorem State.modObj_mem (s : State) (n : Nat) (f : Obj → Obj) : (s.modObj n f).mem = s.mem := rfl
@[simp] theorem State.modObj_out (s : State) (n : Nat) (f : Obj → Obj) : (s.modObj n f).out = s.out := rfl
@[simp] theorem State.modObj_freeCtr (s : State) (n : Nat) (f : Obj → Obj) : (s.modObj n f).freeCtr = s.freeCtr := rfl
@[simp] theorem State.modObj_limiters (s : State) (n : Nat) (f : Obj → Obj) : (s.modObj n f).limiters = s.limiters := rfl
@[simp] theorem State.modObj_sys (s : State) (n : Nat) (f : Obj → Obj) : (s.modObj n f).sys = s.sys := rfl
@[simp] theorem State.modObj_start (s : State) (n : Nat) (f : Obj → Obj) : (s.modObj n f).start = s.start := rfl
@[simp] theorem State.modObj_baton (s : State) (n : Nat) (f : Obj → Obj) : (s.modObj n f).baton = s.baton := rfl
@[simp] theorem State.modObj_drill (s : State) (n : Nat) (f : Obj → Obj) : (s.modObj n f).drill = s.drill := rfl
@[simp] theorem State.modObj_ledger (s : State) (n : Nat) (f : Obj → Obj) : (s.modObj n f).ledger = s.ledger := rfl
@[simp] theorem State.modObj_evr (s : State) (n : Nat) (f : Obj → Obj) : (s.modObj n f).evr = s.evr := rfl
@[simp] theorem State.modObj_dma (s : State) (n : Nat) (f : Obj → Obj) : (s.modObj n f).dma = s.dma := rfl
@[simp] theorem State.modObj_uio (s : State) (n : Nat) (f : Obj → Obj) : (s.modObj n f).uio = s.uio := rfl
@[simp] theorem State.modObj_relay (s : State) (n : Nat) (f : Obj → Obj) : (s.modObj n f).relay = s.relay := rfl
@[simp] theorem State.modObj_can (s : State) (n : Nat) (f : Obj → Obj) : (s.modObj n f).can = s.can := rfl
@[simp] theorem State.modObj_engine (s : State) (n : Nat) (f : Obj → Obj) : (s.modObj n f).engine = s.engine := rfl
@[simp] theorem State.modObj_lap (s : State) (n : Nat) (f : Obj → Obj) : (s.modObj n f).lap = s.lap := rfl
@[simp] theorem State.modObj_furun (s : State) (n : Nat) (f : Obj → Obj) : (s.modObj n f).furun = s.furun := rfl
@[simp] theorem State.modObj_eth (s : State) (n : Nat) (f : Obj → Obj) : (s.modObj n f).eth = s.eth := rfl
@[simp] theorem State.modObj_pacer (s : State) (n : Nat) (f : Obj → Obj) : (s.modObj n f).pacer = s.pacer := rfl
@[simp] theorem State.modObj_met (s : State) (n : Nat) (f : Obj → Obj) : (s.modObj n f).met = s.met := rfl
@[simp] theorem State.modObj_safe (s : State) (n : Nat) (f : Obj → Obj) : (s.modObj n f).safe = s.safe := rfl
@[simp] theorem State.modObj_mirror (s : State) (n : Nat) (f : Obj → Obj) : (s.modObj n f).mirror = s.mirror := rfl
@[simp] theorem State.modObj_rtc (s : State) (n : Nat) (f : Obj → Obj) : (s.modObj n f).rtc = s.rtc := rfl
@[simp] theorem State.modObj_keys (s : State) (n : Nat) (f : Obj → Obj) : (s.modObj n f).keys = s.keys := rfl
@[simp] theorem State.modObj_upd (s : State) (n : Nat) (f : Obj → Obj) : (s.modObj n f).upd = s.upd := rfl

@[simp] theorem State.addObj_pending (s : State) (x : Obj) : (s.addObj x).pending = s.pending := rfl
@[simp] theorem State.addObj_clk (s : State) (x : Obj) : (s.addObj x).clk = s.clk := rfl
@[simp] theorem State.addObj_sysOfs (s : State) (x : Obj) : (s.addObj x).sysOfs = s.sysOfs := rfl
@[simp] theorem State.addObj_startClk (s : State) (x : Obj) : (s.addObj x).startClk = s.startClk := rfl
@[simp] theorem State.addObj_regs (s : State) (x : Obj) : (s.addObj x).regs = s.regs := rfl
@[simp] theorem State.addObj_cfgMem (s : State) (x : Obj) : (s.addObj x).cfgMem = s.cfgMem := rfl
@[simp] theorem State.addObj_mem (s : State) (x : Obj) : (s.addObj x).mem = s.mem := rfl
@[simp] theorem State.addObj_out (s : State) (x : Obj) : (s.addObj x).out = s.out := rfl
@[simp] theorem State.addObj_freeCtr (s : State) (x : Obj) : (s.addObj x).freeCtr = s.freeCtr := rfl
@[simp] theorem State.addObj_limiters (s : State) (x : Obj) : (s.addObj x).limiters = s.limiters := rfl
@[simp] theorem State.addObj_sys (s : State) (x : Obj) : (s.addObj x).sys = s.sys := rfl
@[simp] theorem State.addObj_start (s : State) (x : Obj) : (s.addObj x).start = s.start := rfl
@[simp] theorem State.addObj_baton (s : State) (x : Obj) : (s.addObj x).baton = s.baton := rfl
@[simp] theorem State.addObj_drill (s : State) (x : Obj) : (s.addObj x).drill = s.drill := rfl
@[simp] theorem State.addObj_ledger (s : State) (x : Obj) : (s.addObj x).ledger = s.ledger := rfl
@[simp] theorem State.addObj_evr (s : State) (x : Obj) : (s.addObj x).evr = s.evr := rfl
@[simp] theorem State.addObj_dma (s : State) (x : Obj) : (s.addObj x).dma = s.dma := rfl
@[simp] theorem State.addObj_uio (s : State) (x : Obj) : (s.addObj x).uio = s.uio := rfl
@[simp] theorem State.addObj_relay (s : State) (x : Obj) : (s.addObj x).relay = s.relay := rfl
@[simp] theorem State.addObj_can (s : State) (x : Obj) : (s.addObj x).can = s.can := rfl
@[simp] theorem State.addObj_engine (s : State) (x : Obj) : (s.addObj x).engine = s.engine := rfl
@[simp] theorem State.addObj_lap (s : State) (x : Obj) : (s.addObj x).lap = s.lap := rfl
@[simp] theorem State.addObj_furun (s : State) (x : Obj) : (s.addObj x).furun = s.furun := rfl
@[simp] theorem State.addObj_eth (s : State) (x : Obj) : (s.addObj x).eth = s.eth := rfl
@[simp] theorem State.addObj_pacer (s : State) (x : Obj) : (s.addObj x).pacer = s.pacer := rfl
@[simp] theorem State.addObj_met (s : State) (x : Obj) : (s.addObj x).met = s.met := rfl
@[simp] theorem State.addObj_safe (s : State) (x : Obj) : (s.addObj x).safe = s.safe := rfl
@[simp] theorem State.addObj_mirror (s : State) (x : Obj) : (s.addObj x).mirror = s.mirror := rfl
@[simp] theorem State.addObj_rtc (s : State) (x : Obj) : (s.addObj x).rtc = s.rtc := rfl
@[simp] theorem State.addObj_keys (s : State) (x : Obj) : (s.addObj x).keys = s.keys := rfl
@[simp] theorem State.addObj_upd (s : State) (x : Obj) : (s.addObj x).upd = s.upd := rfl

@[simp] theorem State.dropObj_pending (s : State) (n : Nat) : (s.dropObj n).pending = s.pending := rfl
@[simp] theorem State.dropObj_clk (s : State) (n : Nat) : (s.dropObj n).clk = s.clk := rfl
@[simp] theorem State.dropObj_sysOfs (s : State) (n : Nat) : (s.dropObj n).sysOfs = s.sysOfs := rfl
@[simp] theorem State.dropObj_startClk (s : State) (n : Nat) : (s.dropObj n).startClk = s.startClk := rfl
@[simp] theorem State.dropObj_regs (s : State) (n : Nat) : (s.dropObj n).regs = s.regs := rfl
@[simp] theorem State.dropObj_cfgMem (s : State) (n : Nat) : (s.dropObj n).cfgMem = s.cfgMem := rfl
@[simp] theorem State.dropObj_mem (s : State) (n : Nat) : (s.dropObj n).mem = s.mem := rfl
@[simp] theorem State.dropObj_out (s : State) (n : Nat) : (s.dropObj n).out = s.out := rfl
@[simp] theorem State.dropObj_freeCtr (s : State) (n : Nat) : (s.dropObj n).freeCtr = s.freeCtr := rfl
@[simp] theorem State.dropObj_limiters (s : State) (n : Nat) : (s.dropObj n).limiters = s.limiters := rfl
@[simp] theorem State.dropObj_sys (s : State) (n : Nat) : (s.dropObj n).sys = s.sys := rfl
@[simp] theorem State.dropObj_start (s : State) (n : Nat) : (s.dropObj n).start = s.start := rfl
@[simp] theorem State.dropObj_baton (s : State) (n : Nat) : (s.dropObj n).baton = s.baton := rfl
@[simp] theorem State.dropObj_drill (s : State) (n : Nat) : (s.dropObj n).drill = s.drill := rfl
@[simp] theorem State.dropObj_ledger (s : State) (n : Nat) : (s.dropObj n).ledger = s.ledger := rfl
@[simp] theorem State.dropObj_evr (s : State) (n : Nat) : (s.dropObj n).evr = s.evr := rfl
@[simp] theorem State.dropObj_dma (s : State) (n : Nat) : (s.dropObj n).dma = s.dma := rfl
@[simp] theorem State.dropObj_uio (s : State) (n : Nat) : (s.dropObj n).uio = s.uio := rfl
@[simp] theorem State.dropObj_relay (s : State) (n : Nat) : (s.dropObj n).relay = s.relay := rfl
@[simp] theorem State.dropObj_can (s : State) (n : Nat) : (s.dropObj n).can = s.can := rfl
@[simp] theorem State.dropObj_engine (s : State) (n : Nat) : (s.dropObj n).engine = s.engine := rfl
@[simp] theorem State.dropObj_lap (s : State) (n : Nat) : (s.dropObj n).lap = s.lap := rfl
@[simp] theorem State.dropObj_furun (s : State) (n : Nat) : (s.dropObj n).furun = s.furun := rfl
@[simp] theorem State.dropObj_eth (s : State) (n : Nat) : (s.dropObj n).eth = s.eth := rfl
@[simp] theorem State.dropObj_pacer (s : State) (n : Nat) : (s.dropObj n).pacer = s.pacer := rfl
@[simp] theorem State.dropObj_met (s : State) (n : Nat) : (s.dropObj n).met = s.met := rfl
@[simp] theorem State.dropObj_safe (s : State) (n : Nat) : (s.dropObj n).safe = s.safe := rfl
@[simp] theorem State.dropObj_mirror (s : State) (n : Nat) : (s.dropObj n).mirror = s.mirror := rfl
@[simp] theorem State.dropObj_rtc (s : State) (n : Nat) : (s.dropObj n).rtc = s.rtc := rfl
@[simp] theorem State.dropObj_keys (s : State) (n : Nat) : (s.dropObj n).keys = s.keys := rfl
@[simp] theorem State.dropObj_upd (s : State) (n : Nat) : (s.dropObj n).upd = s.upd := rfl

end Sys2Proof.Machine
end

