-- ==== Sys2Proof/Laws/Regs.lean ====
section
/-! SUPPORT. Laws/Regs.lean: bit fields of a word, and the read-after-write laws of the sparse register list, of memory and of
the register window. -/

namespace Sys2Proof.Machine

/-! ### Bit fields -/

theorem bitsOf_eq_div_mod (w hi lo : Nat) : bitsOf w hi lo = w / 2 ^ lo % 2 ^ (hi + 1 - lo) := by
  simp [bitsOf, Nat.shiftRight_eq_div_pow]

theorem bitsOf_lt (w hi lo : Nat) : bitsOf w hi lo < 2 ^ (hi + 1 - lo) := by
  rw [bitsOf_eq_div_mod]; exact Nat.mod_lt _ (Nat.two_pow_pos _)

/-- A word is what stands below a field, the field, and what stands above it. -/
theorem word_split (w lo k : Nat) : w = w % 2 ^ lo + 2 ^ lo * (w / 2 ^ lo % 2 ^ k) + 2 ^ (lo + k) * (w / 2 ^ (lo + k)) := by
  have h1 := Nat.mod_add_div w (2 ^ lo)
  have h2 := Nat.mod_add_div (w / 2 ^ lo) (2 ^ k)
  rw [Nat.div_div_eq_div_mul, ← pow_add] at h2
  rw [pow_add, Nat.mul_assoc, Nat.add_assoc, ← Nat.mul_add]
  rw [pow_add] at h2
  rw [h2]; exact h1.symm

/-- A word with a field replaced is what stands below it, the new field, and what stands above it. -/
theorem putBits_split (w hi lo v : Nat) :
    putBits w hi lo v = w % 2 ^ lo + 2 ^ lo * (v % 2 ^ (hi + 1 - lo)) + 2 ^ (lo + (hi + 1 - lo)) * (w / 2 ^ (lo + (hi + 1 - lo))) := by
  have h := word_split w lo (hi + 1 - lo)
  unfold putBits
  rw [bitsOf_eq_div_mod]
  generalize hk : hi + 1 - lo = k at h ⊢
  generalize hb : w / 2 ^ lo % 2 ^ k = b at h ⊢
  generalize hc : 2 ^ (lo + k) * (w / 2 ^ (lo + k)) = c at h ⊢
  have e : b * 2 ^ lo = 2 ^ lo * b := Nat.mul_comm _ _
  have e2 : v % 2 ^ k * 2 ^ lo = 2 ^ lo * (v % 2 ^ k) := Nat.mul_comm _ _
  rw [e, e2]
  omega

theorem bitsOf_putBits_same (w hi lo v : Nat) : bitsOf (putBits w hi lo v) hi lo = v % 2 ^ (hi + 1 - lo) := by
  rw [bitsOf_eq_div_mod, putBits_split]
  generalize hi + 1 - lo = k
  rw [pow_add, Nat.mul_assoc, Nat.add_assoc, ← Nat.mul_add, Nat.add_mul_div_left _ _ (Nat.two_pow_pos lo),
    Nat.div_eq_of_lt (Nat.mod_lt _ (Nat.two_pow_pos lo)), Nat.zero_add, Nat.add_mul_mod_self_left, Nat.mod_mod]

theorem bitsOf_putBits_below (w hi lo v hi' lo' : Nat) (h : hi' < lo) :
    bitsOf (putBits w hi lo v) hi' lo' = bitsOf w hi' lo' := by
  by_cases hl : lo' ≤ hi'
  · rw [bitsOf_eq_div_mod, bitsOf_eq_div_mod]
    have key : putBits w hi lo v % 2 ^ lo = w % 2 ^ lo := by
      rw [putBits_split, pow_add, Nat.mul_assoc, Nat.add_assoc, ← Nat.mul_add, Nat.add_mul_mod_self_left, Nat.mod_mod]
    have cut (x : Nat) : x / 2 ^ lo' % 2 ^ (hi' + 1 - lo') = x % 2 ^ lo / 2 ^ lo' % 2 ^ (hi' + 1 - lo') := by
      have e : (2 : Nat) ^ lo = 2 ^ lo' * 2 ^ (lo - lo') := by rw [← pow_add]; congr 1; omega
      rw [e, Nat.mod_mul_right_div_self]
      exact (Nat.mod_mod_of_dvd _ (pow_dvd_pow 2 (by omega))).symm
    rw [cut, key, ← cut]
  · have : hi' + 1 - lo' = 0 := by omega
    rw [bitsOf_eq_div_mod, bitsOf_eq_div_mod, this]; simp [Nat.mod_one]

theorem bitsOf_putBits_above (w hi lo v hi' lo' : Nat) (hl : lo ≤ hi + 1) (h : hi < lo') :
    bitsOf (putBits w hi lo v) hi' lo' = bitsOf w hi' lo' := by
  rw [bitsOf_eq_div_mod, bitsOf_eq_div_mod]
  have up (x : Nat) : x / 2 ^ lo' = x / 2 ^ (hi + 1) / 2 ^ (lo' - (hi + 1)) := by
    rw [Nat.div_div_eq_div_mul, ← pow_add]; congr 2; omega
  have key : putBits w hi lo v / 2 ^ (hi + 1) = w / 2 ^ (hi + 1) := by
    have e : lo + (hi + 1 - lo) = hi + 1 := by omega
    rw [putBits_split, e, Nat.add_mul_div_left _ _ (Nat.two_pow_pos _)]
    rw [Nat.div_eq_of_lt, Nat.zero_add]
    have h1 := Nat.mod_lt w (Nat.two_pow_pos lo)
    have h2 := Nat.mod_lt v (Nat.two_pow_pos (hi + 1 - lo))
    calc w % 2 ^ lo + 2 ^ lo * (v % 2 ^ (hi + 1 - lo))
        < 2 ^ lo + 2 ^ lo * (v % 2 ^ (hi + 1 - lo)) := by omega
      _ = 2 ^ lo * (v % 2 ^ (hi + 1 - lo) + 1) := by ring
      _ ≤ 2 ^ lo * 2 ^ (hi + 1 - lo) := Nat.mul_le_mul_left _ h2
      _ = 2 ^ (hi + 1) := by rw [← pow_add, e]
  rw [up, key, ← up]

theorem putBits_lt (w hi lo v : Nat) (hw : w < 2 ^ 32) (hl : lo ≤ hi + 1) (hh : hi < 32) : putBits w hi lo v < 2 ^ 32 := by
  have e : lo + (hi + 1 - lo) = hi + 1 := by omega
  have h := putBits_split w hi lo v
  rw [e] at h
  have hlow : w % 2 ^ lo + 2 ^ lo * (v % 2 ^ (hi + 1 - lo)) < 2 ^ (hi + 1) := by
    have h1 := Nat.mod_lt w (Nat.two_pow_pos lo)
    have h2 := Nat.mod_lt v (Nat.two_pow_pos (hi + 1 - lo))
    calc w % 2 ^ lo + 2 ^ lo * (v % 2 ^ (hi + 1 - lo))
        < 2 ^ lo + 2 ^ lo * (v % 2 ^ (hi + 1 - lo)) := by omega
      _ = 2 ^ lo * (v % 2 ^ (hi + 1 - lo) + 1) := by ring
      _ ≤ 2 ^ lo * 2 ^ (hi + 1 - lo) := Nat.mul_le_mul_left _ h2
      _ = 2 ^ (hi + 1) := by rw [← pow_add, e]
  have hq : w / 2 ^ (hi + 1) < 2 ^ (32 - (hi + 1)) := by
    apply Nat.div_lt_of_lt_mul
    rw [← pow_add]
    exact lt_of_lt_of_le hw (Nat.pow_le_pow_right (by decide) (by omega))
  have hr : 2 ^ (hi + 1) * (w / 2 ^ (hi + 1) + 1) ≤ 2 ^ 32 := by
    calc 2 ^ (hi + 1) * (w / 2 ^ (hi + 1) + 1) ≤ 2 ^ (hi + 1) * 2 ^ (32 - (hi + 1)) := Nat.mul_le_mul_left _ hq
      _ = 2 ^ 32 := by rw [← pow_add]; congr 1; omega
  rw [Nat.mul_add] at hr
  omega

/-! ### Sparse lists -/

theorem spGet_spDel_same (m : List (Nat × W32)) (k : Nat) (d : W32) : spGet (spDel m k) k d = d := by
  induction m with
  | nil => rfl
  | cons x r ih => obtain ⟨a, w⟩ := x; by_cases h : a = k <;> simp [spDel, spGet, h, ih]

theorem spGet_spDel_other (m : List (Nat × W32)) (k j : Nat) (d : W32) (h : j ≠ k) : spGet (spDel m k) j d = spGet m j d := by
  induction m with
  | nil => rfl
  | cons x r ih =>
    obtain ⟨a, w⟩ := x
    by_cases h1 : a = k
    · have : a ≠ j := by omega
      subst h1; simp [spDel, spGet, this, ih]
    · simp only [spDel, if_neg h1, spGet, ih]

theorem spGet_spIns_same (m : List (Nat × W32)) (k : Nat) (d v : W32) : spGet (spIns m k v) k d = v := by
  induction m with
  | nil => simp [spIns, spGet]
  | cons x r ih =>
    obtain ⟨a, w⟩ := x
    by_cases h : a < k
    · have : a ≠ k := by omega
      simp [spIns, spGet, h, this, ih]
    · simp [spIns, spGet, h]

theorem spGet_spIns_other (m : List (Nat × W32)) (k j : Nat) (d v : W32) (h : j ≠ k) : spGet (spIns m k v) j d = spGet m j d := by
  induction m with
  | nil => simp [spIns, spGet, Ne.symm h]
  | cons x r ih =>
    obtain ⟨a, w⟩ := x
    by_cases h1 : a < k
    · simp [spIns, spGet, h1, ih]
    · simp [spIns, spGet, h1, Ne.symm h]

/-- A word of a sparse list reads as written. -/
theorem spGet_spPut_same (m : List (Nat × W32)) (k : Nat) (d v : W32) : spGet (spPut m k d v) k d = v := by
  unfold spPut; split
  · rename_i h; rw [spGet_spDel_same, h]
  · exact spGet_spIns_same _ _ _ _

/-- A write to one word leaves every other word. -/
theorem spGet_spPut_other (m : List (Nat × W32)) (k j : Nat) (d e v : W32) (h : j ≠ k) : spGet (spPut m k d v) j e = spGet m j e := by
  unfold spPut; split
  · exact spGet_spDel_other _ _ _ _ h
  · rw [spGet_spIns_other _ _ _ _ _ h, spGet_spDel_other _ _ _ _ h]

/-! ### Registers -/

theorem State.rd_lt (s : State) (off : Nat) : s.rd off < 2 ^ 32 := (spGet s.regs off (rstOf off)).isLt

/-- A register reads as written, in 32 bits. -/
theorem State.rd_wr_same (s : State) (off v : Nat) : (s.wr off v).rd off = v % 2 ^ 32 := by
  simp [State.rd, State.wr, spGet_spPut_same]

/-- A write to one register leaves every other. -/
theorem State.rd_wr_other (s : State) (off off' v : Nat) (h : off' ≠ off) : (s.wr off v).rd off' = s.rd off' := by
  simp [State.rd, State.wr, spGet_spPut_other _ _ _ _ _ _ h]

/-- What a read gives after a write, in one equation. -/
theorem State.rd_wr (s : State) (off off' v : Nat) : (s.wr off v).rd off' = if off' = off then v % 2 ^ 32 else s.rd off' := by
  split
  · subst_vars; exact State.rd_wr_same _ _ _
  · exact State.rd_wr_other _ _ _ _ ‹_›

/-- The register window alone decides what a register reads. -/
theorem State.rd_congr {s t : State} (h : t.regs = s.regs) (off : Nat) : t.rd off = s.rd off := by simp [State.rd, h]

theorem State.rd_put_other (s : State) (f : Fld) (v off : Nat) (h : off ≠ f.off) : (s.put f v).rd off = s.rd off :=
  State.rd_wr_other _ _ _ _ h

/-- A field reads as written. -/
theorem State.get_put_same (s : State) (f : Fld) (v : Nat) (hl : f.lo ≤ f.hi + 1) (hh : f.hi < 32) :
    (s.put f v).get f = v % 2 ^ (f.hi + 1 - f.lo) := by
  simp only [State.get, State.put, State.rd_wr_same]
  rw [Nat.mod_eq_of_lt (putBits_lt _ _ _ _ (State.rd_lt _ _) hl hh), bitsOf_putBits_same]

/-- A write to one field leaves a field that does not share its bits. -/
theorem State.get_put_other (s : State) (f g : Fld) (v : Nat) (hl : f.lo ≤ f.hi + 1) (hh : f.hi < 32)
    (h : g.off ≠ f.off ∨ g.hi < f.lo ∨ f.hi < g.lo) : (s.put f v).get g = s.get g := by
  by_cases ho : g.off = f.off
  · simp only [State.get, State.put, ho, State.rd_wr_same]
    rw [Nat.mod_eq_of_lt (putBits_lt _ _ _ _ (State.rd_lt _ _) hl hh)]
    rcases h with h | h | h
    · exact absurd ho h
    · exact bitsOf_putBits_below _ _ _ _ _ _ h
    · exact bitsOf_putBits_above _ _ _ _ _ _ hl h
  · simp only [State.get, State.rd_put_other _ _ _ _ ho]

/-- A field fits its width. -/
theorem State.get_lt (s : State) (f : Fld) : s.get f < 2 ^ (f.hi + 1 - f.lo) := bitsOf_lt _ _ _

/-! ### Memory -/

theorem memGet_memDel_same (m : List Host.Cell) (a : Nat) : memGet (memDel m a) a = 0 := by
  induction m with
  | nil => rfl
  | cons x r ih => obtain ⟨k, w⟩ := x; by_cases h : k = a <;> simp [memDel, memGet, h, ih]

theorem memGet_memDel_other (m : List Host.Cell) (a b : Nat) (h : b ≠ a) : memGet (memDel m a) b = memGet m b := by
  induction m with
  | nil => rfl
  | cons x r ih =>
    obtain ⟨k, w⟩ := x
    by_cases h1 : k = a
    · have : k ≠ b := by omega
      subst h1; simp [memDel, memGet, this, ih]
    · simp only [memDel, if_neg h1, memGet, ih]

theorem memGet_memIns_same (m : List Host.Cell) (a : Nat) (v : Byte) : memGet (memIns m a v) a = v := by
  induction m with
  | nil => simp [memIns, memGet]
  | cons x r ih =>
    obtain ⟨k, w⟩ := x
    by_cases h : k < a
    · have : k ≠ a := by omega
      simp [memIns, memGet, h, this, ih]
    · simp [memIns, memGet, h]

theorem memGet_memIns_other (m : List Host.Cell) (a b : Nat) (v : Byte) (h : b ≠ a) : memGet (memIns m a v) b = memGet m b := by
  induction m with
  | nil => simp [memIns, memGet, Ne.symm h]
  | cons x r ih =>
    obtain ⟨k, w⟩ := x
    by_cases h1 : k < a
    · simp [memIns, memGet, h1, ih]
    · simp [memIns, memGet, h1, Ne.symm h]

/-- A byte reads as written. -/
theorem memGet_memPut_same (m : List Host.Cell) (a : Nat) (v : Byte) : memGet (memPut m a v) a = v := by
  unfold memPut; split
  · rename_i h; rw [memGet_memDel_same, h]
  · exact memGet_memIns_same _ _ _

/-- A write to one byte leaves every other byte. -/
theorem memGet_memPut_other (m : List Host.Cell) (a b : Nat) (v : Byte) (h : b ≠ a) : memGet (memPut m a v) b = memGet m b := by
  unfold memPut; split
  · exact memGet_memDel_other _ _ _ h
  · rw [memGet_memIns_other _ _ _ _ h, memGet_memDel_other _ _ _ h]

/-! ### Canonical forms -/

theorem memWfFrom_mono (m : List Host.Cell) : ∀ {lo lo' : Nat}, lo' ≤ lo → memWfFrom lo m = true → memWfFrom lo' m = true := by
  cases m with
  | nil => intros; rfl
  | cons x r =>
    obtain ⟨k, w⟩ := x
    intro lo lo' h hw
    simp only [memWfFrom, Bool.and_eq_true, decide_eq_true_eq] at hw ⊢
    exact ⟨⟨le_trans h hw.1.1, hw.1.2⟩, hw.2⟩

theorem memWfFrom_memDel (m : List Host.Cell) (a : Nat) : ∀ lo, memWfFrom lo m = true → memWfFrom lo (memDel m a) = true := by
  induction m with
  | nil => intros; rfl
  | cons x r ih =>
    obtain ⟨k, w⟩ := x
    intro lo hw
    simp only [memWfFrom, Bool.and_eq_true, decide_eq_true_eq] at hw
    simp only [memDel]; split
    · exact memWfFrom_mono _ (by omega) (ih _ hw.2)
    · simp only [memWfFrom, Bool.and_eq_true, decide_eq_true_eq]
      exact ⟨hw.1, ih _ hw.2⟩

theorem memWfFrom_memIns (m : List Host.Cell) (a : Nat) (v : Byte) (hv : (v != 0) = true) (hm : ∀ c ∈ m, c.1 ≠ a) :
    ∀ lo, lo ≤ a → memWfFrom lo m = true → memWfFrom lo (memIns m a v) = true := by
  induction m with
  | nil => intro lo h _; simpa [memIns, memWfFrom, h] using hv
  | cons x r ih =>
    obtain ⟨k, w⟩ := x
    intro lo h hw
    have hk : k ≠ a := hm (k, w) (by simp)
    simp only [memWfFrom, Bool.and_eq_true, decide_eq_true_eq] at hw
    simp only [memIns]; split
    · simp only [memWfFrom, Bool.and_eq_true, decide_eq_true_eq]
      exact ⟨hw.1, ih (fun c hc => hm c (by simp [hc])) _ (by omega) hw.2⟩
    · simp only [memWfFrom, Bool.and_eq_true, decide_eq_true_eq]
      exact ⟨⟨h, hv⟩, ⟨by omega, hw.1.2⟩, hw.2⟩

theorem memDel_ne (m : List Host.Cell) (a : Nat) : ∀ c ∈ memDel m a, c.1 ≠ a := by
  induction m with
  | nil => intro c h; simp [memDel] at h
  | cons x r ih =>
    obtain ⟨k, w⟩ := x
    intro c hc
    simp only [memDel] at hc
    split at hc
    · exact ih c hc
    · rcases List.mem_cons.mp hc with h | h
      · subst h; assumption
      · exact ih c h

/-- A write to memory keeps the canonical form. -/
theorem Memory.wf_memPut (m : List Host.Cell) (a : Nat) (v : Byte) (h : Memory.wf m = true) : Memory.wf (memPut m a v) = true := by
  unfold Memory.wf at *; unfold memPut; split
  · exact memWfFrom_memDel _ _ _ h
  · exact memWfFrom_memIns _ _ _ (by simpa using ‹¬v = 0›) (memDel_ne _ _) _ (by omega) (memWfFrom_memDel _ _ _ h)

/-- Writing a string of bytes keeps the canonical form. -/
theorem Memory.wf_memWrite (bs : Bytes) : ∀ (m : List Host.Cell) (a : Nat), Memory.wf m = true → Memory.wf (memWrite m a bs) = true := by
  induction bs with
  | nil => intro m a h; exact h
  | cons b r ih => intro m a h; exact ih _ _ (Memory.wf_memPut _ _ _ h)

/-- Leaving out cells keeps the canonical form. -/
theorem memWfFrom_filter (p : Host.Cell → Bool) (m : List Host.Cell) : ∀ lo, memWfFrom lo m = true → memWfFrom lo (m.filter p) = true := by
  induction m with
  | nil => intros; rfl
  | cons x r ih =>
    obtain ⟨k, w⟩ := x
    intro lo hw
    simp only [memWfFrom, Bool.and_eq_true, decide_eq_true_eq] at hw
    by_cases hp : p (k, w) = true
    · simp only [List.filter_cons, hp, if_true, memWfFrom, Bool.and_eq_true, decide_eq_true_eq]
      exact ⟨hw.1, ih _ hw.2⟩
    · simp only [List.filter_cons, hp]
      exact memWfFrom_mono _ (by omega) (ih _ hw.2)

/-- The memory after reset is canonical. -/
theorem Memory.wf_reset : Memory.wf State.reset.mem = true := rfl

/-- A write to memory by the addressed unit keeps the canonical form. -/
theorem State.memSt_wf (s : State) (a : Nat) (v : Byte) (h : Memory.wf s.mem = true) : Memory.wf (s.memSt a v).mem = true := by
  simp only [State.memSt]
  split
  · exact h
  · split
    · exact h
    · exact Memory.wf_memPut _ _ _ h

/-- The loss of the Pacer SRAM keeps the canonical form. -/
theorem State.sramLost_wf (s : State) (h : Memory.wf s.mem = true) : Memory.wf s.sramLost.mem = true :=
  memWfFrom_filter _ _ _ h

end Sys2Proof.Machine
end

