-- ==== Sys2Proof/Laws/Frame.lean ====
section
/-! SUPPORT. Laws/Frame.lean: what each shared operation may change, once: the parts of the state and the registers. Claims about
what a command leaves unchanged compose these. -/

namespace Sys2Proof.Machine

/-! ### Composing -/

theorem Part.same_refl (p : Part) (s : State) : p.same s s := by cases p <;> rfl

theorem Part.same_trans (p : Part) {s t u : State} (h : p.same s t) (k : p.same t u) : p.same s u := by
  cases p <;> simp_all [Part.same]

theorem ChangesOnly.refl (ps : List Part) (ro : Nat → Bool) (s : State) : ChangesOnly ps ro s s :=
  ⟨fun p _ => p.same_refl s, fun _ _ => rfl⟩

theorem ChangesOnly.trans {ps : List Part} {ro : Nat → Bool} {s t u : State} (h : ChangesOnly ps ro s t) (k : ChangesOnly ps ro t u) :
    ChangesOnly ps ro s u :=
  ⟨fun p hp => p.same_trans (h.1 p hp) (k.1 p hp), fun off ho => (k.2 off ho).trans (h.2 off ho)⟩

theorem ChangesOnly.mono {ps qs : List Part} {ro rq : Nat → Bool} {s t : State} (h : ChangesOnly ps ro s t) (hp : ps ⊆ qs)
    (hr : ∀ off, ro off = true → rq off = true) : ChangesOnly qs rq s t :=
  ⟨fun p hq => h.1 p fun c => hq (hp c), fun off ho => h.2 off (by
    cases hro : ro off with
    | false => rfl
    | true => rw [hr off hro] at ho; cases ho)⟩

/-- A fold of operations that each keep to the same parts keeps to them. -/
theorem ChangesOnly.foldl {α : Type} {ps : List Part} {ro : Nat → Bool} (f : State → α → State) (l : List α)
    (h : ∀ s x, ChangesOnly ps ro s (f s x)) (s : State) : ChangesOnly ps ro s (l.foldl f s) := by
  induction l generalizing s with
  | nil => exact .refl _ _ _
  | cons x r ih => exact (h s x).trans (ih _)

/-- An operation on the register window alone. -/
theorem ChangesOnly.regs (ps : List Part) (ro : Nat → Bool) (s : State) (m : List (Nat × W32))
    (h : ∀ off, ro off = false → spGet m off (rstOf off) = spGet s.regs off (rstOf off)) : ChangesOnly ps ro s { s with regs := m } :=
  ⟨fun p _ => by cases p <;> rfl, fun off ho => by simp [State.rd, h off ho]⟩

/-! ### Registers -/

theorem only_wr (s : State) (off v : Nat) : ChangesOnly [] (regsAt [off]) s (s.wr off v) :=
  ⟨fun p _ => by cases p <;> rfl, fun o h => State.rd_wr_other _ _ _ _ (by simpa [regsAt] using h)⟩

theorem only_put (s : State) (f : Fld) (v : Nat) : ChangesOnly [] (regsAt [f.off]) s (s.put f v) := only_wr _ _ _

theorem only_bump (s : State) (f : Fld) (n : Nat) : ChangesOnly [] (regsAt [f.off]) s (s.bump f n) := only_wr _ _ _

theorem only_cond (s : State) (src c b : Nat) (h : srcBase src = some b) : ChangesOnly [] (regsAt [b + 4]) s (s.cond src c) := by
  unfold State.cond; rw [h]; exact only_wr _ _ _

theorem only_store (s : State) (off : Nat) : ChangesOnly [.cfgMem] noReg s (s.store off) :=
  ⟨fun p hp => by cases p <;> first | rfl | simp at hp, fun _ _ => rfl⟩

/-! ### One part of the state -/

theorem only_modObj (s : State) (n : Nat) (f : Obj → Obj) : ChangesOnly [.estate] noReg s (s.modObj n f) :=
  ⟨fun p hp => by cases p <;> first | rfl | simp at hp, fun _ _ => rfl⟩

theorem only_setElem (s : State) (o e : Nat) (f : Elem → Elem) : ChangesOnly [.estate] noReg s (s.setElem o e f) := by
  unfold State.setElem; split
  · exact .refl _ _ _
  · exact only_modObj _ _ _

theorem only_setSrc (s : State) (o e v : Nat) : ChangesOnly [.estate] noReg s (s.setSrc o e v) := only_setElem _ _ _ _

theorem only_arriveAt (s : State) (o e : Nat) (v ts : W64) : ChangesOnly [.estate] noReg s (s.arriveAt o e v ts) := only_setElem _ _ _ _

theorem only_setUio (s : State) (n : Nat) (f : UioCh → UioCh) : ChangesOnly [.uio] noReg s (s.setUio n f) :=
  ⟨fun p hp => by cases p <;> first | rfl | simp at hp, fun _ _ => rfl⟩

theorem only_setCan (s : State) (c : Nat) (f : CanCh → CanCh) : ChangesOnly [.can] noReg s (s.setCan c f) :=
  ⟨fun p hp => by cases p <;> first | rfl | simp at hp, fun _ _ => rfl⟩

theorem only_setDma (s : State) (c : Nat) (f : DmaCh → DmaCh) : ChangesOnly [.dma] noReg s (s.setDma c f) :=
  ⟨fun p hp => by cases p <;> first | rfl | simp at hp, fun _ _ => rfl⟩

theorem only_setLoop (s : State) (n : Nat) (f : LoopSt → LoopSt) : ChangesOnly [.engine] noReg s (s.setLoop n f) :=
  ⟨fun p hp => by cases p <;> first | rfl | simp at hp, fun _ _ => rfl⟩

theorem only_setLap (s : State) (f : LapSt → LapSt) : ChangesOnly [.lap] noReg s (s.setLap f) :=
  ⟨fun p hp => by cases p <;> first | rfl | simp at hp, fun _ _ => rfl⟩

theorem only_setTask (s : State) (n : Nat) (f : LapTask → LapTask) : ChangesOnly [.lap] noReg s (s.setTask n f) :=
  ⟨fun p hp => by cases p <;> first | rfl | simp at hp, fun _ _ => rfl⟩

theorem only_setRelay (s : State) (f : RelaySt → RelaySt) : ChangesOnly [.relay] noReg s (s.setRelay f) :=
  ⟨fun p hp => by cases p <;> first | rfl | simp at hp, fun _ _ => rfl⟩

theorem only_modGroup (s : State) (g : W64) (f : FGroup → FGroup) : ChangesOnly [.furun] noReg s (s.modGroup g f) :=
  ⟨fun p hp => by cases p <;> first | rfl | simp at hp, fun _ _ => rfl⟩

theorem only_modLink (s : State) (g : W64) (f : FLink → FLink) : ChangesOnly [.furun] noReg s (s.modLink g f) :=
  ⟨fun p hp => by cases p <;> first | rfl | simp at hp, fun _ _ => rfl⟩

theorem only_modPlan (s : State) (f : PPlan → PPlan) : ChangesOnly [.pacer] noReg s (s.modPlan f) :=
  ⟨fun p hp => by cases p <;> first | rfl | simp at hp, fun _ _ => rfl⟩

theorem only_modMet (s : State) (f : MetSt → MetSt) : ChangesOnly [.met] noReg s (s.modMet f) :=
  ⟨fun p hp => by cases p <;> first | rfl | simp at hp, fun _ _ => rfl⟩

theorem only_setMirror (s : State) (f : SafeMirrorSt → SafeMirrorSt) : ChangesOnly [.mirror] noReg s (s.setMirror f) :=
  ⟨fun p hp => by cases p <;> first | rfl | simp at hp, fun _ _ => rfl⟩

theorem only_setRtc (s : State) (f : RtcSt → RtcSt) : ChangesOnly [.rtc] noReg s (s.setRtc f) :=
  ⟨fun p hp => by cases p <;> first | rfl | simp at hp, fun _ _ => rfl⟩

theorem only_setKeys (s : State) (f : KeysSt → KeysSt) : ChangesOnly [.keys] noReg s (s.setKeys f) :=
  ⟨fun p hp => by cases p <;> first | rfl | simp at hp, fun _ _ => rfl⟩

theorem only_setUpd (s : State) (f : UpdSt → UpdSt) : ChangesOnly [.upd] noReg s (s.setUpd f) :=
  ⟨fun p hp => by cases p <;> first | rfl | simp at hp, fun _ _ => rfl⟩

theorem only_setLedger (s : State) (f : LedgerSt → LedgerSt) : ChangesOnly [.ledger] noReg s (s.setLedger f) :=
  ⟨fun p hp => by cases p <;> first | rfl | simp at hp, fun _ _ => rfl⟩

theorem only_setHold (s : State) (f : HoldSt → HoldSt) : ChangesOnly [.ledger] noReg s (s.setHold f) :=
  ⟨fun p hp => by cases p <;> first | rfl | simp at hp, fun _ _ => rfl⟩

theorem only_setWin (s : State) (w : Nat) (f : Window → Window) : ChangesOnly [.evr] noReg s (s.setWin w f) :=
  ⟨fun p hp => by cases p <;> first | rfl | simp at hp, fun _ _ => rfl⟩

theorem only_setInst (s : State) (h : Nat) (f : DrillInst → DrillInst) : ChangesOnly [.drill] noReg s (s.setInst h f) :=
  ⟨fun p hp => by cases p <;> first | rfl | simp at hp, fun _ _ => rfl⟩

/-! ### Time, output, events -/

theorem only_reach (s : State) (t : Nat) : ChangesOnly [.clk] noReg s (s.reach t) :=
  ⟨fun p hp => by cases p <;> first | rfl | simp at hp, fun _ _ => rfl⟩

theorem only_emit (s : State) (o : Out) : ChangesOnly [.out] noReg s (s.emit o) :=
  ⟨fun p hp => by cases p <;> first | rfl | simp at hp, fun _ _ => rfl⟩

theorem evWords_intStat : ∀ off, regsAt [0x780004] off = true → evWords off = true := by
  intro off h; simp only [regsAt, evWords, List.contains_cons, List.contains_nil, Bool.or_false] at *; simp [h]

theorem evWords_drop : ∀ off, regsAt [Reg.EVR_DROP] off = true → evWords off = true := by
  intro off h; simp only [regsAt, evWords, List.contains_cons, List.contains_nil, Bool.or_false] at *; simp [h]

theorem evWords_drill : ∀ off, regsAt [Reg.DRILL_CNT 37] off = true → evWords off = true := by
  intro off h; simp only [regsAt, evWords, List.contains_cons, List.contains_nil, Bool.or_false] at *; simp [h]

theorem noReg_le (rq : Nat → Bool) : ∀ off, noReg off = true → rq off = true := by simp [noReg]

/-- An event enters the ingest queue, or is counted as lost. -/
theorem only_enqueue (s : State) (e : Event) (d : DrillWait) : ChangesOnly [.evr] evWords s (s.enqueue e d) := by
  unfold State.enqueue; split
  · exact ((only_bump _ _ _).mono (by simp) evWords_drop).trans ((only_cond _ 15 1 0x780000 rfl).mono (by simp) evWords_intStat)
  · exact ⟨fun p hp => by cases p <;> first | rfl | simp at hp, fun _ _ => rfl⟩

theorem only_evrOverrun (s : State) (e : Event) : ChangesOnly [.evr] evWords s (s.evrOverrun e) := by
  unfold State.evrOverrun; split
  · exact only_enqueue _ _ _
  · exact (only_enqueue _ _ _).trans ((only_bump _ _ _).mono (by simp) evWords_drill)

theorem only_limit (s : State) (code inst period n : Nat) : ChangesOnly [.limiters] noReg s (s.limit code inst period n).2 := by
  have lim (l : List Limiter) : ChangesOnly [.limiters] noReg s { s with limiters := l } :=
    ⟨fun p hp => by cases p <;> first | rfl | simp at hp, fun _ _ => rfl⟩
  unfold State.limit
  split
  · split <;> exact lim _
  · exact lim _

/-- An event is ingested: it waits for its drill, or its drill is passed over, which DRILL_OVERRUN may say. -/
theorem only_ingest (s : State) (e : Event) : ChangesOnly [.evr, .limiters] evWords s (s.ingest e) := by
  have q (s : State) (e : Event) (d : DrillWait) : ChangesOnly [.evr, .limiters] evWords s (s.enqueue e d) :=
    (only_enqueue s e d).mono (by simp) fun _ h => h
  have v (s : State) (e : Event) : ChangesOnly [.evr, .limiters] evWords s (s.evrOverrun e) :=
    (only_evrOverrun s e).mono (by simp) fun _ h => h
  have l (s : State) : ChangesOnly [.evr, .limiters] evWords s (s.limit 0x1103 37 sec).2 :=
    (only_limit s 0x1103 37 sec 1).mono (by simp) (noReg_le _)
  unfold State.ingest
  split
  · exact q _ _ _
  · split
    · exact q _ _ _
    · have h := (v s e).trans (l (s.evrOverrun e))
      simp only []
      split
      · rename_i t e1; rw [e1] at h; exact h
      · rename_i n t e1; rw [e1] at h; exact (h.trans (v _ _)).trans (l _)

theorem only_raise (s : State) (code sev tag : Nat) (d : Bytes) (o e : Nat) :
    ChangesOnly [.evr, .limiters] evWords s (s.raise code sev tag d o e) := only_ingest _ _

/-- A rate-limited event. -/
theorem only_raiseLim (s : State) (code inst period sev tag : Nat) (d : Nat → Bytes) (o e n : Nat) :
    ChangesOnly [.evr, .limiters] evWords s (s.raiseLim code inst period sev tag d o e n) := by
  have h : ChangesOnly [.evr, .limiters] evWords s (s.limit code inst period n).2 := (only_limit s code inst period n).mono (by simp) (noReg_le _)
  unfold State.raiseLim
  split
  · rename_i k t e1; rw [e1] at h; exact h.trans (only_raise _ _ _ _ _ _ _)
  · rename_i t e1; rw [e1] at h; exact h

/-! ### Ethernet -/

/-- What a port keeps of a frame that it sends is what `EthPort.sending` names. -/
theorem map_modNth_still (l : List EthPort) (p : Nat) (f : EthPort → EthPort) (h : ∀ x, (f x).still = x.still) :
    (modNth l p f).map EthPort.still = l.map EthPort.still := by
  induction l generalizing p with
  | nil => rfl
  | cons x r ih => cases p with
    | zero => simp [modNth, h]
    | succ n => simp [modNth, ih]

theorem only_modPort (s : State) (p : Nat) (f : EthPort → EthPort) (h : ∀ x, (f x).still = x.still) :
    ChangesOnly [.ethTx] noReg s (s.modPort p f) :=
  ⟨fun q hq => by cases q <;> first | rfl | exact map_modNth_still _ _ _ h | simp at hq, fun _ _ => rfl⟩

theorem only_wireOut (s : State) (p c : Nat) (o : Out) : ChangesOnly [.out, .ethTx] (portWords p) s (s.wireOut p c o) := by
  have h (s : State) (tag : Option (Nat × Nat)) : ChangesOnly [.out, .ethTx] (portWords p) s
      ((s.modPort p fun x => { x with txf := (x.txf + 1) % 2 ^ 64, idleAt := s.clk, tag := tag }).emit o) := by
    refine ChangesOnly.trans (t := s.modPort p fun x => { x with txf := (x.txf + 1) % 2 ^ 64, idleAt := s.clk, tag := tag }) ?_ ?_
    · exact (only_modPort s p (fun x => { x with txf := (x.txf + 1) % 2 ^ 64, idleAt := s.clk, tag := tag }) fun _ => rfl).mono
        (List.subset_cons_self _ _) (noReg_le _)
    · exact (only_emit _ o).mono (qs := [.out, .ethTx]) (by simp) (noReg_le _)
  unfold State.wireOut
  simp only []
  split
  · exact h _ _
  · exact ((only_put s (F.ETH_PSTAT_LPI p) 0).mono (by simp) fun _ h => h).trans (h _ _)

/-- A frame is sent on a port, or waits there. -/
theorem only_ethSend (s : State) (p c : Nat) (o : Out) : ChangesOnly [.out, .ethTx] (portWords p) s (s.ethSend p c o) := by
  unfold State.ethSend; split
  · exact (only_emit _ _).mono (by simp) (noReg_le _)
  · split
    · exact (only_modPort s p (fun x => { x with egress := x.egress ++ [⟨c, o⟩] }) fun _ => rfl).mono (List.subset_cons_self _ _) (noReg_le _)
    · exact only_wireOut _ _ _ _

/-! ### Baton -/

theorem only_modSession (s : State) (k : Nat) (f : Session → Session) : ChangesOnly [.baton] noReg s (s.modSession k f) :=
  ⟨fun p hp => by cases p <;> first | rfl | simp at hp, fun _ _ => rfl⟩

theorem only_heard (s : State) (r : Req) : ChangesOnly [.baton] noReg s (s.heard r) := only_modSession _ _ _

theorem only_reserve (s : State) (c : Nat) : ChangesOnly [.ledger] noReg s (s.reserve c) := by
  unfold State.reserve; split
  · exact .refl _ _ _
  · exact ⟨fun p hp => by cases p <;> first | rfl | simp at hp, fun _ _ => rfl⟩

theorem only_journalAdd (s : State) (o : BitVec 256) (a b c : Nat) : ChangesOnly [.start] noReg s (s.journalAdd o a b c) :=
  ⟨fun p hp => by cases p <;> first | rfl | simp at hp, fun _ _ => rfl⟩

theorem only_journalEnd (s : State) (o : BitVec 256) (a b : Nat) : ChangesOnly [.start] noReg s (s.journalEnd o a b) :=
  ⟨fun p hp => by cases p <;> first | rfl | simp at hp, fun _ _ => rfl⟩

theorem only_addItem (s : State) (i : Item) : ChangesOnly [.baton] noReg s (s.addItem i) :=
  ⟨fun p hp => by cases p <;> first | rfl | simp at hp, fun _ _ => rfl⟩

theorem only_answer (s : State) (q : Q) (code fl st : Nat) (res : Bytes) :
    ChangesOnly [.out, .ethTx] (portWords q.port) s (s.answer q code fl st res) := by
  unfold State.answer; split
  · exact only_ethSend _ _ _ _
  · exact (only_emit _ _).mono (by simp) (noReg_le _)

theorem only_refuseQ (s : State) (q : Q) (code : Nat) (neg : Bool) (x : Refuse) :
    ChangesOnly [.out, .ethTx] (portWords q.port) s (s.refuseQ q code neg x) := only_answer _ _ _ _ _ _

/-- An ended item enters the completion cache; BATON_EVICT may be raised. -/
theorem only_cacheAdd (s : State) (o : BitVec 256) (a b c d : Nat) :
    ChangesOnly [.baton, .evr, .limiters] evWords s (s.cacheAdd o a b c d) := by
  have put (s : State) (l : List CacheEntry) : ChangesOnly [.baton, .evr, .limiters] evWords s { s with baton := { s.baton with cache := l } } :=
    ⟨fun p hp => by cases p <;> first | rfl | simp at hp, fun _ _ => rfl⟩
  unfold State.cacheAdd
  split
  · split
    · simp only []
      split
      · exact (put _ _).trans ((only_raiseLim _ _ _ _ _ _ _ _ _ _).mono (by simp) fun _ h => h)
      · exact put _ _
    · exact put _ _
  · exact put _ _

theorem only_begun (d : OpDef) (s : State) (q : Q) : ChangesOnly [.start, .ledger] noReg s (d.begun s q) := by
  unfold OpDef.begun; split
  · exact .refl _ _ _
  · exact ((only_reserve _ _).mono (by simp) fun _ h => h).trans ((only_journalAdd _ _ _ _ _).mono (by simp) fun _ h => h)

theorem only_ended (d : OpDef) (s : State) (q : Q) (st : Status) :
    ChangesOnly [.baton, .evr, .limiters, .start] evWords s (d.ended s q st) := by
  unfold OpDef.ended; split
  · exact .refl _ _ _
  · exact ((only_cacheAdd _ _ _ _ _ _).mono (by simp) fun _ h => h).trans ((only_journalEnd _ _ _ _).mono (by simp) (by simp [noReg]))

/-- The frame of a request that ends in its reply: what its run changes, and what any request touches. -/
theorem only_done {ps : List Part} {ro : Nat → Bool} (d : OpDef) (s t : State) (r : Req) (q : Q) (st : Status) (fl : Nat) (res : Bytes)
    (h : ChangesOnly ps ro (d.begun (s.heard r) q) t) :
    ChangesOnly (batonParts ++ ps) (regsOr (answerWords q) ro) s ((d.ended t q st).answer q d.code fl st.code res) := by
  have le1 : ∀ off, evWords off = true → regsOr (answerWords q) ro off = true := by intro o h; simp [answerWords, regsOr, h]
  have le2 : ∀ off, ro off = true → regsOr (answerWords q) ro off = true := by intro o h; simp [regsOr, h]
  have le3 : ∀ off, portWords q.port off = true → regsOr (answerWords q) ro off = true := by intro o h; simp [answerWords, regsOr, h]
  refine ((only_heard s r).mono (by simp [batonParts]) (noReg_le _)).trans ?_
  refine ((only_begun d _ q).mono (by simp [batonParts]) (noReg_le _)).trans ?_
  refine (h.mono (by simp) le2).trans ?_
  refine ((only_ended d _ q st).mono (by simp [batonParts]) le1).trans ?_
  exact (only_answer _ _ _ _ _ _).mono (by simp [batonParts]) le3

/-- The frame of a request that stays PENDING. -/
theorem only_pend {ps : List Part} {ro : Nat → Bool} (d : OpDef) (s t : State) (r : Req) (q : Q) (i : Item)
    (h : ChangesOnly ps ro (d.begun (s.heard r) q) t) :
    ChangesOnly (batonParts ++ ps) (regsOr (answerWords q) ro) s ((t.addItem i).answer q d.code 0 Status.pending.code []) := by
  have le2 : ∀ off, ro off = true → regsOr (answerWords q) ro off = true := by intro o h; simp [regsOr, h]
  have le3 : ∀ off, portWords q.port off = true → regsOr (answerWords q) ro off = true := by intro o h; simp [answerWords, regsOr, h]
  refine ((only_heard s r).mono (by simp [batonParts]) (noReg_le _)).trans ?_
  refine ((only_begun d _ q).mono (by simp [batonParts]) (noReg_le _)).trans ?_
  refine (h.mono (by simp) le2).trans ?_
  refine ((only_addItem t i).mono (by simp [batonParts]) (noReg_le _)).trans ?_
  exact (only_answer _ _ _ _ _ _).mono (by simp [batonParts]) le3

end Sys2Proof.Machine
end

