-- ==== Sys2Proof/Laws/Baton.lean ====
section
/-! SUPPORT. Laws/Baton.lean: a request that passes every check of Table 3.9 is admitted, and what its answer is. -/

namespace Sys2Proof.Machine

theorem State.session?_slot {s : State} {k : Nat} {x : Session} (h : s.session? k = some x) : x.slot = k := by
  have := List.find?_some h; simpa using this

/-- What `asked` says: the session, the TLVs, and the checks of steps 2 to 7. -/
theorem asked_cases {d : OpDef} {r : Req} {s : State} {q : Q} (h : asked d r s = some q) :
    ∃ x ts, s.session? r.sess.val = some x ∧ framing r = .ok ts ∧
      q = ⟨r, x.tag, x.owner, x.version.getD r.version.toNat, some r.sess.val, x.port, ts⟩ ∧
      (if d.code = 1 then x.version.isNone else x.version == some r.version.toNat) = true ∧ r.tenant.toNat = x.tag ∧
      (d.session = true ∨ (s.item? x.owner r.item.toNat = none ∧ s.cached? x.owner r.item.toNat = none)) ∧
      (x.version.isNone || Nat.ble d.since (x.version.getD r.version.toNat)) = true ∧ tlvFault d.schema q.ver q.tlvs = none ∧
      d.form (s.heard r) q = none := by
  unfold asked at h
  split at h
  · cases h
  · rename_i x hx
    split at h
    · cases h
    · rename_i ts hts
      simp only [Option.ite_none_right_eq_some, Option.some.injEq, Bool.and_eq_true, Bool.or_eq_true, beq_iff_eq, Option.isNone_iff_eq_none] at h
      obtain ⟨⟨⟨⟨⟨⟨h1, h2⟩, h3⟩, h4⟩, h5⟩, h6⟩, rfl⟩ := h
      refine ⟨x, ts, hx, hts, rfl, ?_, h2, h3, ?_, h5, h6⟩
      · exact h1
      · rcases h4 with h4 | h4 <;> simp [h4]

/-- What `passes` says: the request was asked, no relay takes it, and the later steps let it pass. -/
theorem passes_asked {d : OpDef} {relay : State → Q → Option State} {r : Req} {s : State} {q : Q} (h : passes d relay r s = some q) :
    asked d r s = some q ∧ ((s.heard r).start.phase = .recovery ∨ relay (s.heard r) q = none) ∧ d.later (s.heard r) q = none := by
  unfold passes at h
  split at h
  · cases h
  · rename_i q' hq
    simp only [Option.ite_none_right_eq_some, Option.some.injEq, Bool.and_eq_true, Bool.or_eq_true, beq_iff_eq, Option.isNone_iff_eq_none] at h
    obtain ⟨⟨h1, h2⟩, rfl⟩ := h
    exact ⟨hq, h1, h2⟩

/-- What `passes` says: the session, the TLVs, and every check. -/
theorem passes_cases {d : OpDef} {relay : State → Q → Option State} {r : Req} {s : State} {q : Q} (h : passes d relay r s = some q) :
    ∃ x ts, s.session? r.sess.val = some x ∧ framing r = .ok ts ∧
      q = ⟨r, x.tag, x.owner, x.version.getD r.version.toNat, some r.sess.val, x.port, ts⟩ ∧
      (if d.code = 1 then x.version.isNone else x.version == some r.version.toNat) = true ∧ r.tenant.toNat = x.tag ∧
      (d.session = true ∨ (s.item? x.owner r.item.toNat = none ∧ s.cached? x.owner r.item.toNat = none)) ∧
      (x.version.isNone || Nat.ble d.since (x.version.getD r.version.toNat)) = true ∧ tlvFault d.schema q.ver q.tlvs = none ∧
      d.form (s.heard r) q = none ∧ ((s.heard r).start.phase = .recovery ∨ relay (s.heard r) q = none) ∧ d.later (s.heard r) q = none := by
  obtain ⟨ha, hr, hl⟩ := passes_asked h
  obtain ⟨x, ts, h1, h2, h3, h4, h5, h6, h7, h8, h9⟩ := asked_cases ha
  exact ⟨x, ts, h1, h2, h3, h4, h5, h6, h7, h8, h9, hr, hl⟩

/-- A request that passes every check is admitted. -/
theorem batonCore_of_passes {d : OpDef} {relay : State → Q → Option State} {r : Req} {s : State} {q : Q} (h : passes d relay r s = some q) :
    batonCore d true relay r s = d.accept (s.heard r) q := by
  obtain ⟨x, ts, hx, hts, hq, hv, ht, hi, hs, hf, hform, hrel, hl⟩ := passes_cases h
  have hslot := State.session?_slot hx
  have hh : (s.modSession x.slot fun y => { y with last := s.clk }) = s.heard r := by rw [hslot]; rfl
  have hhi : ∀ o n, (s.heard r).item? o n = s.item? o n := fun _ _ => rfl
  have hhc : ∀ o n, (s.heard r).cached? o n = s.cached? o n := fun _ _ => rfl
  have hself : (⟨r, x.tag, x.owner, x.version.getD r.version.toNat, some x.slot, x.port, ts⟩ : Q) = q := by rw [hq, hslot]
  unfold batonCore
  rw [hx]
  simp only [hh, hts]
  have hvb : (if d.code = 1 then !x.version.isSome else x.version == some r.version.toNat) = true := by
    rw [← hv]; simp
  have hsi : (d.session = false → (s.item? x.owner r.item.toNat) = none) := by
    intro h; rcases hi with h' | h'
    · rw [h] at h'; cases h'
    · exact h'.1
  have hsc : (if d.session = true then none else (s.heard r).cached? x.owner r.item.toNat) = none := by
    split
    · rfl
    · rcases hi with h' | h'
      · contradiction
      · rw [hhc]; exact h'.2
  have hdef : (x.version.isSome && decide (d.since > x.version.getD r.version.toNat)) = false := by
    cases hvv : x.version with
    | none => simp
    | some v => simp [hvv] at hs ⊢; omega
  have hitem : (!d.session && ((s.heard r).item? x.owner r.item.toNat).isSome) = false := by
    rw [hhi]; cases hd : d.session with
    | true => rfl
    | false => simp [hsi hd]
  have hrel' : (if (s.heard r).start.phase = .recovery then none else relay (s.heard r) q) = none := by
    split
    · rfl
    · rcases hrel with h' | h'
      · contradiction
      · exact h'
  have hf' : tlvFault d.schema (x.version.getD r.version.toNat) ts = none := by rw [hq] at hf; exact hf
  simp only [hvb, hself, ht, hitem, hsc, hdef, hf', hform, hrel', hl]
  simp

/-- An admitted request runs. -/
theorem batonRun_of_admitted {d : OpDef} {r : Req} {s : State} {q : Q} (h : passes d notRelayed r s = some q ∧ s.blkOn d.blk = true) :
    batonRun d r s = d.close (s.heard r) q (d.run (d.begun (s.heard r) q) q) := by
  have hb : (s.heard r).blkOn d.blk = true := h.2
  unfold batonRun
  rw [show (fun (_ : State) (_ : Q) => (none : Option State)) = notRelayed from rfl, batonCore_of_passes h.1]
  simp [OpDef.accept, hb]

/-- The request that is admitted is the one that was sent. -/
theorem passes_req {d : OpDef} {relay : State → Q → Option State} {r : Req} {s : State} {q : Q} (h : passes d relay r s = some q) :
    q.r = r ∧ q.sess = some r.sess.val := by
  obtain ⟨x, ts, _, _, hq, _⟩ := passes_cases h
  rw [hq]; exact ⟨rfl, rfl⟩

theorem modNth_getD {α : Type} (l : List α) (n : Nat) (f : α → α) (x : α) (h : l[n]? = some x) : (modNth l n f)[n]? = some (f x) := by
  induction l generalizing n with
  | nil => simp at h
  | cons y r ih => cases n with
    | zero => simp at h; simp [modNth, h]
    | succ k => simp at h; simp [modNth, ih _ h]

/-- Two states whose ports agree but for what sending changes. -/
theorem State.port_still {s t : State} (h : t.eth.map EthPort.still = s.eth.map EthPort.still) (p : Nat) :
    (t.port p).still = (s.port p).still := by
  have e : (t.eth[p]?).map EthPort.still = (s.eth[p]?).map EthPort.still := by rw [← List.getElem?_map, h, List.getElem?_map]
  unfold State.port
  cases ht : t.eth[p]? with
  | none => cases hs : s.eth[p]? with
    | none => rfl
    | some y => rw [ht, hs] at e; cases e
  | some x => cases hs : s.eth[p]? with
    | none => rw [ht, hs] at e; cases e
    | some y => rw [ht, hs] at e; exact Option.some.inj e

/-- Sending does not change whether a port holds its frames. -/
theorem State.portHeld_congr {s t : State} (h : t.eth.map EthPort.still = s.eth.map EthPort.still) (p : Nat)
    (hl : t.get (F.ETH_PSTAT_LINK p) = s.get (F.ETH_PSTAT_LINK p)) : t.portHeld p = s.portHeld p := by
  have e := State.port_still h p
  have h1 : (t.port p).target = (s.port p).target := by
    simpa [EthPort.still] using congrArg EthPort.target e
  have h2 : (t.port p).markTx = (s.port p).markTx := by
    simpa [EthPort.still] using congrArg EthPort.markTx e
  have h3 : (t.port p).failAt = (s.port p).failAt := by
    simpa [EthPort.still] using congrArg EthPort.failAt e
  simp only [State.portHeld, h1, h2, h3, hl]

theorem State.wireOut_link (s : State) (p c : Nat) (o : Out) :
    (s.wireOut p c o).get (F.ETH_PSTAT_LINK p) = s.get (F.ETH_PSTAT_LINK p) := by
  have h : (s.wireOut p c o).regs = (if s.get (F.ETH_PSTAT_LPI p) = 0 then s else s.put (F.ETH_PSTAT_LPI p) 0).regs := rfl
  unfold State.get
  rw [State.rd_congr h]
  by_cases hz : s.get (F.ETH_PSTAT_LPI p) = 0
  · rw [if_pos hz]
  · rw [if_neg hz]
    exact State.get_put_other s (F.ETH_PSTAT_LPI p) (F.ETH_PSTAT_LINK p) 0 (by simp [F.ETH_PSTAT_LPI]) (by simp [F.ETH_PSTAT_LPI])
      (.inr (.inr (by simp [F.ETH_PSTAT_LPI, F.ETH_PSTAT_LINK])))

/-- A frame that has been sent is the latest out, or waits last in its port's egress queue. -/
theorem ethSend_sent (s : State) (p c : Nat) (o : Out) : Sent (s.ethSend p c o) p c o := by
  unfold Sent
  by_cases hp : p ≥ 4
  · simp [State.ethSend, hp, State.emit]
  by_cases hh : s.portHeld p = true
  · have e : s.ethSend p c o = s.modPort p fun x => { x with egress := x.egress ++ [⟨c, o⟩] } := by
      unfold State.ethSend; rw [if_neg hp, if_pos hh]
    have hk : (s.ethSend p c o).portHeld p = true := by
      rw [e, ← hh]
      exact State.portHeld_congr (map_modNth_still s.eth p (fun x => { x with egress := x.egress ++ [⟨c, o⟩] }) fun _ => rfl) p rfl
    rw [if_pos ⟨by omega, hk⟩, e]
    cases hs : s.eth[p]? with
    | none => simp [State.portHeld, State.port, hs] at hh
    | some x => simp [State.port, State.modPort, modNth_getD _ _ _ _ hs]
  · have e : s.ethSend p c o = s.wireOut p c o := by
      unfold State.ethSend; rw [if_neg hp, if_neg hh]
    have hk : (s.ethSend p c o).portHeld p = s.portHeld p := by
      rw [e]; exact State.portHeld_congr ((only_wireOut s p c o).1 .eth (by simp)) p (State.wireOut_link _ _ _ _)
    rw [if_neg (by rw [hk]; exact fun h => hh h.2), e]
    rfl

/-- The answer has just been sent on its session's port. -/
theorem answer_answered (t : State) (q : Q) (code : Nat) (st : Status) (fl : Nat) (res : Bytes) (h : q.sess = some q.r.sess.val) :
    Answered (t.answer q code fl st.code res) q code st fl res := by
  have e : replyOf (t.answer q code fl st.code res) q code st fl res = replyOf t q code st fl res := by
    unfold replyOf State.session?
    rw [show (t.answer q code fl st.code res).baton = t.baton from (only_answer t q code fl st.code res).1 .baton (by simp)]
  unfold Answered
  rw [e]; unfold State.answer; rw [h]; exact ethSend_sent _ _ _ _

/-- An admitted request whose run is done is answered with its status and results. -/
theorem done_answered {d : OpDef} {r : Req} {s s' : State} {q : Q} {st : Status} {res : Bytes} {more : Bool}
    (h : passes d notRelayed r s = some q ∧ s.blkOn d.blk = true)
    (hr : d.run (d.begun (s.heard r) q) q = .done st res s' more) :
    batonRun d r s = (d.ended s' q st).answer q d.code (if more then fMore else 0) st.code res ∧
    Answered (batonRun d r s) q d.code st (if more then fMore else 0) res := by
  obtain ⟨h1, h2⟩ := passes_req h.1
  have e : batonRun d r s = (d.ended s' q st).answer q d.code (if more then fMore else 0) st.code res := by
    rw [batonRun_of_admitted h, hr]; rfl
  exact ⟨e, e ▸ answer_answered _ _ _ _ _ _ (by rw [h2, h1])⟩

/-- An admitted request whose run waits is answered PENDING. -/
theorem pend_answered {d : OpDef} {r : Req} {s s' : State} {q : Q} {w : WaitKind} {a b : Nat} {p : Bool}
    (h : passes d notRelayed r s = some q ∧ s.blkOn d.blk = true)
    (hr : d.run (d.begun (s.heard r) q) q = .pend w a b p s') :
    batonRun d r s = (s'.addItem (d.item q w a b p)).answer q d.code 0 Status.pending.code [] ∧
    Answered (batonRun d r s) q d.code .pending 0 [] := by
  obtain ⟨h1, h2⟩ := passes_req h.1
  have e : batonRun d r s = (s'.addItem (d.item q w a b p)).answer q d.code 0 Status.pending.code [] := by
    rw [batonRun_of_admitted h, hr]; rfl
  exact ⟨e, e ▸ answer_answered _ _ _ _ _ _ (by rw [h2, h1])⟩

end Sys2Proof.Machine
end

