-- ==== Sys2Proof/WellFormed.lean ====
section
/-! DEFINITION. WellFormed.lean: the commands whose operands can occur: a command outside it has a meaning too, which leaves the
state as the command's own conditions say, but nothing of the spec stands behind it. -/

namespace Sys2Proof

/-- The opcodes that the chapters define, by the high byte (Table 3.7 and the opcode tables of the chapters). -/
def definedOpcode (op : Nat) : Bool :=
  let lo := op % 256
  let upTo (n : Nat) : Bool := Nat.ble 1 lo && Nat.ble lo n
  match op / 256 with
  | 0x00 => upTo 5
  | 0x01 => upTo 9 || (Nat.ble 0x81 lo && Nat.ble lo 0x83)
  | 0x02 => upTo 5
  | 0x03 => upTo 11
  | 0x04 => upTo 8
  | 0x05 => upTo 5
  | 0x06 => upTo 9
  | 0x07 => upTo 6
  | 0x08 => upTo 5
  | 0x09 => upTo 11
  | 0x0A => upTo 5
  | 0x0B => upTo 8
  | 0x0C => upTo 6
  | 0x0D => upTo 15
  | 0x0E => upTo 9
  | 0x0F => upTo 6
  | 0x10 => upTo 2
  | 0x11 => upTo 5
  | 0x12 => upTo 3
  | _ => false

/-- Data bytes that a CAN data length code stands for (ISO 11898-1, as R390 takes it). -/
def dlcBytes (fdf : Bool) (dlc : Nat) : Nat :=
  if dlc ≤ 8 then dlc else if !fdf then 8 else
  match dlc with
  | 9 => 12 | 10 => 16 | 11 => 20 | 12 => 24 | 13 => 32 | 14 => 48 | _ => 64

/-- A frame as a bus can carry it: remote frames are classical and carry no data, base identifiers have 11 bits (R390). -/
def CanFrame.wf (f : CanFrame) : Bool :=
  (f.ide || Nat.ble f.id.toNat 0x7FF) && !(f.fdf && f.rtr) && !(f.brs && !f.fdf) &&
  f.data.length == (if f.rtr then 0 else dlcBytes f.fdf f.dlc.toNat)

/-- A piece of a Furun message carries at most 1,344 bytes (R434). -/
def FPiece.wf (p : FPiece) : Bool := Nat.ble p.body.length 1344

/-- A sample of every channel at each instant (R299). -/
def LineCycle.wf (x : LineCycle) : Bool := x.smp.all fun r => r.length == 28

/-- An object number: 1 to 4,096 (R45). -/
def objWf (o : BitVec 13) : Bool := Nat.ble 1 o.toNat && Nat.ble o.toNat 4096

/-- The command's operands can occur together. -/
def wellFormed : Instr → Bool
  | .registerWrite off _ => off.toNat % 4 == 0
  | .offDomainAccess off _ _ => off.toNat % 4 == 0
  | .unalignedAccess off w write _ =>
    match w with
    | .w8 => write
    | .w16 => write || off.toNat % 2 == 1
    | .w32 => off.toNat % 4 != 0
  | .snapshotRequest src _ => src.val != 0
  | .snapshotCapture src => src.val != 0
  | .intClr src _ => src.val != 0
  | .sysIntRouteWrite n _ => n.val != 0
  | .undefinedOpcode op _ => !definedOpcode op.toNat
  | .eventIngest e => Nat.ble e.data.length 12
  | .canFrameReceived _ f => f.wf
  | .lineCycleEnd x => x.wf
  | .lockExpiry o => objWf o
  | .elementStale o e => objWf o && e.toNat != 0
  | .wstat _ o e => objWf o && e.toNat != 0
  | .testPulse _ _ _ _ => true
  | .baton p => p.wf
  | .pacerRound p => p.wf
  | .pacerReply p => p.wf
  | .pacerFinal p => p.wf
  | .pacerProbe p => p.wf
  | .pacerEnvelope p => p.wf
  | .probeReply p => p.wf
  | .furunHello p => p.wf
  | .heartbeat p => p.wf
  | .vote p => p.wf
  | .anchor p => p.wf
  | .handover p => p.wf
  | .replica p => p.wf
  | .withdraw p => p.wf
  | .mirror p => p.wf
  | .want p => p.wf
  | .piece p => p.wf
  | .noneMsg p => p.wf
  | _ => true

end Sys2Proof
end

