-- ==== Sys2Proof/Laws/PerInstr.lean ====
section
/-! SUPPORT. Laws/PerInstr.lean: what holds of every command as syntax, one lemma to a constructor. -/

namespace Sys2Proof.Laws.Requests

open Sys2Proof Sys2Proof.Machine

/-- A command that carries a request to the interpreter can occur whatever its bytes: what a client sends is not checked before
Table 3.9 checks it. -/
def Statement (i : Instr) : Prop := (batonOf i).isSome = true → wellFormed i = true

theorem registerWrite : ∀ x0 x1, Statement (.registerWrite x0 x1) := fun _ _ => nofun
theorem offDomainAccess : ∀ x0 x1 x2, Statement (.offDomainAccess x0 x1 x2) := fun _ _ _ => nofun
theorem unalignedAccess : ∀ x0 x1 x2 x3, Statement (.unalignedAccess x0 x1 x2 x3) := fun _ _ _ _ => nofun
theorem snapshotRequest : ∀ x0 x1, Statement (.snapshotRequest x0 x1) := fun _ _ => nofun
theorem snapshotCapture : ∀ x0, Statement (.snapshotCapture x0) := fun _ => nofun
theorem intClr : ∀ x0 x1, Statement (.intClr x0 x1) := fun _ _ => nofun
theorem sysSafeIntClr : ∀ x0, Statement (.sysSafeIntClr x0) := fun _ => nofun
theorem sysIntRouteWrite : ∀ x0 x1, Statement (.sysIntRouteWrite x0 x1) := fun _ _ => nofun
theorem sysSafeSnapCtl : ∀ x0, Statement (.sysSafeSnapCtl x0) := fun _ => nofun
theorem sysWdtKick : ∀ x0, Statement (.sysWdtKick x0) := fun _ => nofun
theorem domainGate : ∀ x0, Statement (.domainGate x0) := fun _ => nofun
theorem clockLost : ∀ x0, Statement (.clockLost x0) := fun _ => nofun
theorem handshake : ∀ x0 x1 x2 x3 x4, Statement (.handshake x0 x1 x2 x3 x4) := fun _ _ _ _ _ => nofun
theorem runtRecord : ∀ x0 x1, Statement (.runtRecord x0 x1) := fun _ _ => nofun
theorem sessionIdleTimeout : ∀ x0, Statement (.sessionIdleTimeout x0) := fun _ => nofun
theorem dtlsError : ∀ x0, Statement (.dtlsError x0) := fun _ => nofun
theorem hello : ∀ x0, Statement (.hello x0) := fun _ => fun _ => rfl
theorem ping : ∀ x0, Statement (.ping x0) := fun _ => fun _ => rfl
theorem itemStatus : ∀ x0, Statement (.itemStatus x0) := fun _ => fun _ => rfl
theorem cancel : ∀ x0, Statement (.cancel x0) := fun _ => fun _ => rfl
theorem close : ∀ x0, Statement (.close x0) := fun _ => fun _ => rfl
theorem cacheEntryExpiry : Statement (.cacheEntryExpiry) := nofun
theorem objRead : ∀ x0, Statement (.objRead x0) := fun _ => fun _ => rfl
theorem objReadNext : ∀ x0, Statement (.objReadNext x0) := fun _ => fun _ => rfl
theorem objWrite : ∀ x0, Statement (.objWrite x0) := fun _ => fun _ => rfl
theorem objCreate : ∀ x0, Statement (.objCreate x0) := fun _ => fun _ => rfl
theorem objDelete : ∀ x0, Statement (.objDelete x0) := fun _ => fun _ => rfl
theorem objSetTag : ∀ x0, Statement (.objSetTag x0) := fun _ => fun _ => rfl
theorem objLock : ∀ x0, Statement (.objLock x0) := fun _ => fun _ => rfl
theorem objUnlock : ∀ x0, Statement (.objUnlock x0) := fun _ => fun _ => rfl
theorem unitClearSuspect : ∀ x0, Statement (.unitClearSuspect x0) := fun _ => fun _ => rfl
theorem lockExpiry : ∀ x0, Statement (.lockExpiry x0) := fun _ => nofun
theorem cursorRelease : ∀ x0 x1, Statement (.cursorRelease x0 x1) := fun _ _ => nofun
theorem baton : ∀ x0, Statement (.baton x0) := fun _ => nofun
theorem elementStale : ∀ x0 x1, Statement (.elementStale x0 x1) := fun _ _ => nofun
theorem drillLoad : ∀ x0, Statement (.drillLoad x0) := fun _ => fun _ => rfl
theorem drillRead : ∀ x0, Statement (.drillRead x0) := fun _ => fun _ => rfl
theorem drillDelete : ∀ x0, Statement (.drillDelete x0) := fun _ => fun _ => rfl
theorem drillBind : ∀ x0, Statement (.drillBind x0) := fun _ => fun _ => rfl
theorem drillStat : ∀ x0, Statement (.drillStat x0) := fun _ => fun _ => rfl
theorem drillRun : ∀ x0, Statement (.drillRun x0) := fun _ => nofun
theorem modeSet : ∀ x0, Statement (.modeSet x0) := fun _ => fun _ => rfl
theorem modeGet : ∀ x0, Statement (.modeGet x0) := fun _ => fun _ => rfl
theorem limitSet : ∀ x0, Statement (.limitSet x0) := fun _ => fun _ => rfl
theorem ledgerCfg : ∀ x0, Statement (.ledgerCfg x0) := fun _ => fun _ => rfl
theorem ledgerRead : ∀ x0, Statement (.ledgerRead x0) := fun _ => fun _ => rfl
theorem ledgerTick : ∀ x0, Statement (.ledgerTick x0) := fun _ => nofun
theorem sourceChange : ∀ x0 x1 x2, Statement (.sourceChange x0 x1 x2) := fun _ _ _ => nofun
theorem supplyLoss : ∀ x0, Statement (.supplyLoss x0) := fun _ => nofun
theorem holdupItemBound : ∀ x0, Statement (.holdupItemBound x0) := fun _ => nofun
theorem holdupField : Statement (.holdupField) := nofun
theorem holdupRetain : Statement (.holdupRetain) := nofun
theorem holdupItemTable : Statement (.holdupItemTable) := nofun
theorem holdupClose : ∀ x0, Statement (.holdupClose x0) := fun _ => nofun
theorem supplyReturn : ∀ x0 x1, Statement (.supplyReturn x0 x1) := fun _ _ => nofun
theorem holdupReturn : Statement (.holdupReturn) := nofun
theorem bankExhausted : Statement (.bankExhausted) := nofun
theorem powerUp : ∀ x0 x1 x2, Statement (.powerUp x0 x1 x2) := fun _ _ _ => nofun
theorem boot : ∀ x0, Statement (.boot x0) := fun _ => nofun
theorem firmwareStart : ∀ x0, Statement (.firmwareStart x0) := fun _ => nofun
theorem startDone : Statement (.startDone) := nofun
theorem restart : ∀ x0, Statement (.restart x0) := fun _ => fun _ => rfl
theorem commandedReset : Statement (.commandedReset) := nofun
theorem watchdog : ∀ x0, Statement (.watchdog x0) := fun _ => nofun
theorem fatal : Statement (.fatal) := nofun
theorem residueRead : ∀ x0, Statement (.residueRead x0) := fun _ => fun _ => rfl
theorem startInfo : ∀ x0, Statement (.startInfo x0) := fun _ => fun _ => rfl
theorem taskCfg : ∀ x0, Statement (.taskCfg x0) := fun _ => fun _ => rfl
theorem taskStart : ∀ x0, Statement (.taskStart x0) := fun _ => fun _ => rfl
theorem taskStop : ∀ x0, Statement (.taskStop x0) := fun _ => fun _ => rfl
theorem progLoad : ∀ x0, Statement (.progLoad x0) := fun _ => fun _ => rfl
theorem progPrepare : ∀ x0, Statement (.progPrepare x0) := fun _ => fun _ => rfl
theorem progSwitch : ∀ x0, Statement (.progSwitch x0) := fun _ => fun _ => rfl
theorem progRevert : ∀ x0, Statement (.progRevert x0) := fun _ => fun _ => rfl
theorem switchPoint : Statement (.switchPoint) := nofun
theorem switchCopyDone : Statement (.switchCopyDone) := nofun
theorem switchTimeout : Statement (.switchTimeout) := nofun
theorem forceSet : ∀ x0, Statement (.forceSet x0) := fun _ => fun _ => rfl
theorem forceClear : ∀ x0, Statement (.forceClear x0) := fun _ => fun _ => rfl
theorem forceList : ∀ x0, Statement (.forceList x0) := fun _ => fun _ => rfl
theorem lapStatus : ∀ x0, Statement (.lapStatus x0) := fun _ => fun _ => rfl
theorem lapRelease : ∀ x0, Statement (.lapRelease x0) := fun _ => nofun
theorem lapExecution : ∀ x0 x1, Statement (.lapExecution x0 x1) := fun _ _ => nofun
theorem programReturn : ∀ x0 x1 x2, Statement (.programReturn x0 x1 x2) := fun _ _ _ => nofun
theorem lapCommit : ∀ x0, Statement (.lapCommit x0) := fun _ => nofun
theorem wstat : ∀ x0 x1 x2, Statement (.wstat x0 x1 x2) := fun _ _ _ => nofun
theorem loopAssign : ∀ x0, Statement (.loopAssign x0) := fun _ => fun _ => rfl
theorem loopCfg : ∀ x0, Statement (.loopCfg x0) := fun _ => fun _ => rfl
theorem loopBind : ∀ x0, Statement (.loopBind x0) := fun _ => fun _ => rfl
theorem loopBankWrite : ∀ x0, Statement (.loopBankWrite x0) := fun _ => fun _ => rfl
theorem loopBankRead : ∀ x0, Statement (.loopBankRead x0) := fun _ => fun _ => rfl
theorem loopSwap : ∀ x0, Statement (.loopSwap x0) := fun _ => fun _ => rfl
theorem loopRead : ∀ x0, Statement (.loopRead x0) := fun _ => fun _ => rfl
theorem loopBindRead : ∀ x0, Statement (.loopBindRead x0) := fun _ => fun _ => rfl
theorem loopCtlSwap : ∀ x0, Statement (.loopCtlSwap x0) := fun _ => nofun
theorem loopSwgo : Statement (.loopSwgo) := nofun
theorem loopSampleDue : ∀ x0, Statement (.loopSampleDue x0) := fun _ => nofun
theorem loopEvaluation : Statement (.loopEvaluation) := nofun
theorem relaySampleTrigger : Statement (.relaySampleTrigger) := nofun
theorem loopTrigLost : Statement (.loopTrigLost) := nofun
theorem profilePlan : Statement (.profilePlan) := nofun
theorem planStart : Statement (.planStart) := nofun
theorem pacerRound : ∀ x0, Statement (.pacerRound x0) := fun _ => nofun
theorem localSolveDone : Statement (.localSolveDone) := nofun
theorem pacerReply : ∀ x0, Statement (.pacerReply x0) := fun _ => nofun
theorem replyTimeout : ∀ x0, Statement (.replyTimeout x0) := fun _ => nofun
theorem roundDeadline : ∀ x0, Statement (.roundDeadline x0) := fun _ => nofun
theorem pacerFinal : ∀ x0, Statement (.pacerFinal x0) := fun _ => nofun
theorem pacerProbe : ∀ x0, Statement (.pacerProbe x0) := fun _ => nofun
theorem probeDeadline : ∀ x0, Statement (.probeDeadline x0) := fun _ => nofun
theorem pacerEnvelope : ∀ x0, Statement (.pacerEnvelope x0) := fun _ => nofun
theorem fallback : Statement (.fallback) := nofun
theorem dispatchStale : Statement (.dispatchStale) := nofun
theorem pacerFedSet : ∀ x0, Statement (.pacerFedSet x0) := fun _ => fun _ => rfl
theorem seriesWrite : ∀ x0, Statement (.seriesWrite x0) := fun _ => fun _ => rfl
theorem seriesRead : ∀ x0, Statement (.seriesRead x0) := fun _ => fun _ => rfl
theorem planValues : ∀ x0, Statement (.planValues x0) := fun _ => fun _ => rfl
theorem envelopeRead : ∀ x0, Statement (.envelopeRead x0) := fun _ => fun _ => rfl
theorem lineCycleEnd : ∀ x0, Statement (.lineCycleEnd x0) := fun _ => nofun
theorem metColdEnd : ∀ x0, Statement (.metColdEnd x0) := fun _ => nofun
theorem demandWindowEnd : Statement (.demandWindowEnd) := nofun
theorem flowPulse : ∀ x0, Statement (.flowPulse x0) := fun _ => nofun
theorem thermalUpdate : Statement (.thermalUpdate) := nofun
theorem pulseEmit : ∀ x0, Statement (.pulseEmit x0) := fun _ => nofun
theorem metrologySave : ∀ x0, Statement (.metrologySave x0) := fun _ => nofun
theorem stopMirror : Statement (.stopMirror) := nofun
theorem metLinkDown : Statement (.metLinkDown) := nofun
theorem metLinkUp : Statement (.metLinkUp) := nofun
theorem metSetup : ∀ x0, Statement (.metSetup x0) := fun _ => fun _ => rfl
theorem metCal : ∀ x0, Statement (.metCal x0) := fun _ => fun _ => rfl
theorem metCirCfg : ∀ x0, Statement (.metCirCfg x0) := fun _ => fun _ => rfl
theorem metAssign : ∀ x0, Statement (.metAssign x0) := fun _ => fun _ => rfl
theorem metThmCfg : ∀ x0, Statement (.metThmCfg x0) := fun _ => fun _ => rfl
theorem metPoCfg : ∀ x0, Statement (.metPoCfg x0) := fun _ => fun _ => rfl
theorem metDemandReset : ∀ x0, Statement (.metDemandReset x0) := fun _ => fun _ => rfl
theorem metGapRead : ∀ x0, Statement (.metGapRead x0) := fun _ => fun _ => rfl
theorem metCalRead : ∀ x0, Statement (.metCalRead x0) := fun _ => fun _ => rfl
theorem safetyStart : ∀ x0 x1 x2 x3, Statement (.safetyStart x0 x1 x2 x3) := fun _ _ _ _ => nofun
theorem safetyInputEdge : ∀ x0 x1 x2, Statement (.safetyInputEdge x0 x1 x2) := fun _ _ _ => nofun
theorem filterElapsed : ∀ x0 x1, Statement (.filterElapsed x0 x1) := fun _ _ => nofun
theorem discrepancy : ∀ x0, Statement (.discrepancy x0) := fun _ => nofun
theorem testPulse : ∀ x0 x1 x2 x3, Statement (.testPulse x0 x1 x2 x3) := fun _ _ _ _ => nofun
theorem ossdTest : ∀ x0 x1 x2, Statement (.ossdTest x0 x1 x2) := fun _ _ _ => nofun
theorem ossdOvercurrent : ∀ x0, Statement (.ossdOvercurrent x0) := fun _ => nofun
theorem stopDelayEnd : ∀ x0, Statement (.stopDelayEnd x0) := fun _ => nofun
theorem channelBDelayEnd : ∀ x0 x1, Statement (.channelBDelayEnd x0 x1) := fun _ _ => nofun
theorem crossExchange : ∀ x0 x1, Statement (.crossExchange x0 x1) := fun _ _ => nofun
theorem crossFrameTimeout : ∀ x0, Statement (.crossFrameTimeout x0) := fun _ => nofun
theorem edmTimeout : ∀ x0, Statement (.edmTimeout x0) := fun _ => nofun
theorem selfTest : ∀ x0 x1, Statement (.selfTest x0 x1) := fun _ _ => nofun
theorem safetySupplyFault : ∀ x0 x1, Statement (.safetySupplyFault x0 x1) := fun _ _ => nofun
theorem lockoutRecheck : ∀ x0 x1 x2 x3, Statement (.lockoutRecheck x0 x1 x2 x3) := fun _ _ _ _ => nofun
theorem srstPulse : ∀ x0 x1 x2, Statement (.srstPulse x0 x1 x2) := fun _ _ _ => nofun
theorem skeyActive : ∀ x0 x1, Statement (.skeyActive x0 x1) := fun _ _ => nofun
theorem skeyRelease : ∀ x0 x1, Statement (.skeyRelease x0 x1) := fun _ _ => nofun
theorem mirrorFrame : ∀ x0, Statement (.mirrorFrame x0) := fun _ => nofun
theorem safeChannelAbsent : ∀ x0, Statement (.safeChannelAbsent x0) := fun _ => nofun
theorem safeStatus : ∀ x0, Statement (.safeStatus x0) := fun _ => fun _ => rfl
theorem safeParamWrite : ∀ x0, Statement (.safeParamWrite x0) := fun _ => fun _ => rfl
theorem safeParamCheck : ∀ x0, Statement (.safeParamCheck x0) := fun _ => fun _ => rfl
theorem safeParamRead : ∀ x0, Statement (.safeParamRead x0) := fun _ => fun _ => rfl
theorem safeConfirm : ∀ x0, Statement (.safeConfirm x0) := fun _ => fun _ => rfl
theorem safeViewCfg : ∀ x0, Statement (.safeViewCfg x0) := fun _ => fun _ => rfl
theorem relayFrameStart : ∀ x0 x1, Statement (.relayFrameStart x0 x1) := fun _ _ => nofun
theorem relayFrame : ∀ x0 x1 x2, Statement (.relayFrame x0 x1 x2) := fun _ _ _ => nofun
theorem frameReturn : ∀ x0 x1 x2, Statement (.frameReturn x0 x1 x2) := fun _ _ _ => nofun
theorem relayLinkUp : ∀ x0, Statement (.relayLinkUp x0) := fun _ => nofun
theorem portLockLost : ∀ x0 x1 x2, Statement (.portLockLost x0 x1 x2) := fun _ _ _ => nofun
theorem ringClose : Statement (.ringClose) := nofun
theorem noframe : Statement (.noframe) := nofun
theorem relayHold : Statement (.relayHold) := nofun
theorem relayMapgo : Statement (.relayMapgo) := nofun
theorem relayCfg : ∀ x0, Statement (.relayCfg x0) := fun _ => fun _ => rfl
theorem relayMap : ∀ x0, Statement (.relayMap x0) := fun _ => fun _ => rfl
theorem relayBind : ∀ x0, Statement (.relayBind x0) := fun _ => fun _ => rfl
theorem relayStation : ∀ x0, Statement (.relayStation x0) := fun _ => fun _ => rfl
theorem relayStatus : ∀ x0, Statement (.relayStatus x0) := fun _ => fun _ => rfl
theorem canFrameReceived : ∀ x0 x1, Statement (.canFrameReceived x0 x1) := fun _ _ => nofun
theorem canTxStart : ∀ x0, Statement (.canTxStart x0) := fun _ => nofun
theorem canTxEnd : ∀ x0 x1, Statement (.canTxEnd x0 x1) := fun _ _ => nofun
theorem canRxTimeout : ∀ x0 x1, Statement (.canRxTimeout x0 x1) := fun _ _ => nofun
theorem ttCell : ∀ x0, Statement (.ttCell x0) := fun _ => nofun
theorem canTtMiss : ∀ x0, Statement (.canTtMiss x0) := fun _ => nofun
theorem canBusOff : ∀ x0, Statement (.canBusOff x0) := fun _ => nofun
theorem canRecovered : ∀ x0, Statement (.canRecovered x0) := fun _ => nofun
theorem canModeChange : ∀ x0, Statement (.canModeChange x0) := fun _ => nofun
theorem canTxctlGo : ∀ x0, Statement (.canTxctlGo x0) := fun _ => nofun
theorem canTxctlCancel : ∀ x0, Statement (.canTxctlCancel x0) := fun _ => nofun
theorem canTxctlRecover : ∀ x0, Statement (.canTxctlRecover x0) := fun _ => nofun
theorem canCfg : ∀ x0, Statement (.canCfg x0) := fun _ => fun _ => rfl
theorem canObjCfg : ∀ x0, Statement (.canObjCfg x0) := fun _ => fun _ => rfl
theorem canTtCfg : ∀ x0, Statement (.canTtCfg x0) := fun _ => fun _ => rfl
theorem canMode : ∀ x0, Statement (.canMode x0) := fun _ => fun _ => rfl
theorem canSend : ∀ x0, Statement (.canSend x0) := fun _ => fun _ => rfl
theorem canCancelObj : ∀ x0, Statement (.canCancelObj x0) := fun _ => fun _ => rfl
theorem canRecover : ∀ x0, Statement (.canRecover x0) := fun _ => fun _ => rfl
theorem canBind : ∀ x0, Statement (.canBind x0) := fun _ => fun _ => rfl
theorem canStation : ∀ x0, Statement (.canStation x0) := fun _ => fun _ => rfl
theorem canStatus : ∀ x0, Statement (.canStatus x0) := fun _ => fun _ => rfl
theorem canRead : ∀ x0, Statement (.canRead x0) := fun _ => fun _ => rfl
theorem ethLink : ∀ x0 x1 x2 x3 x4, Statement (.ethLink x0 x1 x2 x3 x4) := fun _ _ _ _ _ => nofun
theorem ethFrameReceived : ∀ x0 x1, Statement (.ethFrameReceived x0 x1) := fun _ _ => nofun
theorem lldpReceived : ∀ x0 x1 x2, Statement (.lldpReceived x0 x1 x2) := fun _ _ _ => nofun
theorem lldpSend : Statement (.lldpSend) := nofun
theorem lysrixTimeout : ∀ x0, Statement (.lysrixTimeout x0) := fun _ => nofun
theorem lpiEntry : ∀ x0, Statement (.lpiEntry x0) := fun _ => nofun
theorem strideTrigger : ∀ x0 x1 x2, Statement (.strideTrigger x0 x1 x2) := fun _ _ _ => nofun
theorem strideReq : ∀ x0 x1 x2 x3, Statement (.strideReq x0 x1 x2 x3) := fun _ _ _ _ => nofun
theorem strideAck : ∀ x0 x1, Statement (.strideAck x0 x1) := fun _ _ => nofun
theorem strideNak : ∀ x0 x1, Statement (.strideNak x0 x1) := fun _ _ => nofun
theorem strideMark : ∀ x0, Statement (.strideMark x0) := fun _ => nofun
theorem strideAnswerTimeout : ∀ x0, Statement (.strideAnswerTimeout x0) := fun _ => nofun
theorem strideLock : ∀ x0, Statement (.strideLock x0) := fun _ => nofun
theorem ethStrideFail : ∀ x0, Statement (.ethStrideFail x0) := fun _ => nofun
theorem txDropTimeout : ∀ x0 x1, Statement (.txDropTimeout x0 x1) := fun _ _ => nofun
theorem ethFlthiWrite : ∀ x0 x1 x2, Statement (.ethFlthiWrite x0 x1 x2) := fun _ _ _ => nofun
theorem ethPortCfg : ∀ x0, Statement (.ethPortCfg x0) := fun _ => fun _ => rfl
theorem ethFilterSet : ∀ x0, Statement (.ethFilterSet x0) := fun _ => fun _ => rfl
theorem ethIpCfg : ∀ x0, Statement (.ethIpCfg x0) := fun _ => fun _ => rfl
theorem ethNetCfg : ∀ x0, Statement (.ethNetCfg x0) := fun _ => fun _ => rfl
theorem ethStatus : ∀ x0, Statement (.ethStatus x0) := fun _ => fun _ => rfl
theorem configApply : Statement (.configApply) := nofun
theorem furunHello : ∀ x0, Statement (.furunHello x0) := fun _ => nofun
theorem heartbeatSend : Statement (.heartbeatSend) := nofun
theorem heartbeat : ∀ x0, Statement (.heartbeat x0) := fun _ => nofun
theorem contactLost : ∀ x0, Statement (.contactLost x0) := fun _ => nofun
theorem vote : ∀ x0, Statement (.vote x0) := fun _ => nofun
theorem anchor : ∀ x0, Statement (.anchor x0) := fun _ => nofun
theorem voteTimeout : ∀ x0, Statement (.voteTimeout x0) := fun _ => nofun
theorem islandRevote : ∀ x0, Statement (.islandRevote x0) := fun _ => nofun
theorem handover : ∀ x0, Statement (.handover x0) := fun _ => nofun
theorem handoverTimeout : ∀ x0, Statement (.handoverTimeout x0) := fun _ => nofun
theorem splitView : ∀ x0 x1, Statement (.splitView x0 x1) := fun _ _ => nofun
theorem viewAgreed : ∀ x0, Statement (.viewAgreed x0) := fun _ => nofun
theorem islandEntry : Statement (.islandEntry) := nofun
theorem islandExit : Statement (.islandExit) := nofun
theorem replicaSend : Statement (.replicaSend) := nofun
theorem replica : ∀ x0, Statement (.replica x0) := fun _ => nofun
theorem withdraw : ∀ x0, Statement (.withdraw x0) := fun _ => nofun
theorem mirrorPublish : Statement (.mirrorPublish) := nofun
theorem mirror : ∀ x0, Statement (.mirror x0) := fun _ => nofun
theorem reasmTimeout : ∀ x0, Statement (.reasmTimeout x0) := fun _ => nofun
theorem furunCfg : ∀ x0, Statement (.furunCfg x0) := fun _ => fun _ => rfl
theorem furunGroupCfg : ∀ x0, Statement (.furunGroupCfg x0) := fun _ => fun _ => rfl
theorem furunEndpointSet : ∀ x0, Statement (.furunEndpointSet x0) := fun _ => fun _ => rfl
theorem furunHandover : ∀ x0, Statement (.furunHandover x0) := fun _ => fun _ => rfl
theorem furunMembers : ∀ x0, Statement (.furunMembers x0) := fun _ => fun _ => rfl
theorem furunReplCfg : ∀ x0, Statement (.furunReplCfg x0) := fun _ => fun _ => rfl
theorem furunReplicaRead : ∀ x0, Statement (.furunReplicaRead x0) := fun _ => fun _ => rfl
theorem furunPubCfg : ∀ x0, Statement (.furunPubCfg x0) := fun _ => fun _ => rfl
theorem ptpSync : ∀ x0 x1, Statement (.ptpSync x0 x1) := fun _ _ => nofun
theorem syncHoldover : Statement (.syncHoldover) := nofun
theorem servoHoldEnd : ∀ x0, Statement (.servoHoldEnd x0) := fun _ => nofun
theorem rtcSecond : Statement (.rtcSecond) := nofun
theorem rtcCommit : ∀ x0, Statement (.rtcCommit x0) := fun _ => nofun
theorem alarmCommit : ∀ x0 x1, Statement (.alarmCommit x0 x1) := fun _ _ => nofun
theorem vbakChangeover : ∀ x0 x1, Statement (.vbakChangeover x0 x1) := fun _ _ => nofun
theorem zoneChange : Statement (.zoneChange) := nofun
theorem scheduleMinute : Statement (.scheduleMinute) := nofun
theorem rtcSet : ∀ x0, Statement (.rtcSet x0) := fun _ => fun _ => rfl
theorem rtcRead : ∀ x0, Statement (.rtcRead x0) := fun _ => fun _ => rfl
theorem rtcAlarmSet : ∀ x0, Statement (.rtcAlarmSet x0) := fun _ => fun _ => rfl
theorem rtcLeapSet : ∀ x0, Statement (.rtcLeapSet x0) := fun _ => fun _ => rfl
theorem rtcZoneSet : ∀ x0, Statement (.rtcZoneSet x0) := fun _ => fun _ => rfl
theorem rtcPtpCfg : ∀ x0, Statement (.rtcPtpCfg x0) := fun _ => fun _ => rfl
theorem tamper : ∀ x0 x1 x2, Statement (.tamper x0 x1 x2) := fun _ _ _ => nofun
theorem keysStatus : ∀ x0, Statement (.keysStatus x0) := fun _ => fun _ => rfl
theorem keysCsr : ∀ x0, Statement (.keysCsr x0) := fun _ => fun _ => rfl
theorem keysCertSet : ∀ x0, Statement (.keysCertSet x0) := fun _ => fun _ => rfl
theorem keysTrustSet : ∀ x0, Statement (.keysTrustSet x0) := fun _ => fun _ => rfl
theorem keysRevoke : ∀ x0, Statement (.keysRevoke x0) := fun _ => fun _ => rfl
theorem keysImport : ∀ x0, Statement (.keysImport x0) := fun _ => fun _ => rfl
theorem keysErase : ∀ x0, Statement (.keysErase x0) := fun _ => fun _ => rfl
theorem keysAttest : ∀ x0, Statement (.keysAttest x0) := fun _ => fun _ => rfl
theorem keysTamperArm : ∀ x0, Statement (.keysTamperArm x0) := fun _ => fun _ => rfl
theorem keysTamperClear : ∀ x0, Statement (.keysTamperClear x0) := fun _ => fun _ => rfl
theorem keysDerive : ∀ x0, Statement (.keysDerive x0) := fun _ => fun _ => rfl
theorem keysExport : ∀ x0, Statement (.keysExport x0) := fun _ => fun _ => rfl
theorem keysKeyImport : ∀ x0, Statement (.keysKeyImport x0) := fun _ => fun _ => rfl
theorem keysFree : ∀ x0, Statement (.keysFree x0) := fun _ => fun _ => rfl
theorem keysLifecycle : ∀ x0, Statement (.keysLifecycle x0) := fun _ => fun _ => rfl
theorem updBegin : ∀ x0, Statement (.updBegin x0) := fun _ => fun _ => rfl
theorem updPut : ∀ x0, Statement (.updPut x0) := fun _ => fun _ => rfl
theorem updStatus : ∀ x0, Statement (.updStatus x0) := fun _ => fun _ => rfl
theorem updAbandon : ∀ x0, Statement (.updAbandon x0) := fun _ => fun _ => rfl
theorem updActivate : ∀ x0, Statement (.updActivate x0) := fun _ => fun _ => rfl
theorem updConfirm : ∀ x0, Statement (.updConfirm x0) := fun _ => fun _ => rfl
theorem updRevert : ∀ x0, Statement (.updRevert x0) := fun _ => fun _ => rfl
theorem updFetch : ∀ x0, Statement (.updFetch x0) := fun _ => fun _ => rfl
theorem updCfgSet : ∀ x0, Statement (.updCfgSet x0) := fun _ => fun _ => rfl
theorem partCopyDone : Statement (.partCopyDone) := nofun
theorem want : ∀ x0, Statement (.want x0) := fun _ => nofun
theorem piece : ∀ x0, Statement (.piece x0) := fun _ => nofun
theorem noneMsg : ∀ x0, Statement (.noneMsg x0) := fun _ => nofun
theorem fetchRetry : Statement (.fetchRetry) := nofun
theorem fetchTimeout : Statement (.fetchTimeout) := nofun
theorem trialHealthy : Statement (.trialHealthy) := nofun
theorem healthTimeout : Statement (.healthTimeout) := nofun
theorem safetyFwTransfer : Statement (.safetyFwTransfer) := nofun
theorem eventIngest : ∀ x0, Statement (.eventIngest x0) := fun _ => nofun
theorem eventStore : Statement (.eventStore) := nofun
theorem evrTrigctlRel : Statement (.evrTrigctlRel) := nofun
theorem evrWctlAdv : ∀ x0, Statement (.evrWctlAdv x0) := fun _ => nofun
theorem evrOpen : ∀ x0, Statement (.evrOpen x0) := fun _ => fun _ => rfl
theorem evrClose : ∀ x0, Statement (.evrClose x0) := fun _ => fun _ => rfl
theorem evrRead : ∀ x0, Statement (.evrRead x0) := fun _ => fun _ => rfl
theorem evrAck : ∀ x0, Statement (.evrAck x0) := fun _ => fun _ => rfl
theorem evrCfg : ∀ x0, Statement (.evrCfg x0) := fun _ => fun _ => rfl
theorem evrTrigRelease : ∀ x0, Statement (.evrTrigRelease x0) := fun _ => fun _ => rfl
theorem dmaGo : ∀ x0, Statement (.dmaGo x0) := fun _ => nofun
theorem dmaTrigger : ∀ x0, Statement (.dmaTrigger x0) := fun _ => nofun
theorem dmaActivate : Statement (.dmaActivate) := nofun
theorem descriptorDone : ∀ x0, Statement (.descriptorDone x0) := fun _ => nofun
theorem dmaBusError : ∀ x0 x1 x2 x3 x4, Statement (.dmaBusError x0 x1 x2 x3 x4) := fun _ _ _ _ _ => nofun
theorem dmaAbort : ∀ x0 x1 x2, Statement (.dmaAbort x0 x1 x2) := fun _ _ _ => nofun
theorem dmaChctlRecover : ∀ x0, Statement (.dmaChctlRecover x0) := fun _ => nofun
theorem dmaStatus : ∀ x0, Statement (.dmaStatus x0) := fun _ => fun _ => rfl
theorem dmaRecover : ∀ x0, Statement (.dmaRecover x0) := fun _ => fun _ => rfl
theorem uioConversion : ∀ x0 x1, Statement (.uioConversion x0 x1) := fun _ _ => nofun
theorem uioPulseEdge : ∀ x0, Statement (.uioPulseEdge x0) := fun _ => nofun
theorem nofld : ∀ x0, Statement (.nofld x0) := fun _ => nofun
theorem doSwitchOff : ∀ x0, Statement (.doSwitchOff x0) := fun _ => nofun
theorem doRetry : ∀ x0, Statement (.doRetry x0) := fun _ => nofun
theorem uioCfg : ∀ x0, Statement (.uioCfg x0) := fun _ => fun _ => rfl
theorem uioAssign : ∀ x0, Statement (.uioAssign x0) := fun _ => fun _ => rfl
theorem uioStatus : ∀ x0, Statement (.uioStatus x0) := fun _ => fun _ => rfl
theorem undefinedOpcode : ∀ x0 x1, Statement (.undefinedOpcode x0 x1) := fun _ _ => nofun
theorem probeReply : ∀ x0, Statement (.probeReply x0) := fun _ => nofun
theorem ptpAnnounce : ∀ x0 x1, Statement (.ptpAnnounce x0 x1) := fun _ _ => nofun
theorem canBusError : ∀ x0 x1, Statement (.canBusError x0 x1) := fun _ _ => nofun
theorem overload : ∀ x0, Statement (.overload x0) := fun _ => nofun

end Sys2Proof.Laws.Requests
end

