-- ==== Sys2Proof/Tests/Slice0.lean ====
section
/-! SUPPORT. Tests/Slice0.lean: results that the spec's worked examples give, ill-formed commands that `wellFormed` refuses, and for
each clause of a statement with hypotheses a state and operands that meet all of them together. -/

namespace Sys2Proof.Tests

section
open Sys2Proof Sys2Proof.Machine
set_option linter.unusedVariables false
set_option Elab.async false

/-- The request that stands where no request was admitted. -/
def rq0 : Req := ⟨0, 0, 0, 0, 0, 0, 0, []⟩
def q0 : Q := ⟨rq0, 0, 0, 0, none, 0, []⟩

/-- A request of item 7 on session 0, version 3.1, with TLVs. -/
def rq (ts : List Bytes) : Req := ⟨0, 0x31, 0, 0, 1, 7, BitVec.ofNat 16 ts.flatten.length, ts.flatten⟩

theorem admit_ok {c : Instr} {s : State} (h : (admitted? c s).isSome = true) : admitted? c s = some ((admitted? c s).getD q0) := by
  cases k : admitted? c s with
  | none => rw [k] at h; cases h
  | some q => rfl

theorem asked_ok {d : OpDef} {r : Req} {s : State} (h : (asked d r s).isSome = true) : asked d r s = some ((asked d r s).getD q0) := by
  cases k : asked d r s with
  | none => rw [k] at h; cases h
  | some q => rfl

theorem passes_ok {d : OpDef} {relay : State → Q → Option State} {r : Req} {s : State} {x : Session} {ts : List Tlv}
    (h : (passes d relay r s).isSome = true) (hx : s.session? r.sess.val = some x) (hf : framing r = .ok ts)
    (hv : x.version = some r.version.toNat) :
    passes d relay r s = some ⟨r, x.tag, x.owner, r.version.toNat, some r.sess.val, x.port, ts⟩ := by
  obtain ⟨q, hq⟩ := Option.isSome_iff_exists.mp h
  obtain ⟨y, us, h1, h2, h3, _⟩ := passes_cases hq
  rw [hx] at h1; rw [hf] at h2
  cases h1; cases h2
  rw [hq, h3, hv]; rfl

/-- A request is admitted if it is without the checks of its opcode that its block makes last, and these pass. -/
theorem noPre_ok {c : Instr} {d : OpDef} {relay : State → Q → Option State} {r : Req} {s : State} (hb : batonOf c = some (d, relay, r))
    (hp : ∀ q, d.pre (s.heard r) q = none) (h : (s.blkOn d.blk && (passes { d with pre := okChk } relay r s).isSome) = true) :
    (admitted? c s).isSome = true := by
  rw [Bool.and_eq_true] at h
  have e : passes d relay r s = passes { d with pre := okChk } relay r s := by
    have a : asked { d with pre := okChk } r s = asked d r s := rfl
    have l : ∀ q, ({ d with pre := okChk } : OpDef).later (s.heard r) q = d.later (s.heard r) q := by
      intro q; simp only [OpDef.later, hp q, okChk]
    unfold passes
    rw [a]
    cases asked d r s with
    | none => rfl
    | some q => simp only [l q]
  unfold admitted?
  rw [hb]; simp only [h.1, if_true, e]; exact h.2

/-- No binding names any element, and nothing is forced. -/
def nothingBound (s : State) : Bool :=
  ((List.range 256).all fun n => (s.loopSt n).binds.isEmpty) && s.relay.binds.isEmpty && ((List.range 4).all fun c => (s.canCh c).sigs.isEmpty) &&
    s.estate.forces.isEmpty

theorem nothingBound_chk {s : State} {r : Req} (h : nothingBound s = true) (q : Q) :
    outsFree (s.heard r) q = none ∧ conflictChk (s.heard r) q = none := by
  simp only [nothingBound, Bool.and_eq_true, List.all_eq_true, List.isEmpty_iff] at h
  obtain ⟨⟨⟨h1, h2⟩, h3⟩, h4⟩ := h
  have a : ∀ o e, (s.heard r).loopDestTaken none o e = false := by
    intro o e
    show s.loopDestTaken none o e = false
    simp only [State.loopDestTaken, List.any_eq_false]
    intro n hn; simp [h1 n hn]
  have b : ∀ o e, (s.heard r).linkTaken o e = false := by
    intro o e
    show s.linkTaken o e = false
    simp only [State.linkTaken, h2, List.any_nil, Bool.false_or, List.any_eq_false]
    intro n hn; simp [h3 n hn]
  constructor
  · simp [outsFree, a, b]
  · have : (s.heard r).estate.forces = [] := h4
    simp [conflictChk, State.conflicts, this]

theorem revert_ok {r : Req} {s : State} (hn : nothingBound s = true) (ho : s.ocState = ocIdle)
    (h : (s.blkOn 3 && (passes { opProgRevert with pre := okChk } notRelayed r s).isSome) = true) :
    admitted? (.progRevert r) s = some ((admitted? (.progRevert r) s).getD q0) :=
  admit_ok (noPre_ok rfl (fun q => by
    have ⟨a, b⟩ := nothingBound_chk (r := r) hn q
    have ho' : (s.heard r).ocState = ocIdle := ho
    simp [opProgRevert, allChk, a, b, ho']) h)

theorem switch_ok {r : Req} {s : State} (hn : nothingBound s = true) (ho : s.ocState = ocPrepared)
    (h : (s.blkOn 3 && (passes { opProgSwitch with pre := okChk } notRelayed r s).isSome) = true) :
    admitted? (.progSwitch r) s = some ((admitted? (.progSwitch r) s).getD q0) :=
  admit_ok (noPre_ok rfl (fun q => by
    have ⟨a, b⟩ := nothingBound_chk (r := r) hn q
    have ho' : (s.heard r).ocState = ocPrepared := ho
    simp [opProgSwitch, allChk, a, b, ho']) h)

theorem prepare_ok {r : Req} {s : State} (hn : nothingBound s = true) (ho : s.ocState = ocLoaded)
    (h : (s.blkOn 3 && (passes { opProgPrepare with pre := okChk } notRelayed r s).isSome) = true) :
    admitted? (.progPrepare r) s = some ((admitted? (.progPrepare r) s).getD q0) :=
  admit_ok (noPre_ok rfl (fun q => by
    have ⟨a, b⟩ := nothingBound_chk (r := r) hn q
    have ho' : (s.heard r).ocState = ocLoaded := ho
    have hs : notSwitching (s.heard r) q = none := by simp [notSwitching, ho', ocSwitching, ocLoaded]
    simp [opProgPrepare, allChk, a, hs, ho']) h)
/-- Session 0 of the operator, with identity 1, on version 3.1. -/
def sess0 : Session := ⟨0, 0, 1, [9], 0, some 0x31, 0, [], 0⟩

/-- The module running, every domain on, in PACE, with energy in hand and one operator session. -/
def up : State :=
  let s := ((State.reset.put F.SYS_PD_STAT_ON 0x7FF).put F.LEDGER_MODE_CUR modePace).put F.LEDGER_BANK_MJ 9000
  { s with
    start := { s.start with phase := .running }
    ledger := { s.ledger with headroom := 50000 }
    baton := { s.baton with sessions := [sess0] } }

/-- The same in BLOCKS. -/
def blocks : State := up.put F.LEDGER_MODE_CUR modeBlocks

/-- Registers of a state set. -/
def sets (s : State) (l : List (Fld × Nat)) : State := l.foldl (fun s p => s.put p.1 p.2) s

/-! A second top-level module, linked, and the anchor of the federation; a message from it in one piece. -/

def peerA : W64 := 0x0800000000000000
def linkA : FLink := ⟨peerA, 5, 100, [], some 0, 0, true, 2, 0, 0, 0, [], [], [], false, false, 0, (3, 5)⟩
def fed : FGroup := ⟨0, 6, 1, some 2, none, none, false⟩
def linked : State := { up with furun := { up.furun with groups := [fed], links := [linkA] } }
def msg (b : Bytes) : FPiece := ⟨peerA, 1, 5, 2, 0, BitVec.ofNat 16 b.length, 0, peerA, 0x0400000000000000, b⟩
/-- The first piece of two. -/
def half (b : Bytes) : FPiece := { msg b with flags := 1 }

/-! A manifest that lists part 1 of 1,500 bytes, and its staging. -/

def man1 : Bytes := [2, 1, 0x09, 0x60, 0, 0, 0, 0] ++ List.replicate 16 0 ++
  ([1, 0, 0, 0] ++ natBE 4 1500 ++ List.replicate 4 0 ++ natBE 32 7 ++ List.replicate 4 0) ++ List.replicate 128 0
def partsOf (p : FwPart) : List FwPart := p :: List.replicate 7 ⟨0, 0, [], false⟩
def staging (s : State) (p : FwPart) : State :=
  let s := s.put F.UPD_STAT_STATE 1
  { s with upd := { s.upd with
    staging := true
    setB := ⟨man1, partsOf p, false⟩ } }
def job : FetchJob := ⟨1, 7, peerA, 0, none, [(1, 0, 0), (1, 1, 5)], 0⟩
def withJob (s : State) : State := { s with upd := { s.upd with fetch := some job } }
def withObj (s : State) (o : Obj) : State := { s with estate := { s.estate with objs := s.estate.objs ++ [o] } }
def setFu (s : State) (f : FurunSt → FurunSt) : State := { s with furun := f s.furun }
/-- The module anchors the federation. -/
def anch : State := setFu linked fun x => { x with groups := [⟨0, 6, 1, some 1, none, none, true⟩] }
def linkOpen : State := { linked with keys := { linked.keys with linkSlots := [⟨peerA, 0, []⟩] } }
/-- The link once record 1 has been accepted. -/
def linkB : FLink := { linkA with seen := [1] }
theorem piece_ok {s : State} {p : FPiece} {n : Nat} {o : Option Bytes} (h : (s.furunPiece n p).2 = o) :
    s.furunPiece n p = ((s.furunPiece n p).1, o) := Prod.ext rfl h

theorem step_idle (s : State) (h : s.pending = []) : step s = .next { s with clk := s.clk + 1 } := by
  simp [step, h]

/-- Domain 4 off. -/
def offSet : State := up.put F.SYS_PD_STAT_ON 0x7EF

/-- A capture of group 0 of block 9 waits. -/
def snapOn : State := match exec (.snapshotRequest 9 0) up with
  | .next t => t
  | _ => up
/-- A capture of SAFE waits. -/
def snapSafe : State := match exec (.sysSafeSnapCtl 0) up with
  | .next t => t
  | _ => up

/-- Conditions in INT_STAT of SAFE and of block 9. -/
def intsUp : State := (up.wr 0x480004 0xFF).wr 0x380004 0xFF

/-- State with a change in SYS. -/
def setSys (s : State) (f : SysSt → SysSt) : State := { s with sys := f s.sys }
/-- Gates of PD_PACER and PD_RTC requested. -/
def gate2 : State := setSys up fun x => { x with gates := [2] }
/-- A node of a relay ring, locked. -/
def relayUp : State := sets up [(F.RELAY_CFG_ROLE, 1), (F.RELAY_STAT_LINK0, 1)]
def gate9 : State := setSys up fun x => { x with gates := [9] }

/-- Object 5 assigned to UIO channel 0. -/
def boundUp : State :=
  let s := withObj up (newObj 5 tyAI 0 6)
  s.setUio 0 fun c => { c with obj := 5 }

def itm (w : WaitKind) (p : Bool) : Item := ⟨1, 7, 0, 0x0105, 0, 0, p, w, 0, 0, [], false⟩
def withItem (s : State) (i : Item) : State := { s with baton := { s.baton with items := [i] } }
/-- Item 7 of the operator in flight. -/
def flying : State := withItem up (itm .write false)
/-- Item 7 of the operator ended. -/
def cachedUp : State := { up with baton := { up.baton with cache := [⟨1, 7, 0, 0x0105, 0⟩] } }
def sess1 : Session := { sess0 with tag := 5 }

/-- The session has not negotiated yet. -/
def sessNew : State := { up with baton := { up.baton with sessions := [{ sess0 with version := none }] } }

/-- Port 1 enabled. -/
def enUp : State := up.put (F.ETH_PCFG_EN 1) 1
def trusted : State := { enUp with keys := { up.keys with trust := [none, some [5], none, none] } }

def obAI : State := withObj up (newObj 5 tyAI 0 6)
def obBig : State := withObj up (newObj 6 tyMSV 0 100)
def manyObs : State := { up with estate := { up.estate with objs := (List.range 173).map fun k => newObj (k + 1) tyMSV 0 2 } }
/-- The session has negotiated version 2.0. -/
def oldVer (s : State) : State := { s with baton := { s.baton with sessions := [{ sess0 with version := some 0x20 }] } }
def srv (s : State) (a : W64) : Bytes × List EView := (s.served a).getD ([], [])
def obHd : Bytes := (srv obAI 0x0400000000000500).1
def obVs : List EView := (srv obAI 0x0400000000000500).2
def obV : EView := obVs.headD ⟨0, 0, 0, 0, 0⟩
def obHb : Bytes := (srv obBig 0x0400000000000600).1
def obVb : List EView := (srv obBig 0x0400000000000600).2
def curs (n : Nat) : Cursor := ⟨9, 0x0101, [[1], [2]], n, 0⟩
def withCur (n : Nat) : State := { up with baton := { up.baton with sessions := [{ sess0 with cursors := [curs n] }] } }

def setLocks (s : State) (l : List Lock) : State := { s with baton := { s.baton with locks := l } }
def eFresh : Elem := ⟨1, 3, 0, qGood, 10, none, none, false⟩
def obFresh : State := withObj up { newObj 6 tyMSV 0 3 with elems := [eFresh, eFresh] }
def aoUp : State :=
  let s := withObj (up.put (F.UIO_CFG_MODE 0) 7) (newObj 5 tyAO 0 4)
  s.setUio 0 fun c => { c with obj := 5 }
def loopUp : State := { withObj up (newObj 9 tyLoop 0 10) with engine := { up.engine with loops := setNth up.engine.loops 0 { LoopSt.init with obj := 9 } } }
def replUp : State := { obBig with furun := { linked.furun with marks := [6] } }

/-- The worked example of 4.5.5. -/
def drill70 : Bytes := [1, 1, 10, 0] ++ ([0x04800001, 0x18910001, 0x44110009, 0x05000000, 0x15210180, 0x4C210409, 0x0980000C, 0x30300018,
  0x7C000001, 0x7C000000].map (natBE 4)).flatten
/-- It is in the library. -/
def drilled : State := { up with drill := { up.drill with lib := [(70, drill70)] } }
/-- It is bound to CAN channel 1. -/
def bound1 : State := sets drilled [(F.DRILL_BIND_EN 1, 1), (F.DRILL_BIND_NUM 1, 70)]

def dTrig : DrillTrig := ⟨[(0, 1)], .dma 3⟩
/-- A relay drill that changes nothing: PASS. -/
def drill3 : Bytes := [1, 3, 1, 0] ++ natBE 4 0x7C000000
/-- A relay drill that writes entry 2 from field 0 and ends with COMMIT. -/
def drill4 : Bytes := [1, 3, 3, 0] ++ ([0x04000000, 0x30000012, 0x7C000001].map (natBE 4)).flatten
def queuedAt (s : State) (h : Nat) (x : DrillTrig) : State :=
  { s with drill := { s.drill with insts := s.drill.insts.mapIdx fun k i => if k = h then { i with queue := [x] } else i } }
def rQueueOf (img : Bytes) : State :=
  let s := sets up [(F.DRILL_BIND_EN 36, 1), (F.DRILL_BIND_NUM 36, 71)]
  queuedAt { s with drill := { s.drill with lib := [(71, img)] } } 36 ⟨[(0, 1)], .relay⟩
def rQueue : State := rQueueOf drill3
def dFlds : List (Nat × W32) := [(0, 0x999), (1, 0)]
def dFr : CanFrame := ⟨false, false, false, false, false, 0x999, 0, []⟩
/-- A frame that the drill of 4.5.5 rejects waits. -/
def cQueue : State := queuedAt bound1 1 ⟨dFlds, .can 1 dFr⟩
/-- A trigger of DMA channel 3 waits; nothing is bound there. -/
def dQueue : State := { up with drill := { up.drill with insts := up.drill.insts.mapIdx fun k x => if k = 7 then { x with queue := [dTrig] } else x } }

/-- One item in flight for the tick. -/
def inTick (a : Nat) (w : WaitKind) (d : Bytes) : State :=
  { up with baton := { up.baton with items := [⟨1, 7, 0, 0x0201, 0, 0, true, w, a, 0, d, false⟩] } }

def setStart (s : State) (f : StartSt → StartSt) : State := { s with start := f s.start }
def setHold (s : State) (f : HoldSt → HoldSt) : State := { s with ledger := { s.ledger with hold := f s.ledger.hold } }
def phased (p : Phase) : State := setStart up fun x => { x with phase := p }
/-- In HOLDUP, before step n + 1. -/
def heldAt (n : Nat) : State := setHold (setStart (up.put F.LEDGER_MODE_CUR modeHoldup) fun x => { x with phase := .holdup }) fun x => { x with step := n }
def held : State := heldAt 1

/-- An active descriptor, a lap and a relay output write in HOLDUP. -/
def holding (x : HoldItem) (s : State) : State := setHold s fun h => { h with items := [x] }
def dHeld : State :=
  let s := held.put (F.DMA_CHSTAT_STATE 3) dActive
  holding ⟨.dma 3, 500, 9, false⟩ { s with dma := s.dma.mapIdx fun k x => if k = 3 then { x with desc := some ⟨0, 0, 0, 0, 0⟩ } else x }
def lHeld : State := holding ⟨.lap 2, 500, 9, false⟩ { held with lap := { held.lap with tasks := held.lap.tasks.mapIdx fun k x => if k = 2 then { x with phase := .running } else x } }
def rwA : RWrite := ⟨1, 5, 1, 0, 5, [0], 0, none⟩
def rHeld : State := holding ⟨.link 4 5, 500, 9, false⟩ { held with relay := { held.relay with writes := [rwA] } }

def bootable : State := phased .poweredOn
/-- A trial set that has had its starts. -/
def spentUp : State :=
  let s := phased .booted
  { s.put F.UPD_STAT_SET 1 with upd := { s.upd with recs := (some ⟨1, true, 200, 1, 0, 0, 0, 0⟩, none) } }
/-- Set B holds what set A holds. -/
def bootableB : State := { bootable with upd := { bootable.upd with setB := bootable.upd.setA } }

def resting : State := setHold (setStart up fun x => { x with phase := .restarting, restartKind := some 3 }) fun x => { x with step := 8 }
/-- Just reset as FATAL, with every other cause at the same instant. -/
def coined : State := setStart ((phased .poweredOn).put F.SYS_PD_STAT_ON 1 |>.put F.SYS_RST_STAT_KIND 6) fun x => { x with coin := ⟨some 0, true, some 3⟩ }
def residing : State := setStart (up.put F.SYS_RST_STAT_PUBLISHED 1) fun x => { x with residue := some ⟨3, 0, 0, 1, 0, [⟨0, 0, 1, 1, 7, 0x0105⟩]⟩ }

def setLap (s : State) (f : LapSt → LapSt) : State := { s with lap := f s.lap }
/-- Task 0 configured and started, between laps. -/
def configured : State := sets up [(F.LAP_TCFG_CORE 0, 1), (F.LAP_TCFG_OVR_LIMIT 0, 3), (F.LAP_TCFG_EN 0, 1)]
def waitTask : State := configured.put (F.LAP_TSTAT_STATE 0) tsWaiting
def lapTask (p : LapPhase) : LapTask := ⟨p, 1, 0, 0, 0, some 1000, false, [], [(6, 1, 4)], [], [], [], false, false, none, 1, 1, false⟩
def inPhase (p : LapPhase) : State := setLap (waitTask.put (F.LAP_TSTAT_STATE 0) tsRunning) fun x => { x with tasks := setNth x.tasks 0 (lapTask p) }
/-- Task 0 runs its program. -/
def runTask : State := inPhase .running

def slot2 (ps : List (Nat × Bytes)) (st : Nat) : State :=
  setLap (up.put F.LAP_STAT_OC_STATE st) fun x => { x with slots := setNth x.slots 1 ⟨4, ps⟩ }
def loading : State := slot2 [(0, [9, 9])] ocLoading
def loaded : State := slot2 [(0, [9, 9, 9, 9])] ocLoaded
def prepared : State := slot2 [(0, [9, 9, 9, 9])] ocPrepared
def slotFull : State := slot2 [(0, [9, 9, 9, 9])] ocIdle
def copying : State := setLap (slot2 [(0, [9, 9, 9, 9])] ocSwitching) fun x => { x with sw := some (0, false), copy := some 5 }

def forcedBig : State := { obBig with estate := { obBig.estate with forces := [⟨6, 2, 3, 5⟩] } }

def waitNext : State := setLap waitTask fun x => { x with tasks := setNth x.tasks 0 { lapTask .idle with next := some 7000 } }
def copyWait : State := setLap waitTask fun x => { x with copy := some 5, sw := some (0, false) }
/-- A task of higher index holds the core. -/
def taken : State := setLap ((inPhase .captured).put (F.LAP_TCFG_CORE 2) 1 |>.put (F.LAP_TSTAT_STATE 2) tsRunning) fun x => { x with tasks := setNth x.tasks 2 (lapTask .running) }
/-- The program of task 0 declares a variable and a chart. -/
def varTask : State := setLap runTask fun x => { x with
  decl := { x.decl with
    vars := [⟨3, 1, true, [0, 0]⟩]
    charts := [⟨4, [1, 2], [1], false⟩] }
  vars := [(3, [0, 0])]
  charts := [(4, [1])] }
def stopTask (c : Nat) : State := setLap varTask fun x => { x with tasks := x.tasks.map fun t => { t with stop := some c } }
/-- COMMIT_OFS has passed. -/
def lateTask : State := { varTask.put (F.LAP_TCFG_COMMIT 0) 1 with clk := 100 * msec }
def FC : FbCall := ⟨.ctu, 3, true, false, false, false, 5, 0, 100⟩

def loopObj : State := withObj up (newObj 7 tyLoop 0 10)
def loopSt0 (f : LoopSt → LoopSt) (s : State) : State := { s with engine := { s.engine with loops := setNth s.engine.loops 3 (f (s.loopSt 3)) } }
def loopBound : State := loopSt0 (fun x => { x with obj := 7, binds := [⟨0, 1, 5, 1, 0, 100⟩] }) (withObj loopObj (newObj 5 tyAI 0 6))
/-- Loop 3 in AUTO. -/
def loopOn : State := sets up [(F.LOOP_CTL_MODE 3, 2), (F.LOOP_STAT_EFF 3, 2), (F.LOOP_PER_PERIOD 3, 1000)]
def badBank (s : State) : State := s.wr (Reg.LOOP_BANK 3 (24 + 23)) 1

def dueAt (s : State) : State := loopSt0 (fun x => { x with due := some 5 }) s
/-- A frame has raised the trigger. -/
def raised (s : State) : State := { s with relay := { s.relay with trigger := true } }
def trigSeen (s : State) : State := { s with engine := { s.engine with trigSeen := true } }
def limBank (s : State) : State := (s.wr (Reg.LOOP_BANK 3 7) 0x03E80064)
def planning : State := loopSt0 (fun x => { x with pg := { x.pg with st := 3, p := 5000, planTgt := 900 } }) { up with engine := { up.engine with plans := [3] } }

def solve1 : PSolve := ⟨1, [], 0, false, [], [], [], [], false, 0, 0, 0⟩
/-- A problem without variables, and one whose initial state is infinite. -/
def prOk : PProb := ⟨[], [], 0, [], [], [], [], 0x3F800000, 0, 0, 0, [], [], []⟩
def prBad : PProb := { prOk with x0 := [0x7F800000] }
def planOf (pr : PProb) (g : Option W64) : PPlan :=
  ⟨1, 60, 0, 4, 15, 60, g, 0, false, true, some pr, false, some 50, 0, false, [solve1], [], false, false, [0, 1, 2], none⟩
def plan1 : PPlan := planOf prOk none
def planUp : State := { up with pacer := { up.pacer with cur := some plan1 } }
def planSolve (pr : PProb) (g : Option W64) : State :=
  let s := linked.put F.PACER_LANES_LANES 8
  { s with pacer := { s.pacer with cur := some (planOf pr g) } }
def engOut (pr : PProb) (n : Nat) : EngOut :=
  (((pr.engine (d64 pr.cw) fun _ _ => dNat 0).solve pr.warmZ pr.warmY n).toOption).getD ⟨0, false, 0, 0, [], [], []⟩

def setPacer (s : State) (f : PacerSt → PacerSt) : State := { s with pacer := f s.pacer }
def planG : PPlan := { plan1 with grp := some 0, epoch := 1 }
def probed : PPlan := { planG with closed := true, solves := [{ solve1 with done := true }] }
/-- A plan of the group that peerA anchors runs; the carriers are one. -/
def planLinked : State := { linked with pacer := { linked.pacer with cur := some planG, startAt := some 60 } }
def part2 : GPart := ⟨2, false, none, [], [], none, 0, 0, none⟩
def part3 : GPart := ⟨3, false, none, [], [], none, 0, 0, none⟩
/-- The module's own plan has closed; its anchor asks for the probes. -/
def soloDone (pl : PPlan) : State := { linked with pacer := { linked.pacer with cur := some pl } }
def solved : PSolve := { solve1 with done := true }
def probing (lanes : Nat) : State :=
  let s := (setPacer planLinked fun x => { x with
    cur := some probed
    finals := [⟨0, 0, 4, 15, [0], [0, 0, 0, 0], [0, 0, 0, 0], none⟩] })
  s.put F.PACER_LANES_LANES lanes
def coord1 : GPlan := ⟨0, 1, 1, 60, 0, 4, 15, 60, [0], [part2, part3], false, [0, 0, 0, 0], [0, 0, 0, 0], [0, 0, 0, 0], [0, 0, 0, 0], [0, 0, 0, 0], 3, 0, 2, 0, 0, false, 0, 0⟩
/-- A group below another is coordinated; its plan has closed. -/
def subGrp : W64 := 0x0410000000000000
def coordSub : GPlan := { coord1 with grp := subGrp, closed := true }
def subDone : State := { anch with pacer := { anch.pacer with coord := [coordSub] } }
def coord1c : GPlan := { coord1 with closed := true }
def coording : State := { anch with pacer := { anch.pacer with coord := [coord1] } }
def coordDone : State := { anch with pacer := { anch.pacer with coord := [coord1c] } }
def envUp : State := (anch.put F.PACER_CFG_STEPS 1).put F.PACER_CFG_STEP_MIN 15
def env0 : Bytes := [2, 0, 1, 0, 0, 1, 15, 0] ++ List.replicate 20 0 ++ natBE 8 peerA.toNat ++ List.replicate 4 0 ++ List.replicate 84 0
def envMsg : Bytes := (PHead.bytes ⟨6, [0], 1, 15, 0, 0, 60, 0, 1, 60, 2, 0⟩) ++ env0 ++ natBE 4 (crc32 env0)
def envBad : Bytes := (PHead.bytes ⟨6, [0], 1, 15, 0, 0, 60, 0, 1, 60, 2, 0⟩) ++ env0 ++ natBE 4 0
/-- The module, a level lower, anchors its group and stands for it in the group above, which peerA anchors. -/
def anchSub : State := setPacer (setFu { linked with estate := { linked.estate with addr := 0x0410000000000000 } } fun x =>
  { x with groups := [⟨0x0400000000000000, 2, 1, some 1, none, none, true⟩, ⟨0, 6, 1, some 2, none, none, false⟩] }) fun x => { x with startAt := some 60 }

def setPac (s : State) (f : PacerSt → PacerSt) : State := { s with pacer := f s.pacer }
def ser7 : State := setPac up fun x => { x with series := [⟨7, 0, 0, 15, [3]⟩] }
def sched1 : PSched := ⟨1, 60, 0, 4, 15, [], [], [], []⟩
def planValsUp : State := setPac (withObj up (newObj 6 tyZone 0 (modelCount tyZone))) fun x => { x with plan := some sched1 }
def envOwn : State := setPac anch fun x => { x with own := [⟨0, [1, 2, 3]⟩] }

def chUp (cfg : Nat) : MetChan := ⟨cfg, 0, 0, 0, 0, [], 0, []⟩
/-- The DSP has started, 8 cycles have passed, and its link holds. -/
def metUp : State := { up.put F.MET_STAT_LINK 1 with
    met := { up.met with on := true, cold := List.replicate 28 true, coldFrom := List.replicate 28 (0, 8), chans := List.replicate 28 (chUp 0) } }
/-- Channel 7 is a coil that has just started. -/
def coilUp : State := { metUp with met := { metUp.met with
    chans := setNth metUp.met.chans 7 (chUp (2 * 2 ^ 30 + 12 * 2 ^ 16)), coldFrom := setNth metUp.met.coldFrom 7 (5, 0) } }
/-- Circuit 0 has three phases, and its setting is about to change. -/
def cirUp : State := { metUp with met := { metUp.met with cirs := setNth metUp.met.cirs 0 { metUp.cir 0 with phEn := 7 } } }
/-- Meter 1 with its three channels. -/
def thmUp : State := sets metUp [(F.MET_THCFG_EN 1, 1), (F.MET_THCFG_FLOW_UIO 1, 0), (F.MET_THCFG_TF_UIO 1, 1), (F.MET_THCFG_TR_UIO 1, 2)]

/-- Pulse output 2 owes a pulse of 1,000,000 on circuit 0's energy. -/
def pulsing : State := sets { metUp with met := { metUp.met with
    pos := setNth metUp.met.pos 2 ⟨0, 0, 0, 1000000, 0, false⟩
    cirs := setNth metUp.met.cirs 0 { metUp.cir 0 with acc := List.replicate 11 5000000 } } }
  [(F.MET_POCFG_EN 2, 1), (F.MET_POCFG_QTY 2, 0), (F.MET_POCFG_UNIT 2, 0)]

/-- A block with a dual input pair, an emergency stop on it and one OSSD pair. -/
def prmB : Bytes :=
  let b := [1, 0, 0, 0] ++ List.replicate 28 0 ++ natBE 2 10 ++ [0, 0] ++ [1, 0, 1, 0, 10, 0, 5, 0] ++
    (List.replicate 7 [0, 255, 255, 0, 0, 0, 0, 0]).flatten ++ [1, 1, 0, 0, 1, 0, 100, 1] ++ List.replicate 56 0 ++
    [1, 0, 0, 10, 255, 0, 0, 0] ++ List.replicate 24 0
  let b := padTo 2044 b
  b ++ natBE 4 (crc32 b)
def setSafe (s : State) (f : SafeSt → SafeSt) : State := { s with safe := f s.safe }
def setA (s : State) (f : SafeCh → SafeCh) : State := setSafe s fun x => { x with a := f x.a }
def setBoth (s : State) (f : SafeCh → SafeCh) : State := setSafe s fun x => { x with a := f x.a, b := f x.b }
/-- Both channels run on that block. -/
def safeRun : State := setBoth up fun c => { c with phase := 2, stored := some prmB, prm := prmB }
def safeRaw : State := setBoth safeRun fun c => { c with raw := List.replicate 16 (true, 9) }
def safeDiff : State := setBoth safeRun fun c => { c with pairs := setNth c.pairs 0 ⟨1, true, some 5, none, 0⟩ }
def safeFn (n : Nat) : State := setBoth safeRun fun c => { c with fns := setNth c.fns 0 (n, 7), sw := [true, false, false, false] }
def safeOn : State := setBoth (safeFn 1) fun c => { c with pairs := setNth c.pairs 0 ⟨2, true, none, some 0, 0⟩, filt := [true, true] ++ List.replicate 14 false }
def srstUp : State := setBoth safeRun fun c => { c with srst := true, srstAt := some 7 }

/-- OSSD pair 0 is on, and it is tested. -/
def opOn : State := setBoth safeOn fun c => { c with prm := setNth prmB 165 1 }
def edmUp : State := setBoth safeOn fun c => { c with edm := [some (9, true), none, none, none] }
def lockedUp : State := setBoth safeRun fun c => { c with locks := [⟨0x22, 255, false⟩, ⟨0x23, 255, false⟩, ⟨0x01, 0, false⟩] }

def skeyUp : State := setBoth safeRun fun c => { c with skey := true }
/-- In CONFIG, as the frames say. -/
def staged0 : State := { setSafe skeyUp fun x => { x with stg := 1 } with mirror := { up.mirror with config := true } }
def stagedB : State := setSafe staged0 fun x => { x with staged := prmB }
def staged2 : State := setSafe stagedB fun x => { x with stg := 2, chkA := 77, chkB := 77, echoB := prmB }
def skeyCfg : State := setSafe staged0 fun x => { x with stg := 0 }
def viewed : State := { safeOn with mirror := { safeOn.mirror with views := [⟨0, 6, 9⟩] }, estate := { safeOn.estate with objs := [newObj 6 tySafetyView 9 10] } }

def setRel (s : State) (f : RelaySt → RelaySt) : State := { s with relay := f s.relay }
/-- A ring module of 1 ms frames, in a ring state. -/
def ring (role st : Nat) : State := sets up [(F.RELAY_CFG_ROLE, role), (F.RELAY_STAT_RSTATE, st), (F.RELAY_PER_PERIOD, 1000000), (F.RELAY_LEN_L, 200),
  (F.RELAY_LEN_MSG_LEN, 40), (F.RELAY_TMO_LOSS_N, 3), (F.RELAY_TMO_HOLD_MS, 100)]
def master (st : Nat) : State := ring 2 st
def node (st : Nat) : State := (ring 1 st).put F.RELAY_CFG_ADDR 5
/-- A ring whose delay takes two periods: HELLO frames go out at every second one. -/
def slowRing : State := { sets (master rsDiscover) [(F.RELAY_PER_PERIOD, 31250), (F.RELAY_DELAY_D, 40000)] with clk := 31000 }
def trigNode : State := sets (node rsRun) [(F.RELAY_TMO_TRIG_EN, 1)]
def outst (s : State) : State := setRel s fun r => { r with outstanding := true }
def wrote (s : State) : State := setRel s fun r => { r with writes := [⟨0, 6, 1, 7, 80, [1, 2], 0, none⟩] }
/-- A frame of type `typ`, with its two check sequences. -/
def rFrame (typ : Nat) (pay : Bytes) : Bytes :=
  let n := if typ = 1 then 2048 else 100
  let h := [2, BitVec.ofNat 8 typ] ++ natBE 2 100 ++ natBE 8 7 ++ natBE 8 0 ++ natBE 4 1000000 ++ natBE 4 0 ++ [0, 0]
  let h := h ++ natBE 2 (crc16 h) ++ padTo n pay
  h ++ natBE 4 (crc32 h) ++ [0, 0, 0, 0]
/-- A HELLO with no claims, and what parseFrame reads from it. -/
def helloB : Bytes :=
  let h := [2, 1] ++ natBE 2 100 ++ natBE 8 7 ++ natBE 8 0 ++ natBE 4 1000000 ++ natBE 4 0 ++ [0, 0]
  h ++ natBE 2 7795 ++ List.replicate 2048 0 ++ natBE 4 454365306 ++ [0, 0, 0, 0]
def helloF : RFrame := (parseFrame helloB).getD ⟨0, 0, 0, 0, 0, 0, [], false, false, 0⟩
def helloS (s : State) (h : List HelloRec) : State := setRel s fun r => { r with helloN := 2, hello := h }
theorem hello_of (s : State) (h : List HelloRec) : (helloS s h).relay.hello = h := rfl
def hello2 : State := helloS (outst (master rsDiscover)) (helloRecs helloF.pay)
theorem parse_ok {b : Bytes} (h : (parseFrame b).isSome = true) : parseFrame b = some ((parseFrame b).getD ⟨0, 0, 0, 0, 0, 0, [], false, false, 0⟩) := by
  cases k : parseFrame b with
  | none => rw [k] at h; cases h
  | some f => rfl
set_option maxRecDepth 100000 in
theorem hello_meets : hello2.relayRole = 2 ∧ hello2.blkOn 8 = true ∧ hello2.relay.outstanding = true ∧ hello2.rstate = rsDiscover ∧
    parseFrame helloB = some helloF ∧ helloF.typ = 1 ∧ helloF.bad = false ∧ helloF.fcsOk = true ∧
    helloRecs helloF.pay = hello2.relay.hello ∧ hello2.relay.helloN = 2 ∧
    (hello2.wr Reg.RELAY_DELAY 5).budgetOk hello2.relayL hello2.relayPeriod = true :=
  ⟨by decide +kernel, by decide +kernel, by decide +kernel, by decide +kernel, parse_ok (by decide +kernel), by decide +kernel,
    by decide +kernel, by decide +kernel, (hello_of _ _).symm, by decide +kernel, by decide +kernel⟩

def bindable : State := (obBig.wr (Reg.RELAY_MAP 3) 0x40600044)

def FRM : CanFrame := ⟨false, false, false, false, false, 0x185, 2, [1, 2]⟩
def setCan (s : State) (f : CanCh → CanCh) : State := { s with can := setNth s.can 1 (f (s.canCh 1)) }
/-- CAN1 takes part, error active. -/
def live : State := setCan (sets up [(F.CAN_CTL_MODE 1, 1), (F.CAN_STAT_STATE 1, 1)]) fun x => { x with mode := 1 }
def rxObj : State := sets live [(F.CAN_OCFG_EN 1 12, 1), (F.CAN_OCFG_DIR 1 12, 1), (F.CAN_OID_ID 1 12, 0x185)]
def txObj : State := sets live [(F.CAN_OCFG_EN 1 3, 1), (F.CAN_OCFG_DIR 1 3, 2), (F.CAN_OID_ID 1 3, 0x99)]
def withData (x : CanCh) : CanCh := { x with objs := x.objs.mapIdx fun k o => if k = 3 then { o with hasData := true, req := some .plain } else o }
def queued : State := setCan txObj fun x => withData { x with fifo := [(3, 0)] }
def wired : State := setCan txObj fun x => withData { x with fifo := [(3, 0)], wire := some ⟨.fifo, 3⟩ }
def ttObj : State := setCan (sets { txObj with clk := 700 } [(F.CAN_OCFG_TT 1 3, 1), (F.CAN_OTIM_BCMASK 1 3, 1), (F.CAN_TTCOL_EN 1 3, 1), (F.CAN_TTCOL_OBJ 1 3, 3), (F.CAN_TT_TT_EN 1, 1)]) withData
def recovering : State := setCan (live.put (F.CAN_STAT_STATE 1) 5) fun x => { x with tec := 256 }
def chMode (a b : Nat) : State := setCan (live.put (F.CAN_CTL_MODE 1) a) fun x => { x with mode := b }
def txGo : State := sets txObj [(F.CAN_TXCTL_OBJ 1, 3), (F.CAN_TXCTL_DLEN 1, 8)]

/-- Port E0 is enabled and linked at 100 Mbit/s, with Stride and PTP. -/
def ethUp : State := sets up [(F.ETH_PCFG_EN 0, 1), (F.ETH_PCFG_LLDP_EN 0, 1), (F.ETH_PCFG_STRIDE_EN 0, 1), (F.ETH_PCFG_PTP_EN 0, 1),
  (F.ETH_PSTAT_LINK 0, 1), (F.ETH_PSTAT_LYSRIX 0, 1)]
def pend (code : Nat) (ts : List (Nat × Bytes)) : State := { up with furun := { up.furun with pend := [⟨20, code, ts⟩] } }

/-- Station 9 is online. -/
def stn9 : RStation := ⟨9, 0, 1, 0, 0, 0, 0, true, 0, 0, 0, 4⟩

def linkLost : State := setFu linked fun x => { x with links := [{ linkA with contact := false }] }
def linkC : FLink := { linkA with peer := 0x0C00000000000000 }

/-- Port E0 of a clock that may be grandmaster. -/
def gmCap : State := sets ethUp [(F.RTC_PTP_ROLE, 1), (F.RTC_PTP_GM_CAP, 1)]
def annLow : Announce := ⟨0, 255, 255, 0xFFFFFF, 255, 0xFFFFFFFFFFFFFFFF, 1000, 37, true, false, false⟩
theorem rank_lin {p q r y : Nat} (hp : p < 250) (hq : q < 2 ^ 24) (hr : r < 256) (hy : y < 2 ^ 64) :
    (((p * 256 + 248) * 2 ^ 24 + q) * 256 + r) * 2 ^ 64 + y < 2 ^ 112 - 1 := by omega
theorem rank_lt {p r : Nat} (q : BitVec 24) (y : W64) (hp : p < 250) (hr : r < 256) : clockRank p 248 q r y < 2 ^ 112 - 1 := by
  unfold clockRank
  exact rank_lin hp q.isLt hr y.isLt
theorem annLow_rank : clockRank annLow.prio1.toNat annLow.cls.toNat annLow.qual annLow.prio2.toNat annLow.ident = 2 ^ 112 - 1 := by decide +kernel
/-- The announced clock ranks below this one whatever the module's quality and identity are. -/
theorem annLow_worse (a b : Nat) (ha : a < 250) (hb : b < 256) : clockRank a 248 Config.clockQuality b Config.clockIdent < clockRank annLow.prio1.toNat annLow.cls.toNat annLow.qual annLow.prio2.toNat annLow.ident := by
  rw [annLow_rank]
  exact rank_lt _ _ ha hb
theorem gmCap_ranks : clockRank (gmCap.get F.RTC_PTP_PRIO1) 248 Config.clockQuality (gmCap.get F.RTC_PTP_PRIO2) Config.clockIdent <
    clockRank annLow.prio1.toNat annLow.cls.toNat annLow.qual annLow.prio2.toNat annLow.ident :=
  annLow_worse _ _ (by decide +kernel) (by decide +kernel)

def jobM : FetchJob := { job with man := some [], asked := [(0, 0, 0)] }
/-- A manifest of every part. -/
def man8 : Bytes := [2, 8, 0x09, 0x60, 0, 0, 0, 0] ++ List.replicate 16 0 ++
  ((List.range 8).map fun k => natBE 1 (k + 1) ++ [0, 0, 0] ++ natBE 4 5 ++ List.replicate 4 0 ++ natBE 32 7 ++ List.replicate 4 0).flatten ++ List.replicate 128 0
/-- RECOVERY, with the staging that a reset has left. -/
def recov : State :=
  let s := (up.put F.UPD_STAT_STATE 4).setUpd fun u => { u with
    staging := true
    setA := ⟨man8, List.replicate 8 ⟨7, 5, [], false⟩, false⟩
    setB := ⟨man8, List.replicate 8 ⟨7, 5, [], false⟩, false⟩ }
  { s with start := { s.start with phase := .recovery } }

def setEvr (s : State) (f : EvrSt → EvrSt) : State := { s with evr := f s.evr }
/-- Window w is open, owned by the operator of session 0. -/
def openWin (s : State) (w : Nat) : State :=
  setEvr (sets s [(F.EVR_WCFG_EN w, 1), (F.EVR_WCFG_SEVMAX w, 7)]) fun x => { x with wins := setNth x.wins w ⟨1, 1, 0⟩ }
/-- A descriptor of 16 bytes within the Pacer SRAM, and its words. -/
def oneDesc : Desc × List Nat := (⟨0x80000000, 16, 0xE8100000, 0xE8100100, 0⟩, [0x80000000, 16, 0xE8100000, 0, 0xE8100100, 0, 0, 0])
/-- The same with length 0, and one that is not valid. -/
def badDesc : Desc × List Nat := (⟨0x80000000, 0, 0, 0, 0⟩, [0x80000000, 0, 0xE8100000, 0, 0xE8100100, 0, 0, 0])
def endDesc : Desc × List Nat := (⟨0, 16, 0, 0, 0⟩, [0, 16, 0xE8100000, 0, 0xE8100100, 0, 0, 0])
/-- The same, followed by the descriptor at 0xE8100240. -/
def chained : Desc × List Nat := (⟨0x80000000, 16, 0xE8100000, 0xE8100100, 0xE8100240⟩, [0x80000000, 16, 0xE8100000, 0, 0xE8100100, 0, 0xE8100240, 0])
/-- The words of a descriptor in memory. -/
def descMem (m : List Host.Cell) (a : Nat) (ws : List Nat) : List Host.Cell :=
  (List.range 8).foldl (fun m k => memWrite m (a + 4 * k) (natBE 4 (ws.getD k 0)).reverse) m
/-- Channel 3 has the descriptor at an address as its first; four source bytes stand in memory. -/
def sram (d : Desc × List Nat) (_ _b : Nat) : State :=
  { up with
    mem := descMem (memWrite [] 0xE8100000 [0x11, 0x22, 0x33, 0x44]) 0xE8100200 d.2
    dma := setNth up.dma 3 ⟨0xE8100200, none, 0, 0, 0, 0, false⟩ }
/-- Channel 3 runs it. -/
def running : State :=
  let s := sets (sram oneDesc 0 0) [(F.DMA_CHSTAT_STATE 3, 2)]
  { s with dma := setNth s.dma 3 ⟨0xE8100200, some oneDesc.1, 0, 0xE8100200, 0, 0, false⟩ }
def runChain : State :=
  let s := sets (sram chained 0 0) [(F.DMA_CHSTAT_STATE 3, 2)]
  { s with
    mem := descMem s.mem 0xE8100240 oneDesc.2
    dma := setNth s.dma 3 ⟨0xE8100200, some chained.1, 0, 0xE8100200, 0, 0, false⟩ }
/-- Channel 3 is queued with a first descriptor beyond every target. -/
def noTarget : State :=
  { sets up [(F.DMA_CHSTAT_STATE 3, 1)] with dma := setNth up.dma 3 ⟨0x100000000000, none, 0, 0, 0, 0, false⟩ }
/-- A store full of one record of a severity, and an event of severity 4 that waits. -/
def evOld : Event := ⟨0, 0x0F01, 4, 0, 0, 0, List.replicate 12 0⟩
def evRec (sev : Nat) : Event := ⟨0, 0x0E01, sev, 0, 0, 0, List.replicate 12 0⟩
def fullStore (sev : Nat) : State :=
  setEvr up fun x => { x with queue := [⟨evOld, .none⟩], recs := List.replicate 131072 ⟨1, evRec sev, 0, false⟩, nextSeq := 2, span := none }
theorem fullStore_length (sev : Nat) : 131072 ≤ (fullStore sev).evr.recs.length := by
  simp only [fullStore, setEvr, List.length_replicate]; decide
theorem fullStore_repeats (sev : Nat) : (fullStore sev).repeats evOld = false := by
  have h : (fullStore sev).evr.recs.getLast? = some ⟨1, evRec sev, 0, false⟩ := by
    simp only [fullStore, setEvr]
    rw [List.getLast?_replicate]; rfl
  unfold State.repeats
  rw [h]
  simp [evRec, evOld]
theorem fullStore_none : (fullStore 1).evr.recs.find? (fun x => decide (x.ev.sev ≥ evOld.sev) && !(fullStore 1).inSpan x.seq) = none := by
  rw [List.find?_eq_none]
  intro x hx
  have : x = ⟨1, evRec 1, 0, false⟩ := List.eq_of_mem_replicate hx
  subst this
  simp [evRec, evOld]
theorem fullStore_some : (fullStore 4).evr.recs.find? (fun x => decide (x.ev.sev ≥ evOld.sev) && !(fullStore 4).inSpan x.seq) =
    some ⟨1, evRec 4, 0, false⟩ := by
  have h : (fullStore 4).evr.recs = ⟨1, evRec 4, 0, false⟩ :: List.replicate 131071 ⟨1, evRec 4, 0, false⟩ := by
    simp only [fullStore, setEvr]; rw [List.replicate_succ]
  rw [h, List.find?_cons_of_pos]
  rfl

/-- Channel n in an input mode, with object 5, an AI of six elements with its header. -/
def ain (n m : Nat) : State :=
  (withObj (up.put (F.UIO_CFG_MODE n) m) (newObj 5 tyAI 0 6)).setUio n fun c => { c with obj := 5 }
/-- Channel 3 as DI, with object 5, a BI. -/
def din : State :=
  (withObj (up.put (F.UIO_CFG_MODE 3) 5) (newObj 5 tyBI 0 5)).setUio 3 fun c => { c with obj := 5 }

/-! ### Commands that cannot occur, one for each check of `wellFormed`, with a neighbour that can -/

def pieceOf (n : Nat) : FPiece := ⟨0, 0, 0, 0, 0, 0, 0, 0, 0, List.replicate n 0⟩
def frameOf (ide fdf brs rtr : Bool) (id dlc n : Nat) : CanFrame := ⟨ide, fdf, brs, rtr, false, BitVec.ofNat 29 id, BitVec.ofNat 4 dlc, List.replicate n 0⟩
/-- `wellFormed` refuses the first and accepts the second. -/
def refusesBut (bad good : Instr) : Bool := !wellFormed bad && wellFormed good

theorem test_wellFormed_offsets : (refusesBut (.registerWrite 2 0) (.registerWrite 4 0) &&
    refusesBut (.offDomainAccess 1 false 0) (.offDomainAccess 4 false 0)) = true := by decide +kernel
theorem test_wellFormed_widths : (refusesBut (.unalignedAccess 4 .w8 false 0) (.unalignedAccess 4 .w8 true 0) &&
    refusesBut (.unalignedAccess 2 .w16 false 0) (.unalignedAccess 3 .w16 false 0) &&
    refusesBut (.unalignedAccess 8 .w32 true 0) (.unalignedAccess 6 .w32 true 0)) = true := by decide +kernel
theorem test_wellFormed_blocks : (refusesBut (.snapshotRequest 0 0) (.snapshotRequest 1 0) &&
    refusesBut (.snapshotCapture 0) (.snapshotCapture 1) && refusesBut (.intClr 0 1) (.intClr 1 1) &&
    refusesBut (.sysIntRouteWrite 0 1) (.sysIntRouteWrite 1 1)) = true := by decide +kernel
theorem test_wellFormed_opcode : refusesBut (.undefinedOpcode 0x0101 rq0) (.undefinedOpcode 0x010A rq0) = true := by decide +kernel
theorem test_wellFormed_event : refusesBut (.eventIngest ⟨1, 0, 0, 0, 0, List.replicate 13 0⟩)
    (.eventIngest ⟨1, 0, 0, 0, 0, List.replicate 12 0⟩) = true := by decide +kernel
theorem test_wellFormed_frame : ([frameOf false false false false 0x800 0 0, frameOf false true false true 1 0 0,
      frameOf false false true false 1 0 0, frameOf false true false false 1 9 11, frameOf false false false true 1 8 8].any CanFrame.wf) = false ∧
    ([frameOf true false false false 0x800 0 0, frameOf false false false true 1 8 0, frameOf false true true false 1 9 12,
      frameOf false false false false 1 15 8, frameOf false true false false 1 15 64].all CanFrame.wf) = true ∧
    refusesBut (.canFrameReceived 1 (frameOf false false true false 1 0 0)) (.canFrameReceived 1 (frameOf false true true false 1 0 0)) = true := by
  decide +kernel
theorem test_wellFormed_cycle : refusesBut (.lineCycleEnd ⟨20000000, 50000, [List.replicate 27 0]⟩)
    (.lineCycleEnd ⟨20000000, 50000, [List.replicate 28 0, List.replicate 28 1]⟩) = true := by decide +kernel
theorem test_wellFormed_objects : (refusesBut (.lockExpiry 0) (.lockExpiry 4096) && refusesBut (.lockExpiry 4097) (.lockExpiry 1) &&
    refusesBut (.elementStale 1 0) (.elementStale 1 1) && refusesBut (.elementStale 0 1) (.elementStale 1 39) &&
    refusesBut (.wstat 0 1 0) (.wstat 0 1 1) && refusesBut (.wstat 0 5000 1) (.wstat 0 12 1)) = true := by decide +kernel
theorem test_wellFormed_pieces : ([Instr.baton, .pacerRound, .pacerReply, .pacerFinal, .pacerProbe, .pacerEnvelope, .probeReply, .furunHello,
      .heartbeat, .vote, .anchor, .handover, .replica, .withdraw, .mirror, .want, .piece, .noneMsg].all fun c =>
    refusesBut (c (pieceOf 1345)) (c (pieceOf 1344))) = true := by decide +kernel

/-! ### Results of the spec's worked examples -/

/-- 3.13: the tenant of floor 31, with tag 7. -/
def f31 : State := { up with
  estate := { up.estate with
    addr := 0x0DF0000000000000
    objs := [⟨12, tyZone, 7, (List.range 39).map fun k => if k = 3 then ⟨5, 0x41AC0000, 0x007A5E2190800000, qGood, 0, none, none, false⟩ else Elem.cold 0, 0⟩] }
  baton := { up.baton with sessions := [{ sess0 with tag := 7 }] } }
def f31Req (a : Nat) : Req := ⟨0, 0x31, 0, 7, 2, 0x1A2B, 12, tlv 1 (natBE 8 a)⟩
def outOf (r : Res) : List Out := match r with
  | .next t => t.out
  | _ => []
theorem test_read_reply_of_3_13 : outOf (exec (.objRead (f31Req 0x0DF0000000000C04)) f31) = [.baton 0
    [0x31, 1, 7, 2, 0, 0, 0x1A, 0x2B, 1, 1, 0, 0, 0, 0x1A, 0, 2, 0, 0x16, 0, 4, 5, 0, 0, 0, 0, 0x7A, 0x5E, 0x21, 0x90, 0x80, 0, 0,
     0, 0, 0, 0, 0x41, 0xAC, 0, 0]] := by decide +kernel
theorem test_element_200_of_3_13 : (outOf (exec (.objRead (f31Req 0x0DF0000000000CC8)) f31)).map (fun o => match o with
    | .baton _ b => beAt b 10 2
    | _ => 0) = [0x0303] := by decide +kernel
theorem test_whole_object_of_3_13 : (outOf (exec (.objRead (f31Req 0x0DF0000000000C00)) f31)).map (fun o => match o with
    | .baton _ b => (b.length, beAt b 1 1)
    | _ => (0, 0)) = [(1048, 1)] := by decide +kernel

/-- 4.5.5: a frame with identifier 0x185 is accepted into object 12, 0x17F and an extended one are not. -/
theorem test_drill_of_4_5_5 : ([(0x185, 0), (0x17F, 0), (0x185, 1)].map fun (p : W32 × W32) =>
    let e := drillGo drill70 [(0, p.1), (1, p.2)]
    (e.verdict, e.fault, e.run.fields.find? fun f => f.1 == 24)) = [(1, none, some (24, 12)), (0, none, none), (0, none, none)] := by decide +kernel

/-- 5.2: 34.0 W allocated and 27.0 W drawn leave 5.3 W. -/
theorem test_headroom_of_5_2 : headroomOf 34000 27000 = 5300 := by decide +kernel

/-- 8.4: LP20 goes to AUTO without a jump, and the next sample. -/
def lp20Pv (y : W64) (s : State) : State := { s with estate := { s.estate with objs := [⟨6, tyMSV, 0, [⟨7, y, 0, qGood, 0, none, none, false⟩], 0⟩] } }
def lp20 : State :=
  let s := sets up [(F.LOOP_CTL_MODE 20, 2), (F.LOOP_STAT_EFF 20, 1), (F.LOOP_SPT_SPT 20, 18022), (F.LOOP_MAN_MAN 20, 13107), (F.LOOP_OUT_OUT 20, 13107)]
  let s := (((s.wr (Reg.LOOP_BANK 20 0) 0x00025800).wr (Reg.LOOP_BANK 20 1) 0x000A64C3).wr (Reg.LOOP_BANK 20 6) 0x40000000).wr (Reg.LOOP_BANK 20 7) 0x7FFF0000
  lp20Pv 17039 { s with engine := { s.engine with
    loops := setNth s.engine.loops 20 { s.loopSt 20 with binds := [⟨0, 5, 6, 1, 0, 0⟩], due := some 0, first := false, uPrev := 13107, pvSeen := true } } }
theorem test_transfer_of_8_4 : let t := lp20.loopEval 20
    ((t.loopSt 20).i, t.loopEff 20, t.get (F.LOOP_OUT_OUT 20)) = (1152909312, effAuto, 13107) := by decide +kernel
theorem test_next_sample_of_8_4 : let t := (lp20Pv 17100 (lp20.loopEval 20)).loopEval 20
    ((t.loopSt 20).i, t.get (F.LOOP_OUT_OUT 20)) = (1153280921, 12951) := by decide +kernel

/-- 12: CIR0 with 400/5 A CTs has 600 kW full scale; CIR4 with coils 3.75 MW. -/
def cir12 : State :=
  let s := sets up [(F.MET_CIRCFG_PH_EN 0, 7)]
  let s := [0, 1, 2].foldl (fun s p => s.wr (Reg.MET_KS p) 0x447A0000) s
  [4, 5, 6].foldl (fun s p => s.wr (Reg.MET_KS p) 0x44C80000) s
theorem test_full_scale_of_12 : (Fl.le (cir12.cirFs 0) (.ofInt 600000) && Fl.le (.ofInt 600000) (cir12.cirFs 0)) = true := by decide +kernel
/-- 12: 310 kVA for 5 s bound the loss by 430,555,555,556 nVAh. -/
theorem test_gap_bound_of_12 : boundOf 310000 5000000000 = 430555555556 := by decide +kernel

/-- 15.7: TMAX of the factory timing with FDOE and BRSE. -/
theorem test_tmax_of_15_7 : canTmaxNs 0xC (State.reset.rd (Reg.CAN_NBT 1)) (State.reset.rd (Reg.CAN_DBT 1)) = 453500 := by decide +kernel

/-- 19.8: chunks of 41,943,040 and 24,580 bytes. -/
theorem test_chunks_of_19_8 : (partChunks ⟨0, 41943040, [], false⟩, partChunks ⟨0, 24580, [], false⟩) = (40960, 25) := by decide +kernel

/-- 12: a weight of 10 Wh is accepted at a WIDTH of 20 ms, 1 Wh only at 2.5 ms. -/
def po12 (w wt : Nat) : Bool := (opMetPoCfg.pre cir12 { q0 with tlvs := [⟨tPoCfg, 0, [0, 0] ++ natBE 2 w ++ natBE 4 0 ++ natBE 8 wt⟩] }).isNone
theorem test_pulses_of_12 : [po12 200 10000000000, po12 200 1000000000, po12 25 1000000000] = [true, false, true] := by decide +kernel

/-- 9.4.2: the move of LP40. -/
def mv40 : Move := let p := planMove 67108864 131072 512 8
  ⟨10240*32768, 12288, p.1, p.2.1, p.2.2.1, bits64 p.2.2.2.1, bits64 p.2.2.2.2.1, bits64 p.2.2.2.2.2, 0⟩
theorem test_plan_of_9_4_2 : (mv40.nj, mv40.na, mv40.nv, moveLen mv40) = (64, 192, 192, 832) := by decide +kernel
theorem test_move_of_table_9_3 : ([64, 256, 320, 512, 576, 768, 832].map fun k => (movePos mv40 k + 16384) / 32768) =
    [10251, 10635, 10880, 11648, 11893, 12277, 12288] := by decide +kernel
/-- 14.9: the frame of floor 31 fits its period. -/
theorem test_budget_of_14_9 : ((sets up [(F.RELAY_DELAY_D, 2570)]).budgetOk 2048 62500, (sets up [(F.RELAY_DELAY_D, 2570)]).budgetOk 2048 19530,
    (sets up [(F.RELAY_DELAY_D, 2570)]).budgetOk 2048 19529) = (true, true, false) := by decide +kernel

/-! ### Witnesses of the statements' hypotheses, clause by clause; the numbers are the clauses' places in the statement -/

theorem test_StepTakesTheFrontCommand :
    (∃ (c : Instr) (rest : List Instr) (s : State), s.pending = c :: rest) :=
  ⟨(.domainGate 1), ([]), ({ up with pending := [.domainGate 1] }), by decide +kernel⟩

theorem test_IdleStepOnlyLetsTimePass :
    (∃ (s : State), s.pending = []) :=
  ⟨(up), by decide +kernel⟩

theorem test_OnlySafetyCommandsReachTheSafetyChannel :
    (∃ (c : Instr) (s : State), safetyCommand c = false) :=
  ⟨(.domainGate 1), (up), by decide +kernel⟩

theorem test_EveryStepKeepsMemoryCanonical :
    (∃ (s : State) (t : State), Memory.wf s.mem = true ∧ step s = .next t) :=
  ⟨(up), ({ up with clk := up.clk + 1 }), ⟨by decide +kernel, step_idle up rfl⟩⟩

theorem test_UnoccupiedOffsetsReadZero :
    (∃ (off : BitVec 24) (v : W32) (s : State), off.toNat % 4 = 0 ∧ regAt off.toNat = none ∧ s.offDomain? off.toNat = none) :=
  ⟨(0xFFFFF8), (5), (up), by decide +kernel⟩

theorem test_RegisterWritesFollowAccessCodes :
    (∃ (off : BitVec 24) (v : W32) (d : RDesc) (i : Nat) (j : Nat) (s : State), off.toNat % 4 = 0 ∧ regAt off.toNat = some (d, i, j) ∧ s.offDomain? off.toNat = none ∧ d.wk ∈ [WKind.plain, .intEn, .sysSafeIntEn, .loopStart, .loopSwsel, .canTxd]) :=
  ⟨(0x480008), (0x5), (⟨9, 0x480008, 1, 0, 1, 0, .intEn, [⟨31, 0, .rw, 0⟩]⟩), (9), (0), (up), by decide +kernel⟩

theorem test_SafeRegistersDiscardWrites :
    (∃ (off : BitVec 24) (v : W32) (s : State), off.toNat % 4 = 0 ∧ blkOfOff off.toNat = some 7 ∧ s.blkOn 7 = true) :=
  ⟨(0x380008), (0xFFFFFFFF), (up), by decide +kernel⟩

theorem test_AccessToADomainThatIsOff :
    (∃ (off : BitVec 24) (write : Bool) (v : W32) (d : Nat) (s : State), s.offDomain? (off.toNat / 4 * 4) = some d) :=
  ⟨(0x500006), (true), (7), (4), (offSet), by decide +kernel⟩

theorem test_NarrowAndUnalignedAccesses :
    (∃ (off : BitVec 24) (w : Width) (write : Bool) (v : W32) (s : State), (((write = true ∧ w ≠ .w32) ∨ off.toNat % widthBytes w ≠ 0))) ∧
    (∃ (off : BitVec 24) (w : Width) (v : W32) (s : State), w ≠ .w32 ∧ off.toNat % widthBytes w = 0) :=
  ⟨⟨(0x50000A), (.w32), (false), (0), (offSet), by decide +kernel⟩,
    ⟨(0x50000A), (.w16), (7), (offSet), by decide +kernel⟩⟩

theorem test_SnapshotRequestAndCapture_0_to_5 :
    (∃ (src : Fin 22) (grp : Byte) (b : Nat) (s : State), srcBase src.val = some b ∧ src.val ≠ 7 ∧ s.offDomain? b = none ∧ s.snapBusy src.val = false ∧ (s.snapWords src.val grp.toNat).isSome = true) ∧
    (∃ (src : Fin 22) (grp : Byte) (b : Nat) (s : State), srcBase src.val = some b ∧ src.val ≠ 7 ∧ s.offDomain? b = none ∧ s.snapBusy src.val = false ∧ (s.snapWords src.val grp.toNat).isSome = false) ∧
    (∃ (src : Fin 22) (grp : Byte) (b : Nat) (s : State), srcBase src.val = some b ∧ s.offDomain? b = none ∧ s.snapBusy src.val = true) ∧
    (∃ (src : Fin 22) (b : Nat) (grp : Nat) (off : Nat) (ws : List Nat) (s : State), srcBase src.val = some b ∧ src.val ≠ 7 ∧ s.sys.snaps.find? (fun j => j.src == src.val) = some ⟨src.val, grp⟩ ∧ s.snapWords src.val grp = some (off, ws)) ∧
    (∃ (s : State), s.sys.safeSnap = none) ∧
    (∃ (grp : Byte) (s : State), s.sys.safeSnap = none ∧ grp ≠ 0) :=
  ⟨⟨(9), (0), (0x480000), (up), by decide +kernel⟩,
    ⟨(9), (77), (0x480000), (up), by decide +kernel⟩,
    ⟨(9), (0), (0x480000), (snapOn), by decide +kernel⟩,
    ⟨(9), (0x480000), (0), (((up.snapWords 9 0).getD (0, [])).1), (((up.snapWords 9 0).getD (0, [])).2), (snapOn), by decide +kernel⟩,
    ⟨(up), by decide +kernel⟩,
    ⟨(1), (up), by decide +kernel⟩⟩

theorem test_SnapshotRequestAndCapture_6_to_7 :
    (∃ (grp : Byte) (s : State), s.sys.safeSnap.isSome = true) ∧
    (∃ (g : Nat) (s : State), s.sys.safeSnap = some g) :=
  ⟨⟨(1), (snapSafe), by decide +kernel⟩,
    ⟨(0), (snapSafe), by decide +kernel⟩⟩

theorem test_InterruptRegisters :
    (∃ (src : Fin 22) (mask : W32) (b : Nat) (s : State), srcBase src.val = some b ∧ src.val ≠ 7 ∧ s.offDomain? (b + 0x0C) = none) ∧
    (∃ (mask : W32) (s : State), s.blkOn 7 = true) ∧
    (∃ (mask : W32) (s : State), s.blkOn 1 = true) ∧
    (∃ (n : Fin 22) (v : W32) (s : State), n.val ≠ 0 ∧ s.blkOn 1 = true ∧ bitsOf v.toNat 3 0 ∈ [1, 2, 4, 8]) ∧
    (∃ (n : Fin 22) (v : W32) (s : State), n.val ≠ 0 ∧ s.blkOn 1 = true ∧ bitsOf v.toNat 3 0 ∉ [1, 2, 4, 8]) ∧
    (∃ (v : W32) (s : State), s.blkOn 1 = true) :=
  ⟨⟨(9), (0xFFFFFFF0), (0x480000), (intsUp), by decide +kernel⟩,
    ⟨(0xFF), (intsUp), by decide +kernel⟩,
    ⟨(0xF), (intsUp), by decide +kernel⟩,
    ⟨(3), (2), (up), by decide +kernel⟩,
    ⟨(3), (5), (up), by decide +kernel⟩,
    ⟨(0xA6), ({ up with clk := 5 }), by decide +kernel⟩⟩

theorem test_DomainGateAndClockLoss :
    (∃ (d : Fin 11) (s : State), s.sys.gates.contains d.val = true ∧ s.pdOn d.val = true ∧ s.drained d.val = true) ∧
    (∃ (d : Fin 11) (s : State), ((s.sys.gates.contains d.val = false ∨ s.pdOn d.val = false ∨ s.drained d.val = false))) ∧
    (∃ (k : Fin 10) (s : State), s.clkUsed k.val = true ∧ ((k.val = 4 ∨ k.val = 7 ∨ k.val = 8 → s.clkOk k.val = true))) ∧
    (∃ (k : Fin 10) (s : State), ((s.clkUsed k.val = false ∨ (k.val = 4 ∨ k.val = 7 ∨ k.val = 8) ∧ s.clkOk k.val = false))) :=
  ⟨⟨(9), (gate9), by decide +kernel⟩,
    ⟨(2), (setSys gate2 fun x => { x with gates := [3] }), Or.inl (by decide +kernel)⟩,
    ⟨(4), (relayUp), by decide +kernel⟩,
    ⟨(7), (up.put F.SYS_CLK_STAT_OK 3), by decide +kernel⟩⟩

theorem test_RefusalChangesNothing :
    (∃ (c : Instr) (d : OpDef) (relay : State → Q → Option State) (r : Req) (s : State) (x : Session) (ts : List Tlv) (f : Refuse), batonOf c = some (d, relay, r) ∧ s.session? r.sess.val = some x ∧ x.version = some r.version.toNat ∧ framing r = .ok ts ∧ d.code ≠ 1 ∧ r.tenant.toNat = x.tag ∧ s.item? x.owner r.item.toNat = none ∧ s.cached? x.owner r.item.toNat = none ∧ d.since ≤ r.version.toNat ∧ ((let q : Q := ⟨r, x.tag, x.owner, r.version.toNat, some r.sess.val, x.port, ts⟩
     tlvFault d.schema r.version.toNat ts = none ∧ d.form (s.heard r) q = none ∧
      (s.start.phase = .recovery ∨ relay (s.heard r) q = none) ∧ d.later (s.heard r) q = some f))) ∧
    (∃ (c : Instr) (d : OpDef) (relay : State → Q → Option State) (r : Req) (s : State) (x : Session) (ts : List Tlv) (f : Refuse), batonOf c = some (d, relay, r) ∧ s.session? r.sess.val = some x ∧ x.version = some r.version.toNat ∧ framing r = .ok ts ∧ d.code ≠ 1 ∧ r.tenant.toNat = x.tag ∧ s.item? x.owner r.item.toNat = none ∧ s.cached? x.owner r.item.toNat = none ∧ d.since ≤ r.version.toNat ∧ tlvFault d.schema r.version.toNat ts = some f) ∧
    (∃ (c : Instr) (d : OpDef) (relay : State → Q → Option State) (r : Req) (s : State) (x : Session) (ts : List Tlv) (f : Refuse), batonOf c = some (d, relay, r) ∧ s.session? r.sess.val = some x ∧ x.version = some r.version.toNat ∧ framing r = .ok ts ∧ d.code ≠ 1 ∧ r.tenant.toNat = x.tag ∧ s.item? x.owner r.item.toNat = none ∧ s.cached? x.owner r.item.toNat = none ∧ d.since ≤ r.version.toNat ∧ ((let q : Q := ⟨r, x.tag, x.owner, r.version.toNat, some r.sess.val, x.port, ts⟩
     s.blkOn d.blk = true ∧ passes d relay r s = some q ∧
      (match d.run (d.begun (s.heard r) q) q with | .refuse g => some g | _ => none) = some f))) :=
  ⟨⟨(.objDelete (rq [tlv 1 (natBE 8 0x400000000000500)])), (opObjDelete), (relayObj opObjDelete.code), (rq [tlv 1 (natBE 8 0x400000000000500)]), (up), (sess0), ([⟨1, 12, natBE 8 0x0400000000000500⟩]), (⟨.noObject, none, []⟩), rfl, by decide +kernel, by decide +kernel, rfl, by decide +kernel, by decide +kernel, by decide +kernel, by decide +kernel, by decide +kernel, (by refine ⟨?_, ?_, ?_, ?_⟩ <;> decide +kernel)⟩,
    ⟨(.objDelete (rq [tlv 1 [1]])), (opObjDelete), (relayObj opObjDelete.code), (rq [tlv 1 [1]]), (up), (sess0), ([⟨1, 12, [1]⟩]), (⟨.badParam, some (14, 0x0003), []⟩), rfl, by decide +kernel, by decide +kernel, rfl, by decide +kernel⟩,
    ⟨(.objDelete (rq [tlv 1 (natBE 8 0x400000000000500)])), (opObjDelete), (relayObj opObjDelete.code), (rq [tlv 1 (natBE 8 0x400000000000500)]), (boundUp), (sess0), ([⟨1, 12, natBE 8 0x0400000000000500⟩]), (busyBound), rfl, by decide +kernel, by decide +kernel, rfl, by decide +kernel, by decide +kernel, by decide +kernel, by decide +kernel, by decide +kernel, ⟨by decide +kernel, passes_ok (by decide +kernel) rfl rfl rfl, by decide +kernel⟩⟩⟩

theorem test_RepeatedItemIsNotRunAgain :
    (∃ (c : Instr) (d : OpDef) (relay : State → Q → Option State) (r : Req) (s : State) (x : Session) (ts : List Tlv), batonOf c = some (d, relay, r) ∧ s.session? r.sess.val = some x ∧ x.version = some r.version.toNat ∧ framing r = .ok ts ∧ d.session = false ∧ d.code ≠ 1 ∧ r.tenant.toNat = x.tag ∧ (s.item? x.owner r.item.toNat).isSome = true) ∧
    (∃ (c : Instr) (d : OpDef) (relay : State → Q → Option State) (r : Req) (s : State) (x : Session) (ts : List Tlv) (e : CacheEntry), batonOf c = some (d, relay, r) ∧ s.session? r.sess.val = some x ∧ x.version = some r.version.toNat ∧ framing r = .ok ts ∧ d.session = false ∧ d.code ≠ 1 ∧ r.tenant.toNat = x.tag ∧ s.item? x.owner r.item.toNat = none ∧ s.cached? x.owner r.item.toNat = some e) :=
  ⟨⟨(.objDelete (rq [tlv 1 (natBE 8 0x400000000000500)])), (opObjDelete), (relayObj opObjDelete.code), (rq [tlv 1 (natBE 8 0x400000000000500)]), (flying), (sess0), ([⟨1, 12, natBE 8 0x0400000000000500⟩]), rfl, by decide +kernel, by decide +kernel, rfl, by decide +kernel⟩,
    ⟨(.objDelete (rq [tlv 1 (natBE 8 0x400000000000500)])), (opObjDelete), (relayObj opObjDelete.code), (rq [tlv 1 (natBE 8 0x400000000000500)]), (cachedUp), (sess0), ([⟨1, 12, natBE 8 0x0400000000000500⟩]), (⟨1, 7, 0, 0x0105, 0⟩), rfl, by decide +kernel, by decide +kernel, rfl, by decide +kernel⟩⟩

theorem test_FramingVersionAndTenantChecks :
    (∃ (c : Instr) (d : OpDef) (relay : State → Q → Option State) (r : Req) (s : State), batonOf c = some (d, relay, r) ∧ s.session? r.sess.val = none) ∧
    (∃ (c : Instr) (d : OpDef) (relay : State → Q → Option State) (r : Req) (s : State) (x : Session) (v : Nat), batonOf c = some (d, relay, r) ∧ s.session? r.sess.val = some x ∧ x.version = some v ∧ ((r.version.toNat ≠ v ∨ d.code = 1))) ∧
    (∃ (c : Instr) (d : OpDef) (relay : State → Q → Option State) (r : Req) (s : State) (x : Session) (f : Refuse), batonOf c = some (d, relay, r) ∧ s.session? r.sess.val = some x ∧ x.version = some r.version.toNat ∧ framing r = .error f ∧ d.code ≠ 1) ∧
    (∃ (c : Instr) (d : OpDef) (relay : State → Q → Option State) (r : Req) (s : State) (x : Session) (ts : List Tlv), batonOf c = some (d, relay, r) ∧ s.session? r.sess.val = some x ∧ x.version = some r.version.toNat ∧ framing r = .ok ts ∧ d.code ≠ 1 ∧ r.tenant.toNat ≠ x.tag) ∧
    (∃ (op : BitVec 16) (r : Req) (s : State) (x : Session) (ts : List Tlv), s.session? r.sess.val = some x ∧ x.version = some r.version.toNat ∧ framing r = .ok ts ∧ op.toNat ≠ 1 ∧ r.tenant.toNat = x.tag ∧ s.item? x.owner r.item.toNat = none ∧ s.cached? x.owner r.item.toNat = none) :=
  ⟨⟨(.ping ({ rq [] with sess := 3 })), (opPing), (notRelayed), ({ rq [] with sess := 3 }), (up), rfl, by decide +kernel⟩,
    ⟨(.hello (rq [])), (opHello), (notRelayed), (rq []), (up), (sess0), (0x31), rfl, by decide +kernel⟩,
    ⟨(.objDelete (rq [[0, 1, 0, 9, 0]])), (opObjDelete), (relayObj opObjDelete.code), (rq [[0, 1, 0, 9, 0]]), (up), (sess0), (⟨.badParam, some (14, 0x0003), []⟩), rfl, by decide +kernel, by decide +kernel, rfl, by decide +kernel⟩,
    ⟨(.objDelete ({ rq [] with tenant := 3 })), (opObjDelete), (relayObj opObjDelete.code), ({ rq [] with tenant := 3 }), (up), (sess0), ([]), rfl, by decide +kernel, by decide +kernel, rfl, by decide +kernel⟩,
    ⟨(0x7777), (rq [[0, 99, 0, 0]]), (up), (sess0), ([⟨99, 12, []⟩]), by decide +kernel, by decide +kernel, rfl, by decide +kernel⟩⟩

theorem test_SessionOpcodes_0_to_5 :
    (∃ r s q v, admitted? (.hello r) s = some q ∧ ([0x20, 0x30, 0x31].filter fun x => beAt (tv q.tlvs 0x000B) 0 1 ≤ x && x ≤ beAt (tv q.tlvs 0x000B) 1 1).getLast? = some v) ∧
    (∃ r s q, admitted? (.hello r) s = some q ∧ ([0x20, 0x30, 0x31].filter fun x => beAt (tv q.tlvs 0x000B) 0 1 ≤ x && x ≤ beAt (tv q.tlvs 0x000B) 1 1).getLast? = none) ∧
    (∃ r s q, admitted? (.ping r) s = some q) ∧
    (∃ r s q, admitted? (.itemStatus r) s = some q) ∧
    (∃ r s q, admitted? (.cancel r) s = some q ∧ s.item? q.owner (tn q.tlvs 0x0009) = none) ∧
    (∃ r s q i, admitted? (.cancel r) s = some q ∧ s.item? q.owner (tn q.tlvs 0x0009) = some i ∧ i.wait ≠ .relayed ∧ i.ponr = true) :=
  ⟨⟨(rq [tlv 0x000B [0x10, 0x30]]), (sessNew), ((admitted? (.hello (rq [tlv 0x000B [0x10, 0x30]])) (sessNew)).getD q0), (0x30), admit_ok (by decide +kernel), by decide +kernel⟩,
    ⟨(rq [tlv 0x000B [0x32, 0x40]]), (sessNew), ((admitted? (.hello (rq [tlv 0x000B [0x32, 0x40]])) (sessNew)).getD q0), admit_ok (by decide +kernel), by decide +kernel⟩,
    ⟨(rq []), (up), ((admitted? (.ping (rq [])) (up)).getD q0), admit_ok (by decide +kernel)⟩,
    ⟨({ rq [tlv 9 (natBE 4 7)] with item := 8 }), (up), ((admitted? (.itemStatus ({ rq [tlv 9 (natBE 4 7)] with item := 8 })) (up)).getD q0), admit_ok (by decide +kernel)⟩,
    ⟨({ rq [tlv 9 (natBE 4 7)] with item := 8 }), (up), ((admitted? (.cancel ({ rq [tlv 9 (natBE 4 7)] with item := 8 })) (up)).getD q0), admit_ok (by decide +kernel), by decide +kernel⟩,
    ⟨({ rq [tlv 9 (natBE 4 7)] with item := 8 }), (withItem up (itm .taskStop true)), ((admitted? (.cancel ({ rq [tlv 9 (natBE 4 7)] with item := 8 })) (withItem up (itm .taskStop true))).getD q0), (itm .taskStop true), admit_ok (by decide +kernel), by decide +kernel⟩⟩

theorem test_SessionOpcodes_6_to_7 :
    (∃ r s q i, admitted? (.cancel r) s = some q ∧ s.item? q.owner (tn q.tlvs 0x0009) = some i ∧ i.wait ≠ .relayed ∧ i.wait ≠ .canSend ∧ i.ponr = false ∧ s.cached? q.owner (tn q.tlvs 0x0009) = none) ∧
    (∃ r s q, admitted? (.close r) s = some q) :=
  ⟨⟨({ rq [tlv 9 (natBE 4 7)] with item := 8 }), (withItem up (itm .limits false)), ((admitted? (.cancel ({ rq [tlv 9 (natBE 4 7)] with item := 8 })) (withItem up (itm .limits false))).getD q0), (itm .limits false), admit_ok (by decide +kernel), by decide +kernel⟩,
    ⟨(rq []), (up), ((admitted? (.close (rq [])) (up)).getD q0), admit_ok (by decide +kernel)⟩⟩

theorem test_SessionsOpenAndClose :
    (∃ (want : Fin 64) (port : Fin 5) (c : Cert) (k : Nat) (s : State), s.pdOn 4 = true ∧ s.start.phase = .running ∧ ((port.val = 4 ∨ s.get (F.ETH_PCFG_EN port.val) = 1)) ∧ s.freeSlot want.val = some k ∧ s.certFault c none = none) ∧
    (∃ (want : Fin 64) (port : Fin 5) (c : Cert) (n : Nat) (k : Nat) (s : State), s.pdOn 4 = true ∧ s.start.phase = .running ∧ ((port.val = 4 ∨ s.get (F.ETH_PCFG_EN port.val) = 1)) ∧ s.freeSlot want.val = some k ∧ s.certFault c none = some n) ∧
    (∃ (k : Fin 64) (s : State), (s.session? k.val).isSome = true) ∧
    (∃ (k : Fin 64) (x : Session) (s : State), s.session? k.val = some x) ∧
    (∃ (k : Fin 64) (x : Session) (s : State), s.session? k.val = some x) ∧
    (∃ (e : CacheEntry) (rest : List CacheEntry) (s : State), s.baton.cache = e :: rest) :=
  ⟨⟨(2), (4), (⟨3, 0, 0, 0x0400000000000000, [5], true, 1, 0, 0, true⟩), (2), (trusted), by decide +kernel⟩,
    ⟨(2), (1), (⟨3, 2, 0, 0, [5], true, 1, 0, 0, true⟩), (4), (2), (trusted), by decide +kernel⟩,
    ⟨(0), (up), by decide +kernel⟩,
    ⟨(0), (sess0), (up), by decide +kernel⟩,
    ⟨(0), (sess0), (up), by decide +kernel⟩,
    ⟨(⟨1, 7, 0, 0x0105, 0⟩), ([]), (cachedUp), by decide +kernel⟩⟩

theorem test_ObjectReads_0_to_5 :
    (∃ r s q h vs v, admitted? (.objRead r) s = some q ∧ addrObj (tAddr q.tlvs) ≠ 0 ∧ addrElem (tAddr q.tlvs) ≠ 0 ∧ s.served (tAddr q.tlvs) = some (h, vs) ∧ vs[addrElem (tAddr q.tlvs) - 1]? = some v) ∧
    (∃ r s q h vs, admitted? (.objRead r) s = some q ∧ addrObj (tAddr q.tlvs) ≠ 0 ∧ addrElem (tAddr q.tlvs) = 0 ∧ s.served (tAddr q.tlvs) = some (h, vs) ∧ vs.length ≤ 52) ∧
    (∃ r s q h vs, admitted? (.objRead r) s = some q ∧ addrObj (tAddr q.tlvs) ≠ 0 ∧ addrElem (tAddr q.tlvs) = 0 ∧ s.served (tAddr q.tlvs) = some (h, vs) ∧ 52 < vs.length ∧ 0x30 ≤ q.ver) ∧
    (∃ r s q h vs, admitted? (.objRead r) s = some q ∧ addrObj (tAddr q.tlvs) ≠ 0 ∧ addrElem (tAddr q.tlvs) = 0 ∧ s.served (tAddr q.tlvs) = some (h, vs) ∧ 52 < vs.length ∧ q.ver < 0x30) ∧
    (∃ r s q, admitted? (.objRead r) s = some q ∧ addrObj (tAddr q.tlvs) = 0 ∧ s.servedGroup (tAddr q.tlvs) = none ∧ (s.visibleObjs q.tag).length ≤ 172) ∧
    (∃ r s q, admitted? (.objRead r) s = some q ∧ addrObj (tAddr q.tlvs) = 0 ∧ s.servedGroup (tAddr q.tlvs) = none ∧ 172 < (s.visibleObjs q.tag).length ∧ 0x30 ≤ q.ver) :=
  ⟨⟨(rq [tlv 1 (natBE 8 0x400000000000501)]), (obAI), ((admitted? (.objRead (rq [tlv 1 (natBE 8 0x400000000000501)])) (obAI)).getD q0), (obHd), (obVs), (obV), admit_ok (by decide +kernel), by decide +kernel⟩,
    ⟨(rq [tlv 1 (natBE 8 0x400000000000500)]), (obAI), ((admitted? (.objRead (rq [tlv 1 (natBE 8 0x400000000000500)])) (obAI)).getD q0), (obHd), (obVs), admit_ok (by decide +kernel), by decide +kernel⟩,
    ⟨(rq [tlv 1 (natBE 8 0x400000000000600)]), (obBig), ((admitted? (.objRead (rq [tlv 1 (natBE 8 0x400000000000600)])) (obBig)).getD q0), (obHb), (obVb), admit_ok (by decide +kernel), by decide +kernel⟩,
    ⟨({ rq [tlv 1 (natBE 8 0x400000000000600)] with version := 0x20 }), (oldVer obBig), ((admitted? (.objRead ({ rq [tlv 1 (natBE 8 0x400000000000600)] with version := 0x20 })) (oldVer obBig)).getD q0), (obHb), (obVb), admit_ok (by decide +kernel), by decide +kernel⟩,
    ⟨(rq [tlv 1 (natBE 8 0x400000000000000)]), (obAI), ((admitted? (.objRead (rq [tlv 1 (natBE 8 0x400000000000000)])) (obAI)).getD q0), admit_ok (by decide +kernel), by decide +kernel⟩,
    ⟨(rq [tlv 1 (natBE 8 0x400000000000000)]), (manyObs), ((admitted? (.objRead (rq [tlv 1 (natBE 8 0x400000000000000)])) (manyObs)).getD q0), admit_ok (by decide +kernel), by decide +kernel⟩⟩

theorem test_ObjectReads_6_to_7 :
    (∃ r s q g, admitted? (.objRead r) s = some q ∧ addrObj (tAddr q.tlvs) = 0 ∧ s.servedGroup (tAddr q.tlvs) = some g) ∧
    (∃ r s q c, admitted? (.objReadNext r) s = some q ∧ cursor? s q 0x0101 (tn q.tlvs 0x0005) = some c) :=
  ⟨⟨(rq [tlv 1 (natBE 8 0)]), (anch), ((admitted? (.objRead (rq [tlv 1 (natBE 8 0)])) (anch)).getD q0), (0), admit_ok (by decide +kernel), by decide +kernel⟩,
    ⟨(rq [tlv 5 (natBE 4 9)]), (withCur 1), ((admitted? (.objReadNext (rq [tlv 5 (natBE 4 9)])) (withCur 1)).getD q0), (curs 1), admit_ok (by decide +kernel), by decide +kernel⟩⟩

theorem test_ObjectWritesAndLocks_0_to_5 :
    (∃ r s q x, admitted? (.objWrite r) s = some q ∧ qObj s q = some x ∧ x.typ ≠ tyLoop ∧ s.loopOfObj x.num = none) ∧
    (∃ r s q x, admitted? (.objWrite r) s = some q ∧ qObj s q = some x ∧ x.typ = tyLoop ∧ ((∀ w ∈ eWrites q, s.loopVet x.num w.e w.v = none))) ∧
    (∃ r s q, admitted? (.objCreate r) s = some q ∧ s.obj? (addrObj (tAddr q.tlvs)) = none) ∧
    (∃ r s q, admitted? (.objCreate r) s = some q ∧ (s.obj? (addrObj (tAddr q.tlvs))).isSome = true) ∧
    (∃ r s q, admitted? (.objDelete r) s = some q ∧ s.objBound (addrObj (tAddr q.tlvs)) = false ∧ s.replicated (addrObj (tAddr q.tlvs)) = false) ∧
    (∃ r s q, admitted? (.objDelete r) s = some q ∧ s.objBound (addrObj (tAddr q.tlvs)) = false ∧ s.replicated (addrObj (tAddr q.tlvs)) = true) :=
  ⟨⟨(rq [tlv 1 (natBE 8 0x400000000000500), tlv 2 (natBE 2 1 ++ [5, 0, 0, 0] ++ natBE 8 0 ++ natBE 8 0x40000000)]), (aoUp), ((admitted? (.objWrite (rq [tlv 1 (natBE 8 0x400000000000500), tlv 2 (natBE 2 1 ++ [5, 0, 0, 0] ++ natBE 8 0 ++ natBE 8 0x40000000)])) (aoUp)).getD q0), (newObj 5 tyAO 0 4), admit_ok (by decide +kernel), by decide +kernel⟩,
    ⟨(rq [tlv 1 (natBE 8 0x400000000000900), tlv 2 (natBE 2 4 ++ [7, 0, 0, 0] ++ natBE 8 0 ++ natBE 8 5)]), (loopUp), ((admitted? (.objWrite (rq [tlv 1 (natBE 8 0x400000000000900), tlv 2 (natBE 2 4 ++ [7, 0, 0, 0] ++ natBE 8 0 ++ natBE 8 5)])) (loopUp)).getD q0), (newObj 9 tyLoop 0 10), admit_ok (by decide +kernel), by decide +kernel⟩,
    ⟨(rq [tlv 1 (natBE 8 0x400000000000500), tlv 6 [5], tlv 7 [0], tlv 8 (natBE 2 4)]), (up), ((admitted? (.objCreate (rq [tlv 1 (natBE 8 0x400000000000500), tlv 6 [5], tlv 7 [0], tlv 8 (natBE 2 4)])) (up)).getD q0), admit_ok (by decide +kernel), by decide +kernel⟩,
    ⟨({ rq [tlv 1 (natBE 8 0x400000000000600), tlv 6 [5], tlv 7 [0], tlv 8 (natBE 2 4)] with version := 0x20 }), (oldVer obBig), ((admitted? (.objCreate ({ rq [tlv 1 (natBE 8 0x400000000000600), tlv 6 [5], tlv 7 [0], tlv 8 (natBE 2 4)] with version := 0x20 })) (oldVer obBig)).getD q0), admit_ok (by decide +kernel), by decide +kernel⟩,
    ⟨(rq [tlv 1 (natBE 8 0x400000000000600)]), (obBig), ((admitted? (.objDelete (rq [tlv 1 (natBE 8 0x400000000000600)])) (obBig)).getD q0), admit_ok (by decide +kernel), by decide +kernel⟩,
    ⟨(rq [tlv 1 (natBE 8 0x400000000000600)]), (replUp), ((admitted? (.objDelete (rq [tlv 1 (natBE 8 0x400000000000600)])) (replUp)).getD q0), admit_ok (by decide +kernel), by decide +kernel⟩⟩

theorem test_ObjectWritesAndLocks_6_to_11 :
    (∃ r s q, admitted? (.objDelete r) s = some q ∧ s.objBound (addrObj (tAddr q.tlvs)) = true) ∧
    (∃ r s q x, admitted? (.objSetTag r) s = some q ∧ qObj s q = some x ∧ x.tag = tn q.tlvs 0x0007) ∧
    (∃ r s q x, admitted? (.objSetTag r) s = some q ∧ qObj s q = some x ∧ x.tag ≠ tn q.tlvs 0x0007 ∧ s.tagTied x = false) ∧
    (∃ r s q, admitted? (.objLock r) s = some q) ∧
    (∃ r s q, admitted? (.objUnlock r) s = some q) ∧
    (∃ r s q, admitted? (.unitClearSuspect r) s = some q) :=
  ⟨⟨(rq [tlv 1 (natBE 8 0x400000000000500)]), (boundUp), ((admitted? (.objDelete (rq [tlv 1 (natBE 8 0x400000000000500)])) (boundUp)).getD q0), admit_ok (by decide +kernel), by decide +kernel⟩,
    ⟨(rq [tlv 1 (natBE 8 0x400000000000600), tlv 7 [0]]), (obBig), ((admitted? (.objSetTag (rq [tlv 1 (natBE 8 0x400000000000600), tlv 7 [0]])) (obBig)).getD q0), (newObj 6 tyMSV 0 100), admit_ok (by decide +kernel), by decide +kernel⟩,
    ⟨(rq [tlv 1 (natBE 8 0x400000000000600), tlv 7 [3]]), (obBig), ((admitted? (.objSetTag (rq [tlv 1 (natBE 8 0x400000000000600), tlv 7 [3]])) (obBig)).getD q0), (newObj 6 tyMSV 0 100), admit_ok (by decide +kernel), by decide +kernel⟩,
    ⟨(rq [tlv 1 (natBE 8 0x400000000000600), tlv 0x10 (natBE 2 60)]), (obBig), ((admitted? (.objLock (rq [tlv 1 (natBE 8 0x400000000000600), tlv 0x10 (natBE 2 60)])) (obBig)).getD q0), admit_ok (by decide +kernel)⟩,
    ⟨(rq [tlv 1 (natBE 8 0x400000000000600)]), (setLocks obBig [⟨6, 1, 5⟩]), ((admitted? (.objUnlock (rq [tlv 1 (natBE 8 0x400000000000600)])) (setLocks obBig [⟨6, 1, 5⟩])).getD q0), admit_ok (by decide +kernel)⟩,
    ⟨(rq [tlv 1 (natBE 8 0x0800000000000000)]), (setFu linked fun x => { x with suspects := [peerA] }), ((admitted? (.unitClearSuspect (rq [tlv 1 (natBE 8 0x0800000000000000)])) (setFu linked fun x => { x with suspects := [peerA] })).getD q0), admit_ok (by decide +kernel)⟩⟩

theorem test_ObjectWritesAndLocks_12_to_14 :
    (∃ (o : BitVec 13) (l : Lock) (s : State), s.baton.locks.find? (fun l => l.obj == o.toNat) = some l) ∧
    (∃ (k : Fin 64) (h : W32) (x : Session) (c : Cursor) (s : State), s.session? k.val = some x ∧ x.cursors.find? (fun c => c.handle == h.toNat) = some c) ∧
    (∃ (o : BitVec 13) (e : Byte) (x : Elem) (s : State), s.elem? o.toNat e.toNat = some x ∧ x.fresh ≠ 0 ∧ x.src = qGood) :=
  ⟨⟨(6), (⟨6, 1, 5⟩), (setLocks obBig [⟨6, 1, 5⟩]), by decide +kernel⟩,
    ⟨(0), (9), ({ sess0 with cursors := [curs 2] }), (curs 2), (withCur 2), by decide +kernel⟩,
    ⟨(6), (2), (eFresh), (obFresh), by decide +kernel⟩⟩

theorem test_DrillOpcodes :
    (∃ r s q, admitted? (.drillLoad r) s = some q ∧ s.drillBound (tn q.tlvs 0x1101) = false) ∧
    (∃ r s q img, admitted? (.drillRead r) s = some q ∧ (s.drill.lib.find? fun p => p.1 == (tn q.tlvs 0x1101)) = some ((tn q.tlvs 0x1101), img)) ∧
    (∃ r s q, admitted? (.drillDelete r) s = some q ∧ s.drillBound (tn q.tlvs 0x1101) = false) ∧
    (∃ r s q, admitted? (.drillBind r) s = some q) ∧
    (∃ r s q, admitted? (.drillStat r) s = some q) :=
  ⟨⟨(rq [tlv 0x1101 [70], tlv 0x1102 drill70]), (drilled), ((admitted? (.drillLoad (rq [tlv 0x1101 [70], tlv 0x1102 drill70])) (drilled)).getD q0), admit_ok (by decide +kernel), by decide +kernel⟩,
    ⟨(rq [tlv 0x1101 [70]]), (drilled), ((admitted? (.drillRead (rq [tlv 0x1101 [70]])) (drilled)).getD q0), (drill70), admit_ok (by decide +kernel), by decide +kernel⟩,
    ⟨(rq [tlv 0x1101 [70]]), (drilled), ((admitted? (.drillDelete (rq [tlv 0x1101 [70]])) (drilled)).getD q0), admit_ok (by decide +kernel), by decide +kernel⟩,
    ⟨(rq [tlv 0x1103 [1], tlv 0x1101 [0], tlv 0x1104 [0]]), (bound1), ((admitted? (.drillBind (rq [tlv 0x1103 [1], tlv 0x1101 [0], tlv 0x1104 [0]])) (bound1)).getD q0), admit_ok (by decide +kernel)⟩,
    ⟨(rq [tlv 0x1103 [1]]), (bound1), ((admitted? (.drillStat (rq [tlv 0x1103 [1]])) (bound1)).getD q0), admit_ok (by decide +kernel)⟩⟩

theorem test_DrillRunsAndVerdicts :
    (∃ (img : Bytes) (fields : List (Nat × W32)), imageOk img = true) ∧
    (∃ (i : Ingest) (s : State), s.blkOn 15 = true ∧ s.evr.queue.find? (fun i => i.dv == .waiting) = some i) ∧
    (∃ (f : List (Nat × W32)) (rest : List DrillTrig) (img : Bytes) (s : State), s.blkOn 8 = true ∧ s.boundImg 36 = some img ∧ (s.inst 36).queue = ⟨f, .relay⟩ :: rest ∧ ((s.runBound 36 f).1).fault = none) ∧
    (∃ (h : Fin 38) (f : List (Nat × W32)) (fr : CanFrame) (rest : List DrillTrig) (img : Bytes) (s : State), h.val < 4 ∧ s.blkOn 9 = true ∧ s.boundImg h.val = some img ∧ (s.inst h.val).queue = ⟨f, .can h.val fr⟩ :: rest ∧ ((s.runBound h.val f).1).fault = none ∧ ((s.runBound h.val f).1).verdict = 0 ∧ ((s.runBound h.val f).1).run.acts = []) ∧
    (∃ (h : Fin 38) (x : DrillTrig) (rest : List DrillTrig) (s : State), h.val ≠ 37 ∧ s.blkOn (drillBlk h.val) = true ∧ s.drillOn h.val = false ∧ (s.inst h.val).queue = x :: rest) ∧
    (∃ (h : Fin 38) (s : State), ((s.blkOn (drillBlk h.val) = false ∨ h.val ≠ 37 ∧ (s.inst h.val).queue = []))) :=
  ⟨⟨(drill70), ([(0, 0x185), (1, 0)]), by decide +kernel⟩,
    ⟨(⟨⟨0, 0x0101, 1, 0, 0, 0, []⟩, .waiting⟩), ({ up with evr := { up.evr with queue := [⟨⟨0, 0x0101, 1, 0, 0, 0, []⟩, .waiting⟩] } }), by decide +kernel⟩,
    ⟨([(0, 1)]), ([]), (drill4), (rQueueOf drill4), by decide +kernel⟩,
    ⟨(1), (dFlds), (dFr), ([]), (drill70), (cQueue), by decide +kernel⟩,
    ⟨(7), (dTrig), ([]), (dQueue), by decide +kernel⟩,
    ⟨(2), (up), Or.inr (by decide +kernel)⟩⟩

theorem test_LedgerOpcodes_0_to_5 :
    (∃ r s q, admitted? (.modeSet r) s = some q ∧ s.bankHolds (tn q.tlvs 0x0201) = false) ∧
    (∃ r s q, admitted? (.modeSet r) s = some q ∧ s.bankHolds (tn q.tlvs 0x0201) = true) ∧
    (∃ r s q, admitted? (.limitSet r) s = some q) ∧
    (∃ r s q, admitted? (.ledgerCfg r) s = some q) ∧
    (∃ (m : Monitor) (i : Item) (s : State), s.start.phase ≠ .cold ∧ s.baton.items = [i] ∧ i.wait = .modeSet ∧ s.ledger.auto = false ∧ s.mode ≠ modeHoldup ∧ s.mode ≠ modeIsland ∧ i.a ≤ 3 ∧ i.a ≠ s.mode ∧ s.bankHolds i.a = false ∧ ((isRunMode i.a = true → s.tooShort i.a = false))) ∧
    (∃ (m : Monitor) (i : Item) (s : State), s.start.phase ≠ .cold ∧ s.baton.items = [i] ∧ i.wait = .modeSet ∧ s.ledger.auto = false ∧ s.mode ≠ modeHoldup ∧ i.a = s.mode) :=
  ⟨⟨(rq [tlv 0x0201 [3]]), (up), ((admitted? (.modeSet (rq [tlv 0x0201 [3]])) (up)).getD q0), admit_ok (by decide +kernel), by decide +kernel⟩,
    ⟨(rq [tlv 0x0201 [3]]), (sets blocks [(F.LEDGER_HOLD_MIN_MJ, 9500)]), ((admitted? (.modeSet (rq [tlv 0x0201 [3]])) (sets blocks [(F.LEDGER_HOLD_MIN_MJ, 9500)])).getD q0), admit_ok (by decide +kernel), by decide +kernel⟩,
    ⟨(rq [tlv 0x0203 (natBE 4 3145732)]), (up), ((admitted? (.limitSet (rq [tlv 0x0203 (natBE 4 3145732)])) (up)).getD q0), admit_ok (by decide +kernel)⟩,
    ⟨(rq [tlv 0x0206 (natBE 4 50000)]), (up), ((admitted? (.ledgerCfg (rq [tlv 0x0206 (natBE 4 50000)])) (up)).getD q0), admit_ok (by decide +kernel)⟩,
    ⟨(⟨9000, 8000, 0⟩), (⟨1, 7, 0, 0x0201, 0, 0, true, .modeSet, 1, 0, [], false⟩), (inTick 1 .modeSet []), by decide +kernel⟩,
    ⟨(⟨9000, 8000, 0⟩), (⟨1, 7, 0, 0x0201, 0, 0, true, .modeSet, 2, 0, [], false⟩), (inTick 2 .modeSet []), by decide +kernel⟩⟩

theorem test_LedgerOpcodes_6_to_8 :
    (∃ (m : Monitor) (i : Item) (x : Tlv) (off : Nat) (s : State), s.start.phase ≠ .cold ∧ s.baton.items = [i] ∧ i.wait = .limits ∧ parseTlvs (i.data.length + 1) 12 i.data = .ok [x] ∧ ledgerRegOf x.typ = some off ∧ s.ledger.auto = false) ∧
    (∃ r s q, admitted? (.modeGet r) s = some q) ∧
    (∃ r s q, admitted? (.ledgerRead r) s = some q) :=
  ⟨⟨(⟨9000, 8000, 0⟩), (⟨1, 7, 0, 0x0201, 0, 0, true, .limits, 3, 0, tlv 0x0206 (natBE 4 50000), false⟩), (⟨0x0206, 12, natBE 4 50000⟩), (Reg.LEDGER_BUDGET), (inTick 3 .limits (tlv 0x0206 (natBE 4 50000))), by decide +kernel⟩,
    ⟨(rq []), (up), ((admitted? (.modeGet (rq [])) (up)).getD q0), admit_ok (by decide +kernel)⟩,
    ⟨(rq []), (up), ((admitted? (.ledgerRead (rq [])) (up)).getD q0), admit_ok (by decide +kernel)⟩⟩

theorem test_LedgerTickAndSources :
    (∃ (m : Monitor) (s : State), s.start.phase ≠ .cold ∧ ((∀ i ∈ s.baton.items, i.wait ≠ .limits ∧ i.wait ≠ .modeSet ∧ i.wait ≠ .modeHeld)) ∧ s.ledger.auto = false ∧ s.mode ≠ modeHoldup) ∧
    (∃ (m : Monitor) (s : State), s.start.phase ≠ .cold ∧ ((∀ i ∈ s.baton.items, i.wait ≠ .limits)) ∧ s.mode = modeHoldup) ∧
    (∃ (m : Monitor) (s : State), s.start.phase = .cold) ∧
    (∃ (vin : BitVec 16) (poe : BitVec 16) (cls : BitVec 4) (s : State), s.start.phase ≠ .cold ∧ (s.vinUp vin.toNat || s.poeUp poe.toNat cls.toNat) = true) ∧
    (∃ (vin : BitVec 16) (poe : BitVec 16) (cls : BitVec 4) (s : State), ((s.start.phase = .cold ∨ (s.vinUp vin.toNat || s.poeUp poe.toNat cls.toNat) = false))) :=
  ⟨⟨(⟨9000, 8000, 0⟩), (sets up [(F.LEDGER_MODE_BASE, 5)]), by decide +kernel⟩,
    ⟨(⟨9000, 8000, 0⟩), (held), by decide +kernel⟩,
    ⟨(⟨9000, 8000, 0⟩), (phased .cold), by decide +kernel⟩,
    ⟨(0), (31000), (8), (up.put F.LEDGER_SRC_POE 1), by decide +kernel⟩,
    ⟨(0), (48000), (6), (up.put F.LEDGER_SRC_VIN 1), Or.inr (by decide +kernel)⟩⟩

theorem test_SupplyLossAndReturn_0_to_5 :
    (∃ (bank : W32) (s : State), ((s.start.phase = .running ∨ s.start.phase = .firmware ∨ s.start.phase = .restarting))) ∧
    (∃ (bank : W32) (s : State), ((s.start.phase = .poweredOn ∨ s.start.phase = .booted ∨ s.start.phase = .recovery))) ∧
    (∃ (bank : W32) (s : State), s.start.phase = .holdup) ∧
    (∃ (bank : W32) (s : State), s.start.phase = .cold) ∧
    (∃ (vin : BitVec 16) (poe : BitVec 16) (cls : BitVec 4) (s : State), s.mode = modeHoldup ∧ (s.vinUp vin.toNat || s.poeUp poe.toNat cls.toNat) = true) ∧
    (∃ (vin : BitVec 16) (poe : BitVec 16) (cls : BitVec 4) (s : State), ((s.mode ≠ modeHoldup ∨ (s.vinUp vin.toNat || s.poeUp poe.toNat cls.toNat) = false))) :=
  ⟨⟨(5000), (sets up [(F.LEDGER_SRC_VIN, 1)]), by decide +kernel⟩,
    ⟨(5000), (setStart up fun x => { x with phase := .booted }), by decide +kernel⟩,
    ⟨(5000), (held), by decide +kernel⟩,
    ⟨(5000), (phased .cold), by decide +kernel⟩,
    ⟨(24000), (0), (0), (held), by decide +kernel⟩,
    ⟨(17000), (0), (0), (held.put F.LEDGER_SRC_VIN 0), Or.inr (by decide +kernel)⟩⟩

theorem test_SupplyLossAndReturn_6_to_9 :
    (∃ (x : Nat) (s : State), s.ledger.hold.stable = some x ∧ s.mode = modeHoldup ∧ s.ledger.hold.step = 9 ∧ s.start.phase = .holdup) ∧
    (∃ (s : State), ((s.ledger.hold.stable = none ∨ s.mode ≠ modeHoldup ∨ s.ledger.hold.step ≠ 9))) ∧
    (∃ (s : State), s.start.phase ≠ .cold ∧ s.supplied = false ∧ ((s.start.phase = .holdup → s.ledger.hold.enough = true → s.ledger.hold.step ≥ 9))) ∧
    (∃ (s : State), ((s.start.phase = .cold ∨ s.supplied = true ∨ s.start.phase = .holdup ∧ s.ledger.hold.enough = true ∧ s.ledger.hold.step < 9))) :=
  ⟨⟨(7), (setHold ((heldAt 9).put F.LEDGER_SRC_VIN 1) fun x => { x with stable := some 7 }), by decide +kernel⟩,
    ⟨(setHold up fun x => { x with stable := some 7 }), Or.inr (Or.inl (by decide +kernel))⟩,
    ⟨(sets up [(F.LEDGER_SRC_VIN, 0)]), by decide +kernel⟩,
    ⟨(setHold held fun x => { x with enough := true }), Or.inr (Or.inr (by decide +kernel))⟩⟩

theorem test_HoldupSteps_0_to_5 :
    (∃ (owner : BitVec 256) (item : W32) (i : Item) (h : HoldItem) (s : State), s.closing = true ∧ s.ledger.hold.items.find? (fun h => h.ref == .baton owner item) = some h ∧ s.item? owner item.toNat = some i) ∧
    (∃ (c : Fin 32) (d : Desc) (h : HoldItem) (s : State), s.closing = true ∧ s.ledger.hold.items.find? (fun h => h.ref == .dma c) = some h ∧ (s.dmaCh c.val).desc = some d) ∧
    (∃ (n : Fin 8) (h : HoldItem) (s : State), s.closing = true ∧ s.ledger.hold.items.find? (fun h => h.ref == .lap n) = some h) ∧
    (∃ (k : Fin 16) (item : W32) (w : RWrite) (h : HoldItem) (s : State), s.closing = true ∧ k.val ≥ 4 ∧ s.ledger.hold.items.find? (fun h => h.ref == .link k item) = some h ∧ s.relay.writes.find? (fun w => relayRef w == .link k item) = some w) ∧
    (∃ (ref : HoldRef) (s : State), ((s.closing = false ∨ s.ledger.hold.items.find? (fun h => h.ref == ref) = none))) ∧
    (∃ (s : State), s.stepDue 6 = true) :=
  ⟨⟨(1), (7), (⟨1, 7, 0, 0x0105, 0, 0, true, .write, 0, 0, [], false⟩), (⟨.baton 1 7, 100, 9, false⟩), (setHold (withItem (heldAt 5) ⟨1, 7, 0, 0x0105, 0, 0, true, .write, 0, 0, [], false⟩) fun x => { x with items := [⟨.baton 1 7, 100, 9, false⟩] }), by decide +kernel⟩,
    ⟨(3), (⟨0, 0, 0, 0, 0⟩), (⟨.dma 3, 500, 9, false⟩), (dHeld), by decide +kernel⟩,
    ⟨(2), (⟨.lap 2, 500, 9, false⟩), (lHeld), by decide +kernel⟩,
    ⟨(4), (5), (rwA), (⟨.link 4 5, 500, 9, false⟩), (rHeld), by decide +kernel⟩,
    ⟨(.dma 3), (held), Or.inr (by decide +kernel)⟩,
    ⟨(withItem (heldAt 5) ⟨1, 7, 0, 0x0105, 0, 0, true, .write, 0, 0, [], false⟩), by decide +kernel⟩⟩

theorem test_HoldupSteps_6_to_12 :
    (∃ (s : State), s.stepDue 6 = false) ∧
    (∃ (s : State), s.stepDue 7 = true) ∧
    (∃ (s : State), s.stepDue 7 = false) ∧
    (∃ (s : State), s.stepDue 8 = true) ∧
    (∃ (s : State), s.stepDue 8 = false) ∧
    (∃ (bank : W32) (s : State), s.mode = modeHoldup ∧ s.stepDue 9 = true) :=
  ⟨⟨(up), by decide +kernel⟩,
    ⟨(heldAt 6), by decide +kernel⟩,
    ⟨(up), by decide +kernel⟩,
    ⟨(heldAt 7), by decide +kernel⟩,
    ⟨(up), by decide +kernel⟩,
    ⟨(4000), (heldAt 8), by decide +kernel⟩⟩

theorem test_HoldupSteps_13 :
    (∃ (bank : W32) (s : State), ((s.mode ≠ modeHoldup ∨ s.stepDue 9 = false))) :=
  ⟨(4000), (heldAt 3), Or.inr (by decide +kernel)⟩

theorem test_StartUpSteps_0_to_5 :
    (∃ (vin : BitVec 16) (poe : BitVec 16) (cls : BitVec 4) (s : State), s.start.phase = .cold ∧ (s.vinUp vin.toNat || s.poeUp poe.toNat cls.toNat) = true) ∧
    (∃ (vin : BitVec 16) (poe : BitVec 16) (cls : BitVec 4) (s : State), ((s.start.phase ≠ .cold ∨ (s.vinUp vin.toNat || s.poeUp poe.toNat cls.toNat) = false))) ∧
    (∃ (v : BootCheck) (b : Nat) (s : State), s.start.phase = .poweredOn ∧ (s.bootSet v).1 = some b) ∧
    (∃ (v : BootCheck) (s : State), s.start.phase = .poweredOn ∧ (s.bootSet v).1 = none ∧ ((s.setFails 0 v.failA).any (fun x => x.1 = 1) && (s.setFails 1 v.failB).any (fun x => x.1 = 1)) = false) ∧
    (∃ (v : BootCheck) (s : State), s.start.phase = .poweredOn ∧ (s.bootSet v).1 = none ∧ ((s.setFails 0 v.failA).any (fun x => x.1 = 1) && (s.setFails 1 v.failB).any (fun x => x.1 = 1)) = true) ∧
    (∃ (v : BootCheck) (s : State), s.start.phase ≠ .poweredOn) :=
  ⟨⟨(24000), (0), (0), (phased .cold), by decide +kernel⟩,
    ⟨(0), (48000), (3), (phased .cold), Or.inr (by decide +kernel)⟩,
    ⟨(⟨some (0, .signature), none⟩), (1), (bootableB), by decide +kernel⟩,
    ⟨(⟨some (1, .signature), some (0, .signature)⟩), (bootable), by decide +kernel⟩,
    ⟨(⟨some (0, .signature), some (0, .signature)⟩), (bootable), by decide +kernel⟩,
    ⟨(⟨none, none⟩), (up), by decide +kernel⟩⟩

theorem test_StartUpSteps_6_to_10 :
    (∃ (ok : Bool) (s : State), s.start.phase = .booted ∧ (aonLoads.foldl (fun s off => s.load off) s).recordStart.2 = false) ∧
    (∃ (ok : Bool) (s : State), s.start.phase = .booted ∧ (aonLoads.foldl (fun s off => s.load off) s).recordStart.2 = true) ∧
    (∃ (ok : Bool) (s : State), s.start.phase ≠ .booted) ∧
    (∃ (s : State), s.start.phase = .firmware) ∧
    (∃ (s : State), s.start.phase ≠ .firmware) :=
  ⟨⟨(true), (phased .booted), by decide +kernel⟩,
    ⟨(true), (spentUp), by decide +kernel⟩,
    ⟨(true), (up), by decide +kernel⟩,
    ⟨(phased .firmware), by decide +kernel⟩,
    ⟨(up), by decide +kernel⟩⟩

theorem test_ResetsAndWatchdog_0_to_5 :
    (∃ r s q, admitted? (.restart r) s = some q) ∧
    (∃ (k : Nat) (s : State), s.start.phase = .restarting ∧ s.start.restartKind = some k ∧ ((k = 3 ∨ k = 4)) ∧ s.ledger.hold.step = 8) ∧
    (∃ (s : State), ((s.start.phase ≠ .restarting ∨ s.start.restartKind = none ∨ s.ledger.hold.step ≠ 8) ∧ (s.start.phase ≠ .poweredOn ∨ s.start.coin.cmd = none ∨ s.clk ≠ s.startClk))) ∧
    (∃ (pc : W64) (s : State), s.sys.wdtOn = true ∧ s.pdOn 1 = true ∧ s.start.phase ≠ .cold ∧ s.start.phase ≠ .poweredOn) ∧
    (∃ (pc : W64) (s : State), ((s.sys.wdtOn = false ∨ s.pdOn 1 = false)) ∧ ((s.start.coin.wdt = none ∨ s.start.phase ≠ .poweredOn ∨ s.clk ≠ s.startClk))) ∧
    (∃ (s : State), s.pdOn 1 = true ∧ s.start.phase ≠ .cold ∧ s.start.phase ≠ .poweredOn) :=
  ⟨⟨(rq [tlv 0x0181 [0]]), (up), ((admitted? (.restart (rq [tlv 0x0181 [0]])) (up)).getD q0), admit_ok (by decide +kernel)⟩,
    ⟨(3), (resting), by decide +kernel⟩,
    ⟨(up), by decide +kernel⟩,
    ⟨(0x1234), (setSys up fun x => { x with wdtOn := true }), by decide +kernel⟩,
    ⟨(0), (up), by decide +kernel⟩,
    ⟨(up), by decide +kernel⟩⟩

theorem test_ResetsAndWatchdog_6_to_11 :
    (∃ (s : State), s.pdOn 1 = false ∧ ((s.start.coin.app = false ∨ s.start.phase ≠ .poweredOn ∨ s.clk ≠ s.startClk))) ∧
    (∃ (k : Nat) (s : State), s.start.phase = .poweredOn ∧ s.start.coin.cmd = some k ∧ s.clk = s.startClk) ∧
    (∃ (pc : W64) (x : Nat) (s : State), s.pdOn 1 = false ∧ s.start.phase = .poweredOn ∧ s.start.coin.wdt = some x ∧ x ≤ s.clk ∧ s.clk = s.startClk) ∧
    (∃ (s : State), s.pdOn 1 = false ∧ s.start.phase = .poweredOn ∧ s.start.coin.app = true ∧ s.clk = s.startClk) ∧
    (∃ r s q x, admitted? (.residueRead r) s = some q ∧ tv? q.tlvs 0x0005 = none ∧ s.residueGen (tn q.tlvs 0x0182) = some x ∧ (if q.tag = 0 || q.tag = 255 then x.entries else x.entries.filter fun e => e.tag == q.tag).length ≤ 67) ∧
    (∃ r s q, admitted? (.startInfo r) s = some q) :=
  ⟨⟨(up.put F.SYS_PD_STAT_ON 1), by decide +kernel⟩,
    ⟨(3), (coined), by decide +kernel⟩,
    ⟨(5), (0), (coined), by decide +kernel⟩,
    ⟨(coined), by decide +kernel⟩,
    ⟨(rq []), (residing), ((admitted? (.residueRead (rq [])) (residing)).getD q0), (⟨3, 0, 0, 1, 0, [⟨0, 0, 1, 1, 7, 0x0105⟩]⟩), admit_ok (by decide +kernel), by decide +kernel⟩,
    ⟨(rq []), (up), ((admitted? (.startInfo (rq [])) (up)).getD q0), admit_ok (by decide +kernel)⟩⟩

theorem test_LapTaskOpcodes :
    (∃ r s q, admitted? (.taskCfg r) s = some q) ∧
    (∃ r s q, admitted? (.taskStart r) s = some q) ∧
    (∃ r s q, admitted? (.taskStop r) s = some q ∧ ((∀ n, n < 8 → bit1 (tn q.tlvs 0x0302) n = 1 → s.taskLive n = true → (s.task n).phase = .idle))) ∧
    (∃ r s q n, admitted? (.taskStop r) s = some q ∧ n < 8 ∧ bit1 (tn q.tlvs 0x0302) n = 1 ∧ s.taskLive n = true ∧ (s.task n).phase ≠ .idle) ∧
    (∃ r s q, admitted? (.lapStatus r) s = some q) :=
  ⟨⟨(rq [tlv 0x0301 [7], tlv 0x0303 (natBE 4 0x01030005 ++ natBE 4 1000 ++ natBE 4 0 ++ natBE 4 500)]), (up), ((admitted? (.taskCfg (rq [tlv 0x0301 [7], tlv 0x0303 (natBE 4 0x01030005 ++ natBE 4 1000 ++ natBE 4 0 ++ natBE 4 500)])) (up)).getD q0), admit_ok (by decide +kernel)⟩,
    ⟨(rq [tlv 0x0302 [1]]), (configured), ((admitted? (.taskStart (rq [tlv 0x0302 [1]])) (configured)).getD q0), admit_ok (by decide +kernel)⟩,
    ⟨(rq [tlv 0x0302 [6]]), (runTask), ((admitted? (.taskStop (rq [tlv 0x0302 [6]])) (runTask)).getD q0), admit_ok (by decide +kernel), by decide +kernel⟩,
    ⟨(rq [tlv 0x0302 [3]]), (runTask), ((admitted? (.taskStop (rq [tlv 0x0302 [3]])) (runTask)).getD q0), (0), admit_ok (by decide +kernel), by decide +kernel⟩,
    ⟨(rq [tlv 0x0301 [0]]), (runTask), ((admitted? (.lapStatus (rq [tlv 0x0301 [0]])) (runTask)).getD q0), admit_ok (by decide +kernel)⟩⟩

theorem test_ProgramLoadAndOnlineChange_0_to_5 :
    (∃ r s q b, admitted? (.progLoad r) s = some q ∧ tv? q.tlvs 0x0306 = some b ∧ (¬ (s.ocState = ocLoading ∧ beNat b = (s.slot s.standby).size))) ∧
    (∃ r s q, admitted? (.progLoad r) s = some q ∧ ((tv? q.tlvs 0x0306 = none ∨ s.ocState = ocLoading ∧ beNat (tv q.tlvs 0x0306) = (s.slot s.standby).size ∧ (tv? q.tlvs 0x0306).isSome = true))) ∧
    (∃ r s q, admitted? (.progPrepare r) s = some q) ∧
    (∃ r s q, admitted? (.progSwitch r) s = some q) ∧
    (∃ r s q, admitted? (.progRevert r) s = some q) ∧
    (∃ (s : State), s.lap.sw.isSome = true ∧ s.lap.copy = none ∧ ((∀ n, n < 8 → (s.task n).phase = .idle))) :=
  ⟨⟨(rq [tlv 0x0304 (natBE 4 0), tlv 0x0305 [1, 2], tlv 0x0306 (natBE 4 2)]), (up), ((admitted? (.progLoad (rq [tlv 0x0304 (natBE 4 0), tlv 0x0305 [1, 2], tlv 0x0306 (natBE 4 2)])) (up)).getD q0), (natBE 4 2), admit_ok (by decide +kernel), by decide +kernel⟩,
    ⟨(rq [tlv 0x0304 (natBE 4 0), tlv 0x0305 [1, 2], tlv 0x0306 (natBE 4 4)]), (loading), ((admitted? (.progLoad (rq [tlv 0x0304 (natBE 4 0), tlv 0x0305 [1, 2], tlv 0x0306 (natBE 4 4)])) (loading)).getD q0), admit_ok (by decide +kernel), Or.inr (by decide +kernel)⟩,
    ⟨(rq []), (loaded), ((admitted? (.progPrepare (rq [])) (loaded)).getD q0), prepare_ok (by decide +kernel) (by decide +kernel) (by decide +kernel)⟩,
    ⟨(rq []), (prepared), ((admitted? (.progSwitch (rq [])) (prepared)).getD q0), switch_ok (by decide +kernel) (by decide +kernel) (by decide +kernel)⟩,
    ⟨(rq []), (up), ((admitted? (.progRevert (rq [])) (up)).getD q0), revert_ok (by decide +kernel) (by decide +kernel) (by decide +kernel)⟩,
    ⟨(withItem (setLap up fun x => { x with sw := some (0, false) }) { itm .progSwitch false with opcode := 0x0306 }), by decide +kernel⟩⟩

theorem test_ProgramLoadAndOnlineChange_6_to_10 :
    (∃ (s : State), ((s.lap.sw = none ∨ s.lap.copy.isSome = true ∨ ∃ n, n < 8 ∧ (s.task n).phase ≠ .idle))) ∧
    (∃ (c : Nat) (w : Nat × Bool) (s : State), s.lap.copy = some c ∧ s.lap.sw = some w ∧ ((∀ n, n < 8 → (s.task n).held = false))) ∧
    (∃ (s : State), ((s.lap.copy = none ∨ s.lap.sw = none))) ∧
    (∃ (w : Nat × Bool) (s : State), s.lap.copy = none ∧ s.lap.sw = some w) ∧
    (∃ (s : State), ((s.lap.copy.isSome = true ∨ s.lap.sw = none))) :=
  ⟨⟨(copying), Or.inr (Or.inl (by decide +kernel))⟩,
    ⟨(5), ((0, false)), (withItem copying { itm .progSwitch true with opcode := 0x0306 }), by decide +kernel⟩,
    ⟨(up), Or.inl (by decide +kernel)⟩,
    ⟨((0, true)), (withItem (setLap up fun x => { x with sw := some (0, true) }) { itm .progSwitch true with opcode := 0x0307 }), by decide +kernel⟩,
    ⟨(up), Or.inr (by decide +kernel)⟩⟩

theorem test_Forces :
    (∃ r s q, admitted? (.forceSet r) s = some q) ∧
    (∃ r s q a, admitted? (.forceClear r) s = some q ∧ tv? q.tlvs 0x0001 = some a ∧ (s.force? (addrObj (tAddr q.tlvs)) (addrElem (tAddr q.tlvs))).isSome = true) ∧
    (∃ r s q a, admitted? (.forceClear r) s = some q ∧ tv? q.tlvs 0x0001 = some a ∧ s.force? (addrObj (tAddr q.tlvs)) (addrElem (tAddr q.tlvs)) = none) ∧
    (∃ r s q, admitted? (.forceClear r) s = some q ∧ tv? q.tlvs 0x0001 = none) ∧
    (∃ r s q, admitted? (.forceList r) s = some q ∧ tv? q.tlvs 0x0005 = none ∧ s.estate.forces.length ≤ 57) :=
  ⟨⟨(rq [tlv 0x0309 (natBE 8 0x0400000000000602 ++ [3, 0, 0, 0] ++ natBE 8 9)]), (forcedBig), ((admitted? (.forceSet (rq [tlv 0x0309 (natBE 8 0x0400000000000602 ++ [3, 0, 0, 0] ++ natBE 8 9)])) (forcedBig)).getD q0), admit_ok (by decide +kernel)⟩,
    ⟨(rq [tlv 1 (natBE 8 0x0400000000000602)]), (forcedBig), ((admitted? (.forceClear (rq [tlv 1 (natBE 8 0x0400000000000602)])) (forcedBig)).getD q0), (natBE 8 0x0400000000000602), admit_ok (by decide +kernel), by decide +kernel⟩,
    ⟨(rq [tlv 1 (natBE 8 0x0400000000000603)]), (forcedBig), ((admitted? (.forceClear (rq [tlv 1 (natBE 8 0x0400000000000603)])) (forcedBig)).getD q0), (natBE 8 0x0400000000000603), admit_ok (by decide +kernel), by decide +kernel⟩,
    ⟨(rq [tlv 0x030A [1]]), (forcedBig), ((admitted? (.forceClear (rq [tlv 0x030A [1]])) (forcedBig)).getD q0), admit_ok (by decide +kernel), by decide +kernel⟩,
    ⟨(rq []), (forcedBig), ((admitted? (.forceList (rq [])) (forcedBig)).getD q0), admit_ok (by decide +kernel), by decide +kernel⟩⟩

theorem test_LapPhases_0_to_5 :
    (∃ (n : Fin 8) (s : State), n.val < s.lap.tasks.length ∧ s.taskLive n.val = true ∧ s.lapsRun = true ∧ s.lap.copy = none ∧ (s.task n.val).phase = .idle) ∧
    (∃ (n : Fin 8) (s : State), s.taskLive n.val = true ∧ s.lapsRun = true ∧ s.lap.copy = none ∧ (s.task n.val).phase ≠ .idle ∧ satAdd 255 (s.get (F.LAP_TSTAT_CONSEC n.val)) 1 < s.get (F.LAP_TCFG_OVR_LIMIT n.val)) ∧
    (∃ (n : Fin 8) (s : State), s.taskLive n.val = true ∧ s.lapsRun = true ∧ s.lap.copy = none ∧ (s.task n.val).phase ≠ .idle ∧ s.get (F.LAP_TCFG_OVR_LIMIT n.val) ≤ satAdd 255 (s.get (F.LAP_TSTAT_CONSEC n.val)) 1) ∧
    (∃ (n : Fin 8) (s : State), n.val < s.lap.tasks.length ∧ s.taskLive n.val = true ∧ s.lapsRun = true ∧ s.lap.copy.isSome = true) ∧
    (∃ (n : Fin 8) (s : State), ((s.taskLive n.val = false ∨ s.lapsRun = false))) ∧
    (∃ (n : Fin 8) (c : FbCall) (s : State), (((s.task n.val).phase = .captured ∨ (s.task n.val).phase = .running)) ∧ s.blkOn 3 = true ∧ ((∀ k, k < n.val → ((s.task k).phase = .captured ∨ (s.task k).phase = .running) → s.get (F.LAP_TCFG_CORE k) ≠ s.get (F.LAP_TCFG_CORE n.val)))) :=
  ⟨⟨(0), (waitNext), by decide +kernel⟩,
    ⟨(0), (inPhase .returned), by decide +kernel⟩,
    ⟨(0), (runTask.put (F.LAP_TSTAT_CONSEC 0) 255), by decide +kernel⟩,
    ⟨(0), (copyWait), by decide +kernel⟩,
    ⟨(0), (up), Or.inl (by decide +kernel)⟩,
    ⟨(0), (FC), (runTask), by decide +kernel⟩⟩

theorem test_LapPhases_6_to_11 :
    (∃ (n : Fin 8) (calls : List FbCall) (s : State), (((s.task n.val).phase = .captured ∨ (s.task n.val).phase = .running)) ∧ s.blkOn 3 = true ∧ ((∀ k, k < n.val → ((s.task k).phase = .captured ∨ (s.task k).phase = .running) → s.get (F.LAP_TCFG_CORE k) ≠ s.get (F.LAP_TCFG_CORE n.val)))) ∧
    (∃ (n : Fin 8) (calls : List FbCall) (s : State), ((s.blkOn 3 = false ∨ (s.task n.val).phase = .idle ∨ (s.task n.val).phase = .returned))) ∧
    (∃ (n : Fin 8) (outs : List LapOut) (vars : List LapVar) (charts : List LapChart) (s : State), (s.task n.val).phase = .running ∧ s.tstate n.val = tsRunning ∧ s.get (F.LAP_TCFG_COMMIT n.val) = 0 ∧ (s.task n.val).stop = none) ∧
    (∃ (n : Fin 8) (outs : List LapOut) (vars : List LapVar) (charts : List LapChart) (c : Nat) (s : State), (s.task n.val).phase = .running ∧ s.tstate n.val = tsRunning ∧ s.get (F.LAP_TCFG_COMMIT n.val) = 0 ∧ (s.task n.val).stop = some c) ∧
    (∃ (n : Fin 8) (outs : List LapOut) (vars : List LapVar) (charts : List LapChart) (s : State), (s.task n.val).phase = .running ∧ s.tstate n.val = tsRunning ∧ s.get (F.LAP_TCFG_COMMIT n.val) = 1 ∧ s.clk ≤ (s.task n.val).relAt + s.get (F.LAP_TCOM_COMMIT_OFS n.val) * usec ∧ (s.task n.val).late = false) ∧
    (∃ (n : Fin 8) (outs : List LapOut) (vars : List LapVar) (charts : List LapChart) (s : State), (s.task n.val).phase = .running ∧ s.tstate n.val = tsRunning ∧ s.get (F.LAP_TCFG_COMMIT n.val) = 1 ∧ (((s.task n.val).relAt + s.get (F.LAP_TCOM_COMMIT_OFS n.val) * usec < s.clk ∨ (s.task n.val).late = true)) ∧ (s.task n.val).stop = none) :=
  ⟨⟨(0), ([]), (taken), by decide +kernel⟩,
    ⟨(0), ([]), (waitTask), Or.inr (Or.inl (by decide +kernel))⟩,
    ⟨(0), ([⟨6, 1, 5⟩]), ([⟨3, [9]⟩]), ([⟨4, [1, 2]⟩]), (varTask), by decide +kernel⟩,
    ⟨(0), ([]), ([]), ([]), (1), (withItem (stopTask 1) { itm .taskStop true with a := 3 }), by decide +kernel⟩,
    ⟨(0), ([⟨6, 1, 5⟩]), ([⟨3, [9]⟩]), ([⟨4, [1, 2]⟩]), (varTask.put (F.LAP_TCFG_COMMIT 0) 1), by decide +kernel⟩,
    ⟨(0), ([]), ([]), ([]), (setLap lateTask fun x => { x with tasks := x.tasks.map fun t => { t with late := true } }), by decide +kernel⟩⟩

theorem test_LapPhases_12_to_17 :
    (∃ (n : Fin 8) (outs : List LapOut) (vars : List LapVar) (charts : List LapChart) (s : State), (((s.task n.val).phase ≠ .running ∨ s.tstate n.val ≠ tsRunning))) ∧
    (∃ (n : Fin 8) (s : State), (s.task n.val).phase = .returned ∧ s.get (F.LAP_TCFG_COMMIT n.val) = 1 ∧ (s.task n.val).stop = none) ∧
    (∃ (n : Fin 8) (s : State), (((s.task n.val).phase = .captured ∨ (s.task n.val).phase = .running)) ∧ s.get (F.LAP_TCFG_COMMIT n.val) = 1 ∧ (s.task n.val).late = false) ∧
    (∃ (n : Fin 8) (s : State), (((s.task n.val).phase = .idle ∨ s.get (F.LAP_TCFG_COMMIT n.val) = 0))) ∧
    (∃ (n : Fin 8) (o : BitVec 13) (e : Byte) (w : WStat) (s : State), s.lap.wstat.find? (fun w => w.task == n.val && w.obj == o.toNat && w.elem == e.toNat) = some w) ∧
    (∃ (n : Fin 8) (o : BitVec 13) (e : Byte) (s : State), s.lap.wstat.find? (fun w => w.task == n.val && w.obj == o.toNat && w.elem == e.toNat) = none) :=
  ⟨⟨(0), ([]), ([]), ([]), (waitTask), by decide +kernel⟩,
    ⟨(0), ((inPhase .returned).put (F.LAP_TCFG_COMMIT 0) 1), by decide +kernel⟩,
    ⟨(0), (runTask.put (F.LAP_TCFG_COMMIT 0) 1), by decide +kernel⟩,
    ⟨(0), (waitTask), Or.inl (by decide +kernel)⟩,
    ⟨(0), (6), (1), (⟨0, 6, 1, 2⟩), (setLap up fun x => { x with wstat := [⟨0, 6, 1, 2⟩] }), by decide +kernel⟩,
    ⟨(0), (6), (1), (up), by decide +kernel⟩⟩

theorem test_LoopOpcodes_0_to_5 :
    (∃ r s q, admitted? (.loopAssign r) s = some q ∧ loopN q < s.engine.loops.length) ∧
    (∃ r s q, admitted? (.loopCfg r) s = some q) ∧
    (∃ r s q, admitted? (.loopBind r) s = some q ∧ loopN q < s.engine.loops.length) ∧
    (∃ r s q, admitted? (.loopBankWrite r) s = some q) ∧
    (∃ r s q, admitted? (.loopBankRead r) s = some q) ∧
    (∃ r s q, admitted? (.loopRead r) s = some q) :=
  ⟨⟨(rq [tlv 0x0401 [255], tlv 1 (natBE 8 0x0400000000000700)]), (loopObj), ((admitted? (.loopAssign (rq [tlv 0x0401 [255], tlv 1 (natBE 8 0x0400000000000700)])) (loopObj)).getD q0), admit_ok (by decide +kernel), by decide +kernel⟩,
    ⟨(rq [tlv 0x0401 [3], tlv 0x0402 (natBE 4 0x00004000 ++ natBE 4 0x0A000064 ++ natBE 4 5 ++ natBE 4 77)]), (up), ((admitted? (.loopCfg (rq [tlv 0x0401 [3], tlv 0x0402 (natBE 4 0x00004000 ++ natBE 4 0x0A000064 ++ natBE 4 5 ++ natBE 4 77)])) (up)).getD q0), admit_ok (by decide +kernel)⟩,
    ⟨(rq [tlv 0x0401 [3], tlv 0x0403 ([0, 1, 0, 0] ++ natBE 8 0x0400000000000501 ++ natBE 4 0 ++ natBE 4 100)]), (withObj loopObj (newObj 5 tyAI 0 6)), ((admitted? (.loopBind (rq [tlv 0x0401 [3], tlv 0x0403 ([0, 1, 0, 0] ++ natBE 8 0x0400000000000501 ++ natBE 4 0 ++ natBE 4 100)])) (withObj loopObj (newObj 5 tyAI 0 6))).getD q0), admit_ok (by decide +kernel), by decide +kernel⟩,
    ⟨(rq [tlv 0x0401 [3], tlv 0x0404 ((List.range 24).map (fun k => natBE 4 (if k < 6 then k + 1 else 0))).flatten]), (up), ((admitted? (.loopBankWrite (rq [tlv 0x0401 [3], tlv 0x0404 ((List.range 24).map (fun k => natBE 4 (if k < 6 then k + 1 else 0))).flatten])) (up)).getD q0), admit_ok (by decide +kernel)⟩,
    ⟨(rq [tlv 0x0401 [3], tlv 0x0405 [3]]), (loopBound), ((admitted? (.loopBankRead (rq [tlv 0x0401 [3], tlv 0x0405 [3]])) (loopBound)).getD q0), admit_ok (by decide +kernel)⟩,
    ⟨(rq [tlv 0x0401 [3]]), (loopBound), ((admitted? (.loopRead (rq [tlv 0x0401 [3]])) (loopBound)).getD q0), admit_ok (by decide +kernel)⟩⟩

theorem test_LoopOpcodes_6 :
    (∃ r s q, admitted? (.loopBindRead r) s = some q) :=
  ⟨(rq [tlv 0x0401 [3]]), (loopBound), ((admitted? (.loopBindRead (rq [tlv 0x0401 [3]])) (loopBound)).getD q0), admit_ok (by decide +kernel)⟩

theorem test_LoopBankSwaps_0_to_5 :
    (∃ r s q, admitted? (.loopSwap r) s = some q ∧ ((∃ n ∈ maskLoops (tv q.tlvs 0x0406), s.bankCheck n (1 - s.actb n) ≠ 0))) ∧
    (∃ r s q, admitted? (.loopSwap r) s = some q ∧ maskLoops (tv q.tlvs 0x0406) ≠ [] ∧ ((∀ n ∈ maskLoops (tv q.tlvs 0x0406), s.bankCheck n (1 - s.actb n) = 0 ∧ s.loopEff n ≠ effOff))) ∧
    (∃ (n : Fin 256) (s : State), s.blkOn 4 = true ∧ s.loopEff n.val ≠ effOff) ∧
    (∃ (n : Fin 256) (s : State), s.blkOn 4 = true ∧ s.loopEff n.val = effOff ∧ s.bankCheck n.val (1 - s.actb n.val) = 0) ∧
    (∃ (n : Fin 256) (s : State), s.blkOn 4 = true ∧ s.loopEff n.val = effOff ∧ s.bankCheck n.val (1 - s.actb n.val) ≠ 0) ∧
    (∃ (n : Fin 256) (s : State), s.blkOn 4 = false) :=
  ⟨⟨(rq [tlv 0x0406 (List.replicate 31 0 ++ [8])]), (badBank up), ((admitted? (.loopSwap (rq [tlv 0x0406 (List.replicate 31 0 ++ [8])])) (badBank up)).getD q0), admit_ok (by decide +kernel), ⟨3, by decide +kernel⟩⟩,
    ⟨(rq [tlv 0x0406 (List.replicate 31 0 ++ [8])]), (loopOn), ((admitted? (.loopSwap (rq [tlv 0x0406 (List.replicate 31 0 ++ [8])])) (loopOn)).getD q0), admit_ok (by decide +kernel), by decide +kernel⟩,
    ⟨(3), (loopOn), by decide +kernel⟩,
    ⟨(3), (up), by decide +kernel⟩,
    ⟨(3), (badBank up), by decide +kernel⟩,
    ⟨(3), (up.put F.SYS_PD_STAT_ON 0x7F7), by decide +kernel⟩⟩

theorem test_LoopBankSwaps_6_to_7 :
    (∃ (s : State), s.blkOn 4 = true ∧ s.get F.LOOP_SWGO_GO = 0) ∧
    (∃ (s : State), ((s.blkOn 4 = false ∨ s.get F.LOOP_SWGO_GO = 1))) :=
  ⟨⟨(loopOn.put (F.LOOP_SWSEL_SEL 0) 0x18), by decide +kernel⟩,
    ⟨(up.put F.LOOP_SWGO_GO 1), Or.inr (by decide +kernel)⟩⟩

theorem test_LoopSamplesAndOutput_0_to_5 :
    (∃ (n : Fin 256) (s : State), n.val < s.engine.loops.length ∧ s.loopRuns n.val = true ∧ ((s.get (F.LOOP_PER_TRIG n.val) ≠ 1 ∨ s.engine.trigSeen = false ∨ s.engine.trigLost = true))) ∧
    (∃ (n : Fin 256) (s : State), ((s.loopRuns n.val = false ∨ s.get (F.LOOP_PER_TRIG n.val) = 1 ∧ s.engine.trigSeen = true ∧ s.engine.trigLost = false))) ∧
    (∃ (n : Nat) (s : State), s.blkOn 4 = true ∧ s.nextEval = some n ∧ s.get (F.LOOP_CTL_SWAP n) = 0 ∧ s.loopMode n = 0) ∧
    (∃ (n : Nat) (s : State), s.blkOn 4 = true ∧ s.nextEval = some n ∧ s.get (F.LOOP_CTL_SWAP n) = 0 ∧ s.loopMode n ≠ 0 ∧ s.engine.holdup = false ∧ s.mode = modeBlocks) ∧
    (∃ (n : Nat) (s : State), s.blkOn 4 = true ∧ s.nextEval = some n ∧ s.get (F.LOOP_CTL_SWAP n) = 0 ∧ s.loopMode n ≠ 0 ∧ pairLo (s.act n 7) ≤ pairHi (s.act n 7) ∧ bitsOf (s.act n 8) 15 0 = 0) ∧
    (∃ (s : State), ((s.blkOn 4 = false ∨ s.nextEval = none))) :=
  ⟨⟨(3), ({ loopOn with clk := 7000000 }), by decide +kernel⟩,
    ⟨(3), ((trigSeen loopOn).put (F.LOOP_PER_TRIG 3) 1), Or.inr (by decide +kernel)⟩,
    ⟨(3), (dueAt (loopOn.put (F.LOOP_CTL_MODE 3) 0)), by decide +kernel⟩,
    ⟨(3), ((dueAt (loopOn.put F.LEDGER_MODE_CUR modeBlocks)).put (F.LOOP_START_START 3) 5000), by decide +kernel⟩,
    ⟨(3), (limBank ((dueAt loopOn).put (F.LOOP_CTL_MODE 3) 3)), by decide +kernel⟩,
    ⟨(up), Or.inr (by decide +kernel)⟩⟩

theorem test_LoopSamplesAndOutput_6_to_11 :
    (∃ (s : State), s.relay.trigger = true ∧ s.blkOn 4 = true) ∧
    (∃ (s : State), s.relay.trigger = true ∧ s.blkOn 4 = false) ∧
    (∃ (s : State), s.relay.trigger = false) ∧
    (∃ (n : Nat) (s : State), s.blkOn 4 = true ∧ s.engine.trigSeen = true ∧ s.engine.trigLost = false ∧ n < 256 ∧ s.get (F.LOOP_PER_TRIG n) = 1 ∧ s.loopRuns n = true) ∧
    (∃ (s : State), ((s.blkOn 4 = false ∨ s.engine.trigSeen = false ∨ s.engine.trigLost = true))) ∧
    (∃ (n : Nat) (rest : List Nat) (s : State), s.engine.plans = n :: rest ∧ (s.loopSt n).pg.st = 3) :=
  ⟨⟨(raised ((trigSeen loopOn).put (F.LOOP_PER_TRIG 3) 1)), by decide +kernel⟩,
    ⟨((raised up).put F.SYS_PD_STAT_ON 0x7F7), by decide +kernel⟩,
    ⟨(up), by decide +kernel⟩,
    ⟨(3), ((trigSeen loopOn).put (F.LOOP_PER_TRIG 3) 1), by decide +kernel⟩,
    ⟨(up), Or.inr (Or.inl (by decide +kernel))⟩,
    ⟨(3), ([]), (planning), by decide +kernel⟩⟩

theorem test_LoopSamplesAndOutput_12 :
    (∃ (s : State), s.engine.plans = []) :=
  ⟨(up), by decide +kernel⟩

theorem test_PlanLifeCycle_0_to_5 :
    (∃ (s : State), 0 < s.grid.2.2) ∧
    (∃ (pl : PPlan) (pr : PProb) (sv : PSolve) (rest : List PSolve) (g : W64) (w : List (List Nat) × List (List Nat)) (o : EngOut) (s : State), s.pacer.cur = some pl ∧ pl.prob = some pr ∧ pl.solves = sv :: rest ∧ sv.done = false ∧ pl.closed = false ∧ pl.fault = false ∧ s.pdOn 2 = true ∧ s.get F.PACER_LANES_LANES ≠ 0 ∧ pl.grp = some g ∧ s.anchors g = false ∧ w = (match pl.latest with | some v => (v.zs, v.ys) | none => (pr.warmZ, pr.warmY)) ∧ ((pr.engine (d64 pr.cw) (s.couplingLin pl sv.t)).solve w.1 w.2 (pl.budget (s.fget F.PACER_FITER_ITER_RND))).toOption = some o) ∧
    (∃ (pl : PPlan) (pr : PProb) (sv : PSolve) (rest : List PSolve) (g : W64) (w : List (List Nat) × List (List Nat)) (s : State), s.pacer.cur = some pl ∧ pl.prob = some pr ∧ pl.solves = sv :: rest ∧ sv.done = false ∧ pl.closed = false ∧ pl.fault = false ∧ s.pdOn 2 = true ∧ s.get F.PACER_LANES_LANES ≠ 0 ∧ pl.grp = some g ∧ s.anchors g = false ∧ w = (match pl.latest with | some v => (v.zs, v.ys) | none => (pr.warmZ, pr.warmY)) ∧ ((pr.engine (d64 pr.cw) (s.couplingLin pl sv.t)).solve w.1 w.2 (pl.budget (s.fget F.PACER_FITER_ITER_RND))).toOption = none) ∧
    (∃ (pl : PPlan) (pr : PProb) (sv : PSolve) (rest : List PSolve) (w : List (List Nat) × List (List Nat)) (o : EngOut) (s : State), s.pacer.cur = some pl ∧ pl.prob = some pr ∧ pl.solves = sv :: rest ∧ sv.done = false ∧ pl.closed = false ∧ pl.fault = false ∧ s.pdOn 2 = true ∧ s.get F.PACER_LANES_LANES ≠ 0 ∧ pl.grp = none ∧ w = (match pl.latest with | some v => (v.zs, v.ys) | none => (pr.warmZ, pr.warmY)) ∧ ((pr.engine (d64 pr.cw) (s.couplingLin pl sv.t)).solve w.1 w.2 (pl.budget (pr.fits pl.n (s.get F.PACER_LANES_LANES) (s.solveFrom pl pr sv (s.get F.PACER_LANES_LANES)) (s.pctAt pl.start pl.period (s.fget F.PACER_FCFG_DL_PCT))))).toOption = some o) ∧
    (∃ (s : State), ((s.pacer.cur = none ∨ s.pdOn 2 = false ∨ s.get F.PACER_LANES_LANES = 0))) ∧
    (∃ (pl : PPlan) (s : State), s.pacer.cur = some pl ∧ pl.closed = false) :=
  ⟨⟨(blocks), by decide +kernel⟩,
    ⟨(planOf prOk (some 0)), (prOk), (solve1), ([]), (0), (([], [])), (engOut prOk 100), (planSolve prOk (some 0)), by decide +kernel⟩,
    ⟨(planOf prBad (some 0)), (prBad), (solve1), ([]), (0), (([], [])), (planSolve prBad (some 0)), by decide +kernel⟩,
    ⟨(planOf prOk none), (prOk), (solve1), ([]), (([], [])), (engOut prOk 100), (planSolve prOk none), by decide +kernel⟩,
    ⟨(up), by decide +kernel⟩,
    ⟨(plan1), (planUp), by decide +kernel⟩⟩

theorem test_PlanLifeCycle_6_to_8 :
    (∃ (s : State), ((s.pacer.cur = none ∨ ∃ pl, s.pacer.cur = some pl ∧ pl.closed = true))) ∧
    (∃ (x : Nat × Nat × Nat × Nat) (s : State), s.pacer.live = some x ∧ s.pacer.staleEv = false) ∧
    (∃ (s : State), ((s.pacer.live = none ∨ s.pacer.staleEv = true))) :=
  ⟨⟨({ up with pacer := { up.pacer with cur := some { plan1 with closed := true } } }), Or.inr ⟨{ plan1 with closed := true }, by decide +kernel⟩⟩,
    ⟨((1, 0, 4, 15)), ({ up with pacer := { up.pacer with live := some (1, 0, 4, 15) } }), by decide +kernel⟩,
    ⟨(up), Or.inl (by decide +kernel)⟩⟩

theorem test_PacerMessages_0_to_5 :
    (∃ (p : FPiece) (s1 : State) (s : State), s.furunPiece 7 p = (s1, none)) ∧
    (∃ (p : FPiece) (s1 : State) (s : State), s.furunPiece 7 p = (s1, none)) ∧
    (∃ (p : FPiece) (s1 : State) (s : State), s.furunPiece 7 p = (s1, none)) ∧
    (∃ (p : FPiece) (s1 : State) (s : State), s.furunPiece 7 p = (s1, none)) ∧
    (∃ (p : FPiece) (s1 : State) (s : State), s.furunPiece 7 p = (s1, none)) ∧
    (∃ (p : FPiece) (s1 : State) (s : State), s.furunPiece 7 p = (s1, none)) :=
  ⟨⟨(half [1]), (((linked).furunPiece 7 (half [1])).1), (linked), piece_ok (by decide +kernel)⟩,
    ⟨(half [1]), (((linked).furunPiece 7 (half [1])).1), (linked), piece_ok (by decide +kernel)⟩,
    ⟨(half [1]), (((linked).furunPiece 7 (half [1])).1), (linked), piece_ok (by decide +kernel)⟩,
    ⟨(half [1]), (((linked).furunPiece 7 (half [1])).1), (linked), piece_ok (by decide +kernel)⟩,
    ⟨(half [1]), (((linked).furunPiece 7 (half [1])).1), (linked), piece_ok (by decide +kernel)⟩,
    ⟨(half [1]), (((linked).furunPiece 7 (half [1])).1), (linked), piece_ok (by decide +kernel)⟩⟩

theorem test_PacerMessages_6_to_11 :
    (∃ (p : FPiece) (m : Bytes) (s1 : State) (g : W64) (pl : PPlan) (s : State), s.furunPiece 7 p = (s1, some m) ∧ s1.groupOf p.dst = some g ∧ (pheadOf m).typ = 1 ∧ s1.fromAnchor g p.peer (pheadOf m).epoch = true ∧ p.dst = s1.own ∧ s1.pacer.cur = some pl ∧ pl.closed = false ∧ pl.start = (pheadOf m).start ∧ pl.epoch = (pheadOf m).epoch ∧ pl.grp = some g ∧ ((pl.solves.head?.map (·.round)).getD 0) < (pheadOf m).round ∧ pl.prob.isSome = true ∧ pl.fault = false ∧ s1.mode ≠ modeBlocks ∧ s1.mode ≠ modeHoldup ∧ s1.pacer.startAt = some (pheadOf m).start ∧ ((pl.latest = none ∨ pl.atCap = false))) ∧
    (∃ (p : FPiece) (m : Bytes) (s1 : State) (g : W64) (pl : PPlan) (s : State), s.furunPiece 7 p = (s1, some m) ∧ s1.groupOf p.dst = some g ∧ (pheadOf m).typ = 3 ∧ s1.fromAnchor g p.peer (pheadOf m).epoch = true ∧ p.dst = s1.own ∧ s1.pacer.cur = some pl ∧ pl.closed = false ∧ s1.pacer.startAt = some (pheadOf m).start ∧ pl.epoch = (pheadOf m).epoch ∧ pl.grp = some g) ∧
    (∃ (p : FPiece) (m : Bytes) (g : W64) (s : State) (s1 : State), s.furunPiece 7 p = (s1, some m) ∧ s1.groupOf p.dst = some g ∧ (pheadOf m).typ = 4 ∧ s1.fromAnchor g p.peer (pheadOf m).epoch = true ∧ p.dst ≠ s1.own ∧ s1.pacer.startAt = some (pheadOf m).start) ∧
    (∃ (p : FPiece) (m : Bytes) (g : W64) (pl : PPlan) (pr : PProb) (v : PSolve) (f : PFinal) (s : State) (s1 : State), s.furunPiece 7 p = (s1, some m) ∧ s1.groupOf p.dst = some g ∧ (pheadOf m).typ = 4 ∧ s1.fromAnchor g p.peer (pheadOf m).epoch = true ∧ p.dst = s1.own ∧ s1.pacer.startAt = some (pheadOf m).start ∧ s1.pacer.cur = some pl ∧ pl.prob = some pr ∧ pl.latest = some v ∧ s1.pacer.finals.find? (fun f => f.grp == g) = some f ∧ pl.closed = true ∧ pl.grp = some g ∧ pl.fault = false ∧ s1.pdOn 2 = true) ∧
    (∃ (p : FPiece) (m : Bytes) (s1 : State) (x : GPlan) (a : GPart) (b : GPart) (s : State), s.furunPiece 7 p = (s1, some m) ∧ (pheadOf m).typ = 2 ∧ s1.coordOf p (pheadOf m) = some x ∧ s1.coord? x.grp = some x ∧ x.closed = false ∧ (pheadOf m).round = x.round ∧ (pheadOf m).n = x.n ∧ (pheadOf m).cars = x.cars ∧ 4 * (x.cars.length * x.n) + 9 ≤ (m.drop 40).length ∧ x.parts.find? (fun k => k.hop == (pheadOf m).hop) = some a ∧ a.frozen = none ∧ a.next = none ∧ b ∈ x.parts ∧ b.hop ≠ (pheadOf m).hop ∧ b.frozen = none ∧ b.next = none) ∧
    (∃ (grp : W64) (x : GPlan) (s : State), s.coord? grp = some x ∧ x.closed = false) :=
  ⟨⟨(msg ((PHead.bytes ⟨1, carsOf 1, 4, 15, 0, 2, 60, 0, 1, 60, 2, 0⟩) ++ List.replicate 60 0)), ((PHead.bytes ⟨1, carsOf 1, 4, 15, 0, 2, 60, 0, 1, 60, 2, 0⟩) ++ List.replicate 60 0), (((planLinked).furunPiece 7 (msg ((PHead.bytes ⟨1, carsOf 1, 4, 15, 0, 2, 60, 0, 1, 60, 2, 0⟩) ++ List.replicate 60 0))).1), (0), (planG), (planLinked), piece_ok (by decide +kernel), by decide +kernel⟩,
    ⟨(msg ((PHead.bytes ⟨3, carsOf 1, 4, 15, 0, 2, 60, 0, 1, 60, 2, 0⟩) ++ List.replicate 60 0)), ((PHead.bytes ⟨3, carsOf 1, 4, 15, 0, 2, 60, 0, 1, 60, 2, 0⟩) ++ List.replicate 60 0), (((planLinked).furunPiece 7 (msg ((PHead.bytes ⟨3, carsOf 1, 4, 15, 0, 2, 60, 0, 1, 60, 2, 0⟩) ++ List.replicate 60 0))).1), (0), (planG), (planLinked), piece_ok (by decide +kernel), by decide +kernel⟩,
    ⟨({ msg ((PHead.bytes ⟨4, carsOf 1, 4, 15, 0, 2, 60, 0, 1, 60, 2, 0⟩) ++ List.replicate 60 0) with dst := 0x0400000000000000 }), ((PHead.bytes ⟨4, carsOf 1, 4, 15, 0, 2, 60, 0, 1, 60, 2, 0⟩) ++ List.replicate 60 0), (0), (anchSub), (((anchSub).furunPiece 7 ({ msg ((PHead.bytes ⟨4, carsOf 1, 4, 15, 0, 2, 60, 0, 1, 60, 2, 0⟩) ++ List.replicate 60 0) with dst := 0x0400000000000000 })).1), piece_ok (by decide +kernel), by decide +kernel⟩,
    ⟨(msg ((PHead.bytes ⟨4, carsOf 1, 4, 15, 0, 2, 60, 0, 1, 60, 2, 0⟩) ++ List.replicate 60 0)), ((PHead.bytes ⟨4, carsOf 1, 4, 15, 0, 2, 60, 0, 1, 60, 2, 0⟩) ++ List.replicate 60 0), (0), (probed), (prOk), (solved), (⟨0, 0, 4, 15, [0], [0, 0, 0, 0], [0, 0, 0, 0], none⟩), (probing 0), (((probing 0).furunPiece 7 (msg ((PHead.bytes ⟨4, carsOf 1, 4, 15, 0, 2, 60, 0, 1, 60, 2, 0⟩) ++ List.replicate 60 0))).1), piece_ok (by decide +kernel), by decide +kernel⟩,
    ⟨(msg ((PHead.bytes ⟨2, carsOf 1, 4, 15, 0, 3, 60, 0, 1, 60, 2, 0⟩) ++ List.replicate 60 0)), ((PHead.bytes ⟨2, carsOf 1, 4, 15, 0, 3, 60, 0, 1, 60, 2, 0⟩) ++ List.replicate 60 0), (((coording).furunPiece 7 (msg ((PHead.bytes ⟨2, carsOf 1, 4, 15, 0, 3, 60, 0, 1, 60, 2, 0⟩) ++ List.replicate 60 0))).1), (coord1), (part2), (part3), (coording), piece_ok (by decide +kernel), by decide +kernel⟩,
    ⟨(0), (coord1), (coording), by decide +kernel⟩⟩

theorem test_PacerMessages_12_to_17 :
    (∃ (grp : W64) (s : State), ((s.coord? grp = none ∨ ∃ x, s.coord? grp = some x ∧ x.closed = true))) ∧
    (∃ (grp : W64) (x : GPlan) (s : State), s.coord? grp = some x ∧ x.closed = false) ∧
    (∃ (grp : W64) (pl : PPlan) (sv : PSolve) (rest : List PSolve) (s : State), s.coord? grp = none ∧ s.pacer.cur = some pl ∧ pl.closed = false ∧ pl.grp = none ∧ pl.prob.isSome = true ∧ pl.solves = sv :: rest ∧ sv.done = true) ∧
    (∃ (grp : W64) (s : State), ((∃ x, s.coord? grp = some x ∧ x.closed = true))) ∧
    (∃ (p : FPiece) (m : Bytes) (s1 : State) (x : GPlan) (s : State), s.furunPiece 7 p = (s1, some m) ∧ (pheadOf m).typ = 5 ∧ s1.coordOf p (pheadOf m) = some x ∧ s1.coord? x.grp = some x ∧ x.closed = true ∧ 4 * (x.cars.length * 8 * x.n) + 1 ≤ (m.drop 40).length ∧ s1.clk ≤ s1.pctAt x.start x.period (s1.fget F.PACER_FPROBE_PR_PCT)) ∧
    (∃ (grp : W64) (x : GPlan) (s : State), s.coord? grp = some x ∧ x.closed = true ∧ addrDepth grp = 0) :=
  ⟨⟨(0), (coordDone), Or.inr ⟨coord1c, by decide +kernel⟩⟩,
    ⟨(0), (coord1), (coording), by decide +kernel⟩,
    ⟨(0), ({ plan1 with solves := [solved] }), (solved), ([]), (soloDone { plan1 with solves := [solved] }), by decide +kernel⟩,
    ⟨(0), (coordDone), ⟨coord1c, by decide +kernel⟩⟩,
    ⟨(msg ((PHead.bytes ⟨5, carsOf 1, 4, 15, 0, 3, 60, 0, 1, 60, 2, 0⟩) ++ List.replicate 200 0)), ((PHead.bytes ⟨5, carsOf 1, 4, 15, 0, 3, 60, 0, 1, 60, 2, 0⟩) ++ List.replicate 200 0), (((coordDone).furunPiece 7 (msg ((PHead.bytes ⟨5, carsOf 1, 4, 15, 0, 3, 60, 0, 1, 60, 2, 0⟩) ++ List.replicate 200 0))).1), (coord1c), (coordDone), piece_ok (by decide +kernel), by decide +kernel⟩,
    ⟨(0), (coord1c), (coordDone), by decide +kernel⟩⟩

theorem test_PacerMessages_18_to_21 :
    (∃ (grp : W64) (x : GPlan) (s : State), s.coord? grp = some x ∧ x.closed = true ∧ addrDepth grp ≠ 0) ∧
    (∃ (grp : W64) (s : State), ((s.coord? grp = none ∨ ∃ x, s.coord? grp = some x ∧ x.closed = false))) ∧
    (∃ (p : FPiece) (m : Bytes) (l : FLink) (s : State) (s1 : State), s.furunPiece 7 p = (s1, some m) ∧ (pheadOf m).typ = 6 ∧ s1.anchors (addrParent (BitVec.ofNat 64 (beAt (m.drop 40) 28 8) : W64)) = true ∧ (pheadOf m).hop = addrLast (BitVec.ofNat 64 (beAt (m.drop 40) 28 8) : W64) ∧ s1.link? p.peer = some l ∧ l.speaksFor (addrParent (BitVec.ofNat 64 (beAt (m.drop 40) 28 8) : W64)) (addrLast (BitVec.ofNat 64 (beAt (m.drop 40) 28 8) : W64)) = true ∧ envFault (m.drop 40) s1.grid.1 s1.grid.2.1 = none) ∧
    (∃ (p : FPiece) (m : Bytes) (l : FLink) (k : Nat) (s : State) (s1 : State), s.furunPiece 7 p = (s1, some m) ∧ (pheadOf m).typ = 6 ∧ s1.anchors (addrParent (BitVec.ofNat 64 (beAt (m.drop 40) 28 8) : W64)) = true ∧ (pheadOf m).hop = addrLast (BitVec.ofNat 64 (beAt (m.drop 40) 28 8) : W64) ∧ s1.link? p.peer = some l ∧ l.speaksFor (addrParent (BitVec.ofNat 64 (beAt (m.drop 40) 28 8) : W64)) (addrLast (BitVec.ofNat 64 (beAt (m.drop 40) 28 8) : W64)) = true ∧ envFault (m.drop 40) s1.grid.1 s1.grid.2.1 = some k) :=
  ⟨⟨(subGrp), (coordSub), (subDone), by decide +kernel⟩,
    ⟨(0), (coording), Or.inr ⟨coord1, by decide +kernel⟩⟩,
    ⟨(msg (envMsg)), (envMsg), (linkB), (envUp), (((envUp).furunPiece 7 (msg (envMsg))).1), piece_ok (by decide +kernel), by decide +kernel⟩,
    ⟨(msg (envBad)), (envBad), (linkB), (2), (envUp), (((envUp).furunPiece 7 (msg (envBad))).1), piece_ok (by decide +kernel), by decide +kernel⟩⟩

theorem test_PacerOpcodes_0_to_5 :
    (∃ r s q, admitted? (.pacerFedSet r) s = some q ∧ s.pacerUp = true) ∧
    (∃ r s q, admitted? (.pacerFedSet r) s = some q ∧ s.pacerUp = false) ∧
    (∃ r s q, admitted? (.seriesWrite r) s = some q ∧ (((beAt (tv q.tlvs 0x0503) 10 2) = 0 → s.seriesUsed (tn q.tlvs 0x0502) = false))) ∧
    (∃ r s q x, admitted? (.seriesRead r) s = some q ∧ s.series? (tn q.tlvs 0x0502) = some x) ∧
    (∃ r s q p, admitted? (.planValues r) s = some q ∧ s.pacerUp = true ∧ s.pacer.plan = some p) ∧
    (∃ r s q, admitted? (.planValues r) s = some q ∧ s.pacerUp = true ∧ s.pacer.plan = none) :=
  ⟨⟨(rq [tlv 0x0501 ((List.range 9).flatMap fun i => natBE 4 (up.rd (Reg.PACER_FCFG + 4 * i)))]), (up), ((admitted? (.pacerFedSet (rq [tlv 0x0501 ((List.range 9).flatMap fun i => natBE 4 (up.rd (Reg.PACER_FCFG + 4 * i)))])) (up)).getD q0), admit_ok (by decide +kernel), by decide +kernel⟩,
    ⟨(rq [tlv 0x0501 ((List.range 9).flatMap fun i => natBE 4 (up.rd (Reg.PACER_FCFG + 4 * i)))]), (up.put F.SYS_PD_STAT_ON 0x7FB), ((admitted? (.pacerFedSet (rq [tlv 0x0501 ((List.range 9).flatMap fun i => natBE 4 (up.rd (Reg.PACER_FCFG + 4 * i)))])) (up.put F.SYS_PD_STAT_ON 0x7FB)).getD q0), admit_ok (by decide +kernel), by decide +kernel⟩,
    ⟨(rq [tlv 0x0502 [7], tlv 0x0503 (natBE 8 0 ++ natBE 2 15 ++ natBE 2 1 ++ natBE 4 0 ++ natBE 4 1)]), (ser7), ((admitted? (.seriesWrite (rq [tlv 0x0502 [7], tlv 0x0503 (natBE 8 0 ++ natBE 2 15 ++ natBE 2 1 ++ natBE 4 0 ++ natBE 4 1)])) (ser7)).getD q0), admit_ok (by decide +kernel), by decide +kernel⟩,
    ⟨(rq [tlv 0x0502 [7]]), (ser7), ((admitted? (.seriesRead (rq [tlv 0x0502 [7]])) (ser7)).getD q0), (⟨7, 0, 0, 15, [3]⟩), admit_ok (by decide +kernel), by decide +kernel⟩,
    ⟨(rq [tlv 1 (natBE 8 0x040000000000060E)]), (planValsUp), ((admitted? (.planValues (rq [tlv 1 (natBE 8 0x040000000000060E)])) (planValsUp)).getD q0), (sched1), admit_ok (by decide +kernel), by decide +kernel⟩,
    ⟨(rq [tlv 1 (natBE 8 0x040000000000060E)]), ({ planValsUp with pacer := up.pacer }), ((admitted? (.planValues (rq [tlv 1 (natBE 8 0x040000000000060E)])) ({ planValsUp with pacer := up.pacer })).getD q0), admit_ok (by decide +kernel), by decide +kernel⟩⟩

theorem test_PacerOpcodes_6 :
    (∃ r s q e, admitted? (.envelopeRead r) s = some q ∧ s.pacerUp = true ∧ tv? q.tlvs 0x0005 = none ∧ s.pacer.own.find? (fun e => e.grp == addrOf (tAddr q.tlvs) 0 0) = some e ∧ e.bs ≠ [] ∧ e.bs.length ≤ 1344) :=
  ⟨(rq [tlv 1 (natBE 8 0x300)]), (envOwn), ((admitted? (.envelopeRead (rq [tlv 1 (natBE 8 0x300)])) (envOwn)).getD q0), (⟨0, [1, 2, 3]⟩), admit_ok (by decide +kernel), by decide +kernel⟩

theorem test_MetrologyCyclesAndMeters_0_to_5 :
    (∃ (x : LineCycle) (s : State), s.blkOn 6 = true ∧ s.met.on = true ∧ s.metClk = true) ∧
    (∃ (x : LineCycle) (s : State), ((s.blkOn 6 = false ∨ s.met.on = false ∨ s.metClk = false))) ∧
    (∃ (n : Fin 28) (k : MetChan) (since : Nat) (cycles : Nat) (s : State), s.blkOn 6 = true ∧ s.met.on = true ∧ s.met.cold[n.val]? = some true ∧ s.met.chans[n.val]? = some k ∧ s.met.coldFrom[n.val]? = some (since, cycles) ∧ ((k.kind = 2 ∨ 8 ≤ cycles))) ∧
    (∃ (n : Fin 28) (s : State), ((s.blkOn 6 = false ∨ s.met.on = false ∨ s.met.cold[n.val]? ≠ some true ∨
      ((s.met.chans[n.val]?).map (·.kind)).getD 0 ≠ 2 ∧ ((s.met.coldFrom[n.val]?).map (·.2)).getD 0 < 8))) ∧
    (∃ (s : State), s.blkOn 6 = true ∧ s.met.on = true) ∧
    (∃ (s : State), ((s.blkOn 6 = false ∨ s.met.on = false))) :=
  ⟨⟨(⟨20000000, 70000, [List.replicate 28 0x7FFFFF#24, List.replicate 28 5#24]⟩), (cirUp), by decide +kernel⟩,
    ⟨(⟨20000000, 50000, []⟩), ({ metUp with sys := { metUp.sys with stopped := [6] } }), Or.inr (Or.inr (by decide +kernel))⟩,
    ⟨(7), (chUp (2 * 2 ^ 30 + 12 * 2 ^ 16)), (5), (0), (coilUp), by decide +kernel⟩,
    ⟨(3), (up.put F.SYS_PD_STAT_ON 0x7BF), by decide +kernel⟩,
    ⟨({ metUp with sys := { metUp.sys with stopped := [6] } }), by decide +kernel⟩,
    ⟨(up), Or.inr (by decide +kernel)⟩⟩

theorem test_MetrologyCyclesAndMeters_6_to_9 :
    (∃ (n : Fin 4) (s : State), s.blkOn 6 = true ∧ s.met.on = true ∧ s.metClk = true ∧ s.get (F.MET_THCFG_EN n.val) = 1 ∧ n.val < s.met.thms.length) ∧
    (∃ (n : Fin 4) (s : State), ((s.blkOn 6 = false ∨ s.met.on = false ∨ s.metClk = false ∨ s.get (F.MET_THCFG_EN n.val) = 0))) ∧
    (∃ (s : State), s.blkOn 6 = true ∧ s.met.on = true ∧ s.metClk = true) ∧
    (∃ (s : State), ((s.blkOn 6 = false ∨ s.met.on = false ∨ s.metClk = false))) :=
  ⟨⟨(1), (thmUp), by decide +kernel⟩,
    ⟨(1), (metUp), Or.inr (Or.inr (Or.inr (by decide +kernel)))⟩,
    ⟨(metUp.put (F.MET_THCFG_EN 1) 1), by decide +kernel⟩,
    ⟨(up), Or.inr (by decide +kernel)⟩⟩

theorem test_MetrologyPulsesSavesAndLink_0_to_5 :
    (∃ (p : Fin 8) (s : State), s.blkOn 6 = true ∧ s.poBacklog p.val ≠ 0 ∧ s.poHeld = 0 ∧ s.mode ≠ modeHoldup) ∧
    (∃ (p : Fin 8) (s : State), s.blkOn 6 = true ∧ ((s.poBacklog p.val = 0 ∨ s.poHeld ≠ 0 ∨ s.mode = modeHoldup))) ∧
    (∃ (p : Fin 8) (s : State), s.blkOn 6 = false) ∧
    (∃ (s : State), s.blkOn 6 = true ∧ s.met.on = true ∧ s.mode ≠ modeHoldup ∧ s.metLink = true ∧ s.metClk = true) ∧
    (∃ (ok : Bool) (s : State), s.blkOn 6 = true ∧ s.met.on = true ∧ s.mode ≠ modeHoldup ∧ ((ok = false ∨ s.metLink = false ∨ s.metClk = false))) ∧
    (∃ (ok : Bool) (s : State), ((s.blkOn 6 = false ∨ s.met.on = false ∨ s.mode = modeHoldup))) :=
  ⟨⟨(2), (pulsing), by decide +kernel⟩,
    ⟨(2), (pulsing.put F.LEDGER_MODE_CUR modeBlocks), ⟨by decide +kernel, Or.inr (Or.inl (by decide +kernel))⟩⟩,
    ⟨(2), (up.put F.SYS_PD_STAT_ON 0x7BF), by decide +kernel⟩,
    ⟨({ metUp with met := { metUp.met with seq := 4294967295 } }), by decide +kernel⟩,
    ⟨(true), ({ metUp with sys := { metUp.sys with stopped := [6] } }), by decide +kernel⟩,
    ⟨(true), (up), Or.inr (Or.inl (by decide +kernel))⟩⟩

theorem test_MetrologyPulsesSavesAndLink_6_to_11 :
    (∃ (s : State), s.blkOn 6 = true ∧ s.met.on = true) ∧
    (∃ (s : State), ((s.blkOn 6 = false ∨ s.met.on = false))) ∧
    (∃ (s : State), s.blkOn 6 = true ∧ s.metLink = true) ∧
    (∃ (s : State), ((s.blkOn 6 = false ∨ s.metLink = false))) ∧
    (∃ (s : State), s.blkOn 6 = true ∧ s.metLink = false ∧ s.met.on = true) ∧
    (∃ (s : State), ((s.blkOn 6 = false ∨ s.metLink = true ∨ s.met.on = false))) :=
  ⟨⟨({ metUp with sys := { metUp.sys with stopped := [6] } }), by decide +kernel⟩,
    ⟨(up), Or.inr (by decide +kernel)⟩,
    ⟨(metUp), by decide +kernel⟩,
    ⟨(up), Or.inr (by decide +kernel)⟩,
    ⟨(metUp.put F.MET_STAT_LINK 0), by decide +kernel⟩,
    ⟨(metUp), Or.inr (Or.inl (by decide +kernel))⟩⟩

theorem test_MetrologyOpcodes_0_to_5 :
    (∃ r s q, admitted? (.metSetup r) s = some q) ∧
    (∃ r s q, admitted? (.metCal r) s = some q) ∧
    (∃ r s q, admitted? (.metCirCfg r) s = some q) ∧
    (∃ r s q, admitted? (.metAssign r) s = some q ∧ (unitOf q).1 = 0 ∧ ((unitOf q).2) < s.met.cirs.length ∧ (((addrObj (tAddr q.tlvs)) ≠ 0 → s.unitObj (unitOf q) = 0 ∧ (∀ x ∈ s.met.cirs, x.obj ≠ (addrObj (tAddr q.tlvs))) ∧ (∀ x ∈ s.met.thms, x.obj ≠ (addrObj (tAddr q.tlvs))) ∧ ∀ x ∈ s.met.pos, x.obj ≠ (addrObj (tAddr q.tlvs)))) ∧ s.cirDiffers ((unitOf q).2) (s.tagOf (addrObj (tAddr q.tlvs))) = false) ∧
    (∃ r s q, admitted? (.metAssign r) s = some q ∧ (unitOf q).1 = 1 ∧ ((unitOf q).2) < s.met.thms.length ∧ (((addrObj (tAddr q.tlvs)) ≠ 0 → s.unitObj (unitOf q) = 0 ∧ (∀ x ∈ s.met.cirs, x.obj ≠ (addrObj (tAddr q.tlvs))) ∧ (∀ x ∈ s.met.thms, x.obj ≠ (addrObj (tAddr q.tlvs))) ∧ ∀ x ∈ s.met.pos, x.obj ≠ (addrObj (tAddr q.tlvs)))) ∧ (((addrObj (tAddr q.tlvs)) = 0 ∨ s.tagOf (addrObj (tAddr q.tlvs)) = (s.thmImplied (s.get (F.MET_THCFG_CIR ((unitOf q).2))) (addrObj (tAddr q.tlvs))))) ∧ s.poDiffers 1 ((unitOf q).2) (s.thmImplied (s.get (F.MET_THCFG_CIR ((unitOf q).2))) (addrObj (tAddr q.tlvs))) = false) ∧
    (∃ r s q, admitted? (.metAssign r) s = some q ∧ (unitOf q).1 = 2 ∧ ((unitOf q).2) < s.met.pos.length ∧ (((addrObj (tAddr q.tlvs)) ≠ 0 → s.unitObj (unitOf q) = 0 ∧ (∀ x ∈ s.met.cirs, x.obj ≠ (addrObj (tAddr q.tlvs))) ∧ (∀ x ∈ s.met.thms, x.obj ≠ (addrObj (tAddr q.tlvs))) ∧ ∀ x ∈ s.met.pos, x.obj ≠ (addrObj (tAddr q.tlvs)))) ∧ (((addrObj (tAddr q.tlvs)) = 0 ∨ s.get (F.MET_POCFG_EN ((unitOf q).2)) = 0 ∨ s.tagOf (addrObj (tAddr q.tlvs)) = s.poTag ((unitOf q).2)))) :=
  ⟨⟨(rq [tlv 0x0601 (natBE 4 0x00011E00)]), (up), ((admitted? (.metSetup (rq [tlv 0x0601 (natBE 4 0x00011E00)])) (up)).getD q0), admit_ok (by decide +kernel)⟩,
    ⟨(rq [tlv 0x0602 [3], tlv 0x0603 (natBE 4 917504 ++ natBE 4 1065353216 ++ natBE 4 1065353216)]), (up), ((admitted? (.metCal (rq [tlv 0x0602 [3], tlv 0x0603 (natBE 4 917504 ++ natBE 4 1065353216 ++ natBE 4 1065353216)])) (up)).getD q0), admit_ok (by decide +kernel)⟩,
    ⟨(rq [tlv 0x0604 [0, 3], tlv 0x0605 ([7, 0, 0, 0] ++ natBE 4 0x3F800000)]), (up), ((admitted? (.metCirCfg (rq [tlv 0x0604 [0, 3], tlv 0x0605 ([7, 0, 0, 0] ++ natBE 4 0x3F800000)])) (up)).getD q0), admit_ok (by decide +kernel)⟩,
    ⟨(rq [tlv 0x0604 [0, 3], tlv 1 (natBE 8 0x0400000000000000)]), (up), ((admitted? (.metAssign (rq [tlv 0x0604 [0, 3], tlv 1 (natBE 8 0x0400000000000000)])) (up)).getD q0), admit_ok (by decide +kernel), by decide +kernel⟩,
    ⟨(rq [tlv 0x0604 [1, 2], tlv 1 (natBE 8 0x0400000000000000)]), (up), ((admitted? (.metAssign (rq [tlv 0x0604 [1, 2], tlv 1 (natBE 8 0x0400000000000000)])) (up)).getD q0), admit_ok (by decide +kernel), by decide +kernel⟩,
    ⟨(rq [tlv 0x0604 [2, 5], tlv 1 (natBE 8 0x0400000000000600)]), (withObj pulsing (newObj 6 tyPulseOut 9 8)), ((admitted? (.metAssign (rq [tlv 0x0604 [2, 5], tlv 1 (natBE 8 0x0400000000000600)])) (withObj pulsing (newObj 6 tyPulseOut 9 8))).getD q0), admit_ok (by decide +kernel), by decide +kernel⟩⟩

theorem test_MetrologyOpcodes_6_to_10 :
    (∃ r s q, admitted? (.metThmCfg r) s = some q ∧ ((((s.thm ((unitOf q).2)).obj) = 0 ∨ s.tagOf ((s.thm ((unitOf q).2)).obj) = (s.thmImplied (bitsOf (beAt (tv q.tlvs 0x0606) 0 4) 27 24) ((s.thm ((unitOf q).2)).obj)))) ∧ s.poDiffers 1 ((unitOf q).2) (s.thmImplied (bitsOf (beAt (tv q.tlvs 0x0606) 0 4) 27 24) ((s.thm ((unitOf q).2)).obj)) = false) ∧
    (∃ r s q, admitted? (.metPoCfg r) s = some q ∧ ((unitOf q).2) < s.met.pos.length ∧ (((s.po ((unitOf q).2)).obj = 0 ∨ s.tagOf (s.po ((unitOf q).2)).obj = (if beAt (tv q.tlvs 0x0607) 0 1 ≤ 7 then s.cirTag (beAt (tv q.tlvs 0x0607) 1 1) else s.thmTag (beAt (tv q.tlvs 0x0607) 1 1))))) ∧
    (∃ r s q, admitted? (.metDemandReset r) s = some q ∧ (unitOf q).2 < s.met.cirs.length) ∧
    (∃ r s q g, admitted? (.metGapRead r) s = some q ∧ tv? q.tlvs 0x0005 = none ∧ s.met.gaps[tn q.tlvs 0x0608]? = some g ∧ (g.entries.filter fun e => q.tag == 0 || e.tag == q.tag).length ≤ 10) ∧
    (∃ r s q, admitted? (.metCalRead r) s = some q) :=
  ⟨⟨(rq [tlv 0x0604 [1, 2], tlv 0x0606 (natBE 4 0x0F000000 ++ natBE 4 0x0A00003C ++ natBE 4 0x3F800000 ++ natBE 4 0)]), (up), ((admitted? (.metThmCfg (rq [tlv 0x0604 [1, 2], tlv 0x0606 (natBE 4 0x0F000000 ++ natBE 4 0x0A00003C ++ natBE 4 0x3F800000 ++ natBE 4 0)])) (up)).getD q0), admit_ok (by decide +kernel), by decide +kernel⟩,
    ⟨(rq [tlv 0x0604 [2, 2], tlv 0x0607 ([0, 0] ++ natBE 2 50 ++ natBE 4 0 ++ natBE 8 1000000000000)]), (pulsing), ((admitted? (.metPoCfg (rq [tlv 0x0604 [2, 2], tlv 0x0607 ([0, 0] ++ natBE 2 50 ++ natBE 4 0 ++ natBE 8 1000000000000)])) (pulsing)).getD q0), admit_ok (by decide +kernel), by decide +kernel⟩,
    ⟨(rq [tlv 0x0604 [0, 3]]), (pulsing), ((admitted? (.metDemandReset (rq [tlv 0x0604 [0, 3]])) (pulsing)).getD q0), admit_ok (by decide +kernel), by decide +kernel⟩,
    ⟨(rq []), ({ up with met := { up.met with gaps := [⟨0, 1, 0, 0, 0, [⟨0, 1, 0, 5, 6, [7]⟩]⟩] } }), ((admitted? (.metGapRead (rq [])) ({ up with met := { up.met with gaps := [⟨0, 1, 0, 0, 0, [⟨0, 1, 0, 5, 6, [7]⟩]⟩] } })).getD q0), (⟨0, 1, 0, 0, 0, [⟨0, 1, 0, 5, 6, [7]⟩]⟩), admit_ok (by decide +kernel), by decide +kernel⟩,
    ⟨(rq [tlv 0x0602 [3]]), (up), ((admitted? (.metCalRead (rq [tlv 0x0602 [3]])) (up)).getD q0), admit_ok (by decide +kernel)⟩⟩

theorem test_SafetyOutputsStaySound :
    (∃ (s : State) (t : State), s.safe.Sound ∧ step s = .next t) :=
  ⟨(up), ({ up with clk := up.clk + 1 }), ⟨⟨by unfold SafeCh.Sound; decide +kernel, by unfold SafeCh.Sound; decide +kernel⟩, step_idle up rfl⟩⟩

theorem test_SafetyInputsFunctionsAndReset_0_to_5 :
    (∃ (selfA : Bool) (selfB : Bool) (copyA : Bool) (copyB : Bool) (s : State), s.safe.a.phase = 0 ∧ s.safe.b.phase = 0) ∧
    (∃ (i : Fin 17) (a : Bool) (b : Bool) (s : State), s.safe.a.phase = 2 ∧ s.safe.b.phase = 2 ∧ i.val < 16 ∧ s.safe.a.raw.length = 16 ∧ s.safe.b.raw.length = 16) ∧
    (∃ (a : Bool) (b : Bool) (s : State), s.safe.a.phase = 2 ∧ s.safe.b.phase = 2) ∧
    (∃ (ch : Bool) (i : Fin 16) (s : State), s.safe.a.phase = 2 ∧ s.safe.b.phase = 2 ∧ ((s.safe.get ch).rawOf i.val).1 ≠ (s.safe.get ch).level i.val ∧ (s.safe.get ch).filt.length = 16 ∧ (s.safe.get ch).pairs.length = 8) ∧
    (∃ (ch : Bool) (i : Fin 16) (s : State), s.safe.a.phase = 2 ∧ s.safe.b.phase = 2 ∧ ((s.safe.get ch).rawOf i.val).1 = (s.safe.get ch).level i.val) ∧
    (∃ (p : Fin 8) (s : State), s.safe.a.phase = 2 ∧ s.safe.b.phase = 2 ∧ ((∃ ch u, ((s.safe.get ch).pair p.val).diff = some u))) :=
  ⟨⟨(true), (false), (false), (true), (setSafe up fun x => { x with a := { x.a with stored := some prmB, locks := [⟨0x21, 255, true⟩] }, b := { x.b with stored := some prmB } }), by decide +kernel⟩,
    ⟨(15), (true), (true), (safeRun), by decide +kernel⟩,
    ⟨(true), (true), (srstUp), by decide +kernel⟩,
    ⟨(false), (3), (safeRaw), by decide +kernel⟩,
    ⟨(false), (2), (safeRun), by decide +kernel⟩,
    ⟨(0), (safeDiff), ⟨by decide +kernel, by decide +kernel, false, 5, by decide +kernel⟩⟩⟩

theorem test_SafetyInputsFunctionsAndReset_6_to_11 :
    (∃ (p : Fin 8) (s : State), s.safe.a.phase = 2 ∧ s.safe.b.phase = 2 ∧ ((∀ ch, ((s.safe.get ch).pair p.val).diff = none))) ∧
    (∃ (f : Fin 8) (s : State), s.safe.a.phase = 2 ∧ s.safe.b.phase = 2 ∧ s.safe.a.fn f.val = 2) ∧
    (∃ (f : Fin 8) (s : State), s.safe.a.phase = 2 ∧ s.safe.b.phase = 2 ∧ s.safe.a.fn f.val ≠ 2) ∧
    (∃ (f : Fin 8) (late : Fin 251) (s : State), s.safe.a.phase = 2 ∧ s.safe.b.phase = 2 ∧ s.safe.b.fn f.val = 2) ∧
    (∃ (f : Fin 8) (late : Fin 251) (s : State), s.safe.a.phase = 2 ∧ s.safe.b.phase = 2 ∧ s.safe.b.fn f.val ≠ 2) ∧
    (∃ (msA : BitVec 16) (msB : BitVec 16) (ossd : BitVec 4) (u : Nat) (s : State), s.safe.a.phase = 2 ∧ s.safe.b.phase = 2 ∧ s.safe.a.skey = false ∧ s.safe.b.skey = false ∧ s.safe.a.srst = true ∧ s.safe.b.srst = true ∧ s.safe.a.srstAt = some u ∧ s.safe.b.srstAt.isSome = true ∧ 100 ≤ msA.toNat ∧ msA.toNat ≤ 3000 ∧ 100 ≤ msB.toNat ∧ msB.toNat ≤ 3000) :=
  ⟨⟨(0), (safeRun), ⟨by decide +kernel, by decide +kernel, by intro ch; cases ch <;> decide +kernel⟩⟩,
    ⟨(0), (safeFn 2), by decide +kernel⟩,
    ⟨(0), (safeFn 1), by decide +kernel⟩,
    ⟨(0), (0), (safeFn 2), by decide +kernel⟩,
    ⟨(0), (3), (safeFn 1), by decide +kernel⟩,
    ⟨(500), (500), (0), (7), (setBoth srstUp fun c => { c with locks := [⟨0x21, 255, true⟩] }), by decide +kernel⟩⟩

theorem test_SafetyInputsFunctionsAndReset_12_to_15 :
    (∃ (msA : BitVec 16) (msB : BitVec 16) (ossd : BitVec 4) (s : State), s.safe.a.phase = 2 ∧ s.safe.b.phase = 2 ∧ ((msA.toNat < 100 ∨ 3000 < msA.toNat ∨ msB.toNat < 100 ∨ 3000 < msB.toNat))) ∧
    (∃ (a : Bool) (b : Bool) (s : State), s.safe.a.phase = 2 ∧ s.safe.b.phase = 2 ∧ s.safe.a.skey = false ∧ s.safe.b.skey = false) ∧
    (∃ (s : State), s.safe.a.phase = 2 ∧ s.safe.b.phase = 2 ∧ s.safe.a.skey = true ∧ s.safe.b.skey = true) ∧
    (∃ (a : Bool) (b : Bool) (s : State), s.safe.a.phase = 2 ∧ s.safe.b.phase = 2 ∧ s.safe.a.skey = false ∧ s.safe.b.skey = false) :=
  ⟨⟨(5000), (500), (0), (srstUp), ⟨by decide +kernel, by decide +kernel, Or.inr (Or.inl (by decide +kernel))⟩⟩,
    ⟨(false), (false), (safeOn), by decide +kernel⟩,
    ⟨(setBoth safeRun fun c => { c with skey := true }), by decide +kernel⟩,
    ⟨(true), (false), (safeRun), by decide +kernel⟩⟩

theorem test_SafetyTestsAndLockouts_0_to_5 :
    (∃ (tp : Fin 4) (inA : BitVec 16) (inB : BitVec 16) (ok : Bool) (s : State), s.safe.a.phase = 2 ∧ s.safe.b.phase = 2 ∧ s.safe.a.stored.isSome = true ∧ s.safe.tpNext.length = 4) ∧
    (∃ (tp : Fin 4) (inA : BitVec 16) (inB : BitVec 16) (ok : Bool) (s : State), s.safe.a.phase = 2 ∧ s.safe.b.phase = 2 ∧ s.safe.a.stored = none) ∧
    (∃ (o : Fin 4) (j : Fin 4) (lines : Byte) (s : State), s.safe.a.phase = 2 ∧ s.safe.b.phase = 2 ∧ s.safe.on o.val = true ∧ prmOpEn s.safe.a.prm o.val = true) ∧
    (∃ (o : Fin 4) (j : Fin 4) (lines : Byte) (s : State), s.safe.a.phase = 2 ∧ s.safe.b.phase = 2 ∧ s.safe.on o.val = false ∧ prmOen s.safe.a.prm o.val = true ∧ prmOpEn s.safe.a.prm o.val = false ∧ bit1 lines.toNat (2 * o.val + j.val / 2) = 1) ∧
    (∃ (o : Fin 4) (j : Fin 4) (lines : Byte) (s : State), s.safe.a.phase = 2 ∧ s.safe.b.phase = 2 ∧ ((s.safe.on o.val = true ∧ prmOpEn s.safe.a.prm o.val = false ∨ s.safe.on o.val = false ∧
      (prmOen s.safe.a.prm o.val = false ∨ prmOpEn s.safe.a.prm o.val = true ∨ bit1 lines.toNat (2 * o.val + j.val / 2) = 0)))) ∧
    (∃ (o : Fin 4) (s : State), s.safe.a.phase = 2 ∧ s.safe.b.phase = 2 ∧ s.safe.on o.val = true) :=
  ⟨⟨(0), (1), (1), (true), (safeRun), by decide +kernel⟩,
    ⟨(0), (0), (0), (true), (setA safeRun fun c => { c with stored := none }), by decide +kernel⟩,
    ⟨(0), (3), (0xFD), (opOn), by decide +kernel⟩,
    ⟨(0), (0), (1), (safeRun), by decide +kernel⟩,
    ⟨(0), (1), (0), (safeOn), ⟨by decide +kernel, by decide +kernel, Or.inl (by decide +kernel)⟩⟩,
    ⟨(0), (safeOn), by decide +kernel⟩⟩

theorem test_SafetyTestsAndLockouts_6_to_11 :
    (∃ (o : Fin 4) (s : State), s.safe.a.phase = 2 ∧ s.safe.b.phase = 2 ∧ s.safe.on o.val = false) ∧
    (∃ (o : Fin 4) (ch : Bool) (want : Bool) (u : Nat) (s : State), s.safe.a.phase = 2 ∧ s.safe.b.phase = 2 ∧ ((s.safe.get ch).edm[o.val]?).getD none = some (u, want)) ∧
    (∃ (o : Fin 4) (s : State), s.safe.a.phase = 2 ∧ s.safe.b.phase = 2 ∧ ((∀ ch, ((s.safe.get ch).edm[o.val]?).getD none = none))) ∧
    (∃ (bClk : BitVec 16) (aIvl : BitVec 16) (s : State), s.safe.a.phase = 2 ∧ s.safe.b.phase = 2) ∧
    (∃ (ch : Bool) (s : State), s.safe.a.phase = 2 ∧ s.safe.b.phase = 2) ∧
    (∃ (ch : Bool) (ok : Bool) (s : State), s.safe.a.phase = 2 ∧ s.safe.b.phase = 2) :=
  ⟨⟨(0), (safeRun), by decide +kernel⟩,
    ⟨(0), (true), (true), (9), (edmUp), by decide +kernel⟩,
    ⟨(0), (safeOn), ⟨by decide +kernel, by decide +kernel, by intro ch; cases ch <;> decide +kernel⟩⟩,
    ⟨(1000), (1300), (setA safeRun fun c => { c with locks := [⟨0x23, 255, false⟩] }), by decide +kernel⟩,
    ⟨(true), (safeOn), by decide +kernel⟩,
    ⟨(true), (false), (safeOn), by decide +kernel⟩⟩

theorem test_SafetyTestsAndLockouts_12_to_14 :
    (∃ (ch : Bool) (gone : Bool) (s : State), s.safe.a.phase = 2 ∧ s.safe.b.phase = 2) ∧
    (∃ (ch : Bool) (clkOk : Bool) (selfOk : Bool) (supplyOk : Bool) (s : State), s.safe.a.phase = 2 ∧ s.safe.b.phase = 2 ∧ (s.safe.get ch).locked = true) ∧
    (∃ (ch : Bool) (clkOk : Bool) (selfOk : Bool) (supplyOk : Bool) (s : State), s.safe.a.phase = 2 ∧ s.safe.b.phase = 2 ∧ (s.safe.get ch).locked = false) :=
  ⟨⟨(false), (false), (safeOn), by decide +kernel⟩,
    ⟨(false), (true), (false), (true), (lockedUp), by decide +kernel⟩,
    ⟨(false), (true), (true), (true), (safeRun), by decide +kernel⟩⟩

theorem test_SafetyMirrorAndOpcodes_0_to_5 :
    (∃ (ch : Bool) (s : State), s.safe.a.phase = 2 ∧ s.safe.b.phase = 2 ∧ s.pdOn 0 = true ∧ s.mirror.frames.length = 2) ∧
    (∃ (ch : Bool) (s : State), s.safe.a.phase = 2 ∧ s.safe.b.phase = 2 ∧ s.pdOn 0 = false) ∧
    (∃ (ch : Bool) (s : State), s.safe.a.phase ≠ 1 ∧ s.safe.b.phase ≠ 1 ∧ (s.safe.get ch).phase = 0) ∧
    (∃ (ch : Bool) (s : State), s.safePresent ch = true) ∧
    (∃ (ch : Bool) (s : State), s.safePresent ch = false) ∧
    (∃ r s q, admitted? (.safeStatus r) s = some q) :=
  ⟨⟨(true), (viewed), by decide +kernel⟩,
    ⟨(false), (safeRun.put F.SYS_PD_STAT_ON 0x7FE), by decide +kernel⟩,
    ⟨(false), (up), by decide +kernel⟩,
    ⟨(true), (safeRun.wr Reg.SAFE_PRES 3), by decide +kernel⟩,
    ⟨(true), (safeRun), by decide +kernel⟩,
    ⟨(rq []), (safeRun), ((admitted? (.safeStatus (rq [])) (safeRun)).getD q0), admit_ok (by decide +kernel)⟩⟩

theorem test_SafetyMirrorAndOpcodes_6 :
    (∃ r s q, admitted? (.safeParamWrite r) s = some q) :=
  ⟨(rq [tlv 0x0702 (natBE 2 2046), tlv 0x0703 [1, 2]]), (staged0), ((admitted? (.safeParamWrite (rq [tlv 0x0702 (natBE 2 2046), tlv 0x0703 [1, 2]])) (staged0)).getD q0), admit_ok (by decide +kernel)⟩

set_option maxRecDepth 100000 in
theorem test_SafetyMirrorAndOpcodes_7 :
    (∃ r s q, admitted? (.safeParamCheck r) s = some q ∧ blockFault s.safe.staged = none) :=
  ⟨(rq []), (stagedB), ((admitted? (.safeParamCheck (rq [])) (stagedB)).getD q0), admit_ok (by decide +kernel), by decide +kernel⟩

set_option maxRecDepth 100000 in
theorem test_SafetyMirrorAndOpcodes_8 :
    (∃ r s q o, admitted? (.safeParamCheck r) s = some q ∧ blockFault s.safe.staged = some o) :=
  ⟨(rq []), (staged0), ((admitted? (.safeParamCheck (rq [])) (staged0)).getD q0), (0), admit_ok (by decide +kernel), by decide +kernel⟩

theorem test_SafetyMirrorAndOpcodes_9_to_12 :
    (∃ r s q, admitted? (.safeParamRead r) s = some q ∧ slice (s.safe.echo (tn q.tlvs 0x0707 == 1)) (tn q.tlvs 0x0702) 1024 ≠ []) ∧
    (∃ r s q, admitted? (.safeParamRead r) s = some q ∧ slice (s.safe.echo (tn q.tlvs 0x0707 == 1)) (tn q.tlvs 0x0702) 1024 = []) ∧
    (∃ r s q, admitted? (.safeConfirm r) s = some q ∧ s.safe.stg = 2 ∧ tn q.tlvs 0x0706 = s.safe.chkA ∧ tn q.tlvs 0x0706 = s.safe.chkB) ∧
    (∃ r s q, admitted? (.safeConfirm r) s = some q ∧ s.safe.stg = 2 ∧ ((tn q.tlvs 0x0706 ≠ s.safe.chkA ∨ tn q.tlvs 0x0706 ≠ s.safe.chkB))) :=
  ⟨⟨(rq [tlv 0x0707 [0], tlv 0x0702 (natBE 2 2000)]), (staged2), ((admitted? (.safeParamRead (rq [tlv 0x0707 [0], tlv 0x0702 (natBE 2 2000)])) (staged2)).getD q0), admit_ok (by decide +kernel), by decide +kernel⟩,
    ⟨(rq [tlv 0x0707 [1], tlv 0x0702 (natBE 2 0)]), (safeRun), ((admitted? (.safeParamRead (rq [tlv 0x0707 [1], tlv 0x0702 (natBE 2 0)])) (safeRun)).getD q0), admit_ok (by decide +kernel), by decide +kernel⟩,
    ⟨(rq [tlv 0x0706 (natBE 4 77)]), (staged2), ((admitted? (.safeConfirm (rq [tlv 0x0706 (natBE 4 77)])) (staged2)).getD q0), admit_ok (by decide +kernel), by decide +kernel⟩,
    ⟨(rq [tlv 0x0706 (natBE 4 76)]), (setSafe staged2 fun x => { x with misses := 2 }), ((admitted? (.safeConfirm (rq [tlv 0x0706 (natBE 4 76)])) (setSafe staged2 fun x => { x with misses := 2 })).getD q0), admit_ok (by decide +kernel), ⟨by decide +kernel, Or.inl (by decide +kernel)⟩⟩⟩

set_option maxRecDepth 100000 in
theorem test_SafetyMirrorAndOpcodes_13 :
    (∃ r s q, admitted? (.safeConfirm r) s = some q ∧ s.safe.stg = 0 ∧ s.safe.reconf = true ∧ s.safe.a.stored.map blockChk = some (tn q.tlvs 0x0706) ∧ s.safe.b.stored.map blockChk = some (tn q.tlvs 0x0706)) :=
  ⟨(rq [tlv 0x0706 (natBE 4 (blockChk prmB))]), (setSafe staged0 fun x => { x with stg := 0, reconf := true }), ((admitted? (.safeConfirm (rq [tlv 0x0706 (natBE 4 (blockChk prmB))])) (setSafe staged0 fun x => { x with stg := 0, reconf := true })).getD q0), admit_ok (by decide +kernel), by decide +kernel⟩

theorem test_SafetyMirrorAndOpcodes_14_to_17 :
    (∃ r s q, admitted? (.safeConfirm r) s = some q ∧ ((s.safe.stg = 1 ∨ s.safe.stg ≠ 2 ∧ s.safe.reconf = false))) ∧
    (∃ r s q, admitted? (.safeViewCfg r) s = some q ∧ s.obj? (addrObj (tAddr q.tlvs)) = none ∧ ((∀ v ∈ s.mirror.views, v.unit = (tn q.tlvs 0x0708) → v.obj ≠ (addrObj (tAddr q.tlvs))))) ∧
    (∃ r s q v, admitted? (.safeViewCfg r) s = some q ∧ s.mirror.views.find? (fun v => v.unit == (tn q.tlvs 0x0708)) = some v ∧ v.obj = (addrObj (tAddr q.tlvs)) ∧ (s.obj? (addrObj (tAddr q.tlvs))).isSome = true) ∧
    (∃ r s q, admitted? (.safeViewCfg r) s = some q ∧ (s.obj? (addrObj (tAddr q.tlvs))).isSome = true ∧ ((∀ v ∈ s.mirror.views, v.unit = tn q.tlvs 0x0708 → v.obj ≠ (addrObj (tAddr q.tlvs))))) :=
  ⟨⟨(rq [tlv 0x0706 (natBE 4 (blockChk prmB))]), (skeyCfg), ((admitted? (.safeConfirm (rq [tlv 0x0706 (natBE 4 (blockChk prmB))])) (skeyCfg)).getD q0), admit_ok (by decide +kernel), Or.inr ⟨by decide +kernel, by decide +kernel⟩⟩,
    ⟨(rq [tlv 0x0708 [0], tlv 1 (natBE 8 0x0400000000000700), tlv 7 [3]]), (viewed), ((admitted? (.safeViewCfg (rq [tlv 0x0708 [0], tlv 1 (natBE 8 0x0400000000000700), tlv 7 [3]])) (viewed)).getD q0), admit_ok (by decide +kernel), by decide +kernel⟩,
    ⟨(rq [tlv 0x0708 [0], tlv 1 (natBE 8 0x0400000000000600), tlv 7 [3]]), (viewed), ((admitted? (.safeViewCfg (rq [tlv 0x0708 [0], tlv 1 (natBE 8 0x0400000000000600), tlv 7 [3]])) (viewed)).getD q0), (⟨0, 6, 9⟩), admit_ok (by decide +kernel), by decide +kernel⟩,
    ⟨(rq [tlv 0x0708 [1], tlv 1 (natBE 8 0x0400000000000600), tlv 7 [3]]), (viewed), ((admitted? (.safeViewCfg (rq [tlv 0x0708 [1], tlv 1 (natBE 8 0x0400000000000600), tlv 7 [3]])) (viewed)).getD q0), admit_ok (by decide +kernel), by decide +kernel⟩⟩

theorem test_RelayMasterFrames_0_to_5 :
    (∃ (lo : Byte) (hi : Byte) (s : State), s.relayRole = 2 ∧ s.blkOn 8 = true ∧ ((s.rstate = rsRun ∨ s.rstate = rsDiscover ∧ s.nextPeriod.1 % max 1 (ceilDiv (8 * 2120 + s.get F.RELAY_DELAY_D) (max 1 s.relayPeriod)) = 0)) ∧ s.relay.outstanding = true) ∧
    (∃ (lo : Byte) (hi : Byte) (s : State), s.relayRole = 2 ∧ s.blkOn 8 = true ∧ s.rstate = rsRun ∧ s.relay.outstanding = false) ∧
    (∃ (lo : Byte) (hi : Byte) (s : State), s.relayRole = 2 ∧ s.blkOn 8 = true ∧ s.rstate = rsDiscover ∧ s.relay.outstanding = false ∧ s.nextPeriod.1 % max 1 (ceilDiv (8 * 2120 + s.get F.RELAY_DELAY_D) (max 1 s.relayPeriod)) = 0) ∧
    (∃ (lo : Byte) (hi : Byte) (s : State), s.relayRole = 2 ∧ s.blkOn 8 = true ∧ s.rstate = rsDiscover ∧ s.nextPeriod.1 % max 1 (ceilDiv (8 * 2120 + s.get F.RELAY_DELAY_D) (max 1 s.relayPeriod)) ≠ 0) ∧
    (∃ (lo : Byte) (hi : Byte) (s : State), ((s.relayRole ≠ 2 ∨ s.blkOn 8 = false ∨ s.rstate ≠ rsDiscover ∧ s.rstate ≠ rsRun))) ∧
    (∃ (d : W32) (frames : List Bytes) (bad : Option Nat) (s : State), s.relayRole = 2 ∧ s.blkOn 8 = true ∧ s.relay.outstanding = true) :=
  ⟨⟨(2), (2), (outst (master rsRun)), ⟨by decide +kernel, by decide +kernel, Or.inl (by decide +kernel), by decide +kernel⟩⟩,
    ⟨(2), (2), ((master rsRun).put F.RELAY_STAT_TOPO_RX 2), by decide +kernel⟩,
    ⟨(2), (2), ({ master rsDiscover with clk := 999990 }), by decide +kernel⟩,
    ⟨(2), (2), (slowRing), by decide +kernel⟩,
    ⟨(2), (2), (up), Or.inl (by decide +kernel)⟩,
    ⟨(5), ([rFrame 1 []]), (none), (outst (master rsDiscover)), by decide +kernel⟩⟩

set_option maxRecDepth 100000 in
theorem test_RelayMasterFrames_6 :
    (∃ (d : W32) (bs : Bytes) (f : RFrame) (s : State), s.relayRole = 2 ∧ s.blkOn 8 = true ∧ s.relay.outstanding = true ∧ s.rstate = rsDiscover ∧ parseFrame bs = some f ∧ f.typ = 1 ∧ f.bad = false ∧ f.fcsOk = true ∧ helloRecs f.pay = s.relay.hello ∧ s.relay.helloN = 2 ∧ (s.wr Reg.RELAY_DELAY d.toNat).budgetOk s.relayL s.relayPeriod = true) :=
  ⟨(5), (helloB), (helloF), (hello2), hello_meets⟩

theorem test_RelayMasterFrames_7_to_12 :
    (∃ (d : W32) (frames : List Bytes) (bad : Option Nat) (s : State), ((s.relayRole ≠ 2 ∨ s.blkOn 8 = false ∨ s.relay.outstanding = false))) ∧
    (∃ (x : Nat) (b : Nat) (s : State), s.relay.linksOk = some x ∧ s.relay.splitAt = some b ∧ s.relayRole = 2 ∧ s.get F.RELAY_STAT_TOPO_RX = 2) ∧
    (∃ (s : State), ((s.relay.linksOk = none ∨ s.relay.splitAt = none ∨ s.relayRole ≠ 2 ∨ s.get F.RELAY_STAT_TOPO_RX ≠ 2))) ∧
    (∃ (p : Fin 2) (s : State), s.blkOn 8 = true ∧ s.relayRole ≠ 0) ∧
    (∃ (p : Fin 2) (s : State), ((s.blkOn 8 = false ∨ s.relayRole = 0))) ∧
    (∃ (p : Fin 2) (lo : Byte) (hi : Byte) (s : State), s.blkOn 8 = true ∧ s.relayRole ≠ 0 ∧ s.get (linkFld p.val) = 1 ∧ s.get (linkFld (1 - p.val)) = 0) :=
  ⟨⟨(5), ([]), (none), (up), Or.inl (by decide +kernel)⟩,
    ⟨(7), (5), (setRel ((master rsRun).put F.RELAY_STAT_TOPO_RX 2) fun r => { r with linksOk := some 7, splitAt := some 5 }), by decide +kernel⟩,
    ⟨(master rsRun), Or.inl (by decide +kernel)⟩,
    ⟨(1), (node rsRun), by decide +kernel⟩,
    ⟨(0), (up), Or.inr (by decide +kernel)⟩,
    ⟨(1), (2), (2), ((master rsDiscover).put F.RELAY_STAT_LINK1 1), by decide +kernel⟩⟩

theorem test_RelayMasterFrames_13_to_14 :
    (∃ (p : Fin 2) (lo : Byte) (hi : Byte) (s : State), s.blkOn 8 = true ∧ s.relayRole ≠ 0 ∧ ((s.get (linkFld (1 - p.val)) = 1 ∨ s.get (linkFld p.val) = 0))) ∧
    (∃ (p : Fin 2) (lo : Byte) (hi : Byte) (s : State), ((s.blkOn 8 = false ∨ s.relayRole = 0))) :=
  ⟨⟨(1), (2), (2), (sets (master rsRun) [(F.RELAY_STAT_LINK0, 1), (F.RELAY_STAT_LINK1, 1)]), by decide +kernel⟩,
    ⟨(0), (2), (2), (up), Or.inr (by decide +kernel)⟩⟩

theorem test_RelayNodeAndOpcodes_0_to_5 :
    (∃ (p : Fin 2) (bs : Bytes) (bad : Option Nat) (s : State), s.relayRole = 1 ∧ s.blkOn 8 = true ∧ s.rstate ≠ rsOff ∧ parseFrame bs = none) ∧
    (∃ (p : Fin 2) (bs : Bytes) (bad : Option Nat) (f : RFrame) (s : State), s.relayRole = 1 ∧ s.blkOn 8 = true ∧ s.rstate ≠ rsOff ∧ parseFrame bs = some f ∧ s.nodeTakes p.val f = false) ∧
    (∃ (p : Fin 2) (bs : Bytes) (bad : Option Nat) (f : RFrame) (s : State), s.relayRole = 1 ∧ s.blkOn 8 = true ∧ s.rstate ≠ rsOff ∧ parseFrame bs = some f ∧ s.nodeTakes p.val f = true ∧ f.typ ≠ 1 ∧ f.mapId = s.rd Reg.RELAY_MAPID ∧ ((∀ x ∈ s.relay.excluded, x.1 ≠ s.relayAddr)) ∧ ((s.relay.claimed = true → f.fcsOk = true → mapBit (slice f.pay 4 32) s.relayAddr = false))) ∧
    (∃ (p : Fin 2) (bs : Bytes) (bad : Option Nat) (f : RFrame) (s : State), s.relayRole = 1 ∧ s.blkOn 8 = true ∧ s.rstate ≠ rsOff ∧ parseFrame bs = some f ∧ s.nodeTakes p.val f = true ∧ f.typ = 1) ∧
    (∃ (p : Fin 2) (bs : Bytes) (bad : Option Nat) (f : RFrame) (s : State), s.relayRole = 1 ∧ s.blkOn 8 = true ∧ s.rstate ≠ rsOff ∧ parseFrame bs = some f ∧ s.nodeTakes p.val f = true ∧ f.typ ≠ 1 ∧ ((f.mapId ≠ s.rd Reg.RELAY_MAPID ∨ s.relay.excluded.any (fun x => x.1 == s.relayAddr) = true))) ∧
    (∃ (p : Fin 2) (bs : Bytes) (bad : Option Nat) (s : State), ((s.relayRole ≠ 1 ∨ s.blkOn 8 = false ∨ s.rstate = rsOff))) :=
  ⟨⟨(1), (rFrame 1 [1] ++ [1] |>.take 20), (none), (node rsDiscover), by decide +kernel⟩,
    ⟨(0), (rFrame 2 []), (none), ((parseFrame (rFrame 2 [])).getD ⟨0, 0, 0, 0, 0, 0, [], false, false, 0⟩), (setRel (node rsRun) fun r => { r with upPort := some 1 }), ⟨by decide +kernel, by decide +kernel, by decide +kernel, parse_ok (by decide +kernel), by decide +kernel⟩⟩,
    ⟨(0), (rFrame 2 []), (none), ((parseFrame (rFrame 2 [])).getD ⟨0, 0, 0, 0, 0, 0, [], false, false, 0⟩), (trigNode), ⟨by decide +kernel, by decide +kernel, by decide +kernel, parse_ok (by decide +kernel), by decide +kernel⟩⟩,
    ⟨(0), (rFrame 1 []), (none), ((parseFrame (rFrame 1 [])).getD ⟨0, 0, 0, 0, 0, 0, [], false, false, 0⟩), (node rsRun), ⟨by decide +kernel, by decide +kernel, by decide +kernel, parse_ok (by decide +kernel), by decide +kernel⟩⟩,
    ⟨(0), (rFrame 2 []), (none), ((parseFrame (rFrame 2 [])).getD ⟨0, 0, 0, 0, 0, 0, [], false, false, 0⟩), (setRel (node rsRun) fun r => { r with excluded := [(5, 3)] }), ⟨by decide +kernel, by decide +kernel, by decide +kernel, parse_ok (by decide +kernel), by decide +kernel⟩⟩,
    ⟨(0), ([]), (none), (up), Or.inl (by decide +kernel)⟩⟩

theorem test_RelayNodeAndOpcodes_6_to_11 :
    (∃ (s : State), s.relayRole = 1 ∧ ((s.rstate = rsRun ∨ s.rstate = rsExcluded))) ∧
    (∃ (s : State), ((s.relayRole ≠ 1 ∨ s.rstate ≠ rsRun ∧ s.rstate ≠ rsExcluded))) ∧
    (∃ (s : State), s.relayRole = 1 ∧ s.relay.outLive = true) ∧
    (∃ (s : State), ((s.relayRole ≠ 1 ∨ s.relay.outLive = false))) ∧
    (∃ (s : State), s.blkOn 8 = true ∧ s.mapOk s.stagedMap = true) ∧
    (∃ (s : State), ((s.blkOn 8 = false ∨ s.mapOk s.stagedMap = false))) :=
  ⟨⟨(node rsExcluded), by decide +kernel⟩,
    ⟨(up), Or.inl (by decide +kernel)⟩,
    ⟨(setRel (node rsRun) fun r => { r with outLive := true }), by decide +kernel⟩,
    ⟨(up), Or.inl (by decide +kernel)⟩,
    ⟨(up), by decide +kernel⟩,
    ⟨(up.put F.SYS_PD_STAT_ON 0x7DF), Or.inl (by decide +kernel)⟩⟩

theorem test_RelayNodeAndOpcodes_12_to_16 :
    (∃ r s q, admitted? (.relayCfg r) s = some q) ∧
    (∃ r s q, admitted? (.relayMap r) s = some q) ∧
    (∃ r s q v, admitted? (.relayBind r) s = some q ∧ tvs q.tlvs 0x0803 = [v]) ∧
    (∃ r s q, admitted? (.relayStation r) s = some q) ∧
    (∃ r s q, admitted? (.relayStatus r) s = some q) :=
  ⟨⟨(rq [tlv 0x0801 (natBE 4 0 ++ natBE 4 1000000 ++ natBE 4 0x002800C8 ++ natBE 4 0x00640003 ++ natBE 4 0x00281E1E ++ natBE 4 9)]), ((master rsRun).put F.LEDGER_MODE_CUR modeBlocks), ((admitted? (.relayCfg (rq [tlv 0x0801 (natBE 4 0 ++ natBE 4 1000000 ++ natBE 4 0x002800C8 ++ natBE 4 0x00640003 ++ natBE 4 0x00281E1E ++ natBE 4 9)])) ((master rsRun).put F.LEDGER_MODE_CUR modeBlocks)).getD q0), admit_ok (by decide +kernel)⟩,
    ⟨(rq [tlv 0x0802 ([3] ++ natBE 4 0x40600044)]), (node rsRun), ((admitted? (.relayMap (rq [tlv 0x0802 ([3] ++ natBE 4 0x40600044)])) (node rsRun)).getD q0), admit_ok (by decide +kernel)⟩,
    ⟨(rq [tlv 0x0803 (natBE 8 0x0400000000000602 ++ [3, 0, 3, 0] ++ natBE 4 0)]), (bindable), ((admitted? (.relayBind (rq [tlv 0x0803 (natBE 8 0x0400000000000602 ++ [3, 0, 3, 0] ++ natBE 4 0)])) (bindable)).getD q0), ((natBE 8 0x0400000000000602 ++ [3, 0, 3, 0] ++ natBE 4 0)), admit_ok (by decide +kernel), by decide +kernel⟩,
    ⟨(rq [tlv 0x0804 [9], tlv 1 (natBE 8 0x0400000000000600)]), (withObj up (newObj 6 tyStation 0 8)), ((admitted? (.relayStation (rq [tlv 0x0804 [9], tlv 1 (natBE 8 0x0400000000000600)])) (withObj up (newObj 6 tyStation 0 8))).getD q0), admit_ok (by decide +kernel)⟩,
    ⟨(rq []), (up), ((admitted? (.relayStatus (rq [])) (up)).getD q0), admit_ok (by decide +kernel)⟩⟩

theorem test_CanFramesAndErrors_0_to_5 :
    (∃ (c : Fin 4) (f : CanFrame) (m : Nat) (s : State), c.val < s.can.length ∧ s.blkOn 9 = true ∧ (s.canCh c.val).mode ≠ 0 ∧ s.get (F.CAN_STAT_STATE c.val) ∉ [0, 3, 5] ∧ ((f.fdf = false ∨ s.get (F.CAN_CTL_FDOE c.val) = 1)) ∧ s.drillOn c.val = false ∧ s.canMatch c.val f = some m ∧ m < (s.canCh c.val).objs.length) ∧
    (∃ (c : Fin 4) (f : CanFrame) (s : State), s.blkOn 9 = true ∧ (s.canCh c.val).mode ≠ 0 ∧ s.get (F.CAN_STAT_STATE c.val) ∉ [0, 3, 5] ∧ ((f.fdf = false ∨ s.get (F.CAN_CTL_FDOE c.val) = 1)) ∧ s.drillOn c.val = false ∧ s.canMatch c.val f = none) ∧
    (∃ (c : Fin 4) (f : CanFrame) (s : State), ((s.blkOn 9 = false ∨ (s.canCh c.val).mode = 0 ∨ s.get (F.CAN_STAT_STATE c.val) ∈ [0, 3, 5] ∨
      f.fdf = true ∧ s.get (F.CAN_CTL_FDOE c.val) = 0))) ∧
    (∃ (c : Fin 4) (w : CanWire) (s : State), c.val < s.can.length ∧ s.canSends c.val = true ∧ (s.canCh c.val).wire = none ∧ s.canChoose c.val = some w) ∧
    (∃ (c : Fin 4) (s : State), ((s.canSends c.val = false ∨ (s.canCh c.val).wire.isSome = true ∨ s.canChoose c.val = none))) ∧
    (∃ (c : Fin 4) (x : CanTxResult) (w : CanWire) (s : State), c.val < s.can.length ∧ (s.canCh c.val).wire = some w) :=
  ⟨⟨(1), (FRM), (12), (rxObj.put (F.CAN_OST_NEWDAT 1 12) 1), by decide +kernel⟩,
    ⟨(1), ({ FRM with id := 0x17F }), (rxObj), by decide +kernel⟩,
    ⟨(1), ({ FRM with fdf := true }), (rxObj.put (F.CAN_CTL_FDOE 1) 0), Or.inr (Or.inr (Or.inr (by decide +kernel)))⟩,
    ⟨(1), (⟨.reply, 3⟩), (setCan txObj fun x => { x with replies := [3] }), by decide +kernel⟩,
    ⟨(1), (up), Or.inl (by decide +kernel)⟩,
    ⟨(1), (.error 3), (⟨.fifo, 3⟩), ((setCan wired fun x => { x with tec := 250 })), by decide +kernel⟩⟩

theorem test_CanFramesAndErrors_6_to_11 :
    (∃ (c : Fin 4) (x : CanTxResult) (s : State), (s.canCh c.val).wire = none) ∧
    (∃ (c : Fin 4) (m : Fin 64) (s : State), s.blkOn 9 = true ∧ s.canObjOn c.val m.val 1 = true ∧ s.get (F.CAN_OTIM_TIMEOUT c.val m.val) ≠ 0 ∧ (s.canCh c.val).mode ≠ 0 ∧ s.get (F.CAN_OST_RXTO c.val m.val) = 0) ∧
    (∃ (c : Fin 4) (m : Fin 64) (s : State), ((s.blkOn 9 = false ∨ s.canObjOn c.val m.val 1 = false ∨ s.get (F.CAN_OTIM_TIMEOUT c.val m.val) = 0 ∨ (s.canCh c.val).mode = 0 ∨ s.get (F.CAN_OST_RXTO c.val m.val) = 1))) ∧
    (∃ (c : Fin 4) (i : Nat) (m : Nat) (s : State), c.val < s.can.length ∧ s.get (F.CAN_TT_TT_EN c.val) ≠ 0 ∧ s.canSends c.val = true ∧ (s.canCh c.val).cell = none ∧ firstBelow 1025 (fun i => (if s.sysNow % s.colNs c.val = 0 then 0 else 1) ≤ i && (s.cellObj c.val (s.colNow c.val + i)).isSome) = some i ∧ s.cellObj c.val (s.colNow c.val + i) = some m) ∧
    (∃ (c : Fin 4) (s : State), (s.canCh c.val).cell = none ∧ firstBelow 1025 (fun i => (if s.sysNow % s.colNs c.val = 0 then 0 else 1) ≤ i && (s.cellObj c.val (s.colNow c.val + i)).isSome) = none) ∧
    (∃ (c : Fin 4) (s : State), ((s.get (F.CAN_TT_TT_EN c.val) = 0 ∨ s.canSends c.val = false))) :=
  ⟨⟨(1), (.ok), (up), by decide +kernel⟩,
    ⟨(1), (12), (rxObj.put (F.CAN_OTIM_TIMEOUT 1 12) 50), by decide +kernel⟩,
    ⟨(1), (12), (up), Or.inr (Or.inl (by decide +kernel))⟩,
    ⟨(1), (3), (3), (setCan ttObj fun x => { x with objs := x.objs.mapIdx fun k o => if k = 3 then { o with hasData := false } else o }), by decide +kernel⟩,
    ⟨(1), (ttObj.put (F.CAN_TTCOL_EN 1 3) 0), by decide +kernel⟩,
    ⟨(1), (up), Or.inl (by decide +kernel)⟩⟩

theorem test_CanFramesAndErrors_12_to_17 :
    (∃ (c : Fin 4) (m : Nat) (x : Nat) (s : State), c.val < s.can.length ∧ (s.canCh c.val).cell = some (m, x) ∧ (s.canCh c.val).onWire m = false) ∧
    (∃ (c : Fin 4) (s : State), (((s.canCh c.val).cell = none ∨ ∃ m x, (s.canCh c.val).cell = some (m, x) ∧ (s.canCh c.val).onWire m = true))) ∧
    (∃ (c : Fin 4) (s : State), c.val < s.can.length ∧ 255 < (s.canCh c.val).tec ∧ s.canSends c.val = true) ∧
    (∃ (c : Fin 4) (s : State), (((s.canCh c.val).tec ≤ 255 ∨ s.canSends c.val = false))) ∧
    (∃ (c : Fin 4) (s : State), c.val < s.can.length ∧ s.get (F.CAN_STAT_STATE c.val) = 5) ∧
    (∃ (c : Fin 4) (s : State), s.get (F.CAN_STAT_STATE c.val) ≠ 5) :=
  ⟨⟨(1), (3), (40), (setCan ttObj fun x => { x with cell := some (3, 40) }), by decide +kernel⟩,
    ⟨(1), (setCan wired fun x => { x with cell := some (3, 40) }), Or.inr ⟨3, 40, by decide +kernel⟩⟩,
    ⟨(1), ((setCan wired fun x => { x with tec := 256 }).put (F.CAN_CTL_AUTO_REC 1) 1), by decide +kernel⟩,
    ⟨(1), (up), Or.inl (by decide +kernel)⟩,
    ⟨(1), (recovering), by decide +kernel⟩,
    ⟨(1), (up), by decide +kernel⟩⟩

theorem test_CanFramesAndErrors_18_to_23 :
    (∃ (c : Fin 4) (s : State), c.val < s.can.length ∧ s.blkOn 9 = true ∧ (s.canCh c.val).mode ≠ s.get (F.CAN_CTL_MODE c.val) ∧ (s.canCh c.val).wire = none) ∧
    (∃ (c : Fin 4) (s : State), ((s.blkOn 9 = false ∨ (s.canCh c.val).mode = s.get (F.CAN_CTL_MODE c.val) ∨ (s.canCh c.val).wire.isSome = true))) ∧
    (∃ (c : Fin 4) (lec : Fin 8) (s : State), s.blkOn 9 = true ∧ (s.canCh c.val).mode = 1 ∧ s.get (F.CAN_STAT_STATE c.val) ∈ [1, 2] ∧ lec ≠ 0 ∧ ((lec ≠ 7 ∨ s.get (F.CAN_CTL_PXE c.val) = 0))) ∧
    (∃ (c : Fin 4) (lec : Fin 8) (s : State), s.blkOn 9 = true ∧ (s.canCh c.val).mode ≠ 0 ∧ lec ≠ 0 ∧ (((s.canCh c.val).mode = 2 ∨ s.get (F.CAN_STAT_STATE c.val) ∈ [3, 5] ∨ lec = 7 ∧ s.get (F.CAN_CTL_PXE c.val) = 1))) ∧
    (∃ (c : Fin 4) (lec : Fin 8) (s : State), ((s.blkOn 9 = false ∨ (s.canCh c.val).mode = 0 ∨ lec = 0))) ∧
    (∃ (c : Fin 4) (m : Nat) (s : State), c.val < s.can.length ∧ s.blkOn 9 = true ∧ s.get (F.CAN_TXCTL_DLEN c.val) ≤ 64 ∧ s.get (F.CAN_TXCTL_OBJ c.val) = m ∧ m < (s.canCh c.val).objs.length ∧ s.canObjOn c.val m 2 = true ∧ s.canFormatOk c.val m = true ∧ s.canSends c.val = true ∧ s.canTargetLost c.val m = false ∧ s.mode ≠ modeHoldup ∧ (s.canCh c.val).onWire m = false ∧ s.canIsTt c.val m = false ∧ ((∀ p ∈ (s.canCh c.val).fifo, p.1 ≠ m)) ∧ (s.canCh c.val).fifo.length < 32) :=
  ⟨⟨(1), (chMode 2 1), by decide +kernel⟩,
    ⟨(1), (up), Or.inr (Or.inl (by decide +kernel))⟩,
    ⟨(1), (2), ((live.put (F.CAN_STAT_REC 1) 127)), by decide +kernel⟩,
    ⟨(1), (3), (live.put (F.CAN_STAT_STATE 1) 3), by decide +kernel⟩,
    ⟨(1), (2), (up), Or.inr (by decide +kernel)⟩,
    ⟨(1), (3), (txGo), by decide +kernel⟩⟩

theorem test_CanFramesAndErrors_24_to_29 :
    (∃ (c : Fin 4) (m : Nat) (s : State), c.val < s.can.length ∧ s.blkOn 9 = true ∧ s.get (F.CAN_TXCTL_DLEN c.val) ≤ 64 ∧ s.get (F.CAN_TXCTL_OBJ c.val) = m ∧ m < (s.canCh c.val).objs.length ∧ s.canObjOn c.val m 2 = true ∧ s.canFormatOk c.val m = true ∧ s.canSends c.val = true ∧ s.canTargetLost c.val m = false ∧ s.mode ≠ modeHoldup ∧ (s.canCh c.val).onWire m = true) ∧
    (∃ (c : Fin 4) (m : Nat) (s : State), c.val < s.can.length ∧ s.blkOn 9 = true ∧ s.get (F.CAN_TXCTL_DLEN c.val) ≤ 64 ∧ s.get (F.CAN_TXCTL_OBJ c.val) = m ∧ ((s.canObjOn c.val m 2 = false ∨ s.canFormatOk c.val m = false ∨ s.canSends c.val = false ∨ s.canTargetLost c.val m = true ∨ s.mode = modeHoldup))) ∧
    (∃ (c : Fin 4) (s : State), ((s.blkOn 9 = false ∨ 64 < s.get (F.CAN_TXCTL_DLEN c.val)))) ∧
    (∃ (c : Fin 4) (m : Nat) (s : State), c.val < s.can.length ∧ s.blkOn 9 = true ∧ s.get (F.CAN_TXCTL_OBJ c.val) = m ∧ m < (s.canCh c.val).objs.length ∧ s.canObjOn c.val m 2 = true ∧ (s.canCh c.val).onWire m = false) ∧
    (∃ (c : Fin 4) (m : Nat) (s : State), c.val < s.can.length ∧ s.blkOn 9 = true ∧ s.get (F.CAN_TXCTL_OBJ c.val) = m ∧ m < (s.canCh c.val).objs.length ∧ s.canObjOn c.val m 2 = true ∧ (s.canCh c.val).onWire m = true) ∧
    (∃ (c : Fin 4) (s : State), ((s.blkOn 9 = false ∨ s.canObjOn c.val (s.get (F.CAN_TXCTL_OBJ c.val)) 2 = false))) :=
  ⟨⟨(1), (3), (sets wired [(F.CAN_TXCTL_OBJ 1, 3), (F.CAN_TXCTL_DLEN 1, 8)]), by decide +kernel⟩,
    ⟨(1), (3), (txGo.put (F.CAN_STAT_STATE 1) 3), by decide +kernel⟩,
    ⟨(1), ((txGo.put (F.CAN_TXCTL_DLEN 1) 65)), Or.inr (by decide +kernel)⟩,
    ⟨(1), (3), (queued.put (F.CAN_TXCTL_OBJ 1) 3), by decide +kernel⟩,
    ⟨(1), (3), (sets wired [(F.CAN_TXCTL_OBJ 1, 3)]), by decide +kernel⟩,
    ⟨(1), (up.put F.SYS_PD_STAT_ON 0x7DF), Or.inl (by decide +kernel)⟩⟩

theorem test_CanFramesAndErrors_30_to_31 :
    (∃ (c : Fin 4) (s : State), s.blkOn 9 = true ∧ s.get (F.CAN_STAT_STATE c.val) = 3) ∧
    (∃ (c : Fin 4) (s : State), ((s.blkOn 9 = false ∨ s.get (F.CAN_STAT_STATE c.val) ≠ 3))) :=
  ⟨⟨(1), (live.put (F.CAN_STAT_STATE 1) 3), by decide +kernel⟩,
    ⟨(1), (live), Or.inr (by decide +kernel)⟩⟩

theorem test_CanOpcodes_0_to_5 :
    (∃ r s q, admitted? (.canCfg r) s = some q) ∧
    (∃ r s q v, admitted? (.canObjCfg r) s = some q ∧ tvs q.tlvs 0x0903 = [v]) ∧
    (∃ r s q v, admitted? (.canTtCfg r) s = some q ∧ tvs q.tlvs 0x0904 = [v]) ∧
    (∃ r s q, admitted? (.canMode r) s = some q ∧ (s.canCh (tn q.tlvs 0x0901)).mode ≠ tn q.tlvs 0x0905) ∧
    (∃ r s q, admitted? (.canMode r) s = some q ∧ (s.canCh (tn q.tlvs 0x0901)).mode = tn q.tlvs 0x0905) ∧
    (∃ r s q, admitted? (.canSend r) s = some q ∧ s.canTargetLost (tn q.tlvs 0x0901) (tn q.tlvs 0x0906) = false ∧ s.canFormatOk (tn q.tlvs 0x0901) (tn q.tlvs 0x0906) = true ∧ s.mode ≠ modeHoldup ∧ (s.canCh (tn q.tlvs 0x0901)).onWire (tn q.tlvs 0x0906) = false ∧ s.canIsTt (tn q.tlvs 0x0901) (tn q.tlvs 0x0906) = false ∧ ((∀ p ∈ (s.canCh (tn q.tlvs 0x0901)).fifo, p.1 ≠ (tn q.tlvs 0x0906))) ∧ (s.canCh (tn q.tlvs 0x0901)).fifo.length < 32 ∧ (tn q.tlvs 0x0901) < s.can.length) :=
  ⟨⟨(rq [tlv 0x0901 [1], tlv 0x0902 (natBE 4 (up.rd (Reg.CAN_CTL 1)) ++ natBE 4 (up.rd (Reg.CAN_NBT 1)) ++ natBE 4 (up.rd (Reg.CAN_DBT 1)) ++ natBE 4 (up.rd (Reg.CAN_TT 1)))]), (up), ((admitted? (.canCfg (rq [tlv 0x0901 [1], tlv 0x0902 (natBE 4 (up.rd (Reg.CAN_CTL 1)) ++ natBE 4 (up.rd (Reg.CAN_NBT 1)) ++ natBE 4 (up.rd (Reg.CAN_DBT 1)) ++ natBE 4 (up.rd (Reg.CAN_TT 1)))])) (up)).getD q0), admit_ok (by decide +kernel)⟩,
    ⟨(rq [tlv 0x0901 [1], tlv 0x0903 ([12] ++ natBE 4 0xA0000000 ++ natBE 4 0x185 ++ natBE 4 50)]), (up), ((admitted? (.canObjCfg (rq [tlv 0x0901 [1], tlv 0x0903 ([12] ++ natBE 4 0xA0000000 ++ natBE 4 0x185 ++ natBE 4 50)])) (up)).getD q0), (([12] ++ natBE 4 0xA0000000 ++ natBE 4 0x185 ++ natBE 4 50)), admit_ok (by decide +kernel), by decide +kernel⟩,
    ⟨(rq [tlv 0x0901 [1], tlv 0x0904 ([5] ++ natBE 4 3)]), (up), ((admitted? (.canTtCfg (rq [tlv 0x0901 [1], tlv 0x0904 ([5] ++ natBE 4 3)])) (up)).getD q0), (([5] ++ natBE 4 3)), admit_ok (by decide +kernel), by decide +kernel⟩,
    ⟨(rq [tlv 0x0901 [1], tlv 0x0905 [0]]), (live), ((admitted? (.canMode (rq [tlv 0x0901 [1], tlv 0x0905 [0]])) (live)).getD q0), admit_ok (by decide +kernel), by decide +kernel⟩,
    ⟨(rq [tlv 0x0901 [1], tlv 0x0905 [0]]), (chMode 1 0), ((admitted? (.canMode (rq [tlv 0x0901 [1], tlv 0x0905 [0]])) (chMode 1 0)).getD q0), admit_ok (by decide +kernel), by decide +kernel⟩,
    ⟨(rq [tlv 0x0901 [1], tlv 0x0906 [3], tlv 0x0907 [1, 2]]), (txObj), ((admitted? (.canSend (rq [tlv 0x0901 [1], tlv 0x0906 [3], tlv 0x0907 [1, 2]])) (txObj)).getD q0), admit_ok (by decide +kernel), by decide +kernel⟩⟩

theorem test_CanOpcodes_6_to_11 :
    (∃ r s q, admitted? (.canSend r) s = some q ∧ ((s.canTargetLost (tn q.tlvs 0x0901) (tn q.tlvs 0x0906) = true ∨ s.canFormatOk (tn q.tlvs 0x0901) (tn q.tlvs 0x0906) = false))) ∧
    (∃ r s q, admitted? (.canCancelObj r) s = some q ∧ s.canObjOn (tn q.tlvs 0x0901) (tn q.tlvs 0x0906) 2 = true ∧ (s.canCh (tn q.tlvs 0x0901)).onWire (tn q.tlvs 0x0906) = false ∧ (tn q.tlvs 0x0901) < s.can.length) ∧
    (∃ r s q, admitted? (.canCancelObj r) s = some q ∧ s.canObjOn (tn q.tlvs 0x0901) (tn q.tlvs 0x0906) 2 = false) ∧
    (∃ r s q, admitted? (.canRecover r) s = some q ∧ s.get (F.CAN_STAT_STATE (tn q.tlvs 0x0901)) = 3) ∧
    (∃ r s q, admitted? (.canRecover r) s = some q ∧ s.get (F.CAN_STAT_STATE (tn q.tlvs 0x0901)) ≠ 3) ∧
    (∃ r s q, admitted? (.canBind r) s = some q ∧ (tn q.tlvs 0x0901) < s.can.length) :=
  ⟨⟨(rq [tlv 0x0901 [1], tlv 0x0906 [3], tlv 0x0907 [1, 2]]), (sets txObj [(F.CAN_OCFG_FDF 1 3, 1), (F.CAN_CTL_FDOE 1, 0)]), ((admitted? (.canSend (rq [tlv 0x0901 [1], tlv 0x0906 [3], tlv 0x0907 [1, 2]])) (sets txObj [(F.CAN_OCFG_FDF 1 3, 1), (F.CAN_CTL_FDOE 1, 0)])).getD q0), admit_ok (by decide +kernel), Or.inr (by decide +kernel)⟩,
    ⟨(rq [tlv 0x0901 [1], tlv 0x0906 [3]]), (queued), ((admitted? (.canCancelObj (rq [tlv 0x0901 [1], tlv 0x0906 [3]])) (queued)).getD q0), admit_ok (by decide +kernel), by decide +kernel⟩,
    ⟨(rq [tlv 0x0901 [1], tlv 0x0906 [12]]), (rxObj), ((admitted? (.canCancelObj (rq [tlv 0x0901 [1], tlv 0x0906 [12]])) (rxObj)).getD q0), admit_ok (by decide +kernel), by decide +kernel⟩,
    ⟨(rq [tlv 0x0901 [1]]), (live.put (F.CAN_STAT_STATE 1) 3), ((admitted? (.canRecover (rq [tlv 0x0901 [1]])) (live.put (F.CAN_STAT_STATE 1) 3)).getD q0), admit_ok (by decide +kernel), by decide +kernel⟩,
    ⟨(rq [tlv 0x0901 [1]]), (live), ((admitted? (.canRecover (rq [tlv 0x0901 [1]])) (live)).getD q0), admit_ok (by decide +kernel), by decide +kernel⟩,
    ⟨(rq [tlv 0x0901 [1], tlv 0x0908 (natBE 8 0x0400000000000602 ++ [12, 0, 0, 8, 0, 3, 0, 0])]), (withObj rxObj (newObj 6 tyMSV 0 100)), ((admitted? (.canBind (rq [tlv 0x0901 [1], tlv 0x0908 (natBE 8 0x0400000000000602 ++ [12, 0, 0, 8, 0, 3, 0, 0])])) (withObj rxObj (newObj 6 tyMSV 0 100))).getD q0), admit_ok (by decide +kernel), by decide +kernel⟩⟩

theorem test_CanOpcodes_12_to_14 :
    (∃ r s q, admitted? (.canStation r) s = some q ∧ (tn q.tlvs 0x0901) < s.can.length) ∧
    (∃ r s q, admitted? (.canStatus r) s = some q) ∧
    (∃ r s q, admitted? (.canRead r) s = some q) :=
  ⟨⟨(rq [tlv 0x0901 [1], tlv 0x0909 [7], tlv 0x0906 [12], tlv 1 (natBE 8 0x0400000000000600)]), (withObj rxObj (newObj 6 tyStation 0 8)), ((admitted? (.canStation (rq [tlv 0x0901 [1], tlv 0x0909 [7], tlv 0x0906 [12], tlv 1 (natBE 8 0x0400000000000600)])) (withObj rxObj (newObj 6 tyStation 0 8))).getD q0), admit_ok (by decide +kernel), by decide +kernel⟩,
    ⟨(rq [tlv 0x0901 [1]]), (up), ((admitted? (.canStatus (rq [tlv 0x0901 [1]])) (up)).getD q0), admit_ok (by decide +kernel)⟩,
    ⟨(rq [tlv 0x0901 [1], tlv 0x0906 [12]]), (rxObj), ((admitted? (.canRead (rq [tlv 0x0901 [1], tlv 0x0906 [12]])) (rxObj)).getD q0), admit_ok (by decide +kernel)⟩⟩

theorem test_EthernetAndStride_0_to_5 :
    (∃ (p : Fin 4) (rates : BitVec 4) (eee : BitVec 4) (k : Nat) (s : State), p.val < s.eth.length ∧ s.ethOn = true ∧ s.get (F.ETH_PCFG_EN p.val) ≠ 0 ∧ ((s.portRates p.val).filter fun r => bit1 rates.toNat r == 1).getLast? = some k) ∧
    (∃ (p : Fin 4) (up : Bool) (rates : BitVec 4) (eee : BitVec 4) (half : Bool) (s : State), s.ethOn = true ∧ ((up = false ∧ s.get (F.ETH_PSTAT_LINK p.val) = 1 ∨ up = true ∧ s.get (F.ETH_PCFG_EN p.val) ≠ 0 ∧ (half = true ∨ ((s.portRates p.val).filter fun r => bit1 rates.toNat r == 1) = [])))) ∧
    (∃ (p : Fin 4) (up : Bool) (rates : BitVec 4) (eee : BitVec 4) (half : Bool) (s : State), ((s.ethOn = false ∨ up = false ∧ s.get (F.ETH_PSTAT_LINK p.val) ≠ 1 ∨ up = true ∧ s.get (F.ETH_PCFG_EN p.val) = 0))) ∧
    (∃ (p : Fin 4) (f : EthFrame) (s : State), p.val < s.eth.length ∧ s.ethOn = true ∧ s.get (F.ETH_PCFG_EN p.val) ≠ 0 ∧ f.pause = false) ∧
    (∃ (p : Fin 4) (f : EthFrame) (s : State), ((s.ethOn = false ∨ s.get (F.ETH_PCFG_EN p.val) = 0 ∨ f.pause = true))) ∧
    (∃ (p : Fin 4) (alloc : Option Byte) (stride : Option (BitVec 4)) (s : State), p.val < s.eth.length ∧ s.ethOn = true ∧ s.get (F.ETH_PCFG_LLDP_EN p.val) ≠ 0 ∧ s.get (F.ETH_PSTAT_LINK p.val) ≠ 0) :=
  ⟨⟨(3), (8), (8), (3), ((sets up [(F.ETH_PCFG_EN 3, 1)]).modPort 3 fun x => { x with egress := [⟨0, .pulse 1⟩, ⟨2, .pulse 2⟩] }), by decide +kernel⟩,
    ⟨(0), (true), (8), (0), (false), (ethUp), by decide +kernel⟩,
    ⟨(0), (true), (3), (0), (false), (ethUp.setPd 4 false), by decide +kernel⟩,
    ⟨(0), (⟨0x010203040506, 1518, false, false, false, false⟩), ((ethUp).modPort 0 fun x => { x with flt := [(0x010203040506, true)] }), by decide +kernel⟩,
    ⟨(0), (⟨1, 64, false, false, true, false⟩), (ethUp), by decide +kernel⟩,
    ⟨(1), (none), (some 3), ((sets ethUp [(F.ETH_PCFG_LLDP_EN 1, 1), (F.ETH_PSTAT_LINK 1, 1)]).modPort 1 fun x => { x with tlvSent := true }), by decide +kernel⟩⟩

theorem test_EthernetAndStride_6_to_11 :
    (∃ (p : Fin 4) (alloc : Option Byte) (stride : Option (BitVec 4)) (s : State), ((s.ethOn = false ∨ s.get (F.ETH_PCFG_LLDP_EN p.val) = 0 ∨ s.get (F.ETH_PSTAT_LINK p.val) = 0))) ∧
    (∃ (s : State), s.ethOn = true ∧ s.eth.length = 4) ∧
    (∃ (s : State), s.ethOn = false) ∧
    (∃ (p : Fin 4) (s : State), p.val < s.eth.length ∧ s.get (F.ETH_PSTAT_LYSRIX p.val) ≠ 0) ∧
    (∃ (p : Fin 4) (s : State), s.get (F.ETH_PSTAT_LYSRIX p.val) = 0) ∧
    (∃ (p : Fin 4) (s : State), p.val < 2 ∧ s.ethOn = true ∧ s.get (F.ETH_PSTAT_LINK p.val) = 1 ∧ s.get F.LEDGER_PORT_LIM_LPI_EN = 1 ∧ s.mode ≠ modeSprint ∧ bit1 (s.port p.val).eee (s.get (F.ETH_PSTAT_RATE p.val)) = 1 ∧ (s.port p.val).egress = [] ∧ (s.port p.val).target = none ∧ s.get (F.ETH_PSTAT_C0LOCK p.val) = 0) :=
  ⟨⟨(0), (none), (none), (up), by decide +kernel⟩,
    ⟨(ethUp), by decide +kernel⟩,
    ⟨(up.setPd 4 false), by decide +kernel⟩,
    ⟨(0), ((ethUp).modPort 0 fun x => { x with tlvAt := 5 }), by decide +kernel⟩,
    ⟨(1), (up), by decide +kernel⟩,
    ⟨(0), ((ethUp.put F.LEDGER_PORT_LIM_LPI_EN 1).modPort 0 fun x => { x with eee := 1, idleAt := 7 }), by decide +kernel⟩⟩

theorem test_EthernetAndStride_12_to_17 :
    (∃ (p : Fin 4) (s : State), ((2 ≤ p.val ∨ s.ethOn = false ∨ s.get (F.ETH_PSTAT_LINK p.val) ≠ 1 ∨ s.get F.LEDGER_PORT_LIM_LPI_EN ≠ 1 ∨ s.mode = modeSprint ∨
      bit1 (s.port p.val).eee (s.get (F.ETH_PSTAT_RATE p.val)) ≠ 1 ∨ (s.port p.val).egress ≠ [] ∨ (s.port p.val).target.isSome = true ∨ s.get (F.ETH_PSTAT_C0LOCK p.val) ≠ 0))) ∧
    (∃ (p : Fin 4) (load : W32) (deep : Bool) (led : Bool) (k : Nat) (s : State), p.val < s.eth.length ∧ p.val < 2 ∧ s.ethOn = true ∧ s.get (F.ETH_PCFG_STRIDE_EN p.val) ≠ 0 ∧ s.get (F.ETH_PSTAT_LYSRIX p.val) ≠ 0 ∧ s.get (F.ETH_PSTAT_LINK p.val) ≠ 0 ∧ ((s.get (F.ETH_PSTAT_STRIDE p.val) = 0 ∨ s.get (F.ETH_PSTAT_STRIDE p.val) = 3)) ∧ (s.port p.val).barTill ≤ s.clk ∧ s.strideWant p.val load.toNat deep = some (k, led)) ∧
    (∃ (p : Fin 4) (load : W32) (deep : Bool) (s : State), s.get (F.ETH_PSTAT_STRIDE p.val) ≠ 3 ∧ ((2 ≤ p.val ∨ s.ethOn = false ∨ s.get (F.ETH_PCFG_STRIDE_EN p.val) = 0 ∨ s.get (F.ETH_PSTAT_LYSRIX p.val) = 0 ∨ s.get (F.ETH_PSTAT_LINK p.val) = 0 ∨
      s.get (F.ETH_PSTAT_STRIDE p.val) ≠ 0 ∨ s.clk < (s.port p.val).barTill ∨ s.strideWant p.val load.toNat deep = none))) ∧
    (∃ (p : Fin 4) (k : BitVec 2) (n : Byte) (lower : Bool) (s : State), p.val < s.eth.length ∧ p.val < 2 ∧ s.ethOn = true ∧ s.get (F.ETH_PCFG_STRIDE_EN p.val) ≠ 0 ∧ s.get (F.ETH_PSTAT_LYSRIX p.val) ≠ 0 ∧ s.get (F.ETH_PSTAT_LINK p.val) ≠ 0 ∧ ((s.get (F.ETH_PSTAT_STRIDE p.val) = 3 → (s.port p.val).barTill ≤ s.clk)) ∧ (s.port p.val).target = none ∧ (((s.port p.val).req = none ∨ lower = true))) ∧
    (∃ (p : Fin 4) (k : BitVec 2) (n : Byte) (lower : Bool) (s : State), p.val < s.eth.length ∧ p.val < 2 ∧ s.ethOn = true ∧ s.get (F.ETH_PCFG_STRIDE_EN p.val) ≠ 0 ∧ s.get (F.ETH_PSTAT_LYSRIX p.val) ≠ 0 ∧ s.get (F.ETH_PSTAT_LINK p.val) ≠ 0 ∧ (((s.port p.val).target.isSome = true ∨ s.get (F.ETH_PSTAT_STRIDE p.val) = 3 ∧ s.clk < (s.port p.val).barTill))) ∧
    (∃ (p : Fin 4) (k : BitVec 2) (n : Byte) (lower : Bool) (s : State), s.get (F.ETH_PSTAT_STRIDE p.val) ≠ 3 ∧ ((2 ≤ p.val ∨ s.ethOn = false ∨ s.get (F.ETH_PCFG_STRIDE_EN p.val) = 0 ∨ s.get (F.ETH_PSTAT_LYSRIX p.val) = 0 ∨ s.get (F.ETH_PSTAT_LINK p.val) = 0 ∨
      (s.port p.val).target = none ∧ (s.port p.val).req.isSome = true ∧ lower = false))) :=
  ⟨⟨(0), (up), by decide +kernel⟩,
    ⟨(0), (71), (false), (false), (1), (ethUp.put (F.ETH_PSTAT_STRIDE 0) 3), by decide +kernel⟩,
    ⟨(0), (71), (false), (up), by decide +kernel⟩,
    ⟨(0), (1), (7), (true), ((ethUp).modPort 0 fun x => { x with req := some (2, 4) }), by decide +kernel⟩,
    ⟨(0), (1), (7), (false), ((ethUp.put (F.ETH_PSTAT_STRIDE 0) 3).modPort 0 fun x => { x with barTill := 10 ^ 15 }), by decide +kernel⟩,
    ⟨(0), (1), (7), (false), (up), by decide +kernel⟩⟩

theorem test_EthernetAndStride_18_to_23 :
    (∃ (p : Fin 4) (n : Byte) (k : Nat) (s : State), p.val < s.eth.length ∧ (s.port p.val).req = some (k, n.toNat)) ∧
    (∃ (p : Fin 4) (n : Byte) (s : State), ((∀ k, (s.port p.val).req ≠ some (k, n.toNat)))) ∧
    (∃ (p : Fin 4) (n : Byte) (k : Nat) (s : State), p.val < s.eth.length ∧ (s.port p.val).req = some (k, n.toNat)) ∧
    (∃ (p : Fin 4) (n : Byte) (s : State), ((∀ k, (s.port p.val).req ≠ some (k, n.toNat)))) ∧
    (∃ (p : Fin 4) (s : State), p.val < s.eth.length ∧ (s.port p.val).target.isSome = true) ∧
    (∃ (p : Fin 4) (s : State), (s.port p.val).target = none) :=
  ⟨⟨(0), (4), (1), ((ethUp).modPort 0 fun x => { x with req := some (1, 4) }), by decide +kernel⟩,
    ⟨(0), (4), (up), fun k h => nomatch (show none = some (k, _) from h)⟩,
    ⟨(0), (4), (1), ((ethUp).modPort 0 fun x => { x with req := some (1, 4) }), by decide +kernel⟩,
    ⟨(0), (4), (up), fun k h => nomatch (show none = some (k, _) from h)⟩,
    ⟨(0), ((ethUp).modPort 0 fun x => { x with target := some 1 }), by decide +kernel⟩,
    ⟨(0), (up), by decide +kernel⟩⟩

theorem test_EthernetAndStride_24_to_29 :
    (∃ (p : Fin 4) (s : State), p.val < s.eth.length ∧ (s.port p.val).req.isSome = true) ∧
    (∃ (p : Fin 4) (s : State), (s.port p.val).req = none) ∧
    (∃ (p : Fin 4) (k : Nat) (s : State), p.val < s.eth.length ∧ (s.port p.val).target = some k ∧ k < 4 ∧ (s.port p.val).markTx = true ∧ (s.port p.val).markRx = true) ∧
    (∃ (p : Fin 4) (s : State), (((s.port p.val).target = none ∨ (s.port p.val).markTx = false ∨ (s.port p.val).markRx = false))) ∧
    (∃ (p : Fin 4) (s : State), p.val < s.eth.length ∧ (s.port p.val).target.isSome = true ∧ (s.port p.val).markTx = true ∧ (s.port p.val).markRx = true) ∧
    (∃ (p : Fin 4) (s : State), (((s.port p.val).target = none ∨ (s.port p.val).markTx = false ∨ (s.port p.val).markRx = false))) :=
  ⟨⟨(0), ((ethUp).modPort 0 fun x => { x with req := some (1, 4), reqAt := 9 }), by decide +kernel⟩,
    ⟨(0), (up), by decide +kernel⟩,
    ⟨(2), (3), (up.modPort 2 fun x => { x with target := some 3, markTx := true, markRx := true }), by decide +kernel⟩,
    ⟨(0), ((ethUp).modPort 0 fun x => { x with target := some 2 }), by decide +kernel⟩,
    ⟨(0), ((ethUp).modPort 0 fun x => { x with target := some 2, markTx := true, markRx := true, markAt := 8 }), by decide +kernel⟩,
    ⟨(0), (up), by decide +kernel⟩⟩

theorem test_EthernetAndStride_30_to_35 :
    (∃ (p : Fin 4) (n : W32) (x : Nat) (s : State), p.val < s.eth.length ∧ (s.port p.val).failAt = some x ∧ s.get (F.ETH_PSTAT_LINK p.val) ≠ 1) ∧
    (∃ (p : Fin 4) (n : W32) (s : State), (((s.port p.val).failAt = none ∨ s.get (F.ETH_PSTAT_LINK p.val) = 1))) ∧
    (∃ (p : Fin 4) (e : Fin 16) (v : W32) (s : State), p.val < s.eth.length ∧ 2 ≤ e.val ∧ s.ethOn = true ∧ e.val < (s.port p.val).flt.length) ∧
    (∃ (p : Fin 4) (e : Fin 16) (v : W32) (s : State), ((e.val < 2 ∨ s.ethOn = false))) ∧
    (∃ r s q, admitted? (.ethPortCfg r) s = some q ∧ ((bit1 (beAt (tv q.tlvs 0x0A02) 0 4) 31 = 1 ∨ (s.session? r.sess.val).map (·.port) ≠ some (tn q.tlvs 0x0A01)))) ∧
    (∃ r s q, admitted? (.ethFilterSet r) s = some q) :=
  ⟨⟨(1), (5), (7), ((up.modPort 1 fun x => { x with failAt := some 7, egress := [⟨0, .pulse 1⟩, ⟨2, .pulse 2⟩] })), by decide +kernel⟩,
    ⟨(0), (5), (up), by decide +kernel⟩,
    ⟨(0), (15), (0x00000001), (up), by decide +kernel⟩,
    ⟨(0), (1), (5), (up), by decide +kernel⟩,
    ⟨(rq [tlv 0x0A01 [1], tlv 0x0A02 (natBE 4 0x80000001 ++ natBE 4 0x00143C14)]), (up), ((admitted? (.ethPortCfg (rq [tlv 0x0A01 [1], tlv 0x0A02 (natBE 4 0x80000001 ++ natBE 4 0x00143C14)])) (up)).getD q0), admit_ok (by decide +kernel), by decide +kernel⟩,
    ⟨(rq [tlv 0x0A01 [0], tlv 0x0A03 [15, 1, 1, 2, 3, 4, 5, 6]]), (up), ((admitted? (.ethFilterSet (rq [tlv 0x0A01 [0], tlv 0x0A03 [15, 1, 1, 2, 3, 4, 5, 6]])) (up)).getD q0), admit_ok (by decide +kernel)⟩⟩

theorem test_EthernetAndStride_36_to_40 :
    (∃ r s q, admitted? (.ethIpCfg r) s = some q) ∧
    (∃ r s q, admitted? (.ethNetCfg r) s = some q) ∧
    (∃ r s q, admitted? (.ethStatus r) s = some q) ∧
    (∃ (x : FPend) (rest : List FPend) (s : State), s.furun.pend = x :: rest) ∧
    (∃ (s : State), s.furun.pend = []) :=
  ⟨⟨(rq [tlv 0x0A01 [0], tlv 0x0A04 (List.replicate 16 1 ++ [128] ++ List.replicate 4 1 ++ [32, 0, 0])]), (up), ((admitted? (.ethIpCfg (rq [tlv 0x0A01 [0], tlv 0x0A04 (List.replicate 16 1 ++ [128] ++ List.replicate 4 1 ++ [32, 0, 0])])) (up)).getD q0), admit_ok (by decide +kernel)⟩,
    ⟨(rq [tlv 0x0A05 (natBE 4 0x04000401)]), (up), ((admitted? (.ethNetCfg (rq [tlv 0x0A05 (natBE 4 0x04000401)])) (up)).getD q0), admit_ok (by decide +kernel)⟩,
    ⟨(rq [tlv 0x0A01 [3]]), (up), ((admitted? (.ethStatus (rq [tlv 0x0A01 [3]])) (up)).getD q0), admit_ok (by decide +kernel)⟩,
    ⟨(⟨20, 0x0A01, [(0x0A01, [1]), (0x0A02, [0x80, 0, 0, 1, 0, 20, 60, 20])]⟩), ([]), (pend 0x0A01 [(0x0A01, [1]), (0x0A02, [0x80, 0, 0, 1, 0, 20, 60, 20])]), by decide +kernel⟩,
    ⟨(up), by decide +kernel⟩⟩

theorem test_FurunLinksAndContact_0_to_6 :
    (∃ (p : FPiece) (s : State), s.keys.linkSlots.any (fun l => l.peer == p.peer) = true ∧ p.len.toNat = p.body.length ∧ ((s.link? p.peer).all fun l => seqOk l.seen p.seq.toNat) = true ∧ s.isMember p.peer = true ∧ (((s.link? p.peer).isSome = true ∨ s.furun.links.length < 256)) ∧ max 3 (beAt p.body 0 1) ≤ min 5 (beAt p.body 1 1)) ∧
    (∃ (p : FPiece) (s : State), s.keys.linkSlots.any (fun l => l.peer == p.peer) = true ∧ p.len.toNat = p.body.length ∧ ((s.link? p.peer).all fun l => seqOk l.seen p.seq.toNat) = true ∧ ((s.isMember p.peer = false ∨ s.link? p.peer = none ∧ 256 ≤ s.furun.links.length ∨ min 5 (beAt p.body 1 1) < max 3 (beAt p.body 0 1)))) ∧
    (∃ (p : FPiece) (s : State), ((s.keys.linkSlots.any (fun l => l.peer == p.peer) = false ∨ p.len.toNat ≠ p.body.length ∨ ((s.link? p.peer).any fun l => !(seqOk l.seen p.seq.toNat)) = true))) ∧
    (∃ (p : FPiece) (s1 : State) (s : State), s.furunPiece 2 p = (s1, none)) ∧
    (∃ (p : FPiece) (m : Bytes) (s1 : State) (l : FLink) (s : State), s.furunPiece 2 p = (s1, some m) ∧ s1.link? p.peer = some l ∧ l.refused = false ∧ ((l.last.isSome = true ∨ s1.anchors 0 = false ∨ s1.modCount 0 + max 1 (beAt m 4 2) ≤ 4096))) ∧
    (∃ (p : FPiece) (m : Bytes) (s1 : State) (l : FLink) (s : State), s.furunPiece 2 p = (s1, some m) ∧ s1.link? p.peer = some l ∧ l.last = none ∧ s1.anchors 0 = true ∧ 4096 < s1.modCount 0 + max 1 (beAt m 4 2)) :=
  ⟨⟨(msg [5, 9, 0, 100, 0x09, 0x60, 0, 0]), (linkOpen), by decide +kernel⟩,
    ⟨(msg [3, 5, 0, 100, 0x09, 0x60, 0, 0]), (setFu linkOpen fun x => { x with groups := [] }), by decide +kernel⟩,
    ⟨(msg [3, 5, 0, 100, 0x09, 0x60, 0, 0]), (setFu linkOpen fun x => { x with links := [linkB] }), by decide +kernel⟩,
    ⟨(half [1]), (((linked).furunPiece 2 (half [1])).1), (linked), piece_ok (by decide +kernel)⟩,
    ⟨(msg ([2, 63, 0, 1, 0, 0, 0, 0] ++ natBE 8 0 ++ natBE 4 1 ++ [2, 2, 0, 0])), ([2, 63, 0, 1, 0, 0, 0, 0] ++ natBE 8 0 ++ natBE 4 1 ++ [2, 2, 0, 0]), ((((setFu linked fun x => { x with links := [{ linkA with last := none }] })).furunPiece 2 (msg ([2, 63, 0, 1, 0, 0, 0, 0] ++ natBE 8 0 ++ natBE 4 1 ++ [2, 2, 0, 0]))).1), ({ linkB with last := none }), ((setFu linked fun x => { x with links := [{ linkA with last := none }] })), piece_ok (by decide +kernel), by decide +kernel⟩,
    ⟨(msg ([2, 63, 0, 1, 16, 0, 0, 0] ++ natBE 8 0 ++ natBE 4 1 ++ [2, 2, 0, 0])), ([2, 63, 0, 1, 16, 0, 0, 0] ++ natBE 8 0 ++ natBE 4 1 ++ [2, 2, 0, 0]), ((((setFu anch fun x => { x with links := [{ linkA with last := none }] })).furunPiece 2 (msg ([2, 63, 0, 1, 16, 0, 0, 0] ++ natBE 8 0 ++ natBE 4 1 ++ [2, 2, 0, 0]))).1), ({ linkB with last := none }), ((setFu anch fun x => { x with links := [{ linkA with last := none }] })), piece_ok (by decide +kernel), by decide +kernel⟩⟩

theorem test_FurunLinksAndContact_7_to_11 :
    (∃ (u : W64) (l : FLink) (x : Nat) (s : State), s.link? u = some l ∧ l.last = some x ∧ l.contact = true) ∧
    (∃ (u : W64) (x : FGroup) (s : State), s.link? u = none ∧ s.fgroup? u = some x ∧ x.anchor = none ∧ x.noneAt = none ∧ x.vote = none ∧ s.takesPart u = true) ∧
    (∃ (u : W64) (s : State), (((∃ l, s.link? u = some l ∧ (l.last = none ∨ l.contact = false)) ∨ s.link? u = none ∧ (∀ x, s.fgroup? u = some x → x.anchor.isSome = true ∨ x.noneAt.isSome = true ∨ x.vote.isSome = true)))) ∧
    (∃ (u : W64) (l : FLink) (a : Nat) (as : List Nat) (s : State), s.link? u = some l ∧ l.parts.map (·.since) = a :: as) ∧
    (∃ (u : W64) (s : State), ((s.link? u = none ∨ ∃ l, s.link? u = some l ∧ l.parts = []))) :=
  ⟨⟨(peerA), (linkA), (0), (linked), by decide +kernel⟩,
    ⟨(0), (⟨0, 6, 1, none, none, none, false⟩), (setFu linked fun x => { x with groups := [⟨0, 6, 1, none, none, none, false⟩] }), by decide +kernel⟩,
    ⟨(0), (linked), Or.inr ⟨by decide +kernel, fun x h => Or.inl (by rw [← Option.some.inj (show some fed = some x from h)]; decide +kernel)⟩⟩,
    ⟨(peerA), ({ linkA with parts := [⟨2, 1, [], none, 5⟩, ⟨2, 9, [], none, 3⟩] }), (5), ([3]), (setFu linked fun x => { x with links := [{ linkA with parts := [⟨2, 1, [], none, 5⟩, ⟨2, 9, [], none, 3⟩] }] }), by decide +kernel⟩,
    ⟨(peerA), (linked), Or.inr ⟨linkA, by decide +kernel⟩⟩⟩

theorem test_FurunAnchorsAndViews_0_to_5 :
    (∃ (p : FPiece) (s1 : State) (s : State), s.furunPiece 3 p = (s1, none)) ∧
    (∃ (p : FPiece) (s1 : State) (s : State), s.furunPiece 4 p = (s1, none)) ∧
    (∃ (p : FPiece) (s1 : State) (s : State), s.furunPiece 5 p = (s1, none)) ∧
    (∃ (p : FPiece) (m : Bytes) (s1 : State) (x : FGroup) (s : State), s.furunPiece 3 p = (s1, some m) ∧ s1.fgroup? (BitVec.ofNat 64 (beAt m 0 8)) = some x ∧ s1.takesPart (BitVec.ofNat 64 (beAt m 0 8)) = true ∧ x.epoch < beAt m 8 4 ∧ bit1 x.members.toNat (beAt m 13 1) = 1 ∧ (x.vote.map (·.epoch)).getD 0 ≤ beAt m 8 4) ∧
    (∃ (p : FPiece) (m : Bytes) (s1 : State) (s : State), s.furunPiece 3 p = (s1, some m) ∧ ((s1.fgroup? (BitVec.ofNat 64 (beAt m 0 8)) = none ∨ s1.takesPart (BitVec.ofNat 64 (beAt m 0 8)) = false ∨ ∃ x, s1.fgroup? (BitVec.ofNat 64 (beAt m 0 8)) = some x ∧ (beAt m 8 4 ≤ x.epoch ∨ bit1 x.members.toNat (beAt m 13 1) = 0 ∨ beAt m 8 4 < (x.vote.map (·.epoch)).getD 0)))) ∧
    (∃ (p : FPiece) (m : Bytes) (s1 : State) (x : FGroup) (s : State), s.furunPiece 4 p = (s1, some m) ∧ s1.fgroup? (BitVec.ofNat 64 (beAt m 0 8)) = some x ∧ x.epoch < beAt m 8 4 ∧ beAt m 12 1 ≠ 0) :=
  ⟨⟨(half [1]), (((linked).furunPiece 3 (half [1])).1), (linked), piece_ok (by decide +kernel)⟩,
    ⟨(half [1]), (((linked).furunPiece 4 (half [1])).1), (linked), piece_ok (by decide +kernel)⟩,
    ⟨(half [1]), (((linked).furunPiece 5 (half [1])).1), (linked), piece_ok (by decide +kernel)⟩,
    ⟨(msg (natBE 8 0 ++ natBE 4 2 ++ [1, 2, 0, 0])), (natBE 8 0 ++ natBE 4 2 ++ [1, 2, 0, 0]), ((((setFu linked fun x => { x with groups := [⟨0, 6, 1, some 2, some ⟨2, [(1, 1)], 5, 0⟩, none, false⟩] })).furunPiece 3 (msg (natBE 8 0 ++ natBE 4 2 ++ [1, 2, 0, 0]))).1), (⟨0, 6, 1, some 2, some ⟨2, [(1, 1)], 5, 0⟩, none, false⟩), ((setFu linked fun x => { x with groups := [⟨0, 6, 1, some 2, some ⟨2, [(1, 1)], 5, 0⟩, none, false⟩] })), piece_ok (by decide +kernel), by decide +kernel⟩,
    ⟨(msg (natBE 8 0 ++ natBE 4 2 ++ [2, 2, 0, 0])), (natBE 8 0 ++ natBE 4 2 ++ [2, 2, 0, 0]), ((((setFu linked fun x => { x with groups := [] })).furunPiece 3 (msg (natBE 8 0 ++ natBE 4 2 ++ [2, 2, 0, 0]))).1), ((setFu linked fun x => { x with groups := [] })), piece_ok (by decide +kernel), Or.inl (by decide +kernel)⟩,
    ⟨(msg (natBE 8 0 ++ natBE 4 9 ++ [2, 2, 0, 0])), (natBE 8 0 ++ natBE 4 9 ++ [2, 2, 0, 0]), (((anch).furunPiece 4 (msg (natBE 8 0 ++ natBE 4 9 ++ [2, 2, 0, 0]))).1), (⟨0, 6, 1, some 1, none, none, true⟩), (anch), piece_ok (by decide +kernel), by decide +kernel⟩⟩

theorem test_FurunAnchorsAndViews_6_to_11 :
    (∃ (p : FPiece) (m : Bytes) (s1 : State) (s : State), s.furunPiece 4 p = (s1, some m) ∧ ((s1.fgroup? (BitVec.ofNat 64 (beAt m 0 8)) = none ∨ beAt m 12 1 = 0 ∨ ∃ x, s1.fgroup? (BitVec.ofNat 64 (beAt m 0 8)) = some x ∧ beAt m 8 4 ≤ x.epoch))) ∧
    (∃ (g : W64) (x : FGroup) (v : FVote) (s : State), s.fgroup? g = some x ∧ x.vote = some v ∧ 3 ≤ v.tries) ∧
    (∃ (g : W64) (x : FGroup) (v : FVote) (s : State), s.fgroup? g = some x ∧ x.vote = some v ∧ v.tries ∈ [1, 2]) ∧
    (∃ (g : W64) (x : FGroup) (v : FVote) (s : State), s.fgroup? g = some x ∧ x.vote = some v ∧ v.tries = 0) ∧
    (∃ (g : W64) (s : State), ((s.fgroup? g = none ∨ ∃ x, s.fgroup? g = some x ∧ x.vote = none))) ∧
    (∃ (g : W64) (x : FGroup) (k : Nat) (s : State), s.fgroup? g = some x ∧ x.noneAt = some k ∧ x.vote = none ∧ s.takesPart g = true) :=
  ⟨⟨(msg (natBE 8 0 ++ natBE 4 2 ++ [0, 1, 0, 0])), (natBE 8 0 ++ natBE 4 2 ++ [0, 1, 0, 0]), (((linked).furunPiece 4 (msg (natBE 8 0 ++ natBE 4 2 ++ [0, 1, 0, 0]))).1), (linked), piece_ok (by decide +kernel), Or.inr (Or.inl (by decide +kernel))⟩,
    ⟨(0), (⟨0, 6, 1, some 2, some ⟨2, [(1, 1)], 5, 3⟩, none, false⟩), (⟨2, [(1, 1)], 5, 3⟩), (setFu linked fun x => { x with groups := [⟨0, 6, 1, some 2, some ⟨2, [(1, 1)], 5, 3⟩, none, false⟩] }), by decide +kernel⟩,
    ⟨(0), (⟨0, 6, 1, some 2, some ⟨2, [(1, 1)], 5, 1⟩, none, false⟩), (⟨2, [(1, 1)], 5, 1⟩), (setFu linked fun x => { x with groups := [⟨0, 6, 1, some 2, some ⟨2, [(1, 1)], 5, 1⟩, none, false⟩] }), by decide +kernel⟩,
    ⟨(0), (⟨0, 6, 1, some 2, some ⟨2, [(1, 1)], 5, 0⟩, none, false⟩), (⟨2, [(1, 1)], 5, 0⟩), (setFu linked fun x => { x with groups := [⟨0, 6, 1, some 2, some ⟨2, [(1, 1)], 5, 0⟩, none, false⟩] }), by decide +kernel⟩,
    ⟨(0), (linked), Or.inr ⟨fed, by decide +kernel⟩⟩,
    ⟨(0), (⟨0, 6, 1, none, none, some 4, false⟩), (4), (setFu linked fun x => { x with groups := [⟨0, 6, 1, none, none, some 4, false⟩] }), by decide +kernel⟩⟩

theorem test_FurunAnchorsAndViews_12_to_17 :
    (∃ (g : W64) (s : State), ((s.fgroup? g = none ∨ ∃ x, s.fgroup? g = some x ∧ (x.noneAt = none ∨ x.vote.isSome = true)))) ∧
    (∃ (p : FPiece) (m : Bytes) (s1 : State) (x : FGroup) (s : State), s.furunPiece 5 p = (s1, some m) ∧ s1.fgroup? (BitVec.ofNat 64 (beAt m 0 8)) = some x ∧ beAt m 13 1 = 0 ∧ x.epoch ≤ beAt m 8 4 ∧ beAt m 12 1 = s1.hopIn (BitVec.ofNat 64 (beAt m 0 8)) ∧ s1.ownEligible (BitVec.ofNat 64 (beAt m 0 8)) = true) ∧
    (∃ (p : FPiece) (m : Bytes) (s1 : State) (x : FGroup) (h : FHand) (s : State), s.furunPiece 5 p = (s1, some m) ∧ s1.fgroup? (BitVec.ofNat 64 (beAt m 0 8)) = some x ∧ beAt m 13 1 = 1 ∧ s1.furun.hands.find? (fun h => h.grp == (BitVec.ofNat 64 (beAt m 0 8)) && h.hop == beAt m 12 1 && !h.committed) = some h ∧ beAt m 8 4 = x.epoch ∧ s1.anchors (BitVec.ofNat 64 (beAt m 0 8)) = true ∧ (s1.linkTo (BitVec.ofNat 64 (beAt m 0 8)) (beAt m 12 1)).map (·.peer) = some p.peer) ∧
    (∃ (p : FPiece) (m : Bytes) (s1 : State) (x : FGroup) (s : State), s.furunPiece 5 p = (s1, some m) ∧ s1.fgroup? (BitVec.ofNat 64 (beAt m 0 8)) = some x ∧ beAt m 13 1 = 2 ∧ x.epoch < beAt m 8 4) ∧
    (∃ (p : FPiece) (m : Bytes) (s1 : State) (s : State), s.furunPiece 5 p = (s1, some m) ∧ ((s1.fgroup? (BitVec.ofNat 64 (beAt m 0 8)) = none ∨ 3 ≤ beAt m 13 1 ∨ beAt m 13 1 = 0 ∧ (beAt m 12 1 ≠ s1.hopIn (BitVec.ofNat 64 (beAt m 0 8)) ∨ s1.ownEligible (BitVec.ofNat 64 (beAt m 0 8)) = false) ∨
      beAt m 13 1 = 1 ∧ (s1.anchors (BitVec.ofNat 64 (beAt m 0 8)) = false ∨ (s1.linkTo (BitVec.ofNat 64 (beAt m 0 8)) (beAt m 12 1)).map (·.peer) ≠ some p.peer ∨ ∀ h ∈ s1.furun.hands, h.grp = (BitVec.ofNat 64 (beAt m 0 8)) → h.hop = beAt m 12 1 → h.committed = true) ∨
      ∃ x, s1.fgroup? (BitVec.ofNat 64 (beAt m 0 8)) = some x ∧ (beAt m 13 1 = 0 ∧ beAt m 8 4 < x.epoch ∨ beAt m 13 1 = 1 ∧ beAt m 8 4 ≠ x.epoch ∨ beAt m 13 1 = 2 ∧ beAt m 8 4 ≤ x.epoch)))) ∧
    (∃ (g : W64) (h : FHand) (s : State), s.furun.hands.find? (fun h => h.grp == g) = some h) :=
  ⟨⟨(0), (linked), Or.inr ⟨fed, by decide +kernel⟩⟩,
    ⟨(msg (natBE 8 0 ++ natBE 4 1 ++ [1, 0, 0, 0])), (natBE 8 0 ++ natBE 4 1 ++ [1, 0, 0, 0]), (((setFu linked fun x => { x with groups := [⟨0, 2, 1, some 2, none, none, false⟩] }).furunPiece 5 (msg (natBE 8 0 ++ natBE 4 1 ++ [1, 0, 0, 0]))).1), (⟨0, 2, 1, some 2, none, none, false⟩), (setFu linked fun x => { x with groups := [⟨0, 2, 1, some 2, none, none, false⟩] }), piece_ok (by decide +kernel), by decide +kernel⟩,
    ⟨(msg (natBE 8 0 ++ natBE 4 1 ++ [2, 1, 0, 0])), (natBE 8 0 ++ natBE 4 1 ++ [2, 1, 0, 0]), ((((setFu anch fun x => { x with hands := [⟨0, 1, 7, 2, false, 3⟩] })).furunPiece 5 (msg (natBE 8 0 ++ natBE 4 1 ++ [2, 1, 0, 0]))).1), (⟨0, 6, 1, some 1, none, none, true⟩), (⟨0, 1, 7, 2, false, 3⟩), ((setFu anch fun x => { x with hands := [⟨0, 1, 7, 2, false, 3⟩] })), piece_ok (by decide +kernel), by decide +kernel⟩,
    ⟨(msg (natBE 8 0 ++ natBE 4 2 ++ [2, 2, 0, 0])), (natBE 8 0 ++ natBE 4 2 ++ [2, 2, 0, 0]), (((linked).furunPiece 5 (msg (natBE 8 0 ++ natBE 4 2 ++ [2, 2, 0, 0]))).1), (⟨0, 6, 1, some 2, none, none, false⟩), (linked), piece_ok (by decide +kernel), by decide +kernel⟩,
    ⟨(msg (natBE 8 0 ++ natBE 4 2 ++ [1, 0, 0, 0])), (natBE 8 0 ++ natBE 4 2 ++ [1, 0, 0, 0]), (((linked).furunPiece 5 (msg (natBE 8 0 ++ natBE 4 2 ++ [1, 0, 0, 0]))).1), (linked), piece_ok (by decide +kernel), Or.inr (Or.inr (Or.inl (by decide +kernel)))⟩,
    ⟨(0), (⟨0, 1, 7, 2, false, 3⟩), (setFu anch fun x => { x with hands := [⟨0, 1, 7, 2, false, 3⟩] }), by decide +kernel⟩⟩

theorem test_FurunAnchorsAndViews_18_to_23 :
    (∃ (g : W64) (s : State), s.furun.hands.find? (fun h => h.grp == g) = none) ∧
    (∃ (u : W64) (k : Fin 5) (s : State), s.furun.suspects.contains (addrOf u 0 0) = false ∧ ((k = 1 ∧ (s.furunView (addrOf u 0 0)).1 = true ∧ ((s.dataView? (addrOf u 0 0)).map (·.1)).getD false = false ∨ k = 2 ∧ (s.furunView (addrOf u 0 0)).1 = false ∧ ((s.dataView? (addrOf u 0 0)).map (·.1)).getD true = true))) ∧
    (∃ (u : W64) (k : Fin 5) (s : State), s.furun.suspects.contains (addrOf u 0 0) = false ∧ 3 ≤ k.val ∧ (s.furunView (addrOf u 0 0)).1 = true) ∧
    (∃ (u : W64) (k : Fin 5) (s : State), ((k = 0 ∨ s.furun.suspects.contains (addrOf u 0 0) = true ∨ k ≠ 2 ∧ (s.furunView (addrOf u 0 0)).1 = false ∨ k = 2 ∧ (s.furunView (addrOf u 0 0)).1 = true ∨ k = 1 ∧ ((s.dataView? (addrOf u 0 0)).map (·.1)) = some true ∨ k = 2 ∧ ((s.dataView? (addrOf u 0 0)).map (·.1)) = some false))) ∧
    (∃ (u : W64) (s : State), s.furun.suspects.contains (addrOf u 0 0) = true ∧ ((s.dataView? (addrOf u 0 0)).map (·.1)).getD (s.furunView (addrOf u 0 0)).1 = (s.furunView (addrOf u 0 0)).1) ∧
    (∃ (u : W64) (s : State), ((s.furun.suspects.contains (addrOf u 0 0) = false ∨ ((s.dataView? (addrOf u 0 0)).map (·.1)) = some (!(s.furunView (addrOf u 0 0)).1)))) :=
  ⟨⟨(0), (anch), by decide +kernel⟩,
    ⟨(peerA), (2), (setFu ({ (setFu linked fun x => { x with ends := [⟨0, 2, 2, 9, 0, 0⟩] }) with relay := { linked.relay with stations := [stn9] } }) fun x => { x with links := [] }), by decide +kernel⟩,
    ⟨(peerA), (4), (linked), by decide +kernel⟩,
    ⟨(peerA), (3), (up), by decide +kernel⟩,
    ⟨(peerA), (setFu linked fun x => { x with suspects := [peerA] }), by decide +kernel⟩,
    ⟨(peerA), (setFu ({ (setFu linked fun x => { x with ends := [⟨0, 2, 2, 9, 0, 0⟩] }) with relay := { linked.relay with stations := [{ stn9 with st := 2 }] } }) fun x => { x with suspects := [peerA] }), by decide +kernel⟩⟩

theorem test_FurunAnchorsAndViews_24_to_27 :
    (∃ (x : Nat) (s : State), s.furun.noAnchor = some x ∧ isRunMode s.mode = true ∧ s.upGroup.isSome = true ∧ s.start.phase = .running) ∧
    (∃ (s : State), ((s.furun.noAnchor = none ∨ isRunMode s.mode = false ∨ s.upGroup = none ∨ s.start.phase ≠ .running))) ∧
    (∃ (x : Nat) (a : Nat) (s : State), s.furun.regained = some x ∧ s.pacer.heard = some a ∧ x ≤ a ∧ s.mode = modeIsland) ∧
    (∃ (s : State), ((s.furun.regained = none ∨ s.mode ≠ modeIsland ∨ s.pacer.heard = none ∨ ∃ x a, s.furun.regained = some x ∧ s.pacer.heard = some a ∧ a < x))) :=
  ⟨⟨(6), (setFu linked fun x => { x with noAnchor := some 6 }), by decide +kernel⟩,
    ⟨(setFu linked fun x => { x with noAnchor := none }), by decide +kernel⟩,
    ⟨(6), (7), ({ (setFu linked fun x => { x with regained := some 6 }).put F.LEDGER_MODE_CUR 4 with pacer := { linked.pacer with heard := some 7 } }), by decide +kernel⟩,
    ⟨({ (setFu linked fun x => { x with regained := some 6 }).put F.LEDGER_MODE_CUR 4 with pacer := { linked.pacer with heard := some 5 } }), Or.inr (Or.inr (Or.inr ⟨6, 5, by decide +kernel⟩))⟩⟩

theorem test_FurunReplicasAndOpcodes_0_to_6 :
    (∃ (p : FPiece) (s1 : State) (s : State), s.furunPiece 8 p = (s1, none)) ∧
    (∃ (p : FPiece) (s1 : State) (s : State), s.furunPiece 9 p = (s1, none)) ∧
    (∃ (p : FPiece) (s1 : State) (s : State), s.furunPiece 11 p = (s1, none)) ∧
    (∃ (p : FPiece) (s1 : State) (s : State), s.furunPiece 6 p = (s1, none)) ∧
    (∃ (p : FPiece) (m : Bytes) (s1 : State) (l : FLink) (s : State), s.furunPiece 8 p = (s1, some m) ∧ s1.anchors (addrParent (addrOf (BitVec.ofNat 64 (beAt m 0 8) : W64) 0 0)) = true ∧ s1.link? p.peer = some l ∧ l.speaksFor (addrParent (addrOf (BitVec.ofNat 64 (beAt m 0 8) : W64) 0 0)) (addrLast (addrOf (BitVec.ofNat 64 (beAt m 0 8) : W64) 0 0)) = true ∧ ((5 ≤ l.ver ∨ beAt m 8 1 = 0)) ∧ addrObj (BitVec.ofNat 64 (beAt m 0 8) : W64) ≠ 0 ∧ ((s1.furun.replicas.any (fun x => x.obj == (BitVec.ofNat 64 (beAt m 0 8) : W64)) = true ∨ s1.furun.replicas.length < 16384)) ∧ ((beAt m 8 1 = 0 ∨ (s1.groupRoot (addrParent (addrOf (BitVec.ofNat 64 (beAt m 0 8) : W64) 0 0))).isSome = true))) ∧
    (∃ (p : FPiece) (m : Bytes) (s1 : State) (l : FLink) (s : State), s.furunPiece 8 p = (s1, some m) ∧ s1.anchors (addrParent (addrOf (BitVec.ofNat 64 (beAt m 0 8) : W64) 0 0)) = true ∧ s1.link? p.peer = some l ∧ l.speaksFor (addrParent (addrOf (BitVec.ofNat 64 (beAt m 0 8) : W64) 0 0)) (addrLast (addrOf (BitVec.ofNat 64 (beAt m 0 8) : W64) 0 0)) = true ∧ 5 ≤ l.ver ∧ addrObj (BitVec.ofNat 64 (beAt m 0 8) : W64) ≠ 0 ∧ ((s1.furun.replicas.any (fun x => x.obj == (BitVec.ofNat 64 (beAt m 0 8) : W64)) = true ∨ s1.furun.replicas.length < 16384)) ∧ beAt m 8 1 ≠ 0 ∧ s1.groupRoot (addrParent (addrOf (BitVec.ofNat 64 (beAt m 0 8) : W64) 0 0)) = none) :=
  ⟨⟨(half [1]), (((linked).furunPiece 8 (half [1])).1), (linked), piece_ok (by decide +kernel)⟩,
    ⟨(half [1]), (((linked).furunPiece 9 (half [1])).1), (linked), piece_ok (by decide +kernel)⟩,
    ⟨(half [1]), (((linked).furunPiece 11 (half [1])).1), (linked), piece_ok (by decide +kernel)⟩,
    ⟨(half [1]), (((linked).furunPiece 6 (half [1])).1), (linked), piece_ok (by decide +kernel)⟩,
    ⟨(msg (natBE 8 0x0800000000000500 ++ [0, 0, 0, 0] ++ natBE 4 3 ++ List.replicate 16 0)), (natBE 8 0x0800000000000500 ++ [0, 0, 0, 0] ++ natBE 4 3 ++ List.replicate 16 0), ((((setFu anch fun x => { x with replicas := [⟨0x0800000000000500, 0, 2, [], peerA, true⟩, ⟨0x0C00000000000500, 0, 2, [], peerA, true⟩] })).furunPiece 8 (msg (natBE 8 0x0800000000000500 ++ [0, 0, 0, 0] ++ natBE 4 3 ++ List.replicate 16 0))).1), (linkB), ((setFu anch fun x => { x with replicas := [⟨0x0800000000000500, 0, 2, [], peerA, true⟩, ⟨0x0C00000000000500, 0, 2, [], peerA, true⟩] })), piece_ok (by decide +kernel), by decide +kernel⟩,
    ⟨(msg (natBE 8 0x0800000000000500 ++ [2, 0, 0, 0] ++ natBE 4 3 ++ List.replicate 16 0)), (natBE 8 0x0800000000000500 ++ [2, 0, 0, 0] ++ natBE 4 3 ++ List.replicate 16 0), (((anch).furunPiece 8 (msg (natBE 8 0x0800000000000500 ++ [2, 0, 0, 0] ++ natBE 4 3 ++ List.replicate 16 0))).1), (linkB), (anch), piece_ok (by decide +kernel), by decide +kernel⟩⟩

theorem test_FurunReplicasAndOpcodes_7_to_12 :
    (∃ (p : FPiece) (m : Bytes) (s1 : State) (l : FLink) (s : State), s.furunPiece 8 p = (s1, some m) ∧ s1.anchors (addrParent (addrOf (BitVec.ofNat 64 (beAt m 0 8) : W64) 0 0)) = true ∧ s1.link? p.peer = some l ∧ l.speaksFor (addrParent (addrOf (BitVec.ofNat 64 (beAt m 0 8) : W64) 0 0)) (addrLast (addrOf (BitVec.ofNat 64 (beAt m 0 8) : W64) 0 0)) = true ∧ ((5 ≤ l.ver ∨ beAt m 8 1 = 0)) ∧ addrObj (BitVec.ofNat 64 (beAt m 0 8) : W64) ≠ 0 ∧ ((∀ x ∈ s1.furun.replicas, x.obj ≠ (BitVec.ofNat 64 (beAt m 0 8) : W64))) ∧ 16384 ≤ s1.furun.replicas.length) ∧
    (∃ (p : FPiece) (m : Bytes) (s1 : State) (s : State), s.furunPiece 8 p = (s1, some m) ∧ ((s1.anchors (addrParent (addrOf (BitVec.ofNat 64 (beAt m 0 8) : W64) 0 0)) = false ∨ s1.link? p.peer = none ∨ addrObj (BitVec.ofNat 64 (beAt m 0 8) : W64) = 0 ∨ ∃ l, s1.link? p.peer = some l ∧ (l.speaksFor (addrParent (addrOf (BitVec.ofNat 64 (beAt m 0 8) : W64) 0 0)) (addrLast (addrOf (BitVec.ofNat 64 (beAt m 0 8) : W64) 0 0)) = false ∨ l.ver < 5 ∧ beAt m 8 1 ≠ 0)))) ∧
    (∃ (p : FPiece) (m : Bytes) (s1 : State) (s : State), s.furunPiece 9 p = (s1, some m)) ∧
    (∃ (e : FEndpoint) (l : FLink) (s : State), s.furun.pubs.any Option.isSome = true) ∧
    (∃ (s : State), ((∀ e ∈ s.furun.pubs, e = none))) ∧
    (∃ (p : FPiece) (m : Bytes) (s1 : State) (s : State), s.furunPiece 11 p = (s1, some m)) :=
  ⟨⟨(msg (natBE 8 0x0800000000000500 ++ [0, 0, 0, 0] ++ natBE 4 3 ++ List.replicate 16 0)), (natBE 8 0x0800000000000500 ++ [0, 0, 0, 0] ++ natBE 4 3 ++ List.replicate 16 0), ((((setFu anch fun x => { x with replicas := List.replicate 16384 ⟨0x0800000000000600, 0, 3, [], peerA, false⟩ })).furunPiece 8 (msg (natBE 8 0x0800000000000500 ++ [0, 0, 0, 0] ++ natBE 4 3 ++ List.replicate 16 0))).1), (linkB), ((setFu anch fun x => { x with replicas := List.replicate 16384 ⟨0x0800000000000600, 0, 3, [], peerA, false⟩ })), piece_ok (by decide +kernel), ⟨by decide +kernel, by decide +kernel, by decide +kernel, by decide +kernel, by decide +kernel, fun x hx => (by rw [List.eq_of_mem_replicate (show x ∈ List.replicate 16384 _ from hx)]; decide +kernel), Nat.le_of_eq (List.length_replicate.symm.trans (congrArg List.length (rfl : List.replicate 16384 (⟨0x0800000000000600, 0, 3, [], peerA, false⟩ : FReplica) = _)))⟩⟩,
    ⟨(msg (natBE 8 0x0800000000000500 ++ [2, 0, 0, 0] ++ natBE 4 3 ++ List.replicate 16 0)), (natBE 8 0x0800000000000500 ++ [2, 0, 0, 0] ++ natBE 4 3 ++ List.replicate 16 0), ((((setFu anch fun x => { x with links := [{ linkA with ver := 4 }] })).furunPiece 8 (msg (natBE 8 0x0800000000000500 ++ [2, 0, 0, 0] ++ natBE 4 3 ++ List.replicate 16 0))).1), ((setFu anch fun x => { x with links := [{ linkA with ver := 4 }] })), piece_ok (by decide +kernel), Or.inr (Or.inr (Or.inr ⟨{ linkB with ver := 4 }, by decide +kernel, by decide +kernel⟩))⟩,
    ⟨(msg (natBE 8 0x0800000000000500 ++ [0, 0, 0, 0])), (natBE 8 0x0800000000000500 ++ [0, 0, 0, 0]), (((anch).furunPiece 9 (msg (natBE 8 0x0800000000000500 ++ [0, 0, 0, 0]))).1), (anch), piece_ok (by decide +kernel)⟩,
    ⟨(⟨0, 2, 2, 9, 0, 0⟩), (linkA), ({ setFu linked fun x => { x with pubs := [some ⟨0, 2, 2, 9, 0, 0⟩, none, none, none] } with mirror := { up.mirror with pubSeen := [none, none], pubAt := 7 } }), by decide +kernel⟩,
    ⟨(up), by decide +kernel⟩,
    ⟨(msg ([1, 2])), ([1, 2]), (((linked).furunPiece 11 (msg ([1, 2]))).1), (linked), piece_ok (by decide +kernel)⟩⟩

theorem test_FurunReplicasAndOpcodes_13_to_18 :
    (∃ (c : Instr) (d : OpDef) (r : Req) (z : Q) (l : FLink) (s : State), genericOf c = some (d, r) ∧ asked d r s = some z ∧ s.start.phase ≠ .recovery ∧ s.mode ≠ modeHoldup ∧ s.serves (tAddr z.tlvs) = false ∧ ((d.code = 0x0109 → s.furun.suspects.contains (addrOf (tAddr z.tlvs) 0 0) = false)) ∧ s.noAnchorAt (tAddr z.tlvs) = false ∧ s.pathTo (addrOf (tAddr z.tlvs) 0 0) = some l) ∧
    (∃ (p : FPiece) (m : Bytes) (s1 : State) (x : FRelayed) (s : State), s.furunPiece 6 p = (s1, some m) ∧ bit1 (beAt (m.drop 36) 1 1) 0 = 1 ∧ s1.furun.relayed.find? (fun x => x.owner == (BitVec.ofNat 256 (beAt m 0 32)) && x.item == (beAt (m.drop 36) 4 4) && x.fwd == p.peer) = some x ∧ x.back = none) ∧
    (∃ (p : FPiece) (m : Bytes) (s1 : State) (x : FRelayed) (b : W64) (s : State), s.furunPiece 6 p = (s1, some m) ∧ bit1 (beAt (m.drop 36) 1 1) 0 = 1 ∧ s1.furun.relayed.find? (fun x => x.owner == (BitVec.ofNat 256 (beAt m 0 32)) && x.item == (beAt (m.drop 36) 4 4) && x.fwd == p.peer) = some x ∧ x.back = some b) ∧
    (∃ (p : FPiece) (m : Bytes) (s1 : State) (s : State), s.furunPiece 6 p = (s1, some m) ∧ bit1 (beAt (m.drop 36) 1 1) 0 = 1 ∧ s1.furun.relayed.find? (fun x => x.owner == (BitVec.ofNat 256 (beAt m 0 32)) && x.item == (beAt (m.drop 36) 4 4) && x.fwd == p.peer) = none) ∧
    (∃ (p : FPiece) (m : Bytes) (s1 : State) (s : State), s.furunPiece 6 p = (s1, some m) ∧ bit1 (beAt (m.drop 36) 1 1) 0 = 0 ∧ beAt (m.drop 36) 8 2 = 4 ∧ ((s1.serves p.dst = true ∨ s1.noAnchorAt p.dst = true ∨ s1.pathTo p.dst = none))) ∧
    (∃ (p : FPiece) (m : Bytes) (s1 : State) (s : State), s.furunPiece 6 p = (s1, some m) ∧ bit1 (beAt (m.drop 36) 1 1) 0 = 0 ∧ beAt (m.drop 36) 8 2 ≠ 4 ∧ s1.serves p.dst = true) :=
  ⟨⟨(.unitClearSuspect (rq [tlv 0x0001 (natBE 8 0x0800000000000000)])), (opUnitClearSuspect), (rq [tlv 0x0001 (natBE 8 0x0800000000000000)]), ((asked opUnitClearSuspect (rq [tlv 0x0001 (natBE 8 0x0800000000000000)]) linked).getD q0), (linkA), (linked), rfl, asked_ok (by decide +kernel), by decide +kernel⟩,
    ⟨(msg (natBE 32 1 ++ [0, 0, 0, 0] ++ [0x31, 1, 0, 1] ++ natBE 4 7 ++ natBE 2 0x0101 ++ [0, 0, 0, 0])), (natBE 32 1 ++ [0, 0, 0, 0] ++ [0x31, 1, 0, 1] ++ natBE 4 7 ++ natBE 2 0x0101 ++ [0, 0, 0, 0]), ((((setFu linked fun x => { x with relayed := [⟨1, 7, none, peerA, 0, 0, 1, 0x31, 0x0101⟩] })).furunPiece 6 (msg (natBE 32 1 ++ [0, 0, 0, 0] ++ [0x31, 1, 0, 1] ++ natBE 4 7 ++ natBE 2 0x0101 ++ [0, 0, 0, 0]))).1), (⟨1, 7, none, peerA, 0, 0, 1, 0x31, 0x0101⟩), ((setFu linked fun x => { x with relayed := [⟨1, 7, none, peerA, 0, 0, 1, 0x31, 0x0101⟩] })), piece_ok (by decide +kernel), by decide +kernel⟩,
    ⟨(msg (natBE 32 1 ++ [0, 0, 0, 0] ++ [0x31, 1, 0, 1] ++ natBE 4 7 ++ natBE 2 0x0101 ++ [0, 0, 0, 0])), (natBE 32 1 ++ [0, 0, 0, 0] ++ [0x31, 1, 0, 1] ++ natBE 4 7 ++ natBE 2 0x0101 ++ [0, 0, 0, 0]), ((((setFu linked fun x => { x with relayed := [⟨1, 7, some 0x0C00000000000000, peerA, 0, 0, 1, 0x31, 0x0101⟩] })).furunPiece 6 (msg (natBE 32 1 ++ [0, 0, 0, 0] ++ [0x31, 1, 0, 1] ++ natBE 4 7 ++ natBE 2 0x0101 ++ [0, 0, 0, 0]))).1), (⟨1, 7, some 0x0C00000000000000, peerA, 0, 0, 1, 0x31, 0x0101⟩), (0x0C00000000000000), ((setFu linked fun x => { x with relayed := [⟨1, 7, some 0x0C00000000000000, peerA, 0, 0, 1, 0x31, 0x0101⟩] })), piece_ok (by decide +kernel), by decide +kernel⟩,
    ⟨(msg (natBE 32 1 ++ [0, 0, 0, 0] ++ [0x31, 1, 0, 1] ++ natBE 4 7 ++ natBE 2 0x0101 ++ [0, 0, 0, 0])), (natBE 32 1 ++ [0, 0, 0, 0] ++ [0x31, 1, 0, 1] ++ natBE 4 7 ++ natBE 2 0x0101 ++ [0, 0, 0, 0]), (((linked).furunPiece 6 (msg (natBE 32 1 ++ [0, 0, 0, 0] ++ [0x31, 1, 0, 1] ++ natBE 4 7 ++ natBE 2 0x0101 ++ [0, 0, 0, 0]))).1), (linked), piece_ok (by decide +kernel), by decide +kernel⟩,
    ⟨({ msg (natBE 32 1 ++ [0, 0, 0, 0] ++ [0x31, 0, 0, 1] ++ natBE 4 7 ++ natBE 2 4 ++ [0, 0, 0, 0]) with dst := 0x0C00000000000000 }), (natBE 32 1 ++ [0, 0, 0, 0] ++ [0x31, 0, 0, 1] ++ natBE 4 7 ++ natBE 2 4 ++ [0, 0, 0, 0]), (((linkLost).furunPiece 6 { msg (natBE 32 1 ++ [0, 0, 0, 0] ++ [0x31, 0, 0, 1] ++ natBE 4 7 ++ natBE 2 4 ++ [0, 0, 0, 0]) with dst := 0x0C00000000000000 }).1), (linkLost), piece_ok (by decide +kernel), by decide +kernel⟩,
    ⟨(msg (natBE 32 1 ++ [0, 0, 0, 0] ++ [0x31, 0, 0, 1] ++ natBE 4 7 ++ natBE 2 0x0101 ++ [0, 0, 0, 0])), (natBE 32 1 ++ [0, 0, 0, 0] ++ [0x31, 0, 0, 1] ++ natBE 4 7 ++ natBE 2 0x0101 ++ [0, 0, 0, 0]), (((linked).furunPiece 6 (msg (natBE 32 1 ++ [0, 0, 0, 0] ++ [0x31, 0, 0, 1] ++ natBE 4 7 ++ natBE 2 0x0101 ++ [0, 0, 0, 0]))).1), (linked), piece_ok (by decide +kernel), by decide +kernel⟩⟩

theorem test_FurunReplicasAndOpcodes_19_to_24 :
    (∃ (p : FPiece) (m : Bytes) (s1 : State) (l : FLink) (s : State), s.furunPiece 6 p = (s1, some m) ∧ bit1 (beAt (m.drop 36) 1 1) 0 = 0 ∧ s1.serves p.dst = false ∧ s1.noAnchorAt p.dst = false ∧ s1.pathTo p.dst = some l) ∧
    (∃ (p : FPiece) (m : Bytes) (s1 : State) (s : State), s.furunPiece 6 p = (s1, some m) ∧ bit1 (beAt (m.drop 36) 1 1) 0 = 0 ∧ beAt (m.drop 36) 8 2 ≠ 4 ∧ s1.serves p.dst = false ∧ ((s1.noAnchorAt p.dst = true ∨ s1.pathTo p.dst = none))) ∧
    (∃ r s q, admitted? (.furunCfg r) s = some q) ∧
    (∃ r s q, admitted? (.furunGroupCfg r) s = some q) ∧
    (∃ r s q, admitted? (.furunEndpointSet r) s = some q) ∧
    (∃ r s q, admitted? (.furunPubCfg r) s = some q) :=
  ⟨⟨({ msg (natBE 32 1 ++ [0, 0, 0, 0] ++ [0x31, 0, 0, 1] ++ natBE 4 7 ++ natBE 2 4 ++ [0, 0, 0, 0]) with dst := 0x0C00000000000000 }), (natBE 32 1 ++ [0, 0, 0, 0] ++ [0x31, 0, 0, 1] ++ natBE 4 7 ++ natBE 2 4 ++ [0, 0, 0, 0]), ((((setFu linked fun x => { x with links := [linkA, linkC] })).furunPiece 6 { msg (natBE 32 1 ++ [0, 0, 0, 0] ++ [0x31, 0, 0, 1] ++ natBE 4 7 ++ natBE 2 4 ++ [0, 0, 0, 0]) with dst := 0x0C00000000000000 }).1), (linkC), ((setFu linked fun x => { x with links := [linkA, linkC] })), piece_ok (by decide +kernel), by decide +kernel⟩,
    ⟨({ msg (natBE 32 1 ++ [0, 0, 0, 0] ++ [0x31, 0, 0, 1] ++ natBE 4 7 ++ natBE 2 0x0101 ++ [0, 0, 0, 0]) with dst := 0x0C00000000000000 }), (natBE 32 1 ++ [0, 0, 0, 0] ++ [0x31, 0, 0, 1] ++ natBE 4 7 ++ natBE 2 0x0101 ++ [0, 0, 0, 0]), (((linkLost).furunPiece 6 { msg (natBE 32 1 ++ [0, 0, 0, 0] ++ [0x31, 0, 0, 1] ++ natBE 4 7 ++ natBE 2 0x0101 ++ [0, 0, 0, 0]) with dst := 0x0C00000000000000 }).1), (linkLost), piece_ok (by decide +kernel), by decide +kernel⟩,
    ⟨(rq [tlv 0x0B01 (natBE 8 0x0400000000000000 ++ natBE 4 0x00640001)]), (up), ((admitted? (.furunCfg (rq [tlv 0x0B01 (natBE 8 0x0400000000000000 ++ natBE 4 0x00640001)])) (up)).getD q0), admit_ok (by decide +kernel)⟩,
    ⟨(rq [tlv 0x0B02 (natBE 8 0 ++ natBE 8 6)]), (up), ((admitted? (.furunGroupCfg (rq [tlv 0x0B02 (natBE 8 0 ++ natBE 8 6)])) (up)).getD q0), admit_ok (by decide +kernel)⟩,
    ⟨(rq [tlv 0x0001 (natBE 8 0), tlv 0x0B03 ([2, 0, 3, 0] ++ [0, 1, 0, 0] ++ List.replicate 16 0)]), (linked), ((admitted? (.furunEndpointSet (rq [tlv 0x0001 (natBE 8 0), tlv 0x0B03 ([2, 0, 3, 0] ++ [0, 1, 0, 0] ++ List.replicate 16 0)])) (linked)).getD q0), admit_ok (by decide +kernel)⟩,
    ⟨(rq [tlv 0x0B07 [3], tlv 0x0B03 (List.replicate 24 0)]), (up), ((admitted? (.furunPubCfg (rq [tlv 0x0B07 [3], tlv 0x0B03 (List.replicate 24 0)])) (up)).getD q0), admit_ok (by decide +kernel)⟩⟩

theorem test_FurunReplicasAndOpcodes_25_to_30 :
    (∃ r s q, admitted? (.furunReplCfg r) s = some q ∧ ((s.furun.marks.length < 512 ∨ tn q.tlvs 0x0B06 = 0 ∨ s.furun.marks.contains (addrObj (tAddr q.tlvs)) = true))) ∧
    (∃ r s q, admitted? (.furunHandover r) s = some q ∧ ((∀ h ∈ s.furun.hands, h.grp ≠ tAddr q.tlvs)) ∧ s.anchors (tAddr q.tlvs) = true ∧ (s.fgroup? (tAddr q.tlvs)).bind (·.anchor) ≠ some (tn q.tlvs 0x0B04)) ∧
    (∃ r s q, admitted? (.furunHandover r) s = some q ∧ ((∀ h ∈ s.furun.hands, h.grp ≠ tAddr q.tlvs)) ∧ s.anchors (tAddr q.tlvs) = false) ∧
    (∃ r s q, admitted? (.furunHandover r) s = some q ∧ ((∀ h ∈ s.furun.hands, h.grp ≠ tAddr q.tlvs)) ∧ s.anchors (tAddr q.tlvs) = true ∧ (s.fgroup? (tAddr q.tlvs)).bind (·.anchor) = some (tn q.tlvs 0x0B04)) ∧
    (∃ r s q x, admitted? (.furunMembers r) s = some q ∧ s.fgroup? (tAddr q.tlvs) = some x) ∧
    (∃ r s q h vs v, admitted? (.furunReplicaRead r) s = some q ∧ s.replicaRead q.tag (tAddr q.tlvs) = some (h, vs) ∧ addrElem (tAddr q.tlvs) ≠ 0 ∧ vs[addrElem (tAddr q.tlvs) - 1]? = some v) :=
  ⟨⟨(rq [tlv 0x0001 (natBE 8 0x0400000000000500), tlv 0x0B06 [0]]), (setFu (withObj up (newObj 5 tyAI 0 6)) fun x => { x with marks := List.replicate 512 9 }), ((admitted? (.furunReplCfg (rq [tlv 0x0001 (natBE 8 0x0400000000000500), tlv 0x0B06 [0]])) (setFu (withObj up (newObj 5 tyAI 0 6)) fun x => { x with marks := List.replicate 512 9 })).getD q0), admit_ok (by decide +kernel), by decide +kernel⟩,
    ⟨(rq [tlv 0x0001 (natBE 8 0), tlv 0x0B04 [2]]), (anch), ((admitted? (.furunHandover (rq [tlv 0x0001 (natBE 8 0), tlv 0x0B04 [2]])) (anch)).getD q0), admit_ok (by decide +kernel), by decide +kernel⟩,
    ⟨(rq [tlv 0x0001 (natBE 8 0), tlv 0x0B04 [1]]), (linked), ((admitted? (.furunHandover (rq [tlv 0x0001 (natBE 8 0), tlv 0x0B04 [1]])) (linked)).getD q0), admit_ok (by decide +kernel), by decide +kernel⟩,
    ⟨(rq [tlv 0x0001 (natBE 8 0), tlv 0x0B04 [1]]), (anch), ((admitted? (.furunHandover (rq [tlv 0x0001 (natBE 8 0), tlv 0x0B04 [1]])) (anch)).getD q0), admit_ok (by decide +kernel), by decide +kernel⟩,
    ⟨(rq [tlv 0x0001 (natBE 8 0)]), (linked), ((admitted? (.furunMembers (rq [tlv 0x0001 (natBE 8 0)])) (linked)).getD q0), (fed), admit_ok (by decide +kernel), by decide +kernel⟩,
    ⟨(rq [tlv 0x0001 (natBE 8 0x0800000000000501)]), (setFu up fun x => { x with replicas := [⟨0x0800000000000500, 0, 3, List.replicate 16 0 ++ List.replicate 20 0, peerA, false⟩] }), ((admitted? (.furunReplicaRead (rq [tlv 0x0001 (natBE 8 0x0800000000000501)])) (setFu up fun x => { x with replicas := [⟨0x0800000000000500, 0, 3, List.replicate 16 0 ++ List.replicate 20 0, peerA, false⟩] })).getD q0), ([0, 0, 0, 0, 0, 0, 0, 0, 0, 0, 0, 0, 0, 0, 0, 0]), ([⟨0, 0, 0, 0, 0⟩]), (⟨0, 0, 0, 0, 0⟩), admit_ok (by decide +kernel), by decide +kernel⟩⟩

theorem test_FurunReplicasAndOpcodes_31_to_32 :
    (∃ r s q h vs, admitted? (.furunReplicaRead r) s = some q ∧ s.replicaRead q.tag (tAddr q.tlvs) = some (h, vs) ∧ addrElem (tAddr q.tlvs) = 0 ∧ vs.length ≤ 52) ∧
    (∃ r s q, admitted? (.furunReplicaRead r) s = some q ∧ s.replicaRead q.tag (tAddr q.tlvs) = none) :=
  ⟨⟨(rq [tlv 0x0001 (natBE 8 0x0800000000000500)]), (setFu up fun x => { x with replicas := [⟨0x0800000000000500, 0, 3, List.replicate 16 0 ++ List.replicate 20 0, peerA, false⟩] }), ((admitted? (.furunReplicaRead (rq [tlv 0x0001 (natBE 8 0x0800000000000500)])) (setFu up fun x => { x with replicas := [⟨0x0800000000000500, 0, 3, List.replicate 16 0 ++ List.replicate 20 0, peerA, false⟩] })).getD q0), ([0, 0, 0, 0, 0, 0, 0, 0, 0, 0, 0, 0, 0, 0, 0, 0]), ([⟨0, 0, 0, 0, 0⟩]), admit_ok (by decide +kernel), by decide +kernel⟩,
    ⟨(rq [tlv 0x0001 (natBE 8 0x0800000000000500)]), (up), ((admitted? (.furunReplicaRead (rq [tlv 0x0001 (natBE 8 0x0800000000000500)])) (up)).getD q0), admit_ok (by decide +kernel), by decide +kernel⟩⟩

theorem test_RealTimeClock_0_to_5 :
    (∃ (p : Fin 4) (ofs : W64) (s : State), s.ptpPort p.val = true ∧ (s.rtc.best.all fun b => b.2 == p.val) = true ∧ s.get F.RTC_STAT_SYNC ∉ [1, 3] ∧ (s.port p.val).servoAt ≤ s.clk ∧ (sgn 64 ofs.toNat).natAbs ≤ s.get F.RTC_STEP_STEP_US * 1000 ∧ ((1000 ≤ (sgn 64 ofs.toNat).natAbs ∨ s.rtc.good < 9))) ∧
    (∃ (p : Fin 4) (ofs : W64) (s : State), s.ptpPort p.val = true ∧ (s.rtc.best.all fun b => b.2 == p.val) = true ∧ s.get F.RTC_STAT_SYNC ∉ [1, 3] ∧ (s.port p.val).servoAt ≤ s.clk ∧ s.get F.RTC_STEP_STEP_US * 1000 < (sgn 64 ofs.toNat).natAbs ∧ 1000 ≤ (sgn 64 ofs.toNat).natAbs) ∧
    (∃ (p : Fin 4) (ofs : W64) (s : State), s.ptpPort p.val = true ∧ (s.rtc.best.all fun b => b.2 == p.val) = true ∧ s.get F.RTC_STAT_SYNC ∉ [1, 3] ∧ (s.port p.val).servoAt ≤ s.clk ∧ (sgn 64 ofs.toNat).natAbs ≤ s.get F.RTC_STEP_STEP_US * 1000 ∧ (sgn 64 ofs.toNat).natAbs < 1000 ∧ 9 ≤ s.rtc.good) ∧
    (∃ (p : Fin 4) (ofs : W64) (s : State), s.ptpPort p.val = true ∧ (s.rtc.best.all fun b => b.2 == p.val) = true ∧ s.get F.RTC_STAT_SYNC = 1 ∧ (s.port p.val).servoAt ≤ s.clk ∧ (sgn 64 ofs.toNat).natAbs ≤ s.get F.RTC_STEP_STEP_US * 1000) ∧
    (∃ (p : Fin 4) (ofs : W64) (s : State), s.ptpPort p.val = true ∧ (s.rtc.best.all fun b => b.2 == p.val) = true ∧ s.get F.RTC_STAT_SYNC = 1 ∧ (s.port p.val).servoAt ≤ s.clk ∧ s.get F.RTC_STEP_STEP_US * 1000 < (sgn 64 ofs.toNat).natAbs) ∧
    (∃ (p : Fin 4) (ofs : W64) (s : State), ((s.ptpPort p.val = false ∨ s.rtc.best.any (fun b => b.2 != p.val) = true ∨ s.get F.RTC_STAT_SYNC = 3 ∨ s.clk < (s.port p.val).servoAt))) :=
  ⟨⟨(0), (1000), ((sets ethUp [(F.RTC_PTP_ROLE, 1)]).setRtc fun r => { r with good := 9 }), by decide +kernel⟩,
    ⟨(0), (0xFFFFFFFFFA0A1EFF), (sets ethUp [(F.RTC_PTP_ROLE, 1)]), by decide +kernel⟩,
    ⟨(0), (999), ((sets ethUp [(F.RTC_PTP_ROLE, 1)]).setRtc fun r => { r with good := 9 }), by decide +kernel⟩,
    ⟨(0), (0xFFFFFFFFFFFFFFF0), ((sets ethUp [(F.RTC_PTP_ROLE, 1), (F.RTC_STAT_SYNC, 1), (F.RTC_STEP_STEP_US, 100000)]).setRtc fun r => { r with best := some (9, 0) }), by decide +kernel⟩,
    ⟨(0), (100000001), ((sets ethUp [(F.RTC_PTP_ROLE, 1), (F.RTC_STAT_SYNC, 1), (F.RTC_STEP_STEP_US, 100000)]).setRtc fun r => { r with best := some (9, 0) }), by decide +kernel⟩,
    ⟨(0), (9), ((sets ethUp [(F.RTC_PTP_ROLE, 1)]).setRtc fun r => { r with best := some (5, 1) }), by decide +kernel⟩⟩

theorem test_RealTimeClock_6_to_12 :
    (∃ (s : State), s.get F.RTC_STAT_SYNC = 1) ∧
    (∃ (s : State), s.get F.RTC_STAT_SYNC ≠ 1) ∧
    (∃ (p : Fin 4) (s : State), p.val < s.eth.length) ∧
    (∃ (w : W32) (s : State), bit1 w.toNat 31 = 1 ∧ bit1 w.toNat 0 = 0 ∧ s.get F.RTC_STAT_SYNC ≠ 1) ∧
    (∃ (w : W32) (s : State), bit1 w.toNat 31 = 1 ∧ s.get F.RTC_STAT_SYNC = 1 ∧ s.get F.RTC_COMMIT_GO = 0) ∧
    (∃ (w : W32) (s : State), bit1 w.toNat 31 = 1 ∧ bit1 w.toNat 0 = 1 ∧ s.get F.RTC_STAT_SYNC ≠ 1 ∧ s.stagedOk = false) :=
  ⟨⟨(up.put F.RTC_STAT_SYNC 1), by decide +kernel⟩,
    ⟨(up), by decide +kernel⟩,
    ⟨(2), (up.modPort 2 fun x => { x with servoAt := 9 }), by decide +kernel⟩,
    ⟨(0x80000000), (sets up [(⟨Reg.RTC_STG_TAI_LO, 31, 0⟩, 1000), (⟨Reg.RTC_STG_OFS, 31, 0⟩, 37)]), by decide +kernel⟩,
    ⟨(0x80000000), (up.put F.RTC_STAT_SYNC 1), by decide +kernel⟩,
    ⟨(0x80000001), (up), by decide +kernel⟩⟩

theorem test_RealTimeClock_13_to_19 :
    (∃ (w : W32) (s : State), bit1 w.toNat 31 = 1 ∧ bit1 w.toNat 0 = 1 ∧ s.get F.RTC_STAT_SYNC ≠ 1 ∧ s.stagedOk = true) ∧
    (∃ (w : W32) (s : State), bit1 w.toNat 31 = 0 ∧ s.get F.RTC_COMMIT_GO = 0) ∧
    (∃ (s : State), s.get F.RTC_COMMIT_GO = 1 ∧ ((s.get F.RTC_COMMIT_FORM = 0 ∨ s.stagedOk = true))) ∧
    (∃ (s : State), s.get F.RTC_COMMIT_GO = 0) ∧
    (∃ (a : Fin 4) (hi : W32) (s : State), s.rtc.alarms.length = 4) ∧
    (∃ (s : State), s.rtc.zones ≠ []) :=
  ⟨⟨(0x80000001), (sets up [(⟨Reg.RTC_STG_DATE, 31, 0⟩, 0x07B20102), (⟨Reg.RTC_STG_TIME, 31, 0⟩, 0x00010203), (⟨Reg.RTC_STG_OFS, 31, 0⟩, 37)]), by decide +kernel⟩,
    ⟨(1), (up), by decide +kernel⟩,
    ⟨(sets (sets up [(⟨Reg.RTC_STG_DATE, 31, 0⟩, 0x07B20102), (⟨Reg.RTC_STG_TIME, 31, 0⟩, 0x00010203), (⟨Reg.RTC_STG_OFS, 31, 0⟩, 37)]) [(F.RTC_COMMIT_GO, 1), (F.RTC_COMMIT_FORM, 1), (F.RTC_STAT_SYNC, 1)]), by decide +kernel⟩,
    ⟨(up), by decide +kernel⟩,
    ⟨(0), (0xA0000000), (up), by decide +kernel⟩,
    ⟨(up.setRtc fun r => { r with zones := [(0x0000000500000000, 60), (0x0000000300000000, 120)] }), by decide +kernel⟩⟩

theorem test_RealTimeClock_20_to_25 :
    (∃ (s : State), s.rtc.zones = []) ∧
    (∃ (s : State), s.rtc.schedMin ≠ some s.localMin) ∧
    (∃ (s : State), s.rtc.schedMin = some s.localMin) ∧
    (∃ (p : Fin 4) (a : Announce) (s : State), s.ptpPort p.val = true ∧ a.dom.toNat = s.get F.RTC_PTP_DOMAIN ∧ s.get F.RTC_PTP_GM_CAP = 1 ∧ clockRank (s.get F.RTC_PTP_PRIO1) 248 Config.clockQuality (s.get F.RTC_PTP_PRIO2) Config.clockIdent < clockRank a.prio1.toNat a.cls.toNat a.qual a.prio2.toNat a.ident ∧ s.worseMaster (clockRank a.prio1.toNat a.cls.toNat a.qual a.prio2.toNat a.ident) = false) ∧
    (∃ (p : Fin 4) (a : Announce) (s : State), s.ptpPort p.val = true ∧ a.dom.toNat = s.get F.RTC_PTP_DOMAIN ∧ ((s.get F.RTC_PTP_GM_CAP = 0 ∨ clockRank a.prio1.toNat a.cls.toNat a.qual a.prio2.toNat a.ident ≤ clockRank (s.get F.RTC_PTP_PRIO1) 248 Config.clockQuality (s.get F.RTC_PTP_PRIO2) Config.clockIdent)) ∧ s.worseMaster (clockRank a.prio1.toNat a.cls.toNat a.qual a.prio2.toNat a.ident) = false) ∧
    (∃ (p : Fin 4) (a : Announce) (s : State), ((s.worseMaster (clockRank a.prio1.toNat a.cls.toNat a.qual a.prio2.toNat a.ident) = true ∨ s.ptpPort p.val = false ∨ a.dom.toNat ≠ s.get F.RTC_PTP_DOMAIN))) :=
  ⟨⟨(up), by decide +kernel⟩,
    ⟨(withObj up (newObj 5 tySchedule 0 4)), by decide +kernel⟩,
    ⟨(up.setRtc fun r => { r with schedMin := some up.localMin }), by decide +kernel⟩,
    ⟨(0), (annLow), (gmCap), ⟨by decide +kernel, by decide +kernel, by decide +kernel, gmCap_ranks, by decide +kernel⟩⟩,
    ⟨(0), (⟨0, 128, 248, 7, 128, 5, 1000, 37, true, false, false⟩), (sets (sets ethUp [(F.RTC_PTP_ROLE, 1)]) [(F.RTC_STAT_SYNC, 1)]), by decide +kernel⟩,
    ⟨(0), (⟨0, 128, 248, 7, 128, 5, 1000, 37, true, false, false⟩), (up.put F.RTC_PTP_ROLE 0), Or.inr (by decide +kernel)⟩⟩

theorem test_RealTimeClock_26_to_31 :
    (∃ r s q, admitted? (.rtcSet r) s = some q) ∧
    (∃ r s q, admitted? (.rtcRead r) s = some q) ∧
    (∃ r s q, admitted? (.rtcAlarmSet r) s = some q ∧ s.rtc.alarms.length = 4) ∧
    (∃ r s q, admitted? (.rtcLeapSet r) s = some q) ∧
    (∃ r s q, admitted? (.rtcZoneSet r) s = some q) ∧
    (∃ r s q, admitted? (.rtcPtpCfg r) s = some q) :=
  ⟨⟨(rq [tlv 0x0C01 (natBE 4 0 ++ natBE 4 1000 ++ List.replicate 16 0)]), (up), ((admitted? (.rtcSet (rq [tlv 0x0C01 (natBE 4 0 ++ natBE 4 1000 ++ List.replicate 16 0)])) (up)).getD q0), admit_ok (by decide +kernel)⟩,
    ⟨(rq []), (up), ((admitted? (.rtcRead (rq [])) (up)).getD q0), admit_ok (by decide +kernel)⟩,
    ⟨(rq [tlv 0x0C03 ([3] ++ natBE 4 5 ++ natBE 4 0xC0000001)]), (up), ((admitted? (.rtcAlarmSet (rq [tlv 0x0C03 ([3] ++ natBE 4 5 ++ natBE 4 0xC0000001)])) (up)).getD q0), admit_ok (by decide +kernel), by decide +kernel⟩,
    ⟨(rq [tlv 0x0C04 (natBE 4 0)]), (up), ((admitted? (.rtcLeapSet (rq [tlv 0x0C04 (natBE 4 0)])) (up)).getD q0), admit_ok (by decide +kernel)⟩,
    ⟨(rq [tlv 0x0C05 (natBE 8 0x0000000500000000 ++ natBE 2 900)]), (up), ((admitted? (.rtcZoneSet (rq [tlv 0x0C05 (natBE 8 0x0000000500000000 ++ natBE 2 900)])) (up)).getD q0), admit_ok (by decide +kernel)⟩,
    ⟨(rq [tlv 0x0C06 (natBE 4 1 ++ natBE 4 10 ++ natBE 4 0x3FF)]), (up), ((admitted? (.rtcPtpCfg (rq [tlv 0x0C06 (natBE 4 1 ++ natBE 4 10 ++ natBE 4 0x3FF)])) (up)).getD q0), admit_ok (by decide +kernel)⟩⟩

theorem test_KeysOpcodesAndTamper_0_to_6 :
    (∃ r s q, admitted? (.keysStatus r) s = some q) ∧
    (∃ r s q, admitted? (.keysCsr r) s = some q) ∧
    (∃ r s q, admitted? (.keysTrustSet r) s = some q) ∧
    (∃ r s q, admitted? (.keysRevoke r) s = some q ∧ ((∀ k ∈ (tvs q.tlvs 0x0D06).map beNat, k ∈ (s.keys.revoked[tn q.tlvs 0x0D05]?).getD []))) ∧
    (∃ r s q, admitted? (.keysRevoke r) s = some q) ∧
    (∃ r s q, admitted? (.keysImport r) s = some q ∧ s.keys.vault.length = 5) :=
  ⟨⟨(rq []), (up), ((admitted? (.keysStatus (rq [])) (up)).getD q0), admit_ok (by decide +kernel)⟩,
    ⟨(rq [tlv 0x0D02 [5]]), (up), ((admitted? (.keysCsr (rq [tlv 0x0D02 [5]])) (up)).getD q0), admit_ok (by decide +kernel)⟩,
    ⟨(rq [tlv 0x0D05 [0], tlv 0x0D04 []]), (up), ((admitted? (.keysTrustSet (rq [tlv 0x0D05 [0], tlv 0x0D04 []])) (up)).getD q0), admit_ok (by decide +kernel)⟩,
    ⟨(rq [tlv 0x0D05 [0], tlv 0x0D06 [9]]), ({ up with keys := { up.keys with revoked := [[9], [], [], [], []] } }), ((admitted? (.keysRevoke (rq [tlv 0x0D05 [0], tlv 0x0D06 [9]])) ({ up with keys := { up.keys with revoked := [[9], [], [], [], []] } })).getD q0), admit_ok (by decide +kernel), by decide +kernel⟩,
    ⟨(rq [tlv 0x0D05 [4], tlv 0x0D06 [9]]), (up), ((admitted? (.keysRevoke (rq [tlv 0x0D05 [4], tlv 0x0D06 [9]])) (up)).getD q0), admit_ok (by decide +kernel)⟩,
    ⟨(rq [tlv 0x0D07 [4], tlv 0x0001 (natBE 8 0x0421000000000000), tlv 0x0D03 (List.replicate 64 1), tlv 0x0D08 (List.replicate 60 1)]), (up), ((admitted? (.keysImport (rq [tlv 0x0D07 [4], tlv 0x0001 (natBE 8 0x0421000000000000), tlv 0x0D03 (List.replicate 64 1), tlv 0x0D08 (List.replicate 60 1)])) (up)).getD q0), admit_ok (by decide +kernel), by decide +kernel⟩⟩

theorem test_KeysOpcodesAndTamper_7_to_12 :
    (∃ r s q, admitted? (.keysErase r) s = some q) ∧
    (∃ r s q, admitted? (.keysAttest r) s = some q) ∧
    (∃ r s q, admitted? (.keysTamperArm r) s = some q) ∧
    (∃ r s q, admitted? (.keysTamperClear r) s = some q ∧ s.armedIntact = true) ∧
    (∃ r s q, admitted? (.keysTamperClear r) s = some q ∧ s.armedIntact = false) ∧
    (∃ r s q root, admitted? (.keysDerive r) s = some q ∧ isAppk q = true ∧ s.root? 0 = some root) :=
  ⟨⟨(rq [tlv 0x0D07 [255]]), ({ up with keys := { up.keys with vault := [some (7, 0), none, none, none, some (9, 0x0421000000000000)] } }), ((admitted? (.keysErase (rq [tlv 0x0D07 [255]])) ({ up with keys := { up.keys with vault := [some (7, 0), none, none, none, some (9, 0x0421000000000000)] } })).getD q0), admit_ok (by decide +kernel)⟩,
    ⟨(rq [tlv 0x0D09 (List.replicate 32 3)]), (up), ((admitted? (.keysAttest (rq [tlv 0x0D09 (List.replicate 32 3)])) (up)).getD q0), admit_ok (by decide +kernel)⟩,
    ⟨(rq [tlv 0x0D0B [3]]), (up), ((admitted? (.keysTamperArm (rq [tlv 0x0D0B [3]])) (up)).getD q0), admit_ok (by decide +kernel)⟩,
    ⟨(rq []), ((up.put F.KEYS_TAMPER_STAT_CAUSE 5).put F.KEYS_STAT_TAMPER 1), ((admitted? (.keysTamperClear (rq [])) ((up.put F.KEYS_TAMPER_STAT_CAUSE 5).put F.KEYS_STAT_TAMPER 1)).getD q0), admit_ok (by decide +kernel), by decide +kernel⟩,
    ⟨(rq []), ((up.put F.KEYS_TAMPER_CFG_ARM1 1).put F.KEYS_TAMPER_STAT_LIVE1 0), ((admitted? (.keysTamperClear (rq [])) ((up.put F.KEYS_TAMPER_CFG_ARM1 1).put F.KEYS_TAMPER_STAT_LIVE1 0)).getD q0), admit_ok (by decide +kernel), by decide +kernel⟩,
    ⟨(rq [tlv 0x0D0C [1, 0], tlv 0x0D0D (ascii "APPK"), tlv 0x0D0E [1], tlv 0x0D0F [0, 0x3F]]), ({ up with keys := { up.keys with vault := [some (7, 0), none, none, none, some (9, 0x0421000000000000)] } }), ((admitted? (.keysDerive (rq [tlv 0x0D0C [1, 0], tlv 0x0D0D (ascii "APPK"), tlv 0x0D0E [1], tlv 0x0D0F [0, 0x3F]])) ({ up with keys := { up.keys with vault := [some (7, 0), none, none, none, some (9, 0x0421000000000000)] } })).getD q0), (7), admit_ok (by decide +kernel), by decide +kernel⟩⟩

theorem test_KeysOpcodesAndTamper_13_to_18 :
    (∃ r s q h, admitted? (.keysDerive r) s = some q ∧ isAppk q = false ∧ s.handle? (tn q.tlvs 0x0D0C) = some h) ∧
    (∃ r s q, admitted? (.keysDerive r) s = some q ∧ (isAppk q = true ∧ s.root? 0 = none)) ∧
    (∃ r s q h root, admitted? (.keysExport r) s = some q ∧ s.handle? (tn q.tlvs 0x0D10) = some h ∧ s.root? 0 = some root) ∧
    (∃ r s q, admitted? (.keysExport r) s = some q ∧ s.root? 0 = none) ∧
    (∃ r s q, admitted? (.keysKeyImport r) s = some q) ∧
    (∃ r s q, admitted? (.keysFree r) s = some q) :=
  ⟨⟨(rq [tlv 0x0D0C [0, 3], tlv 0x0D0D (ascii "TEST"), tlv 0x0D0E [], tlv 0x0D0F [3, 0x2F]]), ({ up with keys := { up.keys with handles := [⟨3, 0, 1, true, some 1, 1, 5⟩] } }), ((admitted? (.keysDerive (rq [tlv 0x0D0C [0, 3], tlv 0x0D0D (ascii "TEST"), tlv 0x0D0E [], tlv 0x0D0F [3, 0x2F]])) ({ up with keys := { up.keys with handles := [⟨3, 0, 1, true, some 1, 1, 5⟩] } })).getD q0), (⟨3, 0, 1, true, some 1, 1, 5⟩), admit_ok (by decide +kernel), by decide +kernel⟩,
    ⟨(rq [tlv 0x0D0C [1, 0], tlv 0x0D0D (ascii "APPK"), tlv 0x0D0E [1], tlv 0x0D0F [0, 0x3F]]), (up), ((admitted? (.keysDerive (rq [tlv 0x0D0C [1, 0], tlv 0x0D0D (ascii "APPK"), tlv 0x0D0E [1], tlv 0x0D0F [0, 0x3F]])) (up)).getD q0), admit_ok (by decide +kernel), by decide +kernel⟩,
    ⟨(rq [tlv 0x0D10 [3]]), ({ up with keys := { up.keys with handles := [⟨3, 0, 1, true, some 1, 1, 5⟩], vault := [some (7, 0), none, none, none, some (9, 0x0421000000000000)] } }), ((admitted? (.keysExport (rq [tlv 0x0D10 [3]])) ({ up with keys := { up.keys with handles := [⟨3, 0, 1, true, some 1, 1, 5⟩], vault := [some (7, 0), none, none, none, some (9, 0x0421000000000000)] } })).getD q0), (⟨3, 0, 1, true, some 1, 1, 5⟩), (7), admit_ok (by decide +kernel), by decide +kernel⟩,
    ⟨(rq [tlv 0x0D10 [3]]), ({ up with keys := { up.keys with handles := [⟨3, 0, 1, true, some 1, 1, 5⟩] } }), ((admitted? (.keysExport (rq [tlv 0x0D10 [3]])) ({ up with keys := { up.keys with handles := [⟨3, 0, 1, true, some 1, 1, 5⟩] } })).getD q0), admit_ok (by decide +kernel), by decide +kernel⟩,
    ⟨(rq [tlv 0x0D11 (List.replicate 12 0 ++ [2] ++ List.replicate 48 0), tlv 0x0D0F [2, 0]]), (up), ((admitted? (.keysKeyImport (rq [tlv 0x0D11 (List.replicate 12 0 ++ [2] ++ List.replicate 48 0), tlv 0x0D0F [2, 0]])) (up)).getD q0), admit_ok (by decide +kernel)⟩,
    ⟨(rq [tlv 0x0D10 [3]]), ({ up with keys := { up.keys with handles := [⟨3, 0, 1, true, some 1, 1, 5⟩] } }), ((admitted? (.keysFree (rq [tlv 0x0D10 [3]])) ({ up with keys := { up.keys with handles := [⟨3, 0, 1, true, some 1, 1, 5⟩] } })).getD q0), admit_ok (by decide +kernel)⟩⟩

theorem test_KeysOpcodesAndTamper_20_to_22 :
    (∃ (loop : W32) (tmp1 : Bool) (debug : Bool) (s : State), (b2n (s.get F.KEYS_TAMPER_CFG_ARM0 == 1 && !(meshIntact loop.toNat)) + 2 * b2n (s.get F.KEYS_TAMPER_CFG_ARM1 == 1 && !tmp1) + 4 * b2n (debug && s.lifecycle == 0 && s.vaultHolds)) = 0) ∧
    (∃ (loop : W32) (tmp1 : Bool) (debug : Bool) (s : State), (b2n (s.get F.KEYS_TAMPER_CFG_ARM0 == 1 && !(meshIntact loop.toNat)) + 2 * b2n (s.get F.KEYS_TAMPER_CFG_ARM1 == 1 && !tmp1) + 4 * b2n (debug && s.lifecycle == 0 && s.vaultHolds)) ≠ 0 ∧ s.pdOn 0 = true) ∧
    (∃ (loop : W32) (tmp1 : Bool) (debug : Bool) (s : State), (b2n (s.get F.KEYS_TAMPER_CFG_ARM0 == 1 && !(meshIntact loop.toNat)) + 2 * b2n (s.get F.KEYS_TAMPER_CFG_ARM1 == 1 && !tmp1) + 4 * b2n (debug && s.lifecycle == 0 && s.vaultHolds)) ≠ 0 ∧ s.pdOn 0 = false) :=
  ⟨⟨(200), (false), (true), (up), by decide +kernel⟩,
    ⟨(1000), (false), (false), (linked.put F.KEYS_TAMPER_CFG_ARM1 1), by decide +kernel⟩,
    ⟨(50001), (true), (false), ((up.put F.KEYS_TAMPER_CFG_ARM0 1).setPd 0 false), by decide +kernel⟩⟩

theorem test_UpdateStagingAndFetch_0_to_6 :
    (∃ r s q, admitted? (.updBegin r) s = some q ∧ s.stageSame (tv q.tlvs 0x0E01) = false ∧ ((s.updState = usIdle ∨ s.updState = usRecovery ∧ (s.upd.staging = false ∨ Config.sm3 (s.fwSet s.stageSet).man ≠ Config.sm3 (tv q.tlvs 0x0E01))))) ∧
    (∃ r s q, admitted? (.updBegin r) s = some q ∧ s.updState = usRecovery ∧ s.upd.staging = true ∧ (s.fwSet s.stageSet).man = (tv q.tlvs 0x0E01)) ∧
    (∃ r s q, admitted? (.updPut r) s = some q ∧ (s.fwSet s.stageSet).parts.length = 8 ∧ ((((s.fwSet s.stageSet).part ((tn q.tlvs 0x0E02) - 1)).chunks.filter fun y => y.1 != (tn q.tlvs 0x0E03)) ++ [((tn q.tlvs 0x0E03), (tv q.tlvs 0x0E04))]).length < partChunks ((s.fwSet s.stageSet).part ((tn q.tlvs 0x0E02) - 1))) ∧
    (∃ r s q, admitted? (.updPut r) s = some q ∧ (s.fwSet s.stageSet).parts.length = 8 ∧ partChunks ((s.fwSet s.stageSet).part ((tn q.tlvs 0x0E02) - 1)) ≤ ((((s.fwSet s.stageSet).part ((tn q.tlvs 0x0E02) - 1)).chunks.filter fun y => y.1 != (tn q.tlvs 0x0E03)) ++ [((tn q.tlvs 0x0E03), (tv q.tlvs 0x0E04))]).length) ∧
    (∃ r s q, admitted? (.updStatus r) s = some q) ∧
    (∃ r s q, admitted? (.updAbandon r) s = some q ∧ s.upd.staging = true) :=
  ⟨⟨(rq [tlv 0x0E01 man1]), (up), ((admitted? (.updBegin (rq [tlv 0x0E01 man1])) (up)).getD q0), admit_ok (by decide +kernel), by decide +kernel⟩,
    ⟨(rq [tlv 0x0E01 man8]), (recov), ((admitted? (.updBegin (rq [tlv 0x0E01 man8])) (recov)).getD q0), admit_ok (by decide +kernel), by decide +kernel⟩,
    ⟨(rq [tlv 0x0E02 [1], tlv 0x0E03 (natBE 4 1), tlv 0x0E04 (List.replicate 476 5)]), (staging up ⟨7, 1500, [], false⟩), ((admitted? (.updPut (rq [tlv 0x0E02 [1], tlv 0x0E03 (natBE 4 1), tlv 0x0E04 (List.replicate 476 5)])) (staging up ⟨7, 1500, [], false⟩)).getD q0), admit_ok (by decide +kernel), by decide +kernel⟩,
    ⟨(rq [tlv 0x0E02 [1], tlv 0x0E03 (natBE 4 1), tlv 0x0E04 (List.replicate 476 5)]), (staging up ⟨7, 1500, [(0, List.replicate 1024 5)], false⟩), ((admitted? (.updPut (rq [tlv 0x0E02 [1], tlv 0x0E03 (natBE 4 1), tlv 0x0E04 (List.replicate 476 5)])) (staging up ⟨7, 1500, [(0, List.replicate 1024 5)], false⟩)).getD q0), admit_ok (by decide +kernel), by decide +kernel⟩,
    ⟨(rq []), (up), ((admitted? (.updStatus (rq [])) (up)).getD q0), admit_ok (by decide +kernel)⟩,
    ⟨(rq []), (withJob (staging up ⟨7, 1500, [], false⟩)), ((admitted? (.updAbandon (rq [])) (withJob (staging up ⟨7, 1500, [], false⟩))).getD q0), admit_ok (by decide +kernel), by decide +kernel⟩⟩

theorem test_UpdateStagingAndFetch_7_to_12 :
    (∃ r s q, admitted? (.updAbandon r) s = some q ∧ s.upd.staging = false) ∧
    (∃ (p : Nat) (rest : List Nat) (s : State), s.upd.copies = p :: rest ∧ 1 ≤ p ∧ p ≤ 8 ∧ (s.fwSet s.stageSet).parts.length = 8 ∧ (s.activeSet.part (p - 1)).ok = true ∧ (s.activeSet.part (p - 1)).digest = ((s.fwSet s.stageSet).part (p - 1)).digest) ∧
    (∃ (s : State), ((s.upd.copies = [] ∨ ∃ p rest, s.upd.copies = p :: rest ∧ ((s.activeSet.part (p - 1)).ok = false ∨ (s.activeSet.part (p - 1)).digest ≠ ((s.fwSet s.stageSet).part (p - 1)).digest)))) ∧
    (∃ r s q, admitted? (.updFetch r) s = some q) ∧
    (∃ (p : FPiece) (s1 : State) (s : State), s.furunPiece 10 p = (s1, none)) ∧
    (∃ (p : FPiece) (s1 : State) (s : State), s.furunPiece 10 p = (s1, none)) :=
  ⟨⟨(rq []), (up), ((admitted? (.updAbandon (rq [])) (up)).getD q0), admit_ok (by decide +kernel), by decide +kernel⟩,
    ⟨(1), ([2]), ((staging up ⟨0, 0, [], false⟩).setUpd fun u => { u with copies := [1, 2] }), by decide +kernel⟩,
    ⟨(up), Or.inl (by decide +kernel)⟩,
    ⟨(rq [tlv 0x0001 (natBE 8 0x0800000000000000), tlv 0x0E06 (List.replicate 32 4)]), (linked), ((admitted? (.updFetch (rq [tlv 0x0001 (natBE 8 0x0800000000000000), tlv 0x0E06 (List.replicate 32 4)])) (linked)).getD q0), admit_ok (by decide +kernel)⟩,
    ⟨(half [1]), (((linked).furunPiece 10 (half [1])).1), (linked), piece_ok (by decide +kernel)⟩,
    ⟨(half [1]), (((linked).furunPiece 10 (half [1])).1), (linked), piece_ok (by decide +kernel)⟩⟩

theorem test_UpdateStagingAndFetch_13_to_18 :
    (∃ (p : FPiece) (s1 : State) (s : State), s.furunPiece 10 p = (s1, none)) ∧
    (∃ (p : FPiece) (m : Bytes) (s1 : State) (s : State), s.furunPiece 10 p = (s1, some m)) ∧
    (∃ (p : FPiece) (m : Bytes) (s1 : State) (s : State), s.furunPiece 10 p = (s1, some m) ∧ beAt m 20 2 = 1) ∧
    (∃ (p : FPiece) (m : Bytes) (s1 : State) (s : State), s.furunPiece 10 p = (s1, some m) ∧ s1.fetchAsked p.src m = none) ∧
    (∃ (p : FPiece) (m : Bytes) (s1 : State) (s : State), s.furunPiece 10 p = (s1, some m) ∧ s1.fetchAsked p.src m = none) ∧
    (∃ (p : FPiece) (m : Bytes) (s1 : State) (f : FetchJob) (s : State), s.furunPiece 10 p = (s1, some m) ∧ s1.fetchAsked p.src m = some f ∧ 1 ≤ beAt m 12 1 ∧ beAt m 12 1 ≤ 8 ∧ s1.updState = usStaging ∧ (s1.fwSet s1.stageSet).parts.length = 8 ∧ ((m.drop 24).take (beAt m 20 2)).length = chunkLen ((s1.fwSet s1.stageSet).part (beAt m 12 1 - 1)) (beAt m 16 4) ∧ ((((s1.fwSet s1.stageSet).part (beAt m 12 1 - 1)).chunks.filter fun y => y.1 != beAt m 16 4) ++ [(beAt m 16 4, ((m.drop 24).take (beAt m 20 2)))]).length < partChunks ((s1.fwSet s1.stageSet).part (beAt m 12 1 - 1))) :=
  ⟨⟨(half [1]), (((linked).furunPiece 10 (half [1])).1), (linked), piece_ok (by decide +kernel)⟩,
    ⟨(msg (natBE 1 1 ++ natBE 3 0 ++ natBE 8 9 ++ natBE 1 2 ++ natBE 3 0 ++ natBE 4 0 ++ natBE 2 1 ++ natBE 2 0)), (natBE 1 1 ++ natBE 3 0 ++ natBE 8 9 ++ natBE 1 2 ++ natBE 3 0 ++ natBE 4 0 ++ natBE 2 1 ++ natBE 2 0), (((linked).furunPiece 10 (msg (natBE 1 1 ++ natBE 3 0 ++ natBE 8 9 ++ natBE 1 2 ++ natBE 3 0 ++ natBE 4 0 ++ natBE 2 1 ++ natBE 2 0))).1), (linked), piece_ok (by decide +kernel)⟩,
    ⟨(msg (natBE 1 1 ++ natBE 3 0 ++ natBE 8 0 ++ natBE 1 2 ++ natBE 3 0 ++ natBE 4 0 ++ natBE 2 1 ++ natBE 2 0)), (natBE 1 1 ++ natBE 3 0 ++ natBE 8 0 ++ natBE 1 2 ++ natBE 3 0 ++ natBE 4 0 ++ natBE 2 1 ++ natBE 2 0), (((withJob (staging linked ⟨7, 1500, [], false⟩)).furunPiece 10 (msg (natBE 1 1 ++ natBE 3 0 ++ natBE 8 0 ++ natBE 1 2 ++ natBE 3 0 ++ natBE 4 0 ++ natBE 2 1 ++ natBE 2 0))).1), (withJob (staging linked ⟨7, 1500, [], false⟩)), piece_ok (by decide +kernel), by decide +kernel⟩,
    ⟨(msg (natBE 1 1 ++ natBE 3 0 ++ natBE 8 9 ++ natBE 1 2 ++ natBE 3 0 ++ natBE 4 0 ++ natBE 2 1 ++ natBE 2 0)), (natBE 1 1 ++ natBE 3 0 ++ natBE 8 9 ++ natBE 1 2 ++ natBE 3 0 ++ natBE 4 0 ++ natBE 2 1 ++ natBE 2 0), (((linked).furunPiece 10 (msg (natBE 1 1 ++ natBE 3 0 ++ natBE 8 9 ++ natBE 1 2 ++ natBE 3 0 ++ natBE 4 0 ++ natBE 2 1 ++ natBE 2 0))).1), (linked), piece_ok (by decide +kernel), by decide +kernel⟩,
    ⟨(msg (natBE 1 1 ++ natBE 3 0 ++ natBE 8 9 ++ natBE 1 2 ++ natBE 3 0 ++ natBE 4 0 ++ natBE 2 1 ++ natBE 2 0)), (natBE 1 1 ++ natBE 3 0 ++ natBE 8 9 ++ natBE 1 2 ++ natBE 3 0 ++ natBE 4 0 ++ natBE 2 1 ++ natBE 2 0), (((linked).furunPiece 10 (msg (natBE 1 1 ++ natBE 3 0 ++ natBE 8 9 ++ natBE 1 2 ++ natBE 3 0 ++ natBE 4 0 ++ natBE 2 1 ++ natBE 2 0))).1), (linked), piece_ok (by decide +kernel), by decide +kernel⟩,
    ⟨(msg ((natBE 1 2 ++ natBE 3 0 ++ natBE 8 0 ++ natBE 1 1 ++ natBE 3 0 ++ natBE 4 0 ++ natBE 2 1024 ++ natBE 2 0) ++ List.replicate 1024 6)), ((natBE 1 2 ++ natBE 3 0 ++ natBE 8 0 ++ natBE 1 1 ++ natBE 3 0 ++ natBE 4 0 ++ natBE 2 1024 ++ natBE 2 0) ++ List.replicate 1024 6), (((withJob (staging linked ⟨7, 1500, [], false⟩)).furunPiece 10 (msg ((natBE 1 2 ++ natBE 3 0 ++ natBE 8 0 ++ natBE 1 1 ++ natBE 3 0 ++ natBE 4 0 ++ natBE 2 1024 ++ natBE 2 0) ++ List.replicate 1024 6))).1), (job), (withJob (staging linked ⟨7, 1500, [], false⟩)), piece_ok (by decide +kernel), by decide +kernel⟩⟩

theorem test_UpdateStagingAndFetch_19_to_25 :
    (∃ (p : FPiece) (m : Bytes) (s1 : State) (f : FetchJob) (s : State), s.furunPiece 10 p = (s1, some m) ∧ s1.fetchAsked p.src m = some f ∧ 1 ≤ beAt m 12 1 ∧ beAt m 12 1 ≤ 8 ∧ s1.updState = usStaging ∧ (s1.fwSet s1.stageSet).parts.length = 8 ∧ ((m.drop 24).take (beAt m 20 2)).length = chunkLen ((s1.fwSet s1.stageSet).part (beAt m 12 1 - 1)) (beAt m 16 4) ∧ partChunks ((s1.fwSet s1.stageSet).part (beAt m 12 1 - 1)) ≤ (((((s1.fwSet s1.stageSet).part (beAt m 12 1 - 1)).chunks.filter fun y => y.1 != beAt m 16 4) ++ [(beAt m 16 4, ((m.drop 24).take (beAt m 20 2)))])).length) ∧
    (∃ (p : FPiece) (m : Bytes) (s1 : State) (f : FetchJob) (s : State), s.furunPiece 10 p = (s1, some m) ∧ s1.fetchAsked p.src m = some f ∧ beAt m 12 1 ≠ 0 ∧ ((s1.updState ≠ usStaging ∨ ((m.drop 24).take (beAt m 20 2)).length ≠ chunkLen ((s1.fwSet s1.stageSet).part (beAt m 12 1 - 1)) (beAt m 16 4)))) ∧
    (∃ (p : FPiece) (m : Bytes) (s1 : State) (f : FetchJob) (s : State), s.furunPiece 10 p = (s1, some m) ∧ s1.fetchAsked p.src m = some f ∧ beAt m 12 1 = 0 ∧ ((s1.manBad ((m.drop 24).take (beAt m 20 2)) = true ∨ s1.updState ∉ [usIdle, usRecovery, usStaging, usStaged]))) ∧
    (∃ (p : FPiece) (m : Bytes) (s1 : State) (f : FetchJob) (s : State), s.furunPiece 10 p = (s1, some m) ∧ s1.fetchAsked p.src m = some f) ∧
    (∃ (f : FetchJob) (a : Nat) (as : List Nat) (s : State), s.upd.fetch = some f ∧ f.asked.map (·.2.2) = a :: as) ∧
    (∃ (s : State), ((s.upd.fetch = none ∨ ∃ f, s.upd.fetch = some f ∧ f.asked = []))) :=
  ⟨⟨(msg ((natBE 1 2 ++ natBE 3 0 ++ natBE 8 0 ++ natBE 1 1 ++ natBE 3 0 ++ natBE 4 1 ++ natBE 2 476 ++ natBE 2 0) ++ List.replicate 476 6)), ((natBE 1 2 ++ natBE 3 0 ++ natBE 8 0 ++ natBE 1 1 ++ natBE 3 0 ++ natBE 4 1 ++ natBE 2 476 ++ natBE 2 0) ++ List.replicate 476 6), (((withJob (staging linked ⟨7, 1500, [(0, List.replicate 1024 5)], false⟩)).furunPiece 10 (msg ((natBE 1 2 ++ natBE 3 0 ++ natBE 8 0 ++ natBE 1 1 ++ natBE 3 0 ++ natBE 4 1 ++ natBE 2 476 ++ natBE 2 0) ++ List.replicate 476 6))).1), (job), (withJob (staging linked ⟨7, 1500, [(0, List.replicate 1024 5)], false⟩)), piece_ok (by decide +kernel), by decide +kernel⟩,
    ⟨(msg ((natBE 1 2 ++ natBE 3 0 ++ natBE 8 0 ++ natBE 1 1 ++ natBE 3 0 ++ natBE 4 0 ++ natBE 2 1024 ++ natBE 2 0) ++ List.replicate 1024 6)), ((natBE 1 2 ++ natBE 3 0 ++ natBE 8 0 ++ natBE 1 1 ++ natBE 3 0 ++ natBE 4 0 ++ natBE 2 1024 ++ natBE 2 0) ++ List.replicate 1024 6), (((withJob linked).furunPiece 10 (msg ((natBE 1 2 ++ natBE 3 0 ++ natBE 8 0 ++ natBE 1 1 ++ natBE 3 0 ++ natBE 4 0 ++ natBE 2 1024 ++ natBE 2 0) ++ List.replicate 1024 6))).1), (job), (withJob linked), piece_ok (by decide +kernel), by decide +kernel⟩,
    ⟨(msg (natBE 1 2 ++ natBE 3 0 ++ natBE 8 0 ++ natBE 1 0 ++ natBE 3 0 ++ natBE 4 0 ++ natBE 2 1 ++ natBE 2 0 ++ [7])), (natBE 1 2 ++ natBE 3 0 ++ natBE 8 0 ++ natBE 1 0 ++ natBE 3 0 ++ natBE 4 0 ++ natBE 2 1 ++ natBE 2 0 ++ [7]), (((linked.setUpd fun u => { u with fetch := some jobM }).furunPiece 10 (msg (natBE 1 2 ++ natBE 3 0 ++ natBE 8 0 ++ natBE 1 0 ++ natBE 3 0 ++ natBE 4 0 ++ natBE 2 1 ++ natBE 2 0 ++ [7]))).1), (jobM), (linked.setUpd fun u => { u with fetch := some jobM }), piece_ok (by decide +kernel), by decide +kernel⟩,
    ⟨(msg (natBE 1 3 ++ natBE 3 0 ++ natBE 8 0 ++ natBE 1 1 ++ natBE 3 0 ++ natBE 4 1 ++ natBE 2 0 ++ natBE 2 0)), (natBE 1 3 ++ natBE 3 0 ++ natBE 8 0 ++ natBE 1 1 ++ natBE 3 0 ++ natBE 4 1 ++ natBE 2 0 ++ natBE 2 0), (((withJob (staging linked ⟨7, 1500, [], false⟩)).furunPiece 10 (msg (natBE 1 3 ++ natBE 3 0 ++ natBE 8 0 ++ natBE 1 1 ++ natBE 3 0 ++ natBE 4 1 ++ natBE 2 0 ++ natBE 2 0))).1), (job), (withJob (staging linked ⟨7, 1500, [], false⟩)), piece_ok (by decide +kernel), by decide +kernel⟩,
    ⟨(job), (0), ([5]), (withJob linked), by decide +kernel⟩,
    ⟨(up.setUpd (fun u => { u with fetch := some { job with asked := [] } })), Or.inr ⟨{ job with asked := [] }, by decide +kernel⟩⟩⟩

theorem test_UpdateStagingAndFetch_26_to_27 :
    (∃ (f : FetchJob) (s : State), s.upd.fetch = some f) ∧
    (∃ (s : State), s.upd.fetch = none) :=
  ⟨⟨(job), (withJob linked), by decide +kernel⟩,
    ⟨(up), by decide +kernel⟩⟩

theorem test_UpdateActivationAndTrial_0_to_5 :
    (∃ r s q, admitted? (.updActivate r) s = some q ∧ badParts (s.fwSet s.stageSet) = []) ∧
    (∃ r s q, admitted? (.updActivate r) s = some q ∧ badParts (s.fwSet s.stageSet) ≠ []) ∧
    (∃ r s q, admitted? (.updRevert r) s = some q ∧ badParts (s.fwSet ((s.commit?.map (·.prior)).getD 1)) = [] ∧ s.start.phase ≠ .recovery) ∧
    (∃ r s q, admitted? (.updRevert r) s = some q ∧ badParts (s.fwSet ((s.commit?.map (·.prior)).getD 1)) ≠ []) ∧
    (∃ r s q, admitted? (.updConfirm r) s = some q) ∧
    (∃ r s q, admitted? (.updCfgSet r) s = some q) :=
  ⟨⟨(rq [tlv 0x0E07 [1]]), ((up.put F.UPD_STAT_STATE 2).setUpd fun u => { u with setB := ⟨man1, List.replicate 8 ⟨0, 5, [], true⟩, true⟩ }), ((admitted? (.updActivate (rq [tlv 0x0E07 [1]])) ((up.put F.UPD_STAT_STATE 2).setUpd fun u => { u with setB := ⟨man1, List.replicate 8 ⟨0, 5, [], true⟩, true⟩ })).getD q0), admit_ok (by decide +kernel), by decide +kernel⟩,
    ⟨(rq [tlv 0x0E07 [0]]), (up.put F.UPD_STAT_STATE 2), ((admitted? (.updActivate (rq [tlv 0x0E07 [0]])) (up.put F.UPD_STAT_STATE 2)).getD q0), admit_ok (by decide +kernel), by decide +kernel⟩,
    ⟨(rq [tlv 0x0E07 [0]]), ((up).setUpd fun u => { u with setB := ⟨man1, List.replicate 8 ⟨0, 5, [], true⟩, true⟩ }), ((admitted? (.updRevert (rq [tlv 0x0E07 [0]])) ((up).setUpd fun u => { u with setB := ⟨man1, List.replicate 8 ⟨0, 5, [], true⟩, true⟩ })).getD q0), admit_ok (by decide +kernel), by decide +kernel⟩,
    ⟨(rq [tlv 0x0E07 [0]]), (up.setUpd fun u => { u with setB := ⟨man1, [], true⟩ }), ((admitted? (.updRevert (rq [tlv 0x0E07 [0]])) (up.setUpd fun u => { u with setB := ⟨man1, [], true⟩ })).getD q0), admit_ok (by decide +kernel), by decide +kernel⟩,
    ⟨(rq []), (up.put F.UPD_STAT_STATE 3), ((admitted? (.updConfirm (rq [])) (up.put F.UPD_STAT_STATE 3)).getD q0), admit_ok (by decide +kernel)⟩,
    ⟨(rq [tlv 0x0E08 (natBE 4 0x01000A10)]), (up), ((admitted? (.updCfgSet (rq [tlv 0x0E08 (natBE 4 0x01000A10)])) (up)).getD q0), admit_ok (by decide +kernel)⟩⟩

theorem test_UpdateActivationAndTrial_6_to_11 :
    (∃ (x : Nat) (c : CommitRec) (s : State), s.upd.heldAt = some x ∧ s.commit? = some c ∧ s.updState = usTrial ∧ s.healthOk = true) ∧
    (∃ (s : State), ((s.upd.heldAt = none ∨ s.updState ≠ usTrial ∨ s.healthOk = false))) ∧
    (∃ (x : Nat) (c : CommitRec) (s : State), s.upd.trialAt = some x ∧ s.commit? = some c ∧ s.updState = usTrial ∧ s.closing = false) ∧
    (∃ (s : State), ((s.upd.trialAt = none ∨ s.updState ≠ usTrial ∨ s.closing = true))) ∧
    (∃ (s : State), s.safe.a.skey = true ∧ s.safe.fw ≠ some (s.activeSet.part 4).digest) ∧
    (∃ (s : State), ((s.safe.a.skey = false ∨ s.safe.fw = some (s.activeSet.part 4).digest))) :=
  ⟨⟨(4), (⟨1, true, 0, 4, 0, 3, 0, 0⟩), ((sets up [(F.UPD_STAT_STATE, 3), (F.UPD_CFG_HC, 0)]).setUpd fun u => { u with trialAt := some 3, heldAt := some 4, recs := (some ⟨1, true, 0, 4, 0, 3, 0, 0⟩, some ⟨1, true, 0, 4, 0, 3, 0, 0⟩) }), by decide +kernel⟩,
    ⟨((sets up [(F.UPD_STAT_STATE, 3), (F.UPD_CFG_HC, 0)]).setUpd fun u => { u with trialAt := some 3, heldAt := none, recs := (some ⟨1, true, 0, 4, 0, 3, 0, 0⟩, some ⟨1, true, 0, 4, 0, 3, 0, 0⟩) }), by decide +kernel⟩,
    ⟨(3), (⟨1, true, 0, 4, 0, 3, 0, 0⟩), ((sets up [(F.UPD_STAT_STATE, 3), (F.UPD_CFG_HC, 0)]).setUpd fun u => { u with trialAt := some 3, heldAt := some 4, recs := (some ⟨1, true, 0, 4, 0, 3, 0, 0⟩, some ⟨1, true, 0, 4, 0, 3, 0, 0⟩) }), by decide +kernel⟩,
    ⟨(up), by decide +kernel⟩,
    ⟨({ up with safe := { up.safe with a := { up.safe.a with skey := true }, fw := none } }), by decide +kernel⟩,
    ⟨(up), by decide +kernel⟩⟩

theorem test_RecorderAndDma_0_to_5 :
    (∃ (e : EvSpec) (s : State), s.evr.queue.length < 256 ∧ s.drillOn 37 = false) ∧
    (∃ (e : EvSpec) (s : State), s.evr.queue.length < 256 ∧ s.drillOn 37 = true ∧ (s.evr.queue.filter fun x => x.dv == .waiting).length < 8) ∧
    (∃ (e : EvSpec) (s : State), s.evr.queue.length < 256 ∧ s.drillOn 37 = true ∧ 8 ≤ (s.evr.queue.filter fun x => x.dv == .waiting).length) ∧
    (∃ (e : EvSpec) (s : State), 256 ≤ s.evr.queue.length) ∧
    (∃ (i : Ingest) (rest : List Ingest) (s : State), s.evr.queue = i :: rest ∧ ((i.dv ≠ .waiting ∨ s.drillOn 37 = false)) ∧ s.repeats i.ev = false ∧ s.evr.recs.length < 131072 ∧ i.dv ≠ .verdict 1 ∧ s.evr.span = none) ∧
    (∃ (i : Ingest) (rest : List Ingest) (s : State), s.evr.queue = i :: rest ∧ ((i.dv ≠ .waiting ∨ s.drillOn 37 = false)) ∧ s.repeats i.ev = true ∧ i.dv ≠ .verdict 1) :=
  ⟨⟨(⟨0x0F01, 4, 0, 0, 0, [1]⟩), (up), by decide +kernel⟩,
    ⟨(⟨0x0F01, 4, 0, 0, 0, [1]⟩), (up.put (F.DRILL_BIND_EN 37) 1), by decide +kernel⟩,
    ⟨(⟨0x0F01, 4, 0, 0, 0, [1]⟩), (setEvr (up.put (F.DRILL_BIND_EN 37) 1) fun x => { x with queue := List.replicate 8 ⟨⟨0, 0x0F01, 4, 0, 0, 0, List.replicate 12 0⟩, .waiting⟩ }), by decide +kernel⟩,
    ⟨(⟨0x0F01, 4, 0, 0, 0, [1]⟩), (setEvr up fun x => { x with queue := List.replicate 256 ⟨⟨0, 0x0F01, 4, 0, 0, 0, List.replicate 12 0⟩, .none⟩ }), by decide +kernel⟩,
    ⟨(⟨⟨0, 0x0F01, 4, 0, 0, 0, List.replicate 12 0⟩, .none⟩), ([]), (setEvr up fun x => { x with queue := [⟨⟨0, 0x0F01, 4, 0, 0, 0, List.replicate 12 0⟩, .none⟩] }), by decide +kernel⟩,
    ⟨(⟨⟨0, 0x0F01, 4, 0, 0, 0, List.replicate 12 0⟩, .none⟩), ([]), (setEvr (up.put F.EVR_CFG_REP_WIN 10) fun x => { x with queue := [⟨⟨0, 0x0F01, 4, 0, 0, 0, List.replicate 12 0⟩, .none⟩], recs := [⟨1, ⟨0, 0x0F01, 4, 0, 0, 0, List.replicate 12 0⟩, 0, false⟩], nextSeq := 2 }), by decide +kernel⟩⟩

theorem test_RecorderAndDma_6_to_11 :
    (∃ (i : Ingest) (rest : List Ingest) (s : State), s.evr.queue = i :: rest ∧ ((i.dv ≠ .waiting ∨ s.drillOn 37 = false)) ∧ s.repeats i.ev = false ∧ s.evr.recs.length < 131072 ∧ i.dv = .verdict 1 ∧ s.evr.span = none) ∧
    (∃ (i : Ingest) (rest : List Ingest) (p : Span) (s : State), s.evr.queue = i :: rest ∧ ((i.dv ≠ .waiting ∨ s.drillOn 37 = false)) ∧ s.repeats i.ev = false ∧ s.evr.recs.length < 131072 ∧ i.dv ≠ .verdict 1 ∧ s.evr.span = some p) ∧
    (∃ (i : Ingest) (rest : List Ingest) (s : State), s.evr.queue = i :: rest ∧ ((i.dv ≠ .waiting ∨ s.drillOn 37 = false)) ∧ i.dv = .verdict 1 ∧ s.repeats i.ev = false ∧ s.evr.recs.length < 131072 ∧ s.evr.span.isSome = true) ∧
    (∃ (i : Ingest) (rest : List Ingest) (s : State), s.evr.queue = i :: rest ∧ ((i.dv ≠ .waiting ∨ s.drillOn 37 = false)) ∧ s.repeats i.ev = true ∧ i.dv = .verdict 1 ∧ s.evr.span = none) ∧
    (∃ (i : Ingest) (rest : List Ingest) (s : State), s.evr.queue = i :: rest ∧ ((i.dv ≠ .waiting ∨ s.drillOn 37 = false)) ∧ s.repeats i.ev = false ∧ 131072 ≤ s.evr.recs.length ∧ s.evr.recs.find? (fun x => decide (x.ev.sev ≥ i.ev.sev) && !s.inSpan x.seq) = none) ∧
    (∃ (i : Ingest) (rest : List Ingest) (x : Rec) (s : State), s.evr.queue = i :: rest ∧ ((i.dv ≠ .waiting ∨ s.drillOn 37 = false)) ∧ s.repeats i.ev = false ∧ 131072 ≤ s.evr.recs.length ∧ s.evr.recs.find? (fun x => decide (x.ev.sev ≥ i.ev.sev) && !s.inSpan x.seq) = some x ∧ i.dv ≠ .verdict 1 ∧ s.evr.span = none) :=
  ⟨⟨(⟨⟨0, 0x0F01, 4, 0, 0, 0, List.replicate 12 0⟩, .verdict 1⟩), ([]), (setEvr (up.put F.EVR_TRIG_POST 3) fun x => { x with queue := [⟨⟨0, 0x0F01, 4, 0, 0, 0, List.replicate 12 0⟩, .verdict 1⟩] }), by decide +kernel⟩,
    ⟨(⟨⟨0, 0x0F01, 4, 0, 0, 0, List.replicate 12 0⟩, .none⟩), ([]), (⟨1, 2, 3, 0⟩), (setEvr (setEvr up fun x => { x with queue := [⟨⟨0, 0x0F01, 4, 0, 0, 0, List.replicate 12 0⟩, .none⟩] }) fun x => { x with span := some ⟨1, 2, 3, 0⟩ }), by decide +kernel⟩,
    ⟨(⟨⟨0, 0x0F01, 4, 0, 0, 0, List.replicate 12 0⟩, .verdict 1⟩), ([]), (setEvr (setEvr up fun x => { x with queue := [⟨⟨0, 0x0F01, 4, 0, 0, 0, List.replicate 12 0⟩, .verdict 1⟩] }) fun x => { x with span := some ⟨1, 2, 3, 1⟩ }), by decide +kernel⟩,
    ⟨(⟨⟨0, 0x0F01, 4, 0, 0, 0, List.replicate 12 0⟩, .verdict 1⟩), ([]), (setEvr (up.put F.EVR_CFG_REP_WIN 10) fun x => { x with queue := [⟨⟨0, 0x0F01, 4, 0, 0, 0, List.replicate 12 0⟩, .verdict 1⟩], recs := [⟨1, ⟨0, 0x0F01, 4, 0, 0, 0, List.replicate 12 0⟩, 0, false⟩], nextSeq := 2 }), by decide +kernel⟩,
    ⟨(⟨evOld, .none⟩), ([]), (fullStore 1), ⟨rfl, by decide, fullStore_repeats 1, fullStore_length 1, fullStore_none⟩⟩,
    ⟨(⟨evOld, .none⟩), ([]), (⟨1, evRec 4, 0, false⟩), (fullStore 4), ⟨rfl, by decide, fullStore_repeats 4, fullStore_length 4, fullStore_some, by decide, rfl⟩⟩⟩

theorem test_RecorderAndDma_12_to_18 :
    (∃ (s : State), ((s.evr.queue = [] ∨ ∃ i rest, s.evr.queue = i :: rest ∧ i.dv = .waiting ∧ s.drillOn 37 = true))) ∧
    (∃ (w : Fin 16) (s : State), s.evr.wins.length = 16 ∧ s.winOpen w.val = true ∧ bitsOf (s.rd 0x780014) 15 8 = 1 + w.val ∧ (s.win w.val).latched ≠ 0) ∧
    (∃ (w : Fin 16) (s : State), ((s.winOpen w.val = false ∨ bitsOf (s.rd 0x780014) 15 8 ≠ 1 + w.val ∨ (s.win w.val).latched = 0))) ∧
    (∃ r s q w, admitted? (.evrOpen r) s = some q ∧ s.evr.wins.length = 16 ∧ w < 16 ∧ s.winOpen w = false ∧ ((∀ k, k < w → s.winOpen k = true))) ∧
    (∃ r s q, admitted? (.evrOpen r) s = some q ∧ ((∀ k, k < 16 → s.winOpen k = true))) ∧
    (∃ r s q, admitted? (.evrClose r) s = some q) :=
  ⟨⟨((setEvr ((up.put (F.DRILL_BIND_EN 37) 1)) fun x => { x with queue := [⟨⟨0, 0x0F01, 4, 0, 0, 0, List.replicate 12 0⟩, .waiting⟩] })), Or.inr ⟨⟨⟨0, 0x0F01, 4, 0, 0, 0, List.replicate 12 0⟩, .waiting⟩, [], by decide +kernel⟩⟩,
    ⟨(3), ((setEvr (openWin up 3) fun x => { x with wins := List.replicate 16 ⟨1, 2, 9⟩ }).wr 0x780014 0x400), by decide +kernel⟩,
    ⟨(0), (setEvr (openWin up 0) fun x => { x with wins := List.replicate 16 ⟨1, 2, 9⟩ }), by decide +kernel⟩,
    ⟨(rq [tlv 0x0F01 [7, 0, 0, 0, 0xFF, 0xFF, 0xFF, 0xFF]]), (openWin up 0), ((admitted? (.evrOpen (rq [tlv 0x0F01 [7, 0, 0, 0, 0xFF, 0xFF, 0xFF, 0xFF]])) (openWin up 0)).getD q0), (1), admit_ok (by decide +kernel), by decide +kernel⟩,
    ⟨(rq [tlv 0x0F01 [7, 0, 0, 0, 0xFF, 0xFF, 0xFF, 0xFF]]), ((List.range 16).foldl openWin up), ((admitted? (.evrOpen (rq [tlv 0x0F01 [7, 0, 0, 0, 0xFF, 0xFF, 0xFF, 0xFF]])) ((List.range 16).foldl openWin up)).getD q0), admit_ok (by decide +kernel), by decide +kernel⟩,
    ⟨(rq [tlv 0x0F02 [0]]), (openWin up 0), ((admitted? (.evrClose (rq [tlv 0x0F02 [0]])) (openWin up 0)).getD q0), admit_ok (by decide +kernel)⟩⟩

theorem test_RecorderAndDma_19_to_24 :
    (∃ r s q, admitted? (.evrRead r) s = some q) ∧
    (∃ r s q, admitted? (.evrAck r) s = some q ∧ s.evr.wins.length = 16) ∧
    (∃ r s q, admitted? (.evrCfg r) s = some q) ∧
    (∃ r s q, admitted? (.evrTrigRelease r) s = some q) ∧
    (∃ (c : Fin 32) (s : State), s.dmaState c.val = dIdle ∧ s.mode ≠ modeHoldup) ∧
    (∃ (c : Fin 32) (s : State), ((s.dmaState c.val ≠ dIdle ∨ s.mode = modeHoldup))) :=
  ⟨⟨(rq [tlv 0x0F02 [0]]), (setEvr (openWin up 0) fun x => { x with recs := [⟨1, ⟨0, 0x0F01, 4, 0, 0, 0, List.replicate 12 0⟩, 0, false⟩], nextSeq := 2 }), ((admitted? (.evrRead (rq [tlv 0x0F02 [0]])) (setEvr (openWin up 0) fun x => { x with recs := [⟨1, ⟨0, 0x0F01, 4, 0, 0, 0, List.replicate 12 0⟩, 0, false⟩], nextSeq := 2 })).getD q0), admit_ok (by decide +kernel)⟩,
    ⟨(rq [tlv 0x0F02 [0], tlv 0x0F04 (natBE 8 1)]), (setEvr (openWin up 0) fun x => { x with recs := [⟨1, ⟨0, 0x0F01, 4, 0, 0, 0, List.replicate 12 0⟩, 0, false⟩], nextSeq := 2 }), ((admitted? (.evrAck (rq [tlv 0x0F02 [0], tlv 0x0F04 (natBE 8 1)])) (setEvr (openWin up 0) fun x => { x with recs := [⟨1, ⟨0, 0x0F01, 4, 0, 0, 0, List.replicate 12 0⟩, 0, false⟩], nextSeq := 2 })).getD q0), admit_ok (by decide +kernel), by decide +kernel⟩,
    ⟨(rq [tlv 0x0F07 (natBE 4 3600 ++ natBE 4 0x10001000)]), (up), ((admitted? (.evrCfg (rq [tlv 0x0F07 (natBE 4 3600 ++ natBE 4 0x10001000)])) (up)).getD q0), admit_ok (by decide +kernel)⟩,
    ⟨(rq []), (setEvr up fun x => { x with span := some ⟨1, 2, 3, 0⟩ }), ((admitted? (.evrTrigRelease (rq [])) (setEvr up fun x => { x with span := some ⟨1, 2, 3, 0⟩ })).getD q0), admit_ok (by decide +kernel)⟩,
    ⟨(31), (up), by decide +kernel⟩,
    ⟨(0), (up.put F.LEDGER_MODE_CUR 5), by decide +kernel⟩⟩

theorem test_RecorderAndDma_25_to_30 :
    (∃ (src : Fin 4) (s : State), src.val ≠ 0 ∧ s.mode ≠ modeHoldup ∧ s.blkOn 16 = true) ∧
    (∃ (src : Fin 4) (s : State), ((src.val = 0 ∨ s.mode = modeHoldup ∨ s.blkOn 16 = false))) ∧
    (∃ (c : Fin 32) (s : State), s.dma.length = 32 ∧ s.dmaCount dActive < 16 ∧ s.blkOn 16 = true ∧ s.dmaState c.val = dQueued ∧ ((∀ k : Fin 32, s.dmaState k.val = dQueued → (fetchDesc s (s.dmaCh c.val).first.toNat).cls < (fetchDesc s (s.dmaCh k.val).first.toNat).cls ∨
      (fetchDesc s (s.dmaCh c.val).first.toNat).cls = (fetchDesc s (s.dmaCh k.val).first.toNat).cls ∧ c.val ≤ k.val)) ∧ dmaRange (s.dmaCh c.val).first.toNat 32 = true ∧ ((inSram (s.dmaCh c.val).first.toNat = false ∨ s.pdOn 2 = true)) ∧ bit1 (fetchDesc s (s.dmaCh c.val).first.toNat).w0.toNat 31 = 1 ∧ s.descBad (fetchDesc s (s.dmaCh c.val).first.toNat) = false) ∧
    (∃ (c : Fin 32) (s : State), s.dma.length = 32 ∧ s.dmaCount dActive < 16 ∧ s.blkOn 16 = true ∧ s.dmaState c.val = dQueued ∧ ((∀ k : Fin 32, s.dmaState k.val = dQueued → (fetchDesc s (s.dmaCh c.val).first.toNat).cls < (fetchDesc s (s.dmaCh k.val).first.toNat).cls ∨
      (fetchDesc s (s.dmaCh c.val).first.toNat).cls = (fetchDesc s (s.dmaCh k.val).first.toNat).cls ∧ c.val ≤ k.val)) ∧ dmaRange (s.dmaCh c.val).first.toNat 32 = true ∧ ((inSram (s.dmaCh c.val).first.toNat = false ∨ s.pdOn 2 = true)) ∧ bit1 (fetchDesc s (s.dmaCh c.val).first.toNat).w0.toNat 31 = 1 ∧ s.descBad (fetchDesc s (s.dmaCh c.val).first.toNat) = true) ∧
    (∃ (c : Fin 32) (s : State), s.dma.length = 32 ∧ s.dmaCount dActive < 16 ∧ s.blkOn 16 = true ∧ s.dmaState c.val = dQueued ∧ ((∀ k : Fin 32, s.dmaState k.val = dQueued → (fetchDesc s (s.dmaCh c.val).first.toNat).cls < (fetchDesc s (s.dmaCh k.val).first.toNat).cls ∨
      (fetchDesc s (s.dmaCh c.val).first.toNat).cls = (fetchDesc s (s.dmaCh k.val).first.toNat).cls ∧ c.val ≤ k.val)) ∧ dmaRange (s.dmaCh c.val).first.toNat 32 = true ∧ ((inSram (s.dmaCh c.val).first.toNat = false ∨ s.pdOn 2 = true)) ∧ bit1 (fetchDesc s (s.dmaCh c.val).first.toNat).w0.toNat 31 = 0) ∧
    (∃ (c : Fin 32) (s : State), s.dma.length = 32 ∧ s.dmaCount dActive < 16 ∧ s.blkOn 16 = true ∧ s.dmaState c.val = dQueued ∧ ((∀ k : Fin 32, s.dmaState k.val = dQueued → (fetchDesc s (s.dmaCh c.val).first.toNat).cls < (fetchDesc s (s.dmaCh k.val).first.toNat).cls ∨
      (fetchDesc s (s.dmaCh c.val).first.toNat).cls = (fetchDesc s (s.dmaCh k.val).first.toNat).cls ∧ c.val ≤ k.val)) ∧ ((dmaRange (s.dmaCh c.val).first.toNat 32 = false ∨ inSram (s.dmaCh c.val).first.toNat = true ∧ s.pdOn 2 = false))) :=
  ⟨⟨(2), (sets up [(F.DMA_CHCTL_TRIG 0, 2), (F.DMA_CHCTL_TRIG 1, 2), (F.DMA_CHSTAT_STATE 1, 2), (F.DMA_CHCTL_TRIG 2, 2), (F.DMA_CHSTAT_STATE 2, 3), (F.DMA_CHCTL_TRIG 4, 1)]), by decide +kernel⟩,
    ⟨(1), (up.put F.LEDGER_MODE_CUR 5), by decide +kernel⟩,
    ⟨(3), (sets (sram oneDesc 0 0) [(F.DMA_CHSTAT_STATE 3, 1)]), by decide +kernel⟩,
    ⟨(3), (sets (sram badDesc 0 0) [(F.DMA_CHSTAT_STATE 3, 1)]), by decide +kernel⟩,
    ⟨(3), (sets (sram endDesc 0 0) [(F.DMA_CHSTAT_STATE 3, 1)]), by decide +kernel⟩,
    ⟨(3), ((sets (sram oneDesc 0 0) [(F.DMA_CHSTAT_STATE 3, 1)]).setPd 2 false), by decide +kernel⟩⟩

theorem test_RecorderAndDma_31_to_36 :
    (∃ (s : State), ((16 ≤ s.dmaCount dActive ∨ s.blkOn 16 = false ∨ ∀ c, c < 32 → s.dmaState c ≠ dQueued))) ∧
    (∃ (c : Fin 32) (d : Desc) (s : State), s.dma.length = 32 ∧ s.dmaState c.val = dActive ∧ (s.dmaCh c.val).desc = some d ∧ (s.dmaCh c.val).await = false ∧ s.drillOn (4 + c.val) = false ∧ d.next = 0) ∧
    (∃ (c : Fin 32) (d : Desc) (s : State), s.dma.length = 32 ∧ s.dmaState c.val = dActive ∧ (s.dmaCh c.val).desc = some d ∧ (s.dmaCh c.val).await = false ∧ s.drillOn (4 + c.val) = false ∧ s.closing = false ∧ d.next ≠ 0 ∧ dmaRange d.next.toNat 32 = true ∧ ((inSram d.next.toNat = false ∨ s.pdOn 2 = true)) ∧ ((d.next.toNat + 32 ≤ d.dst.toNat ∨ d.dst.toNat + spanOf d.dstFix d.len.toNat ≤ d.next.toNat)) ∧ ((d.next.toNat + 32 ≤ (s.dmaCh c.val).addr.toNat ∨ (s.dmaCh c.val).addr.toNat + 4 ≤ d.next.toNat)) ∧ bit1 (fetchDesc s d.next.toNat).w0.toNat 31 = 1 ∧ s.descBad (fetchDesc s d.next.toNat) = false) ∧
    (∃ (c : Fin 32) (d : Desc) (s : State), s.dma.length = 32 ∧ s.dmaState c.val = dActive ∧ (s.dmaCh c.val).desc = some d ∧ (s.dmaCh c.val).await = false ∧ s.drillOn (4 + c.val) = true ∧ s.closing = false ∧ (s.inst (4 + c.val)).queue.length < 8) ∧
    (∃ (c : Fin 32) (s : State), ((s.dmaState c.val ≠ dActive ∨ (s.dmaCh c.val).desc = none ∨ (s.dmaCh c.val).await = true))) ∧
    (∃ (c : Fin 32) (moved : Nat) (addr : W64) (write : Bool) (cause : DmaCause) (d : Desc) (s : State), s.dma.length = 32 ∧ s.dmaState c.val = dActive ∧ (s.dmaCh c.val).desc = some d ∧ (s.dmaCh c.val).await = false) :=
  ⟨⟨(up), by decide +kernel⟩,
    ⟨(3), (oneDesc.1), (running), by decide +kernel⟩,
    ⟨(3), (chained.1), (runChain), by decide +kernel⟩,
    ⟨(3), (oneDesc.1), (running.put (F.DRILL_BIND_EN 7) 1), by decide +kernel⟩,
    ⟨(3), (up), by decide +kernel⟩,
    ⟨(3), (7), (0xE8100055), (true), (.ecc), (oneDesc.1), (running), by decide +kernel⟩⟩

theorem test_RecorderAndDma_37_to_42 :
    (∃ (c : Fin 32) (moved : Nat) (addr : W64) (write : Bool) (cause : DmaCause) (s : State), ((s.dmaState c.val ≠ dActive ∨ (s.dmaCh c.val).desc = none ∨ (s.dmaCh c.val).await = true))) ∧
    (∃ (c : Fin 32) (moved : Nat) (ack : Bool) (s : State), s.dmaState c.val = dQueued) ∧
    (∃ (c : Fin 32) (moved : Nat) (d : Desc) (s : State), s.dma.length = 32 ∧ s.dmaState c.val = dActive ∧ (s.dmaCh c.val).desc = some d ∧ (s.dmaCh c.val).await = false) ∧
    (∃ (c : Fin 32) (moved : Nat) (d : Desc) (s : State), s.dma.length = 32 ∧ s.dmaState c.val = dActive ∧ (s.dmaCh c.val).desc = some d ∧ (s.dmaCh c.val).await = false) ∧
    (∃ (c : Fin 32) (moved : Nat) (ack : Bool) (s : State), s.dma.length = 32 ∧ s.dmaState c.val = dActive ∧ (((s.dmaCh c.val).desc = none ∨ (s.dmaCh c.val).await = true))) ∧
    (∃ (c : Fin 32) (moved : Nat) (ack : Bool) (s : State), ((s.dmaState c.val = dIdle ∨ s.dmaState c.val = dHalted))) :=
  ⟨⟨(3), (7), (0), (false), (.gated), (up), by decide +kernel⟩,
    ⟨(3), (9), (true), (up.put (F.DMA_CHSTAT_STATE 3) 1), by decide +kernel⟩,
    ⟨(3), (9), (oneDesc.1), (running), by decide +kernel⟩,
    ⟨(3), (9), (oneDesc.1), (running), by decide +kernel⟩,
    ⟨(3), (9), (true), ({ running with dma := setNth running.dma 3 ⟨0xE8100200, some oneDesc.1, 0, 0xE8100200, 0, 0, true⟩ }), by decide +kernel⟩,
    ⟨(3), (9), (true), (up), by decide +kernel⟩⟩

theorem test_RecorderAndDma_43_to_46 :
    (∃ (c : Fin 32) (s : State), s.dmaState c.val = dHalted) ∧
    (∃ (c : Fin 32) (s : State), s.dmaState c.val ≠ dHalted) ∧
    (∃ r s q, admitted? (.dmaStatus r) s = some q) ∧
    (∃ r s q, admitted? (.dmaRecover r) s = some q ∧ s.dmaState (tn q.tlvs 0x1001) = dHalted) :=
  ⟨⟨(3), (up.put (F.DMA_CHSTAT_STATE 3) 3), by decide +kernel⟩,
    ⟨(3), (up), by decide +kernel⟩,
    ⟨(rq [tlv 0x1001 [3]]), (running), ((admitted? (.dmaStatus (rq [tlv 0x1001 [3]])) (running)).getD q0), admit_ok (by decide +kernel)⟩,
    ⟨(rq [tlv 0x1001 [31]]), (up.put (F.DMA_CHSTAT_STATE 31) 3), ((admitted? (.dmaRecover (rq [tlv 0x1001 [31]])) (up.put (F.DMA_CHSTAT_STATE 31) 3)).getD q0), admit_ok (by decide +kernel), by decide +kernel⟩⟩

theorem test_UniversalIo_0_to_5 :
    (∃ (n : Fin 16) (x : UioSample) (s : State), n.val < s.uio.length ∧ s.blkOn 18 = true ∧ s.uioMode n.val ∈ [1, 2, 3, 4] ∧ uioFault (s.uioMode n.val) x = (false, false, false) ∧ s.get (F.UIO_STAT_OPEN n.val) + s.get (F.UIO_STAT_SHORT n.val) + s.get (F.UIO_STAT_OVERRANGE n.val) = 0) ∧
    (∃ (n : Fin 16) (x : UioSample) (op : Bool) (sh : Bool) (ov : Bool) (s : State), n.val < s.uio.length ∧ s.blkOn 18 = true ∧ s.uioMode n.val ∈ [2, 3] ∧ uioFault (s.uioMode n.val) x = (op, sh, ov) ∧ (op || sh || ov) = true ∧ s.get (F.UIO_STAT_OPEN n.val) + s.get (F.UIO_STAT_SHORT n.val) + s.get (F.UIO_STAT_OVERRANGE n.val) = 0) ∧
    (∃ (n : Fin 16) (x : UioSample) (s : State), n.val < s.uio.length ∧ s.blkOn 18 = true ∧ s.uioMode n.val ∈ [2, 3] ∧ uioFault (s.uioMode n.val) x = (false, false, false) ∧ s.get (F.UIO_STAT_OPEN n.val) + s.get (F.UIO_STAT_SHORT n.val) + s.get (F.UIO_STAT_OVERRANGE n.val) > 0) ∧
    (∃ (n : Fin 16) (x : UioSample) (s : State), n.val < s.uio.length ∧ s.blkOn 18 = true ∧ s.uioMode n.val = 5 ∧ ((s.get (F.UIO_STAT_COLD n.val) = 1 ∨ s.get (F.UIO_CFG_FILT n.val) = 0)) ∧ s.get (F.UIO_STAT_OPEN n.val) + s.get (F.UIO_STAT_SHORT n.val) + s.get (F.UIO_STAT_OVERRANGE n.val) = 0) ∧
    (∃ (n : Fin 16) (x : UioSample) (s : State), n.val < s.uio.length ∧ s.blkOn 18 = true ∧ s.uioMode n.val = 5 ∧ s.get (F.UIO_STAT_COLD n.val) = 0 ∧ s.get (F.UIO_CFG_FILT n.val) ≠ 0 ∧ (s.uioCh n.val).cand = none ∧ diLevel (s.uioCh n.val).level x.mv ≠ (s.uioCh n.val).level ∧ s.get (F.UIO_STAT_OPEN n.val) + s.get (F.UIO_STAT_SHORT n.val) + s.get (F.UIO_STAT_OVERRANGE n.val) = 0) ∧
    (∃ (n : Fin 16) (x : UioSample) (b : Bool) (since : Nat) (s : State), n.val < s.uio.length ∧ s.blkOn 18 = true ∧ s.uioMode n.val = 5 ∧ s.get (F.UIO_STAT_COLD n.val) = 0 ∧ (s.uioCh n.val).cand = some (b, since) ∧ s.clk - since ≥ filtNs (s.get (F.UIO_CFG_FILT n.val)) ∧ diLevel (s.uioCh n.val).level x.mv ≠ (s.uioCh n.val).level ∧ s.get (F.UIO_STAT_OPEN n.val) + s.get (F.UIO_STAT_SHORT n.val) + s.get (F.UIO_STAT_OVERRANGE n.val) = 0) :=
  ⟨⟨(3), (⟨0x41200000, 1000000, 0⟩), (ain 3 2), by decide +kernel⟩,
    ⟨(3), (⟨7, 2000001, 0⟩), (true), (false), (false), (ain 3 3), by decide +kernel⟩,
    ⟨(3), (⟨7, 2000000, 0⟩), ((ain 3 3).put (F.UIO_STAT_OPEN 3) 1), by decide +kernel⟩,
    ⟨(3), (⟨7, 0, 7000⟩), (din.put (F.UIO_STAT_COLD 3) 0), by decide +kernel⟩,
    ⟨(3), (⟨7, 0, 7000⟩), (sets din [(F.UIO_STAT_COLD 3, 0), (F.UIO_CFG_FILT 3, 10)]), by decide +kernel⟩,
    ⟨(3), (⟨7, 0, 7000⟩), (true), (0), ((State.setUio { sets din [(F.UIO_STAT_COLD 3, 0), (F.UIO_CFG_FILT 3, 1)] with clk := 100000 } 3 fun c => { c with cand := some (true, 0) })), by decide +kernel⟩⟩

theorem test_UniversalIo_6_to_11 :
    (∃ (n : Fin 16) (x : UioSample) (s : State), n.val < s.uio.length ∧ s.blkOn 18 = true ∧ s.uioMode n.val = 6 ∧ s.get (F.UIO_STAT_OPEN n.val) + s.get (F.UIO_STAT_SHORT n.val) + s.get (F.UIO_STAT_OVERRANGE n.val) = 0) ∧
    (∃ (n : Fin 16) (x : UioSample) (s : State), ((s.uioMode n.val = 0 ∨ uioIsOut (s.uioMode n.val) = true ∨ s.blkOn 18 = false))) ∧
    (∃ (n : Fin 16) (s : State), n.val < s.uio.length ∧ s.blkOn 18 = true ∧ s.uioMode n.val = 6) ∧
    (∃ (n : Fin 16) (s : State), ((s.uioMode n.val ≠ 6 ∨ s.blkOn 18 = false))) ∧
    (∃ (mv : BitVec 16) (lost : Bool) (s : State), s.blkOn 18 = true ∧ lost = (if s.get F.UIO_GSTAT_NOFLD = 1 then decide (mv.toNat ≤ 17000) else decide (mv.toNat < 17000)) ∧ b2n lost ≠ s.get F.UIO_GSTAT_NOFLD) ∧
    (∃ (mv : BitVec 16) (s : State), ((s.blkOn 18 = false ∨ s.get F.UIO_GSTAT_NOFLD = 0 ∧ 17000 ≤ mv.toNat ∨ s.get F.UIO_GSTAT_NOFLD = 1 ∧ mv.toNat ≤ 17000))) :=
  ⟨⟨(3), (⟨7, 0, 7000⟩), ((ain 3 6).setUio 3 fun c => { c with edges := [5, 4] }), by decide +kernel⟩,
    ⟨(0), (⟨7, 0, 0⟩), (up.put (F.UIO_CFG_MODE 0) 7), by decide +kernel⟩,
    ⟨(3), (ain 3 6), by decide +kernel⟩,
    ⟨(0), (up), by decide +kernel⟩,
    ⟨(17001), (false), (sets up [(F.UIO_CFG_MODE 1, 7), (F.UIO_GSTAT_NOFLD, 1)]), by decide +kernel⟩,
    ⟨(17000), (up.put F.UIO_GSTAT_NOFLD 1), by decide +kernel⟩⟩

theorem test_UniversalIo_12_to_17 :
    (∃ (n : Fin 16) (s : State), uioIsOut (s.uioMode n.val) = true ∧ s.blkOn 18 = true) ∧
    (∃ (n : Fin 16) (s : State), ((uioIsOut (s.uioMode n.val) = false ∨ s.blkOn 18 = false))) ∧
    (∃ (n : Fin 16) (x : Nat) (s : State), n.val < s.uio.length ∧ s.blkOn 18 = true ∧ s.uioMode n.val = 8 ∧ (s.uioCh n.val).limAt = some x ∧ (s.uioCh n.val).off = none) ∧
    (∃ (n : Fin 16) (s : State), ((s.uioMode n.val ≠ 8 ∨ s.blkOn 18 = false ∨ (s.uioCh n.val).limAt = none ∨ (s.uioCh n.val).off.isSome = true))) ∧
    (∃ (n : Fin 16) (x : Nat) (s : State), n.val < s.uio.length ∧ (s.uioCh n.val).off = some x) ∧
    (∃ (n : Fin 16) (s : State), (s.uioCh n.val).off = none) :=
  ⟨⟨(4), (up.put (F.UIO_CFG_MODE 4) 8), by decide +kernel⟩,
    ⟨(4), (up), by decide +kernel⟩,
    ⟨(4), (5), ((sets up [(F.UIO_CFG_MODE 4, 8), (F.UIO_STAT_OVERLOAD 4, 1)]).setUio 4 fun c => { c with limAt := some 5 }), by decide +kernel⟩,
    ⟨(4), (up), by decide +kernel⟩,
    ⟨(4), (5), ((sets up [(F.UIO_CFG_MODE 4, 8), (F.UIO_STAT_OVERLOAD 4, 1)]).setUio 4 fun c => { c with off := some 5 }), by decide +kernel⟩,
    ⟨(4), (up), by decide +kernel⟩⟩

theorem test_UniversalIo_18_to_23 :
    (∃ r s q, admitted? (.uioCfg r) s = some q ∧ (((bitsOf (beAt (tv q.tlvs 0x1202) 0 4) 31 28) = s.uioMode (tn q.tlvs 0x1201) ∨ s.thermalNames (tn q.tlvs 0x1201) = false ∧ ((s.uioCh (tn q.tlvs 0x1201)).obj = 0 ∨ uioFits (bitsOf (beAt (tv q.tlvs 0x1202) 0 4) 31 28) (s.typOf (s.uioCh (tn q.tlvs 0x1201)).obj) (((s.obj? (s.uioCh (tn q.tlvs 0x1201)).obj).map Obj.count).getD 0) = true)))) ∧
    (∃ r s q, admitted? (.uioCfg r) s = some q ∧ (bitsOf (beAt (tv q.tlvs 0x1202) 0 4) 31 28) ≠ s.uioMode (tn q.tlvs 0x1201) ∧ ((s.thermalNames (tn q.tlvs 0x1201) = true ∨ (s.uioCh (tn q.tlvs 0x1201)).obj ≠ 0 ∧ uioFits (bitsOf (beAt (tv q.tlvs 0x1202) 0 4) 31 28) (s.typOf (s.uioCh (tn q.tlvs 0x1201)).obj) (((s.obj? (s.uioCh (tn q.tlvs 0x1201)).obj).map Obj.count).getD 0) = false))) ∧
    (∃ r s q, admitted? (.uioAssign r) s = some q ∧ s.uio.length = 16 ∧ (addrObj (tAddr q.tlvs)) = 0) ∧
    (∃ r s q, admitted? (.uioAssign r) s = some q ∧ s.uio.length = 16 ∧ (addrObj (tAddr q.tlvs)) ≠ 0 ∧ (s.uioCh (tn q.tlvs 0x1201)).obj = 0 ∧ s.uioOfObj (addrObj (tAddr q.tlvs)) = none) ∧
    (∃ r s q, admitted? (.uioAssign r) s = some q ∧ (addrObj (tAddr q.tlvs)) ≠ 0 ∧ (((s.uioCh (tn q.tlvs 0x1201)).obj ≠ 0 ∨ (s.uioOfObj (addrObj (tAddr q.tlvs))).isSome = true))) ∧
    (∃ r s q, admitted? (.uioStatus r) s = some q) :=
  ⟨⟨(rq [tlv 0x1201 [3], tlv 0x1202 (natBE 4 0x40000000 ++ natBE 4 3000)]), ((ain 3 3).put F.LEDGER_MODE_CUR 0), ((admitted? (.uioCfg (rq [tlv 0x1201 [3], tlv 0x1202 (natBE 4 0x40000000 ++ natBE 4 3000)])) ((ain 3 3).put F.LEDGER_MODE_CUR 0)).getD q0), admit_ok (by decide +kernel), by decide +kernel⟩,
    ⟨(rq [tlv 0x1201 [3], tlv 0x1202 (natBE 4 0x50000000 ++ natBE 4 3000)]), (sets (ain 3 3) [(F.LEDGER_MODE_CUR, 0)]), ((admitted? (.uioCfg (rq [tlv 0x1201 [3], tlv 0x1202 (natBE 4 0x50000000 ++ natBE 4 3000)])) (sets (ain 3 3) [(F.LEDGER_MODE_CUR, 0)])).getD q0), admit_ok (by decide +kernel), by decide +kernel⟩,
    ⟨(rq [tlv 0x1201 [3], tlv 0x0001 (natBE 8 0x0400000000000000)]), (ain 3 3), ((admitted? (.uioAssign (rq [tlv 0x1201 [3], tlv 0x0001 (natBE 8 0x0400000000000000)])) (ain 3 3)).getD q0), admit_ok (by decide +kernel), by decide +kernel⟩,
    ⟨(rq [tlv 0x1201 [3], tlv 0x0001 (natBE 8 0x0400000000000500)]), ((ain 3 3).setUio 3 fun c => { c with obj := 0 }), ((admitted? (.uioAssign (rq [tlv 0x1201 [3], tlv 0x0001 (natBE 8 0x0400000000000500)])) ((ain 3 3).setUio 3 fun c => { c with obj := 0 })).getD q0), admit_ok (by decide +kernel), by decide +kernel⟩,
    ⟨(rq [tlv 0x1201 [3], tlv 0x0001 (natBE 8 0x0400000000000500)]), (ain 3 3), ((admitted? (.uioAssign (rq [tlv 0x1201 [3], tlv 0x0001 (natBE 8 0x0400000000000500)])) (ain 3 3)).getD q0), admit_ok (by decide +kernel), by decide +kernel⟩,
    ⟨(rq [tlv 0x1201 [3]]), (ain 3 3), ((admitted? (.uioStatus (rq [tlv 0x1201 [3]])) (ain 3 3)).getD q0), admit_ok (by decide +kernel)⟩⟩

end

end Sys2Proof.Tests
end

section
/-! Accesses to the register window at offsets without a register (R12): what a read answers and what a write leaves, in terms of
the block's power domain (R16) and of the register map. -/

namespace Sys2Proof.Machine

/-! ### Reads and writes of the window, no domain being off there -/

/-- A read notes nothing in OFFACC where no domain is off. -/
theorem State.accessed_of_on {s : State} {off : Nat} (hon : s.offDomain? off = none) : s.accessed off = s := by
  simp [State.accessed, hon]

theorem State.liveWord_of_unoccupied {s : State} {off : Nat} (hfree : regAt off = none) : s.liveWord off = 0 := by
  simp [State.liveWord, hfree]

/-- An unoccupied offset reads 0 whether its block is on (R12) or off (R16). -/
theorem State.regWord_of_unoccupied {s : State} {off : Nat} (hfree : regAt off = none) : s.regWord off = 0 := by
  simp [State.regWord, State.liveWord_of_unoccupied hfree]

theorem State.regRead_of_unoccupied {s : State} {off : Nat} (hfree : regAt off = none) (hon : s.offDomain? off = none) :
    s.regRead off = s.emit (.reg off 0) := by
  rw [State.regRead, State.accessed_of_on hon, State.regWord_of_unoccupied hfree]

theorem State.regWrite_of_unoccupied {s : State} {off : Nat} (v : Nat) (hfree : regAt off = none) (hon : s.offDomain? off = none) :
    s.regWrite off v = s := by
  simp [State.regWrite, hon, hfree]

/-! ### The two commands at an aligned offset -/

theorem exec_registerWrite_of_aligned {off : BitVec 24} (v : W32) (s : State) (ha : off.toNat % 4 = 0) :
    exec (.registerWrite off v) s = .next (s.regWrite off.toNat v.toNat) := by
  change execRegisterWrite off v s = _
  rw [execRegisterWrite, if_pos ha]

/-- OFF_DOMAIN_ACCESS reads the aligned word that holds the offset, which is the offset itself where it is aligned. -/
theorem exec_offDomainAccess_read_of_aligned {off : BitVec 24} (v : W32) (s : State) (ha : off.toNat % 4 = 0) :
    exec (.offDomainAccess off false v) s = .next (s.regRead off.toNat) := by
  have word_eq : off.toNat / 4 * 4 = off.toNat := Nat.div_mul_cancel (Nat.dvd_of_mod_eq_zero ha)
  change execOffDomainAccess off false v s = _
  simp [execOffDomainAccess, word_eq]

/-- Settles O7: where no domain is off the access reaches the register map, which holds nothing at the offset. -/
theorem unoccupiedOffsetsReadZero : Obligations.UnoccupiedOffsetsReadZero := by
  intro off v s ha hfree hon
  constructor
  · rw [exec_offDomainAccess_read_of_aligned v s ha, State.regRead_of_unoccupied hfree hon]
  · rw [exec_registerWrite_of_aligned v s ha, State.regWrite_of_unoccupied v.toNat hfree hon]

end Sys2Proof.Machine
end

section
/-! Accesses to a block whose power domain is off (R16): what setting one bit of OFFACC does to SYS_PD_STAT, and what the
window's read and write come to there. -/

namespace Sys2Proof.Machine

/-! ### Single bits of a word -/

theorem bit1_eq_toNat_testBit (w k : Nat) : bit1 w k = (w.testBit k).toNat := by
  rw [bit1, bitsOf_eq_div_mod, Nat.toNat_testBit, Nat.add_sub_cancel_left, pow_one]

theorem bit1_mod_two_pow_of_lt (w : Nat) {k n : Nat} (hk : k < n) : bit1 (w % 2 ^ n) k = bit1 w k := by
  simp [bit1_eq_toNat_testBit, Nat.testBit_mod_two_pow, hk]

/-- Setting one bit of a word leaves every other bit. -/
theorem bit1_putBits_one (w d k : Nat) : bit1 (putBits w d d 1) k = if k = d then 1 else bit1 w k := by
  rcases Nat.lt_trichotomy k d with below | rfl | above
  · rw [if_neg below.ne]
    exact bitsOf_putBits_below _ _ _ _ _ _ below
  · simp [bit1, bitsOf_putBits_same]
  · rw [if_neg above.ne']
    exact bitsOf_putBits_above _ _ _ _ _ _ d.le_succ above

/-! ### OFFACC -/

/-- The access sets its domain's bit of OFFACC and leaves the other domains' bits. -/
theorem State.offAccess_offacc_bit (s : State) (d : Nat) {k : Nat} (hk : k < 11) :
    bit1 ((s.offAccess d).get F.SYS_PD_STAT_OFFACC) k = if k = d then 1 else bit1 (s.get F.SYS_PD_STAT_OFFACC) k := by
  rw [State.offAccess, State.get_put_same _ F.SYS_PD_STAT_OFFACC _ (by decide) (by decide)]
  exact (bit1_mod_two_pow_of_lt _ hk).trans (bit1_putBits_one _ d k)

theorem State.offAccess_on (s : State) (d : Nat) : (s.offAccess d).get F.SYS_PD_STAT_ON = s.get F.SYS_PD_STAT_ON :=
  State.get_put_other s F.SYS_PD_STAT_OFFACC F.SYS_PD_STAT_ON _ (by decide) (by decide) (by decide)

@[simp] theorem State.offAccess_out (s : State) (d : Nat) : (s.offAccess d).out = s.out := rfl

theorem only_offAccess (s : State) (d : Nat) : ChangesOnly [] (regsAt [Reg.SYS_PD_STAT]) s (s.offAccess d) := only_put _ _ _

/-! ### Reads and writes of the window, a domain being off there -/

theorem State.accessed_of_off {s : State} {off d : Nat} (hoff : s.offDomain? off = some d) : s.accessed off = s.offAccess d := by
  simp [State.accessed, hoff]

theorem State.regWord_of_off {s : State} {off d : Nat} (hoff : s.offDomain? off = some d) : s.regWord off = 0 := by
  simp [State.regWord, hoff]

theorem State.regRead_of_off {s : State} {off d : Nat} (hoff : s.offDomain? off = some d) :
    s.regRead off = (s.offAccess d).emit (.reg off 0) := by
  rw [State.regRead, State.accessed_of_off hoff, State.regWord_of_off hoff]

theorem State.regWrite_of_off {s : State} {off d : Nat} (v : Nat) (hoff : s.offDomain? off = some d) :
    s.regWrite off v = s.offAccess d := by
  simp [State.regWrite, hoff]

/-! ### OFF_DOMAIN_ACCESS -/

theorem exec_offDomainAccess_read (off : BitVec 24) (v : W32) (s : State) :
    exec (.offDomainAccess off false v) s = .next (s.regRead (off.toNat / 4 * 4)) := rfl

theorem exec_offDomainAccess_write (off : BitVec 24) (v : W32) (s : State) :
    exec (.offDomainAccess off true v) s = .next (s.regWrite (off.toNat / 4 * 4) v.toNat) := rfl

/-- Settles O10: a write comes to the setting of OFFACC alone, and a read to the same with the answer 0. -/
theorem accessToADomainThatIsOff : Obligations.AccessToADomainThatIsOff := by
  intro off write v d s hoff
  have offacc_bits := fun k (hk : k < 11) => s.offAccess_offacc_bit d hk
  have flagged : ChangesOnly [.out] (regsAt [Reg.SYS_PD_STAT]) s (s.offAccess d) :=
    (only_offAccess s d).mono (List.nil_subset _) fun _ => id
  cases write with
  | true =>
    refine ⟨s.offAccess d, ?_, offacc_bits, s.offAccess_on d, s.offAccess_out d, flagged⟩
    rw [exec_offDomainAccess_write, State.regWrite_of_off v.toNat hoff]
  | false =>
    refine ⟨(s.offAccess d).emit (.reg (off.toNat / 4 * 4) 0), ?_, offacc_bits, s.offAccess_on d, rfl, ?_⟩
    · rw [exec_offDomainAccess_read, State.regRead_of_off hoff]
    · exact flagged.trans ((only_emit _ _).mono (List.Subset.refl _) (noReg_le _))

end Sys2Proof.Machine
end

section
/-! Narrow and unaligned accesses (R94): what the access notes in SYS_BUS_STAT and SYS_BUS_ADDR, and what an access that is
discarded or that reads single byte lanes comes to. -/

namespace Sys2Proof.Machine

/-! ### Widths and registers -/

theorem widthBytes_eq_four_iff {w : Width} : widthBytes w = 4 ↔ w = .w32 := by
  cases w <;> decide

theorem regsAt_mono {l m : List Nat} (h : l ⊆ m) : ∀ off, regsAt l off = true → regsAt m off = true := by
  simpa [regsAt] using fun off => @h off

/-- A write to one register leaves the fields of every other. -/
theorem State.get_wr_other (s : State) (off v : Nat) {f : Fld} (hf : f.off ≠ off) : (s.wr off v).get f = s.get f := by
  rw [State.get, State.get, State.rd_wr_other _ _ _ _ hf]

/-! ### OFFACC, whether the block is on or off -/

theorem only_accessed (s : State) (off : Nat) : ChangesOnly [] (regsAt [Reg.SYS_PD_STAT]) s (s.accessed off) := by
  rcases hoff : s.offDomain? off with _ | d
  · rw [State.accessed_of_on hoff]
    exact .refl _ _ _
  · rw [State.accessed_of_off hoff]
    exact only_offAccess s d

theorem State.accessed_out (s : State) (off : Nat) : (s.accessed off).out = s.out :=
  (only_accessed s off).1 .out (by decide)

/-- Noting an access in OFFACC leaves the fields of every register but SYS_PD_STAT. -/
theorem State.get_accessed (s : State) (off : Nat) {f : Fld} (hf : f.off ≠ Reg.SYS_PD_STAT) :
    (s.accessed off).get f = s.get f := by
  rw [State.get, State.get, (only_accessed s off).2 f.off (by simpa [regsAt] using hf)]

/-! ### SYS_BUS_STAT and SYS_BUS_ADDR -/

/-- SYS_BUS_STAT after an access: NARROW and UNALIGNED are only ever set, each on its own (R94). -/
def State.busFlags (s : State) (narrow unal : Bool) : State :=
  let t := if narrow then s.put F.SYS_BUS_STAT_NARROW 1 else s
  if unal then t.put F.SYS_BUS_STAT_UNALIGNED 1 else t

theorem State.busNote_of_noted {s : State} {off : Nat} {narrow unal : Bool} (h : (narrow || unal) = true) :
    s.busNote off narrow unal = (s.busFlags narrow unal).wr Reg.SYS_BUS_ADDR off := if_pos h

theorem State.busNote_nothing (s : State) (off : Nat) : s.busNote off false false = s := rfl

theorem State.busFlags_narrow (s : State) (narrow unal : Bool) :
    (s.busFlags narrow unal).get F.SYS_BUS_STAT_NARROW = if narrow then 1 else s.get F.SYS_BUS_STAT_NARROW := by
  have raised (t : State) : (t.put F.SYS_BUS_STAT_NARROW 1).get F.SYS_BUS_STAT_NARROW = 1 :=
    State.get_put_same _ _ _ (by decide) (by decide)
  have kept (t : State) : (t.put F.SYS_BUS_STAT_UNALIGNED 1).get F.SYS_BUS_STAT_NARROW = t.get F.SYS_BUS_STAT_NARROW :=
    State.get_put_other _ _ _ _ (by decide) (by decide) (by decide)
  cases narrow <;> cases unal <;> simp [State.busFlags, raised, kept]

theorem State.busFlags_unaligned (s : State) (narrow unal : Bool) :
    (s.busFlags narrow unal).get F.SYS_BUS_STAT_UNALIGNED = if unal then 1 else s.get F.SYS_BUS_STAT_UNALIGNED := by
  have raised (t : State) : (t.put F.SYS_BUS_STAT_UNALIGNED 1).get F.SYS_BUS_STAT_UNALIGNED = 1 :=
    State.get_put_same _ _ _ (by decide) (by decide)
  have kept (t : State) : (t.put F.SYS_BUS_STAT_NARROW 1).get F.SYS_BUS_STAT_UNALIGNED = t.get F.SYS_BUS_STAT_UNALIGNED :=
    State.get_put_other _ _ _ _ (by decide) (by decide) (by decide)
  cases narrow <;> cases unal <;> simp [State.busFlags, raised, kept]

theorem only_busFlags (s : State) (narrow unal : Bool) :
    ChangesOnly [] (regsAt [Reg.SYS_BUS_STAT]) s (s.busFlags narrow unal) := by
  have flag (t : State) (b : Bool) (f : Fld) (hf : f.off = Reg.SYS_BUS_STAT) :
      ChangesOnly [] (regsAt [Reg.SYS_BUS_STAT]) t (if b then t.put f 1 else t) := by
    cases b with
    | false => exact .refl _ _ _
    | true => exact hf ▸ only_put t f 1
  exact (flag s narrow F.SYS_BUS_STAT_NARROW rfl).trans (flag _ unal F.SYS_BUS_STAT_UNALIGNED rfl)

/-! ### Discarded accesses -/

/-- The state that a discarded access leaves, before a read is answered: OFFACC where the block is off, the bits of SYS_BUS_STAT, and
the offset in SYS_BUS_ADDR. -/
def State.busDiscard (s : State) (off : Nat) (narrow unal : Bool) : State :=
  ((s.accessed (off / 4 * 4)).busFlags narrow unal).wr Reg.SYS_BUS_ADDR off

theorem State.busDiscard_narrow (s : State) (off : Nat) (narrow unal : Bool) :
    (s.busDiscard off narrow unal).get F.SYS_BUS_STAT_NARROW = if narrow then 1 else s.get F.SYS_BUS_STAT_NARROW := by
  rw [State.busDiscard, State.get_wr_other _ _ _ (by decide), State.busFlags_narrow, State.get_accessed _ _ (by decide)]

theorem State.busDiscard_unaligned (s : State) (off : Nat) (narrow unal : Bool) :
    (s.busDiscard off narrow unal).get F.SYS_BUS_STAT_UNALIGNED = if unal then 1 else s.get F.SYS_BUS_STAT_UNALIGNED := by
  rw [State.busDiscard, State.get_wr_other _ _ _ (by decide), State.busFlags_unaligned, State.get_accessed _ _ (by decide)]

theorem State.busDiscard_addr (s : State) (off : BitVec 24) (narrow unal : Bool) :
    (s.busDiscard off.toNat narrow unal).rd Reg.SYS_BUS_ADDR = off.toNat := by
  rw [State.busDiscard, State.rd_wr_same]
  exact Nat.mod_eq_of_lt (off.isLt.trans (by decide))

theorem only_busDiscard (s : State) (off : Nat) (narrow unal : Bool) :
    ChangesOnly [] (regsAt [Reg.SYS_BUS_STAT, Reg.SYS_BUS_ADDR, Reg.SYS_PD_STAT]) s (s.busDiscard off narrow unal) := by
  have offacc := only_accessed s (off / 4 * 4)
  have flags := only_busFlags (s.accessed (off / 4 * 4)) narrow unal
  have addr := only_wr ((s.accessed (off / 4 * 4)).busFlags narrow unal) Reg.SYS_BUS_ADDR off
  exact ((offacc.mono (List.Subset.refl _) (regsAt_mono (by decide))).trans
    (flags.mono (List.Subset.refl _) (regsAt_mono (by decide)))).trans
    (addr.mono (List.Subset.refl _) (regsAt_mono (by decide)))

theorem State.busDiscard_out (s : State) (off : Nat) (narrow unal : Bool) : (s.busDiscard off narrow unal).out = s.out :=
  (only_busDiscard s off narrow unal).1 .out (by decide)

/-! ### UNALIGNED_ACCESS -/

theorem exec_unalignedAccess (off : BitVec 24) (w : Width) (write : Bool) (v : W32) (s : State) :
    exec (.unalignedAccess off w write v) s = .next (s.busAccess off.toNat w write v.toNat) := rfl

/-- A narrow write, aligned or not, and an unaligned write of 32 bits are discarded (R94). -/
theorem State.busAccess_write_of_discarded {s : State} {off : Nat} {w : Width} (v : Nat)
    (h : w ≠ .w32 ∨ off % widthBytes w ≠ 0) :
    s.busAccess off w true v = s.busDiscard off (w != .w32) (off % widthBytes w != 0) := by
  have not_served : ¬ (w = .w32 ∧ off % widthBytes w = 0) := not_and_or.mpr h
  have noted : (w != .w32 || off % widthBytes w != 0) = true := by simpa using h
  rw [State.busDiscard, ← State.busNote_of_noted noted]
  simp [State.busAccess, widthBytes_eq_four_iff, not_served, bne, beq_eq_decide]

/-- An unaligned read of any width is discarded and answers 0 (R94). -/
theorem State.busAccess_read_of_unaligned {s : State} {off : Nat} {w : Width} (v : Nat) (h : off % widthBytes w ≠ 0) :
    s.busAccess off w false v = (s.busDiscard off false true).emit (.reg off 0) := by
  rw [State.busDiscard, ← State.busNote_of_noted rfl]
  simp [State.busAccess, h]

/-- An aligned read of 8 or 16 bits answers the addressed byte lanes and notes nothing but OFFACC (R94, R16). -/
theorem State.busAccess_read_of_narrow {s : State} {off : Nat} {w : Width} (v : Nat) (hw : w ≠ .w32)
    (ha : off % widthBytes w = 0) :
    s.busAccess off w false v = (s.accessed (off / 4 * 4)).emit
      (.reg off (s.regWord (off / 4 * 4) / 2 ^ (8 * (off % 4)) % 2 ^ (8 * widthBytes w))) := by
  have lanes : 8 * (off % 4 + widthBytes w) - 1 + 1 - 8 * (off % 4) = 8 * widthBytes w := by
    have : 0 < widthBytes w := by cases w <;> decide
    omega
  simp [State.busAccess, ha, widthBytes_eq_four_iff, hw, State.busNote_nothing, bitsOf_eq_div_mod, lanes]

/-- Settles O11: a narrow write and an unaligned access come to the notes of R94 alone, with the answer 0 for a read; an aligned narrow
read comes to its byte lanes and OFFACC. -/
theorem narrowAndUnalignedAccesses : Obligations.NarrowAndUnalignedAccesses := by
  constructor
  · intro off w write v s discarded
    have narrow_bit := s.busDiscard_narrow off.toNat
    have unaligned_bit := s.busDiscard_unaligned off.toNat
    have noted (narrow unal : Bool) : ChangesOnly [.out] (regsAt [Reg.SYS_BUS_STAT, Reg.SYS_BUS_ADDR, Reg.SYS_PD_STAT]) s
        (s.busDiscard off.toNat narrow unal) := (only_busDiscard s _ _ _).mono (List.nil_subset _) fun _ => id
    cases write with
    | true =>
      refine ⟨s.busDiscard off.toNat (w != .w32) (off.toNat % widthBytes w != 0), ?_, ?_, ?_,
        s.busDiscard_addr off _ _, s.busDiscard_out _ _ _, noted _ _⟩
      · rw [exec_unalignedAccess, State.busAccess_write_of_discarded _ (by simpa using discarded)]
      · simp [narrow_bit]
      · simp [unaligned_bit]
    | false =>
      have unaligned : off.toNat % widthBytes w ≠ 0 := by simpa using discarded
      refine ⟨(s.busDiscard off.toNat false true).emit (.reg off.toNat 0), ?_, ?_, ?_, s.busDiscard_addr off _ _, ?_, ?_⟩
      · rw [exec_unalignedAccess, State.busAccess_read_of_unaligned _ unaligned]
      · exact (narrow_bit _ _).trans (by simp)
      · exact (unaligned_bit _ _).trans (by simp [unaligned])
      · exact congrArg (_ :: ·) (s.busDiscard_out _ _ _)
      · exact (noted _ _).trans ((only_emit _ _).mono (List.Subset.refl _) (noReg_le _))
  · intro off w v s hw ha
    refine ⟨_, by rw [exec_unalignedAccess, State.busAccess_read_of_narrow _ hw ha],
      congrArg (_ :: ·) (s.accessed_out _), ?_⟩
    have offacc : ChangesOnly [.out] (regsAt [Reg.SYS_PD_STAT]) s (s.accessed (off.toNat / 4 * 4)) :=
      (only_accessed s _).mono (List.nil_subset _) fun _ => id
    exact offacc.trans ((only_emit _ _).mono (List.Subset.refl _) (noReg_le _))

end Sys2Proof.Machine
end
